-- ==== Sys2Proof/Word.lean ====
section
/-! DEFINITION. The word types of the loom: bytes, 64-bit registers, and keys of the sparse maps. -/

namespace Sys2Proof

/-- A byte (R3). -/
abbrev Byte := BitVec 8

/-- A 64-bit register or general register (R7, R186). -/
abbrev Word := BitVec 64

/-- Key of a sparse map: a kind or block number, then an instance number. -/
abbrev Key := Nat × Nat

end Sys2Proof
end

