-- ==== Sys2Proof/Machine/Bits.lean ====
section
/-! DEFINITION. Bit fields and byte order (R3): the helpers every decoder and encoder of the model uses. -/

namespace Sys2Proof

/-- Bits [lo + w − 1 : lo] of a number (R3). -/
def bitsAt (x lo w : Nat) : Nat := (x >>> lo) % 2 ^ w

/-- Bit n of a number. -/
def bitAt (x n : Nat) : Bool := x.testBit n

/-- A number made of the bits [lo + w − 1 : lo], placed at lo. -/
def bitsPut (v lo w : Nat) : Nat := (v % 2 ^ w) <<< lo

/-- Little-endian value of a byte list (R3). -/
def leVal : List Byte → Nat
  | [] => 0
  | b :: bs => b.toNat + 256 * leVal bs

/-- The n little-endian bytes of a value (R3). -/
def leBytes : Nat → Nat → List Byte
  | 0, _ => []
  | n + 1, v => BitVec.ofNat 8 v :: leBytes n (v / 256)

/-- The first `n` bytes of a list; bytes beyond its end read 0. -/
def takePad : Nat → List Byte → List Byte
  | 0, _ => []
  | n + 1, [] => 0 :: takePad n []
  | n + 1, b :: t => b :: takePad n t

/-- `n` bytes of a list from offset `o`; bytes beyond the end read 0. -/
def bytesAt (l : List Byte) (o n : Nat) : List Byte := takePad n (l.drop o)

/-- The first `n` entries, `k` bytes each, of a table. -/
def chunks (k : Nat) : Nat → List Byte → List (List Byte)
  | 0, _ => []
  | n + 1, l => takePad k l :: chunks k n (l.drop k)

/-- The `n` entries, `k` bytes each, of a table at offset `o`. -/
def entriesAt (l : List Byte) (o k n : Nat) : List (List Byte) := chunks k n (l.drop o)

/-- Little-endian field of `n` bytes at offset `o` of a byte list. -/
def leAt (l : List Byte) (o n : Nat) : Nat := leVal (bytesAt l o n)

/-- All `n` bytes at offset `o` are zero. -/
def zeroAt (l : List Byte) (o n : Nat) : Bool := (bytesAt l o n).all (fun b => decide (b = 0))

/-- Rounds up to a multiple of `k`. -/
def roundUp (x k : Nat) : Nat := (x + k - 1) / k * k

/-- Two's complement value of the low w bits. -/
def sval (w x : Nat) : Int := if bitAt x (w - 1) then (bitsAt x 0 w : Int) - (2 ^ w : Nat) else (bitsAt x 0 w : Int)

/-- Sum modulo 2^64 of an address and a signed offset. -/
def addOff (a : Nat) (d : Int) : Nat := ((a : Int) + d).emod (2 ^ 64 : Nat) |>.toNat

/-- A counter of `w` bits saturates at all ones (R8). -/
def satAdd (w x n : Nat) : Nat := min (x + n) (2 ^ w - 1)

/-- Population count of the low `w` bits. -/
def popCount (x : Nat) : Nat → Nat
  | 0 => 0
  | w + 1 => popCount x w + (if bitAt x w then 1 else 0)

/-- Indices of the set bits among the low `w`. -/
def setBits (x w : Nat) : List Nat := (List.range w).filter (fun i => bitAt x i)

end Sys2Proof
end

