-- ==== Sys2Proof/Machine/Image.lean ====
section
/-! DEFINITION. The loom image as decoded data (02, sections of R33). The structure in force is one value of
`Image`; nothing but step 5 of the boot replaces it (R43, R44). Owners are numbered 0 to 7 for partitions and 8
for OWNER (codes 0x80 of the image). -/

namespace Sys2Proof

/-- One entry of a partition's window table (R84). -/
structure Window where
  wbase : Nat
  wsize : Nat
  target : Nat
  kind : Nat
  rights : Nat
  deriving DecidableEq, Repr

/-- One memory channel of STRUCTURE.MEM (R408). -/
structure MemCh where
  present : Nat
  ranks : Nat
  rate : Nat
  cap : Nat
  deriving DecidableEq, Repr

/-- A PARTITION section (R33). -/
structure Part where
  num : Nat
  hostPort : Nat
  maxWidth : Nat
  maxRate : Nat
  dispatchDepth : Nat
  vectors : Nat
  ringBase : Nat
  ringCount : Nat
  dramBase : Nat
  dramSize : Nat
  prefill : Nat
  windows : List Window
  deriving DecidableEq, Repr

/-- A LINK entry: link number and width (R24). -/
structure LinkE where
  link : Nat
  width : Nat
  deriving DecidableEq, Repr

/-- A slot right (R20, R85). -/
structure Right where
  slot : Nat
  part : Nat
  rights : Nat
  deriving DecidableEq, Repr

/-- A partition's budgets (R59). -/
structure Bud where
  cycles : Nat
  mover : Nat
  host : Nat
  stage : Nat
  deriving DecidableEq, Repr

/-- A FRAME entry (R59). -/
structure FrameE where
  link : Nat
  part : Nat
  slots : Nat
  deriving DecidableEq, Repr

/-- A MAP entry of the IRQ section (R327, R329); `owner` 8 is the wings. -/
structure MapE where
  owner : Nat
  group : Nat
  fast : Bool
  source : Nat
  vector : Nat
  deriving DecidableEq, Repr

/-- An ENTRY of the FAULT section (R36, R360). -/
structure FaultE where
  src : Nat
  n : Nat
  minor : Nat
  severe : Nat
  w : Nat
  deriving DecidableEq, Repr

/-- An owner routine (ROUTINE section); `addr` is where step 6 places its code in the owner stage reserve. -/
structure Rout where
  index : Nat
  callers : Nat
  rflags : Nat
  maxTicks : Nat
  code : List Byte
  addr : Nat
  deriving DecidableEq, Repr

/-- A CORE entry of FIRMWARE. -/
structure CoreE where
  start : Nat
  entry : Nat
  deriving DecidableEq, Repr

/-- The decoded loom image. -/
structure Image where
  seq : Nat
  svn : Nat
  tickPeriod : Nat
  tickSource : Nat
  tickOut : Nat
  ownerStage : Nat
  qdepth : Nat
  ownerDram : Nat
  mem : List MemCh
  spindleMap : List Nat
  moverMap : List Nat
  parts : List Part
  links : List LinkE
  rights : List Right
  budget : List Bud
  frames : List FrameE
  policy : List Nat
  holdoff : List Nat
  whold : List Nat
  maps : List MapE
  faults : List FaultE
  routines : List Rout
  cores : List CoreE
  loadArea : List Byte
  rekeyLog2 : Nat
  anchors : List (List Byte)
  cert : List Byte
  rootHash : List Byte
  deriving DecidableEq, Repr

/-- No image: nothing is enabled, no link exists (before step 5; log entry 3). -/
def Image.empty : Image :=
  { seq := 0, svn := 0, tickPeriod := 0, tickSource := 0, tickOut := 0, ownerStage := 0, qdepth := 0, ownerDram := 0,
    mem := [], spindleMap := [], moverMap := [], parts := [], links := [], rights := [], budget := [],
    frames := [], policy := [], holdoff := [], whold := [], maps := [], faults := [], routines := [],
    cores := [], loadArea := [], rekeyLog2 := 0, anchors := [], cert := [], rootHash := [] }

/-- The section of an enabled partition (R18). -/
def Image.part (im : Image) (p : Nat) : Option Part := im.parts.find? (fun q => q.num == p)

/-- A partition is enabled when the image holds a PARTITION section for it (R18). -/
def Image.enabled (im : Image) (p : Nat) : Bool := (im.part p).isSome

/-- The enabled partitions in ascending order. -/
def Image.enabledParts (im : Image) : List Nat := im.parts.map (·.num)

/-- A number of a partition's section, 0 when it is not enabled. -/
def Image.partN (im : Image) (p : Nat) (g : Part → Nat) : Nat :=
  match im.part p with
  | some q => g q
  | none => 0

/-- The window table of a partition. -/
def Image.windows (im : Image) (p : Nat) : List Window :=
  match im.part p with
  | some q => q.windows
  | none => []

/-- The partition bound to a host port (R16). -/
def Image.partOfPort (im : Image) (h : Nat) : Option Nat :=
  (im.parts.find? (fun q => q.hostPort == h)).map (·.num)

/-- Width of a link; 0 when the number is not a link (R24). -/
def Image.linkWidth (im : Image) (l : Nat) : Nat :=
  match im.links.find? (fun e => e.link == l) with
  | some e => e.width
  | none => 0

/-- Whether a lane number is the number of a link (R24). -/
def isLink (im : Image) (l : Nat) : Bool := im.linkWidth l != 0

/-- The link whose lanes include a lane. -/
def Image.linkOfLane (im : Image) (lane : Nat) : Option Nat :=
  (im.links.find? (fun e => decide (e.link ≤ lane ∧ lane < e.link + e.width))).map (·.link)

/-- The links of an octet. -/
def Image.linksOfOctet (im : Image) (o : Nat) : List Nat :=
  (im.links.filter (fun e => e.link / 8 == o)).map (·.link)

/-- Whether an octet holds a link. -/
def Image.octetUsed (im : Image) (o : Nat) : Bool := !(im.linksOfOctet o).isEmpty

/-- The right entry of a slot address (R20). -/
def Image.right (im : Image) (slot : Nat) : Option Right := im.rights.find? (fun r => r.slot == slot)

/-- The partitions that hold a slot on a link (R364 "L"). -/
def Image.partsOnLink (im : Image) (l : Nat) : List Nat :=
  (List.range 8).filter (fun p => im.rights.any (fun r => r.part == p && r.slot / 256 == l))

/-- Owner code of a spindle: partition, 8 OWNER, 9 unused (R19). -/
def Image.spindleOwner (im : Image) (i : Nat) : Nat := im.spindleMap.getD i 9

/-- Owner code of a mover channel: partition, 8 OWNER, 9 unallotted (R19). -/
def Image.chanOwner (im : Image) (n : Nat) : Nat := im.moverMap.getD n 9

/-- The MAP entry that names a source of an owner (R329). -/
def Image.mapOf (im : Image) (o src : Nat) : Option MapE :=
  im.maps.find? (fun e => e.owner == o && e.source == src)

/-- The FAULT entry of a source. -/
def Image.faultOf (im : Image) (f : Nat) : Option FaultE := im.faults.find? (fun e => e.src == f)

/-- The routine with an index (R93). -/
def Image.routine (im : Image) (i : Nat) : Option Rout := im.routines.find? (fun r => r.index == i)

/-- Installed local DRAM in bytes: the capacities of the present channels. -/
def Image.dramTotal (im : Image) : Nat := (im.mem.map (fun c => c.cap * 2 ^ 30)).sum

/-- Bytes usable for data: installed capacity less its 1/8 tag region (R39). -/
def Image.dramData (im : Image) : Nat := im.dramTotal / 8 * 7

/-- Bytes of the owner region of local DRAM. -/
def Image.ownerDramBytes (im : Image) : Nat := im.ownerDram * 2 ^ 20

/-- Bytes of the owner stage reserve. -/
def Image.ownerStageBytes (im : Image) : Nat := im.ownerStage * 2 ^ 20

/-- Budgets of a partition as the image gives them. -/
def Image.bud (im : Image) (p : Nat) : Bud := im.budget.getD p ⟨0, 0, 0, 0⟩

/-- Image SLOTS of a (link, partition) pair: the FRAME entries that name it, 0 without one (R61). -/
def Image.frameSlots (im : Image) (l p : Nat) : Nat :=
  ((im.frames.filter (fun e => e.link == l && e.part == p)).map (·.slots)).sum

/-- Late-mask policy of a partition: EXACT when true (R338). -/
def Image.exact (im : Image) (p : Nat) : Bool := bitAt (im.policy.getD p 0) 0

/-- Stray-acknowledge policy of a partition: FAULT when true (R339). -/
def Image.strayFault (im : Image) (p : Nat) : Bool := bitAt (im.policy.getD p 0) 1

/-- Hold-off of a group in sc (R336); owner 8 is the wings. -/
def Image.holdoffSc (im : Image) (o g : Nat) : Nat :=
  64 * (if o = 8 then im.whold.getD g 0 else im.holdoff.getD (256 * o + g) 0)

/-- Spindles a partition holds. -/
def Image.spindlesOf (im : Image) (p : Nat) : List Nat :=
  (List.range 128).filter (fun i => im.spindleOwner i == p)

/-- Effective tick period of R52. -/
def Image.pEff (im : Image) : Nat := if im.tickSource = 0 then im.tickPeriod else im.tickPeriod - 64

/-- Longest tick of R52. -/
def Image.pMax (im : Image) : Nat := if im.tickSource = 0 then im.tickPeriod else im.tickPeriod + 64

/-- Instance b of a fault source f (R359, R364); `none` when f is no source. -/
def faultInst (f : Nat) : Option Nat :=
  if f < 0x4 then some 0
  else if f < 0x8 then none
  else if f = 0x8 then some 1
  else if f < 0xB then some 2
  else if f < 0x10 then none
  else if f < 0x18 then some 3
  else if f = 0x18 then some 4
  else if f < 0x20 then none
  else if f < 0x30 then some (5 + f % 8)
  else if f < 0x50 then some (13 + (f - 0x30) / 4)
  else if f < 0x5C then some 21
  else if f < 0x68 then none
  else if f < 0x6E then some 22
  else if f < 0x70 then none
  else if f < 0x73 then some 23
  else if f = 0x73 then some 24
  else if f = 0x74 then some 25
  else if f < 0x78 then none
  else if f < 0x81 then some 26
  else if f < 0x90 then none
  else if f < 0x98 then some 27
  else if f < 0xA0 then none
  else if f < 0xA3 then some 28
  else if f < 0xB0 then none
  else if f < 0xD0 then (if f % 8 < 5 then some (29 + (f - 0xB0) / 8) else none)
  else if f < 0x130 then (if f % 8 < 5 then some (33 + (f - 0xD0) / 8) else none)
  else none

/-- Whom a fault source reports to, besides the wings (R364). -/
inductive Report where
  | wings | part | link | all
  deriving DecidableEq, Repr

/-- The "To" column of R364. -/
def faultTo (f : Nat) : Report :=
  if f = 0x2 ∨ f = 0x8 ∨ f = 0x11 ∨ f = 0x12 ∨ f = 0x17 then .all
  else if f = 0x16 ∨ (0x20 ≤ f ∧ f < 0x58) ∨ f = 0x5A ∨ (0x78 ≤ f ∧ f < 0x80) ∨ (0x90 ≤ f ∧ f < 0x98) then .part
  else if f = 0x74 then .link
  else if 0xB0 ≤ f ∧ f < 0xD0 then (if f % 8 = 2 ∨ f % 8 = 4 then .wings else .part)
  else if 0xD0 ≤ f then (if f % 8 = 1 ∨ f % 8 = 4 then .wings else .link)
  else .wings

/-- The fault sources in ascending order (R364). -/
def faultList : List Nat := (List.range 0x130).filter (fun f => (faultInst f).isSome)

/-- Index of a source within its instance, in ascending f (FLT_STS.SEEN). -/
def faultLocal (f : Nat) : Nat :=
  ((List.range f).filter (fun g => (faultInst g).isSome && faultInst g == faultInst f)).length

/-- Instances without a block reset (R362). -/
def noBlockReset (b : Nat) : Bool :=
  b = 0 || b = 1 || b = 2 || b = 4 || (decide (5 ≤ b) && decide (b ≤ 21)) || b = 23 || b = 25

/-- The partition a per-partition fault source is tied to by its number (R364), when it is. -/
def faultTied (im : Image) (f : Nat) : Option Nat :=
  if 0x20 ≤ f ∧ f < 0x30 then im.partOfPort (f % 8)
  else if 0x30 ≤ f ∧ f < 0x50 then im.partOfPort ((f - 0x30) / 4)
  else if 0x50 ≤ f ∧ f < 0x58 then some (f - 0x50)
  else if 0x78 ≤ f ∧ f < 0x80 then some (f - 0x78)
  else if 0x90 ≤ f ∧ f < 0x98 then some (f - 0x90)
  else none

/-- Whether partition source 0x1000 + f exists for partition p (R364). -/
def faultPartSource (im : Image) (f p : Nat) : Bool :=
  im.enabled p && (faultInst f).isSome &&
  (match faultTo f with
   | .wings => false
   | .all => true
   | .link => true
   | .part =>
     if 0x20 ≤ f ∧ f < 0x58 ∨ 0x78 ≤ f ∧ f < 0x80 ∨ 0x90 ≤ f ∧ f < 0x98 then faultTied im f == some p else true)

/-- Whether a numbered source exists for an owner (R327); owner 8 is the wings. -/
def srcExists (im : Image) (o src : Nat) : Bool :=
  if src < 0x800 then im.chanOwner (src / 2) == o
  else if o = 8 then
    src == 0x800 || src == 0x801 || src == 0x802 || (decide (0x804 ≤ src) && decide (src < 0x80C)) ||
    (decide (0x810 ≤ src) && decide (src < 0x820)) ||
    (decide (0x900 ≤ src) && decide (src < 0x960) && decide (im.linkWidth (src - 0x900) ≠ 0)) ||
    (decide (0x980 ≤ src) && decide (src < 0x9E0) && decide (im.linkWidth (src - 0x980) ≠ 0)) ||
    (decide (0x1000 ≤ src) && (faultInst (src - 0x1000)).isSome)
  else
    im.enabled o && (src == 0x800 || src == 0x801 || src == 0x802 || src == 0x803 ||
      (decide (0x1000 ≤ src) && faultPartSource im (src - 0x1000) o))

/-- STAGE_QUOTA of the image, in 64 KiB units (R87). -/
def Image.stageQuota (im : Image) (p : Nat) : Nat := (im.bud p).stage

end Sys2Proof
end

