-- ==== Sys2Proof/Machine/Sparse.lean ====
section
/-! DEFINITION. Sparse maps in one canonical form (keys strictly rising), and byte memories built the same
way on `Host.Cell`. Equal maps are equal data. -/

namespace Sys2Proof

/-- A sparse map: pairs of a key and a value, keys strictly rising. -/
abbrev Map (V : Type) := List (Key × V)

/-- The order of keys: lexicographic. -/
def keyLt (a b : Key) : Bool := decide (a.1 < b.1) || (decide (a.1 = b.1) && decide (a.2 < b.2))

variable {V : Type}

/-- The value stored at a key. -/
def mapFind (l : Map V) (k : Key) : Option V :=
  match l with
  | [] => none
  | e :: t => if e.1 = k then some e.2 else mapFind t k

/-- Removes a key. -/
def mapDel (l : Map V) (k : Key) : Map V := l.filter (fun e => decide (e.1 ≠ k))

/-- Inserts before the first greater key. -/
def mapIns (l : Map V) (k : Key) (v : V) : Map V :=
  match l with
  | [] => [(k, v)]
  | e :: t => if keyLt k e.1 then (k, v) :: e :: t else e :: mapIns t k v

/-- Stores a value at a key. -/
def mapPut (l : Map V) (k : Key) (v : V) : Map V := mapIns (mapDel l k) k v

/-- The value at a key of a map whose unlisted keys hold `d`. -/
def mapGet (d : V) (l : Map V) (k : Key) : V := (mapFind l k).getD d

/-- Canonical form of a map: keys strictly rising. -/
def mapWf (l : Map V) : Bool := decide (l.Pairwise (fun a b => keyLt a.1 b.1 = true))

/-- A byte memory whose unlisted bytes read 0 (stage buffer and scratch: R41, R87, R203). -/
abbrev Mem := List Host.Cell

/-- Reads one byte. -/
def memGet (l : Mem) (a : Nat) : Byte :=
  match l with
  | [] => 0
  | e :: t => if e.1 = a then e.2 else memGet t a

/-- Inserts a byte before the first greater address. -/
def memIns (l : Mem) (a : Nat) (b : Byte) : Mem :=
  match l with
  | [] => [(a, b)]
  | e :: t => if a < e.1 then (a, b) :: e :: t else e :: memIns t a b

/-- Removes an address. -/
def memDel (l : Mem) (a : Nat) : Mem := l.filter (fun e => decide (e.1 ≠ a))

/-- Writes one byte; writing 0 removes the entry. -/
def memSet (l : Mem) (a : Nat) (b : Byte) : Mem :=
  if b = 0 then memDel l a else memIns (memDel l a) a b

/-- Reads `n` bytes from `a` upward. -/
def memRead (l : Mem) (a : Nat) : Nat → List Byte
  | 0 => []
  | n + 1 => memGet l a :: memRead l (a + 1) n

/-- Writes bytes from `a` upward. -/
def memWrite (l : Mem) (a : Nat) : List Byte → Mem
  | [] => l
  | b :: bs => memWrite (memSet l a b) (a + 1) bs

/-- Clears a range of bytes. -/
def memClear (l : Mem) (a n : Nat) : Mem := l.filter (fun e => decide (¬ (a ≤ e.1 ∧ e.1 < a + n)))

/-- Canonical form of a memory: addresses strictly rising, no entry equal to the unlisted value. -/
def memWf (l : Mem) : Bool :=
  decide (l.Pairwise (fun a b => a.1 < b.1)) && l.all (fun e => decide (e.2 ≠ 0))

end Sys2Proof
end

