-- ==== Sys2Proof/Machine/Types.lean ====
section
/-! DEFINITION. The pieces of state that the rules give outside the register tables, as plain data: cues and
scripts, rings, mover work, links, host ports, processors, security, memory, mailboxes, pins. -/

namespace Sys2Proof

/-- A cue as its four words (04, "The cue"). -/
structure Cue where
  w0 : Nat
  w1 : Nat
  w2 : Nat
  w3 : Nat
  deriving DecidableEq, Repr, Inhabited

/-- An answer to a read, whoever gives it: data, or the error that R169, R109 and R262 name. -/
inductive RdRes where
  | data (b : List Byte)
  | ur | ca | timeout | poisoned | fabric | dram | stage | scratch
  deriving DecidableEq, Repr

/-- An answer to a write. -/
inductive WrRes where
  | ok | ur | fabric | dram
  deriving DecidableEq, Repr

/-- Result of the checks of R82 on one cue: not all made yet, passed, or the recorded failure (R83). -/
inductive Chk where
  | pending | pass | fail (status detail : Nat)
  deriving DecidableEq, Repr

/-- A cue in a prompt window (R111). `sn` is the model's own serial number of the cue within its script, `ptr` its
window address or inline index; `list` holds the indirect entries read so far (address, length); `rhs` its rehearsal number; `rq` a queued REHEARSE; `wunits` the 64 KiB
units of write space taken (R410); `newBuf` the numbered buffer it allocated (R87); `sent` whether its CMD or REHEARSE
flit has started; `lost` whether a rehearsal of it ended other than by GO, so that it goes out as a CMD (R123). -/
structure PCue where
  sn : Nat
  ptr : Nat
  inl : Bool
  cue : Cue
  chk : Chk
  list : List (Nat × Nat)
  listOut : Bool
  rhs : Option Nat
  rq : Bool
  runits : Nat
  wunits : Nat
  newBuf : Option Nat
  sent : Bool
  lost : Bool
  deriving DecidableEq, Repr

/-- States of a script (R75). -/
inductive SSt where
  | queued | running | waiting | held | ended
  deriving DecidableEq, Repr

/-- What a WAITING script waits for (R75). -/
inductive WaitFor where
  | nothing
  | stage (units : Nat)
  | cue (mode arg ticks start : Nat)
  | entry
  deriving DecidableEq, Repr

/-- A numbered stage buffer of a script (R87). -/
structure SBuf where
  buf : Nat
  units : Nat
  granted : Bool
  data : Mem
  deriving DecidableEq, Repr

/-- Progress of the youngest confirmed cue of a script (R89, R104, R245): whether it may execute and has begun; the
statuses (DEVSTAT, XFER) of its device and of a relay's destination; data of its rehearsal that no transfer has
taken yet; the bytes moved and answered; whether its data work is complete; `fin` is a terminal cause (status, detail) whose entry waits for the cue's data writes (R153), `cleared` says
that a CLEAR came after the device status (R105). -/
structure CueRun where
  confirmed : Bool
  begun : Bool
  status : Option (Nat × Nat)
  status2 : Option (Nat × Nat)
  kept : List Byte
  moved : Nat
  itemDone : Bool
  fin : Option (Nat × Nat)
  cleared : Bool
  deriving DecidableEq, Repr, Inhabited

/-- A cue that a read has fetched and that awaits its decode, or the failure of that read (R71, R113). -/
structure Fetched where
  ptr : Nat
  cue : Cue
  chk : Chk
  deriving DecidableEq, Repr

/-- A script (R75, R107). `ahead` holds fetched cues that await their decode (R113). `done` is the cue or group that completed
last, with the bytes moved and SIDE, while its intermediate entry is held (R105, R155), and `last` says that it was the
script's last. -/
structure Script where
  part : Nat
  tag : Nat
  ring : Nat
  inl : Bool
  first : Nat
  icues : List Cue
  payload : List Byte
  st : SSt
  thread : Option Nat
  parked : Option Nat
  resume : Bool
  loops : Nat
  dev : Nat
  side : Bool
  attn : Bool
  skipped : Bool
  win : List PCue
  next : Option (Nat × Bool)
  fetching : Bool
  ahead : List Fetched
  sn : Nat
  bufs : List SBuf
  wait : WaitFor
  run : CueRun
  halting : Bool
  done : Option (List PCue × Nat × Bool)
  last : Bool
  deriving DecidableEq, Repr

/-- States of a rehearsal (R122). -/
inductive RhsSt where
  | out | confirmed | committed | striking
  deriving DecidableEq, Repr

/-- A rehearsal (R119 to R130). `hold` is its space in 64 KiB units, `data` the bytes held or not yet passed on, `recv`
the bytes received, `grant` the data credit left, `timer` the start of its response timer and
`limit` the response limit of its slot; `abortTick` holds the edge count at its ABORT, `stuck` says that its ABORT stayed
unanswered (R247). -/
structure Rehearsal where
  part : Nat
  tag : Nat
  sn : Nat
  slot : Nat
  st : RhsSt
  detached : Bool
  hold : Nat
  total : Nat
  data : List Byte
  last : Bool
  start : Nat
  freeAt : Option Nat
  recv : Nat
  grant : Nat
  timer : Nat
  abortTick : Option Nat
  limit : Nat
  stuck : Bool
  deriving DecidableEq, Repr

/-- A status entry (R107, R152), before its phase bit. `since` is the cycle in which it could start to wait for the port
(R272), and `d3` marks one that was held for D3hot (R268, R332). -/
structure Entry where
  status : Nat
  detail : Nat
  dev : Nat
  sflags : Nat
  ring : Nat
  residual : Nat
  tag : Nat
  ptr : Nat
  user : Nat
  term : Bool
  ofScript : Bool
  since : Nat := 0
  d3 : Bool := false
  deriving DecidableEq, Repr

/-- A copy of one ring unit (R142, R147): whether it was published when read, and whether the read was issued since the
published TAIL last crossed the end of the ring. -/
structure RCopy where
  unit : Nat
  data : List Byte
  pub : Bool
  fresh : Bool
  deriving DecidableEq, Repr

/-- State of one ring beside its registers (R142 to R158): copies of units; the inline window, its written mark, and the
window contents taken for published entries by unit; the read outstanding (first unit, units, end of the published
part, whether TAIL has not crossed to unit 0 since); whether taking waits for a doorbell (R158, R412); the lap phase at HEAD; units of a status ring in use; held and
staged entries. -/
structure RingSt where
  pre : List RCopy
  win : List Byte
  mark : Bool
  inlq : List (Nat × List Byte)
  fetch : Option (Nat × Nat × Nat × Bool)
  blocked : Bool
  headLap : Bool
  used : Nat
  held : List Entry
  staged : List Entry
  deriving DecidableEq, Repr

/-- A ring right after its enable or a reset. -/
def RingSt.init : RingSt := ⟨[], List.replicate 64 0, false, [], none, false, true, 0, [], []⟩

/-- A place of data: where a transfer reads or writes (R164, R181). -/
inductive Space where
  | host (part : Nat) | dram | ownerStage | scratch (proc : Nat) | buf (part tag b : Nat) | link (l tag : Nat)
  | pattern (v : Nat) | discard | given
  deriving DecidableEq, Repr

/-- A range of a place. -/
structure Range where
  sp : Space
  addr : Nat
  len : Nat
  deriving DecidableEq, Repr

/-- One element of a transfer (R176): where it stands. -/
inductive ElSt where
  | reading | writing | posted | ok | bad
  deriving DecidableEq, Repr

/-- An element: its number on its engine, its offset in the transfer, its length and state, and the bytes it carries to
write space or relay space (R410, R90). -/
structure Elem where
  id : Nat
  off : Nat
  len : Nat
  st : ElSt
  data : List Byte
  deriving DecidableEq, Repr

/-- Who posted a transfer. -/
inductive XferOf where
  | chan (n idx : Nat)
  | send (x rec ev : Nat)
  | cue (part tag sn : Nat)
  | gone
  deriving DecidableEq, Repr

/-- A transfer that an engine moves in elements: a descriptor, a SEND, or a data cue's work (R176 to R181).
`pos` counts the bytes whose elements have started, `avail` those that may start; `late` lists the bytes, as offset and length, that
are not read before the cue is confirmed (R114); `flush` is 0 not needed, 1 to
issue, 2 outstanding, 3 answered, and `flushId` numbers the flush read on its engine; `err` is ERR of R169, first detected. -/
structure Xfer where
  owner : Nat
  asPart : Nat
  who : XferOf
  src : List Range
  dst : List Range
  data : List Byte
  total : Nat
  avail : Nat
  pos : Nat
  elems : List Elem
  flush : Nat
  flushId : Nat
  lastHost : Option (Nat × Nat)
  err : Nat
  errBy : Nat
  stopped : Bool
  late : List (Nat × Nat)
  deriving DecidableEq, Repr

/-- A descriptor in progress on a channel (R166 to R172): index, words, transfer, the ERR of a failed check, whether the
channel stopped it, its outstanding status writeback (its number on the engine, or none inside for one to host memory),
whether its NEXT has been followed, and whether the descriptor there was found to have FENCE (R172). -/
structure DescRun where
  idx : Nat
  w : List Nat
  x : Xfer
  chkErr : Nat
  abort : Bool
  wb : Option (Option Nat)
  moved : Bool
  fence : Bool
  deriving DecidableEq, Repr

/-- A numbered channel beside its registers (R170 to R175). `reading` is a read that
is outstanding, `reread` a read of word 3 after a KICK, `trigFrom` the tick edge and `armedAt` the cycle that the trigger counts
from. -/
structure ChanSt where
  descs : List DescRun
  reading : Option Nat
  reread : Bool
  trigFrom : Nat
  armedAt : Nat
  deriving DecidableEq, Repr

/-- An idle channel. -/
def ChanSt.init : ChanSt := ⟨[], none, false, 0, 0⟩

/-- Purpose of an outstanding read of host memory (R262); `flush` names the flush read of a transfer by its number, `dead` is
a read of a discarded cue (R126), `lost` one that a block reset of the movers left without work (R183), `rtn` the flush read of
a routine's end (R204). -/
inductive Purp where
  | cues (tag : Nat) | ilist (tag : Nat) | ring (r : Nat) | elem (e q id : Nat) | flush (e q id : Nat)
  | desc (n : Nat) | load (x : Nat) | dead (tag : Nat) | lost | rtn (x : Nat)
  deriving DecidableEq, Repr

/-- A MemRd of a port (R262): its tag, the work it serves, when it was issued, its address and length, the completion
timeout in force at its issue, the bytes that came in completions so far, and its answer while other MemRd of the same request
still lack theirs (R176). -/
structure NP where
  tag : Nat
  purp : Purp
  issued : Nat
  addr : Nat
  len : Nat
  cto : Nat
  got : List Byte
  res : Option RdRes
  deriving DecidableEq, Repr

/-- A request the loom wants to issue on a port, or what is left of one after its first TLPs (R262), with the bytes that it has
still to charge, none for owner work (R60). `wb` names the channel whose status writeback a write is (R180). -/
inductive Tlp where
  | rd (purp : Purp) (addr len : Nat) (cost : Option Nat)
  | wr (addr : Nat) (data : List Byte) (cost : Option Nat) (wb : Option Nat)
  deriving DecidableEq, Repr

/-- A committed MSI-X message (R333). -/
structure Msg where
  part : Nat
  vector : Nat
  fast : Bool
  ready : Nat
  deriving DecidableEq, Repr

/-- The PCIe function and port of one partition (R255 to R272). A waiting request or message carries the cycle in which it
arose (R270). `bars` holds what the host wrote to the six BAR registers, `poisoned` AER's Poisoned TLP Received (R261), and
`lastTlp` the last cycle with a TLP in either direction (R271). `awakeAt` is the cycle from which commits go on after the last
entry held for D3hot was written (R342). `drain` is the cycle in which the first cause of a running
drain was recognised; `drainOwn` and `drainCfg` say whether the owner's command or a PCIe event is among its causes. -/
structure HostSt where
  bme : Bool
  mse : Bool
  msixEn : Bool
  fmask : Bool
  mps : Nat
  mrrs : Nat
  cto : Nat
  tag10 : Bool
  pmeEn : Bool
  pmeStatus : Bool
  pmeAt : Nat
  ltrEn : Bool
  aspmL1 : Bool
  np : List NP
  quar : List (Nat × Nat)
  waitq : List (Nat × Tlp)
  msgq : List Msg
  bars : List Nat
  poisoned : Bool
  d3q : List (Nat × Entry)
  awakeAt : Nat
  drain : Option Nat
  drainOwn : Bool
  drainCfg : Bool
  up : Bool
  lastTlp : Nat
  deriving DecidableEq, Repr

/-- PCIe defaults after a fundamental reset (log entry 9). -/
def HostSt.init : HostSt :=
  { bme := false, mse := false, msixEn := false, fmask := false, mps := 128, mrrs := 512, cto := 0, tag10 := false,
    pmeEn := false, pmeStatus := false, pmeAt := 0, ltrEn := false, aspmL1 := false, np := [], quar := [],
    waitq := [], msgq := [], bars := List.replicate 6 0, poisoned := false, d3q := [], awakeAt := 0, drain := none, drainOwn := false, drainCfg := false, up := false, lastTlp := 0 }

/-- A slot's entry in the current CAP (R242). -/
structure Cap where
  slot : Nat
  present : Bool
  rehearse : Bool
  limit : Nat
  deriving DecidableEq, Repr

/-- A frame waiting on the command virtual lane (R229). `cmd` and `rehearse` name the script; `go` and `strike`
hold a mask of one partition (R233). -/
inductive QFrame where
  | cmd (part tag : Nat) (dst : Bool)
  | rehearse (part tag sn : Nat)
  | go (part mask : Nat)
  | strike (part mask : Nat)
  | abort (part ctag slot : Nat)
  | clear (part slot : Nat)
  deriving DecidableEq, Repr

/-- A command outstanding on a link (R244 to R248). `limit` is the response limit of its slot when its flit started (R242, R247);
`abortTick` holds the edge count at its ABORT, `stuck` says that its ABORT stayed unanswered (R247). -/
structure Cmd where
  ctag : Nat
  part : Nat
  tag : Nat
  dst : Bool
  opc : Nat
  slot : Nat
  count : Nat
  sent : Nat
  sentLast : Bool
  recv : Nat
  last : Bool
  grant : Nat
  timer : Nat
  dead : Bool
  clear : Bool
  abortTick : Option Nat
  limit : Nat
  stuck : Bool
  deriving DecidableEq, Repr

/-- A flit the loom sent and keeps for replay (R227): `raw` is its 256 bytes as transmitted. -/
structure TxFlit where
  seq : Nat
  type : Nat
  vl : Nat
  close : Bool
  kphase : Bool
  area : List Byte
  raw : List Byte
  deriving DecidableEq, Repr

/-- A frame received in a GCM group that has not closed (R226); `rsv` says that a reserved header field was not 0. -/
structure RxFrame where
  type : Nat
  vl : Nat
  area : List Byte
  close : Bool
  rsv : Bool
  deriving DecidableEq, Repr

/-- What training has learnt of one lane of a cut (R220 to R222): whether a termination was found, the LANE its blocks
carry, the widths and GOOD bits of the partner, how many blocks in a row proposed what the loom proposes, and whether the
partner sent DONE. -/
structure LaneTr where
  term : Bool
  peer : Option Nat
  cap : Nat
  good : Nat
  agree : Nat
  done : Bool
  deriving DecidableEq, Repr, Inhabited

/-- The session secrets of a link (R239): keys, IVs and MAC keys of the two directions, and the salt of the next rekey. -/
structure LinkKeys where
  l2d : List Byte
  d2l : List Byte
  l2dIv : List Byte
  d2lIv : List Byte
  lFin : List Byte
  dFin : List Byte
  next : List Byte
  deriving DecidableEq, Repr, Inhabited

/-- A link beside its registers (09). `txOpen` holds the flits of the transmit group that has not closed; `txKeys` and `rxKeys`
are the secrets of each direction, `fresh` those of a rekey, and `txSwitch` says that the loom switches to them when its open
group closes (R240); `share` is the draw of the ephemeral keys while they are needed (R288); `hello` and `auth` are the messages
sent, `helloR` and `fin` those received (R239); `lanesAt` is the cycle in which lanes that hush powered down are ready (R372). -/
structure LinkSt where
  since : Nat
  backoff : Nat
  retryAt : Nat
  sessStart : Nat
  txSeq : Nat
  rxSeq : Nat
  replay : List TxFlit
  nakSeq : Option Nat
  nakCnt : Nat
  rxBad : Bool
  unacked : Nat
  unackedAt : Nat
  cr : List Nat
  crMax : List Nat
  rxCr : List Nat
  ret : List Nat
  group : List RxFrame
  txOpen : List TxFlit
  rxGroups : Nat
  kTx : Bool
  kRx : Bool
  kOld : Bool
  caps : List Cap
  cmdq : List QFrame
  cmds : List Cmd
  hs : Nat
  rxMsg : Option (Nat × Nat × List Byte)
  helloR : List Byte
  ownHeld : List (Nat × List Byte)
  rxOwed : Nat
  nakTx : Nat
  nakDue : Bool
  mgmtq : List (Nat × Nat × Bool × List Byte)
  rekeying : Bool
  lastTx : Nat
  lastRx : Nat
  trn : List LaneTr
  cutWidth : Nat
  adv : List Nat
  keyLimit : Nat
  share : Option Nat
  hello : List Byte
  auth : List Byte
  fin : List Byte
  txKeys : LinkKeys
  rxKeys : LinkKeys
  fresh : LinkKeys
  txSwitch : Bool
  lanesAt : Nat
  deriving DecidableEq, Repr

/-- A link with no session. -/
def LinkSt.init : LinkSt :=
  { since := 0, backoff := 1, retryAt := 0, sessStart := 0, txSeq := 0, rxSeq := 0, replay := [],
    nakSeq := none, nakCnt := 0, rxBad := false, unacked := 0, unackedAt := 0, cr := [0, 0, 0, 0],
    crMax := [0, 0, 0, 0], rxCr := [0, 0, 0, 0], ret := [0, 0, 0, 0], group := [], txOpen := [], rxGroups := 0,
    kTx := false, kRx := false, kOld := false, caps := [], cmdq := [], cmds := [], hs := 0, rxMsg := none,
    helloR := [], ownHeld := [], rxOwed := 0, nakTx := 0, nakDue := false, mgmtq := [], rekeying := false, lastTx := 0, lastRx := 0, trn := [],
    cutWidth := 0, adv := [0, 0, 0, 0], keyLimit := 0, share := none, hello := [], auth := [], fin := [], txKeys := default,
    rxKeys := default, fresh := default, txSwitch := false, lanesAt := 0 }

/-- The routine a thread runs (R93, R203, R212): `part` is the partition or 8, `tag` the script, `core` and `call`
the caller of a CALLR, `edge` the edge count at entry, `stored` the address of the last host store not yet flushed. -/
structure RoutCtx where
  index : Nat
  part : Nat
  tag : Nat
  core : Nat
  call : Nat
  edge : Nat
  stored : Option Nat
  deriving DecidableEq, Repr

/-- A load that awaits its answer (R185, R196). -/
structure LoadWait where
  rd : Nat
  size : Nat
  signed : Bool
  space : Nat
  addr : Nat
  deriving DecidableEq, Repr

/-- What keeps a processor from issuing (R185, R200, R201, R204, R206, R211). `ending` holds the script outcome and
CALL_RES status of a routine that has ended and awaits its SENDs (status, detail, CALL_RES status, value). -/
inductive CpuWait where
  | none
  | load (l : LoadWait)
  | ev (rd sel : Nat) (deadline : Option Nat)
  | edge (n : Nat)
  | wfi
  | ret (flushed : Bool)
  | ending (status detail res value : Nat)
  deriving DecidableEq, Repr

/-- A spindle thread or a wings core (R186). Registers are keyed by bank and number; an unlisted register reads 0. `loadDrop`,
`fetchDrop` and `listDrop` count loads, cue reads and list reads of work that is over, whose answers local memory still owes the
thread (R126, R206, R265). -/
structure Cpu where
  regs : Map Word
  pc : Nat
  ev : Nat
  ready : Nat
  wait : CpuWait
  rout : Option RoutCtx
  cr : Map Word
  running : Bool
  dbgHalt : Bool
  pend : List (Nat × Nat)
  calls : Nat
  loadDrop : Nat
  fetchDrop : Nat
  listDrop : Nat
  deriving DecidableEq, Repr

/-- A thread or core at rest, everything zero (R203, R213; log entry 7). -/
def Cpu.init : Cpu :=
  { regs := [], pc := 0, ev := 0, ready := 0, wait := .none, rout := none, cr := [], running := false,
    dbgHalt := false, pend := [], calls := 0, loadDrop := 0, fetchDrop := 0, listDrop := 0 }

/-- Where the boot stands (R41, R42): power-on reset asserted, chip reset asserted, waiting for the core PLL,
no core PLL within its limit (R29), reading a slot, verifying it, waiting for entropy at step 5, running, failed. -/
inductive BootPhase where
  | porst | rstLow | pll | stuck | read | verify | wait5 | run | failed
  deriving DecidableEq, Repr

/-- The boot and the flash controller (02). `cold` says that the boot began with PORST_N; `copy` is the slot in the stage
buffer (R274); `releaseAt` holds the cycle of each partition's RELEASE and `overdue` the partitions whose source fired;
`flashOp` is the flash command in progress; `chkSlot` a running slot check and `chkWait` one that waits for the flash; `relAt`
the cycle in which a chip reset without a pin releases (R368), and `step1At` the cycle in which step 1 began (R395). -/
structure BootSt where
  phase : BootPhase
  slot : Nat
  second : Bool
  cold : Bool
  sensed : Bool
  entropy : Bool
  step5At : Nat
  porAt : Nat
  octal : Bool
  copy : List Byte
  releaseAt : Map Nat
  overdue : Nat
  flashOp : Option (Nat × Nat × List Byte)
  chkSlot : Option Nat
  chkWait : Option Nat
  relAt : Option Nat
  step1At : Option Nat
  deriving DecidableEq, Repr

/-- The tick unit (03): latest edge and next edge; whether the capture span of the latest edge has taken its TICK_IN edge,
or has closed without one; the sampled edge that the span of the next edge has already taken; how many valid edges in a
row left OFFSET 0; the fault sources whose window has run out at the latest edge, and those already aged for the step 3 to
come (R360); the last step of R57 made at the latest edge, 0 before the first one; whether it runs (R43). -/
structure TickSt where
  edge : Nat
  next : Nat
  taken : Bool
  closed : Bool
  ahead : Option Nat
  run : Nat
  due : List Nat
  aged : List Nat
  phase : Nat
  on : Bool
  deriving DecidableEq, Repr

/-- An allocation of stage space that waits (R68): the numbered buffer of the script that asked for it, none for the write or
relay space of its confirmed cue, and its 64 KiB units. -/
structure StageReq where
  part : Nat
  tag : Nat
  buf : Option Nat
  units : Nat
  deriving DecidableEq, Repr

/-- Budgets (R59 to R68) by (kind, index), the kinds 0 spindle cycles, 1 mover bytes, 2 host-port bytes, 3 transmit and 4
receive flits, 5 the stage quota: in-force values of the tick, and those that the caps gave as the edge cycle began (R66);
remaining allowances; charges of the tick, and those from the edge cycle on that its reload deducts (R58); the latest
operation of each server, by (kind, server), with its budget's index and cost, which is carry while the server is busy
(R64); exhausted marks of the tick; the partitions whose threads wait for step 5 (R59); stage units in use by partition;
and the allocations that wait, in order. -/
structure BudSt where
  inf : Map Nat
  nextInf : Map Nat
  rem : Map Nat
  charged : Map Nat
  early : Map Nat
  last : Map (Nat × Nat)
  exhausted : Map Nat
  stopped : List Nat
  stage : Map Nat
  stageq : List StageReq
  deriving DecidableEq, Repr

/-- A mask write that has not yet taken effect (R338). -/
structure MaskW where
  due : Nat
  key : Key
  val : Nat
  deriving DecidableEq, Repr

/-- A provisional commit under EXACT (R338): partition, cycle, sources as (1 for the fast class, number), and the group whose
timer it loaded with the timer's former end. -/
structure ProvC where
  part : Nat
  cyc : Nat
  srcs : List (Nat × Nat)
  group : Option (Nat × Option Nat)
  deriving DecidableEq, Repr

/-- The interrupt controller beside its registers (13): signals by source, masks in effect and mask writes under way, hold-off
timers, the group committed last, provisional commits, the MSI-X table; `later` holds the sources of which an event or, where
the third part is true, a pulse falls in the next cycle (R327, R330); `start` holds the bits of each source that changed in
this cycle as they stood at its start, `did` the partitions that have committed in this cycle (R331, R333). -/
structure IrqSt where
  sig : Map Nat
  eff : Map Nat
  maskq : List MaskW
  hold : Map Nat
  last : Map Nat
  prov : List ProvC
  msix : Map Nat
  later : List (Nat × Nat × Bool)
  start : Map Nat
  did : List Nat
  deriving DecidableEq, Repr

/-- Reactions that act after the event that raised them (R361): a block reset, a chip reset, the issue of the status
writeback of channel c (R180), and space in the dispatch queue of partition p (R143). -/
inductive React where
  | blockReset (b core : Nat) | chipReset (f : Nat) | wbIssued (c : Nat) | serve (p : Nat)
  deriving DecidableEq, Repr

/-- Pins (15, 17): reasons FAULT_N is low, THERMTRIP_N, absent reference clocks, `perst` the host ports whose PERST_N is low, and
`calBad` the CAL balls that are open or shorted: 0 CAL_LANE_TOP, 1 CAL_LANE_BOT, 2 CAL_DDR, 3 CAL_HP (R389). -/
structure PinSt where
  faultReact : Bool
  faultBoot : Bool
  faultEntropy : Bool
  thermTrip : Bool
  hpAbsent : Nat
  onAbsent : Nat
  calBad : Nat
  perst : Nat
  warnArmed : Bool
  bscan : List Bool
  memReset : Nat
  deriving DecidableEq, Repr

end Sys2Proof
end

