-- ==== Sys2Proof/Syntax.lean ====
section
/-! DEFINITION. The commands: one constructor per row of spec/opcode_table.json. A command names the row's
operands: the register value written, the answer another agent gives, the cell errors of a DRAM line, the verdicts
of the two paths of a security decision. What the loom does with them is in `Machine/`. -/

namespace Sys2Proof

/-- A register view (R375): BAR0, BAR2 or BAR4 of a partition's function, or the owner view. -/
inductive View where
  | bar0 (p : Fin 8) | bar2 (p : Fin 8) | bar4 (p : Fin 8) | owner
  deriving DecidableEq, Repr

/-- A processor of the Spindle instruction set: a spindle thread or a wings core (R184, R207). -/
inductive Proc where
  | thread (t : Fin 512) | core (c : Fin 4)
  deriving DecidableEq, Repr

/-- What a SECDED-protected word shows when it is read (R186, R356). -/
inductive Ecc where
  | ok | corrected | uncorr
  deriving DecidableEq, Repr

/-- Outcome of a vote over three copies (R279, R280). -/
inductive Vote where
  | agree | two | three
  deriving DecidableEq, Repr

/-- How the two paths of a decision of R282 work: true for a path that gives the result the rule has, false for one
whose result a disturbance turns (R284). -/
structure Verdict where
  a : Bool
  b : Bool
  deriving DecidableEq, Repr

/-- The paths of the checks of DIE and NONCE (R282). -/
structure IdPaths where
  die : Verdict
  nonce : Verdict
  deriving DecidableEq, Repr

/-- The paths of the checks of the key and the signature (R282). -/
structure KeyPaths where
  key : Verdict
  sig : Verdict
  deriving DecidableEq, Repr

/-- The paths of the four checks of a signed owner command or a debug token (R282). -/
structure CmdPaths extends IdPaths, KeyPaths where
  deriving DecidableEq, Repr

/-- What disturbs the checks of a debug token (R282, R300): the paths of its format check and of the four others, and the
votes over the words they read. -/
structure TokenPaths where
  form : Verdict
  checks : CmdPaths
  votes : List Vote
  deriving DecidableEq, Repr

/-- The payload of a write through a function, and whether the TLP is poisoned (R261). -/
structure Payload where
  bytes : List Byte
  ep : Bool
  deriving DecidableEq, Repr

/-- One issue slot of a processor: the instruction word fetched, and the state of the words it reads (R186). -/
structure Issue where
  x : Proc
  word : BitVec 32
  fetch : Ecc
  data : Ecc
  more : List Ecc
  deriving DecidableEq, Repr

/-- What disturbs step 2 of the boot (R41): upsets of the sensed copies of the nine owner fuse words, and the paths of the
device secret check. -/
structure FuseSense where
  votes : List Vote
  secret : Verdict
  deriving DecidableEq, Repr

/-- A server of indivisible operations (R63, R64): kind 0 a spindle, 1 a mover engine, 2 one direction of a host port (twice
the partition, and 1 for reads), 3 the transmit and 4 the receive side of a link. -/
structure Server where
  kind : Fin 5
  n : Nat
  deriving DecidableEq, Repr

/-- The answer an element receives (R169, R177): of the fabric transfers that read its source, in ascending address order
(R176), or of its write. -/
inductive Ans where
  | read (l : List RdRes) | wrote (r : WrRes)
  deriving DecidableEq, Repr

/-- What the on-die ends of an element show (R169, R186): the source words, and a fabric error response of either end. -/
structure ElemEnds where
  src : Ecc
  srcBus : Bool
  dstBus : Bool
  deriving DecidableEq, Repr

/-- A requester of a mover engine (R182): a numbered channel or the sub-queue of an owner (8 OWNER). -/
inductive Req where
  | chan (c : Fin 1024) | queue (own : Fin 9)
  deriving DecidableEq, Repr

/-- The element an engine is to start: its requester, and what its ends show. -/
structure ElemStart where
  req : Req
  ends : ElemEnds
  deriving DecidableEq, Repr

/-- The completion of the flush read that its engine numbered `id` (R177). -/
structure FlushAns where
  id : Nat
  res : RdRes
  deriving DecidableEq, Repr

/-- A fabric transfer at its destination port (R11, R12): ports, owner tag (0–7, 8 OWNER), whether it writes, the address
at the destination (a stage or local address; the slot at an octet, the thread at a spindle cluster), its data or, for a read,
its length; `holder` is the partition a stage block beyond the owner reserve is allocated to, or the owner of what is
addressed in the management complex; `paths` are the two comparisons of the tag (R282). -/
structure Fabric where
  src : Fin 73
  dst : Fin 73
  tag : Fin 9
  write : Bool
  addr : BitVec 64
  data : List Byte
  len : Nat
  holder : Fin 9
  paths : Verdict
  deriving DecidableEq, Repr

/-- A received flit (R225, R226): its 256 bytes, whether its codewords were correctable, corrected symbols by
lane, the plaintext of its frame area and, when it closes a group, whether the GCM tag matches. -/
structure RxFlit where
  raw : List Byte
  fecOk : Bool
  corr : List (Nat × Nat)
  area : List Byte
  tagOk : Bool
  deriving DecidableEq, Repr

/-- A configuration request (R47, R255): a read of a dword, or a write of a field the loom acts on. -/
inductive CfgReq where
  | read (off : BitVec 12)
  | bme (b : Bool) | mse (b : Bool) | msix (enable fmask : Bool) | mps (code : Fin 8) | mrrs (code : Fin 8)
  | cto (code : Fin 16) | tag10 (b : Bool) | pmeEn (b : Bool) | pmeClear | ltr (b : Bool) | aspmL1 (b : Bool)
  | other (off : BitVec 12) (value : BitVec 32)
  deriving DecidableEq, Repr

/-- A source of owner commands (R293): the BAR4 area of a host port, or the wings. -/
inductive CmdSrc where
  | port (p : Fin 8) | wings
  deriving DecidableEq, Repr

/-- A voted word (R279). -/
inductive VWord where
  | fuse (i : Fin 16) | window (p : Fin 8) (i : Nat) | rights (i : Nat) | rootHash (i : Fin 6)
  deriving DecidableEq, Repr

/-- A disturbance of a voted word (R279, R282): what its copies show from now on, or that the two comparators of its next
check differ; or that those of the owner tag at a stage slice do (R12). -/
inductive Strike where
  | upset (w : VWord) (v : Vote) | glitch (w : VWord) | tag (slice : Fin 32)
  deriving DecidableEq, Repr

/-- The end of a channel's training (R304). -/
inductive TrainRes where
  | trained | fail (cause : Fin 4) (sub rank : Bool)
  deriving DecidableEq, Repr

/-- Who asks a memory controller for a line (R316, R318): a partition's work, owner work, or speculative work. -/
structure LineReq where
  own : Fin 9
  spec : Bool
  deriving DecidableEq, Repr

/-- A bank of interrupt sources (R331): normal, fast, rings. -/
inductive Bank where
  | n | f | r
  deriving DecidableEq, Repr

/-- The side of a mailbox (R344). -/
inductive Side where
  | host | wings
  deriving DecidableEq, Repr

/-- A request between blocks that went unanswered (R365): the requesting instance's fault source with its INFO
kind, and what is answered as a bus error. -/
inductive Iface where
  | load (x : Proc) | elem (e : Fin 16) (q : Req) (off : Nat) | desc (c : Fin 1024) | fetch (t : Fin 512)
  | ilist (t : Fin 512)
  deriving DecidableEq, Repr

/-- A register access that has a row of its own or goes through REGISTER_WRITE or RC_FIELD_READ, as the register bus carries
it and as a block reset may hold it (R380); a line access that waits for its controller (R325) or for its region's key (R287);
a wings load of a register that is held. -/
inductive Access where
  | registerWrite (v : View) (off : Nat) (data : List Byte)
  | rcFieldRead (v : View) (off size : Nat)
  | movStart (v : View) (c : Fin 1024) (value : BitVec 64)
  | movStop (v : View) (c : Fin 1024) (value : BitVec 64)
  | movClear (v : View) (c : Fin 1024) (value : BitVec 64)
  | movCfgWrite (v : View) (c : Fin 1024) (isList : Bool) (value : BitVec 64)
  | wingsStart (c : Fin 4) (entry : BitVec 32)
  | disable (l : Fin 96) (b : Bool)
  | rewiden (l : Fin 96)
  | retryNow (l : Fin 96)
  | rekeyNow (l : Fin 96)
  | ownerMessageSend (l : Fin 96)
  | rxAck (l : Fin 96)
  | cal (o : Fin 12)
  | submit (s : CmdSrc) (value : BitVec 64)
  | finishFirmwareCommand (value : BitVec 64)
  | train (m : Fin 4)
  | memBucketWrite (m : Fin 4) (value : BitVec 64)
  | scrubStart (m : Fin 4) (value : BitVec 64)
  | scrubStop (m : Fin 4)
  | acknowledge (own : Fin 9) (bank : Bank) (i : Fin 1024) (bits : BitVec 64)
  | pendClear (own : Fin 9) (bank : Bank) (i : Fin 1024) (bits : BitVec 64)
  | mbxTxHead (s : Side) (p : Fin 8) (w : BitVec 64)
  | mbxTxData (s : Side) (p : Fin 8) (w : BitVec 64)
  | mbxRx (s : Side) (p : Fin 8) (size off : Nat)
  | flushTx (s : Side) (p : Fin 8)
  | flushRx (s : Side) (p : Fin 8)
  | trcPut (w : BitVec 64)
  | trcGet (e : Ecc)
  | traceMark (value : BitVec 64)
  | rewind (value : BitVec 64)
  | trace (e : Ecc)
  | reg (dr : BitVec 96)
  | lineRead (m : Fin 4) (line : Nat) (rd : LineReq) (e te : BitVec 640)
  | lineWrite (m : Fin 4) (line off : Nat) (bytes : List Byte) (wr : LineReq) (e te : BitVec 640)
  | coreLoad (c : Fin 4) (rd size addr : Nat) (signed : Bool) (e : Ecc)
  deriving DecidableEq, Repr

/-- The commands of the loom: one constructor per row of the opcode table, in the table's order. -/
inductive Instr where
  /-- REGISTER_WRITE (R4): A write to a register field that has no row of its own acts on each field by its access code, including reserved-bit and size checks. -/
  | registerWrite (v : View) (off : Nat) (data : Payload)
  /-- RC_FIELD_READ (R4): A read of a register holding RC fields returns their values and clears them to reset. -/
  | rcFieldRead (v : View) (off size : Nat)
  /-- FABRIC_TRANSFER (R12): A fabric transfer arrives at its destination port, which checks the owner tag against the addressed resource before acting on it. -/
  | fabricTransfer (t : Fabric)
  /-- PORST_N_ASSERT (R392): PORST_N held low for 20 ns or more puts every block into power-on reset. -/
  | porstNAssert (ns : Nat)
  /-- PORST_N_RELEASE (R41): Release of PORST_N clears the stage buffer, starts W0 in the boot ROM and begins the boot sequence at step 0. -/
  | porstNRelease
  /-- RESET_N_ASSERT (R393): Four consecutive low samples of RESET_N begin a chip reset. -/
  | resetNAssert (samples : Nat)
  /-- RESET_N_RELEASE (R41): The first high sample of RESET_N ends the chip reset and restarts the boot sequence at step 0. -/
  | resetNRelease
  /-- CORE_PLL_LOCK_TIMEOUT (R29): If the core PLL has not locked 1 ms after PORST_N release, the loom stays in the power-on state. -/
  | corePllLockTimeout
  /-- CORE_PLL_LOCK_LOST (R29): Loss of core PLL lock after start-up records a clock fault and fires its fault source. -/
  | corePllLockLost
  /-- MEMORY_PLL_LOCK_LOST (R29): Loss of memory PLL lock after start-up records a clock fault for the channel and fires its fault source. -/
  | memoryPllLockLost (m : Fin 4)
  /-- REFCLK_HP_ABSENT (R29): An absent REFCLK_HPn leaves that host port without termination while the other ports are unaffected. -/
  | refclkHpAbsent (n : Fin 8)
  /-- REFCLK_ON_ABSENT (R218): An absent REFCLK_On idles the octet's lanes and sends its up links to WAIT with cause NO_REFCLK. -/
  | refclkOnAbsent (o : Fin 12)
  /-- REFCLK_ON_RETURN (R254): When REFCLK_On returns, the octet PLL relocks on its own and CAL_DONE stays set. -/
  | refclkOnReturn (o : Fin 12)
  /-- SLOT_READ_COMPLETE (R41): The read of a slot into the stage buffer completes with both message hashes computed and the FLASH_ERROR, BAD_MAGIC and BAD_LENGTH checks made. -/
  | slotReadComplete (bytes : List Byte) (hashAgree : Bool) (sense : FuseSense)
  /-- FLASH_READ_TIMEOUT (R38): A flash read command that has not answered after 1 ms fails the slot with FLASH_ERROR. -/
  | flashReadTimeout (sense : FuseSense)
  /-- SIGNATURE_VERIFY_COMPLETE (R40): Both verification paths finish the owner key and ML-DSA-87 checks, and the verdicts are compared. -/
  | signatureVerifyComplete (key sig : Verdict) (svnAgree entropy : Bool)
  /-- STEP5_ENTROPY_TIMEOUT (R287): If step 5 still has no entropy after 100 ms, FAULT_N is driven low until step 5 completes. -/
  | step5EntropyTimeout
  /-- RELEASE (R46): A write of 1 to an IMG_PORT_CTL RELEASE bit releases the partition's host port, or is refused with RELEASE_REFUSED when memory or octets are not ready. -/
  | release (p : Fin 8)
  /-- READY (R47): A write of 1 to an IMG_PORT_CTL READY bit ends the configuration retry answers, releasing the port first if it was not yet released. -/
  | ready (p : Fin 8)
  /-- PARTITION_READY_OVERDUE (R47): When READY has not taken effect 900 ms after RELEASE, the fault source fires once. -/
  | partitionReadyOverdue (p : Fin 8)
  /-- FLASH_ERASE (R49): IMG_FLASH_CMD OP 0b01 erases a 64 KiB sector, unless it is refused for alignment, BUSY, a running check or the loaded slot. -/
  | flashErase (addr : BitVec 25)
  /-- FLASH_PROGRAM (R49): IMG_FLASH_CMD OP 0b10 programs a 256 B page from the owner stage reserve, unless it is refused under the same rules or for SRC out of range. -/
  | flashProgram (addr : BitVec 25) (src : BitVec 16)
  /-- FLASH_CMD_RESERVED_OP (R49): IMG_FLASH_CMD with OP 0b00 or 0b11 is refused and sets REFUSED. -/
  | flashCmdReservedOp (op : Bool)
  /-- FLASH_COMMAND_COMPLETE (R49): A flash erase or program completes, clearing BUSY and setting ERROR if the flash reported a failure. -/
  | flashCommandComplete (failed : Bool)
  /-- IMG_CHECK_START (R50): A write of START to IMG_CHECK begins the R38 and R39 checks on the named slot, is ignored during a check, or is deferred while a flash command is busy. -/
  | imgCheckStart (slot : Fin 2)
  /-- IMG_CHECK_DEFERRED_START (R50): A check that waited for a busy flash command begins when that command completes. -/
  | imgCheckDeferredStart
  /-- IMG_CHECK_DONE (R50): The slot check finishes, writing RESULT and setting DONE, which raises the image-check-done source. -/
  | imgCheckDone (bytes : Option (List Byte)) (hashAgree : Bool) (key sig : Verdict) (svnAgree : Bool)
  /-- FLASH_WINDOW_READ (R383): A read of the owner flash window returns current flash bytes, or all ones while a flash command or check is busy or in the failed-boot state. -/
  | flashWindowRead (a : BitVec 25) (size : Nat) (bytes : List Byte)
  /-- TICK_EDGE (R57): The tick counter wraps and the tick unit closes accounting, reloads budgets, advances fault windows, steps counters and ALIVE, and schedules threads. -/
  | tickEdge (busy : List Server) (strikes : List Strike)
  /-- TICK_IN_EDGE (R54): A sampled TICK_IN rising edge is classified as valid, which sets the next edge offset, or as stray. -/
  | tickInEdge
  /-- TICK_REFERENCE_LOST (R55): MISS_RUN reaching 8 clears LOCKED, sets LOST and fires the TCK fault source. -/
  | tickReferenceLost
  /-- ROUTINE_OVERRUN (R65): At the edge that breaks MAX_TICKS the routine's thread is aborted and the script ends with ROUTINE_FAULT OVERRUN, or the wings caller is trapped. -/
  | routineOverrun (t : Fin 512)
  /-- SCRIPT_DISPATCH (R143): A queued script is dispatched to a free thread of the partition, and its first cue is confirmed. -/
  | scriptDispatch (p : Fin 8) (tag : BitVec 32) (t : Fin 512)
  /-- SCRIPT_PARK (R76): The loom moves a QUEUED, WAITING, HELD or ENDED-with-held-entry script to a parked context in local DRAM. -/
  | scriptPark (p : Fin 8) (tag : BitVec 32) (ctx : Fin 65536)
  /-- CONTEXT_RESTORE (R319): A parked context is returned to a thread, or on a read failure its script ends with DATA_CHECK and parked context lost fires. -/
  | contextRestore (p : Fin 8) (tag : BitVec 32) (t : Fin 512) (m : Fin 4) (bad : Bool)
  /-- CUE_FETCH (R113): A thread issues a read of up to eight cues within a SCRIPT window to fill its prompt window. -/
  | cueFetch (t : Fin 512)
  /-- CUE_FETCH_COMPLETE (R82): Fetched cues arrive and are decoded and checked in the order of R82. -/
  | cueFetchComplete (t : Fin 512) (r : RdRes) (v : Vote)
  /-- INDIRECT_LIST_READ_COMPLETE (R99): An indirect list entry read returns and is checked, together with its range. -/
  | indirectListReadComplete (t : Fin 512) (r : RdRes)
  /-- WRITE (R89): Cue WRITE sends CMD and COUNT bytes of data to the slot. -/
  | write (t : Fin 512)
  /-- READ (R89): Cue READ sends CMD and places up to COUNT bytes from the slot. -/
  | read (t : Fin 512)
  /-- CONTROL (R89): Cue CONTROL sends CMD, with data when COUNT is above 0. -/
  | control (t : Fin 512)
  /-- SENSE (R89): Cue SENSE sends CMD and places up to COUNT bytes of sense data. -/
  | sense (t : Fin 512)
  /-- RELAY (R90): Cue RELAY reads from the source slot and writes to the destination slot through up to 1 MiB of stage space. -/
  | relay (t : Fin 512)
  /-- JUMP (R72): Cue JUMP continues the chain at its WORD3 target. -/
  | jump (t : Fin 512)
  /-- NOP (R89): Cue NOP performs no action. -/
  | nop (t : Fin 512)
  /-- WAIT (R91): Cue WAIT waits for ticks, a slot attention latch or a CUE_EVENT bit. -/
  | wait (t : Fin 512)
  /-- CALL (R93): Cue CALL, once confirmed, starts the owner routine named by ARG on the cue's thread, or ends the script with NOT_CALLABLE. -/
  | call (t : Fin 512)
  /-- MARK (R94): Cue MARK posts a MARKER entry once confirmed, and ends the script OK when CC is clear. -/
  | mark (t : Fin 512)
  /-- FENCE (R81): Cue FENCE acts as a NOP with FEN, holding younger fetches until it completes. -/
  | fence (t : Fin 512)
  /-- WAIT_TICKS_EXPIRE (R91): A MODE 0 WAIT completes at the TICKS-th tick edge after it started. -/
  | waitTicksExpire (t : Fin 512)
  /-- WAIT_TIMEOUT (R91): A MODE 1 or 2 WAIT with TICKS set times out at the TICKS-th edge and completes with a skip. -/
  | waitTimeout (t : Fin 512)
  /-- STAGE_GRANT (R68): A waiting stage allocation is granted, in request order, once the space in use plus the request fits the quota. -/
  | stageGrant (p : Fin 8)
  /-- CUE_EVENT (R91): A write of 1 to a CUE_EVENT bit sets the event, which completes a waiting MODE 2 WAIT. -/
  | cueEvent (p : Fin 8) (bits : BitVec 64)
  /-- DOORBELL (R144): RNG_DB on a request ring publishes a new TAIL, possibly using the inline window, and starts entry fetch and prefetch. -/
  | doorbell (p : Fin 8) (r : BitVec 16) (value : BitVec 64)
  /-- STATUS_HEAD_DOORBELL (R154): RNG_DB on a status ring returns space, releasing held entries, or sets HEAD_ERR when invalid. -/
  | statusHeadDoorbell (p : Fin 8) (r : BitVec 16) (value : BitVec 64)
  /-- INLINE_WINDOW_WRITE (R145): A write to a ring's inline window replaces the bytes it covers and sets the written mark. -/
  | inlineWindowWrite (p : Fin 8) (r : BitVec 16) (off : Nat) (data : List Byte)
  /-- REQUEST_FETCH_COMPLETE (R142): Read ring memory returns, and the ring unit checks the phase and takes the published entries in order. -/
  | requestFetchComplete (p : Fin 8) (r : BitVec 16) (unit : BitVec 16) (res : RdRes)
  /-- RING_ENABLE (R137): A write of ENABLE checks every ring, then either refuses with REASON or enables and locks the rings. -/
  | ringEnable (p : Fin 8)
  /-- STATUS_ENTRY_WRITE (R153): A staged status entry is written to its status ring as one 32 B MemWr after its data completes. -/
  | statusEntryWrite (p : Fin 8) (r : BitVec 16)
  /-- MOV_START (R170): MOV_CTL START runs an IDLE channel from HEAD, or sets KICK on a running one. -/
  | movStart (v : View) (c : Fin 1024) (value : BitVec 64)
  /-- MOV_STOP (R171): MOV_CTL STOP moves a running channel to STOPPING and aborts its descriptors in progress. -/
  | movStop (v : View) (c : Fin 1024) (value : BitVec 64)
  /-- MOV_CLEAR (R170): MOV_CTL CLEAR returns a STOPPED channel to IDLE and clears CH_ERR. -/
  | movClear (v : View) (c : Fin 1024) (value : BitVec 64)
  /-- MOV_CFG_WRITE (R175): A write to MOV_LIST or MOV_CFG is refused with CFG_REFUSED while running or when its values are invalid; writing ARM from 0 to 1 resets the trigger count. -/
  | movCfgWrite (v : View) (c : Fin 1024) (isList : Bool) (value : BitVec 64)
  /-- TICK_TRIGGER (R174): A TICK trigger fires at step 4 of every PERIOD-th edge and starts an IDLE channel at TRIG_HEAD. -/
  | tickTrigger (c : Fin 1024)
  /-- TIMER_TRIGGER (R174): A TIMER trigger fires every PERIOD × 64 sc and starts an IDLE channel at TRIG_HEAD. -/
  | timerTrigger (c : Fin 1024)
  /-- DESCRIPTOR_READ (R168): A descriptor read returns and is checked, or the descriptor read fails as a channel error. -/
  | descriptorRead (c : Fin 1024) (r : RdRes)
  /-- MOVER_ELEMENT (R176): An engine starts one element of a ready requester, charging its budgets. -/
  | moverElement (e : Fin 16) (el : ElemStart)
  /-- ELEMENT_ANSWER (R177): An answer to an element's read or write arrives and is recorded, and the first error stops the descriptor. -/
  | elementAnswer (e : Fin 16) (q : Req) (off : Nat) (ans : Ans)
  /-- FLUSH_READ_COMPLETE (R177): A flush read's completion answers every earlier host write of the descriptor. -/
  | flushReadComplete (e : Fin 16) (q : Req) (r : FlushAns)
  /-- ADD (R189): rd receives ra plus rb. -/
  | add (i : Issue)
  /-- ADDW (R189): The 32-bit sum of ra and rb, sign-extended, goes to rd. -/
  | addw (i : Issue)
  /-- SUB (R189): rd receives ra minus rb. -/
  | sub (i : Issue)
  /-- SUBW (R189): The 32-bit difference of ra and rb, sign-extended, goes to rd. -/
  | subw (i : Issue)
  /-- AND (R189): rd receives ra and rb. -/
  | opAnd (i : Issue)
  /-- OR (R189): rd receives ra or rb. -/
  | opOr (i : Issue)
  /-- XOR (R189): rd receives ra xor rb. -/
  | opXor (i : Issue)
  /-- ANDN (R189): rd receives ra and not rb. -/
  | andn (i : Issue)
  /-- NEG (R189): rd receives 0 minus ra. -/
  | neg (i : Issue)
  /-- NEGW (R191): The 32-bit negation of ra, sign-extended, goes to rd. -/
  | negw (i : Issue)
  /-- SLL (R189): rd receives ra shifted left by rb. -/
  | sll (i : Issue)
  /-- SLLW (R191): The 32-bit left shift of ra by rb, sign-extended, goes to rd. -/
  | sllw (i : Issue)
  /-- SRL (R189): rd receives ra shifted right by rb with zero fill. -/
  | srl (i : Issue)
  /-- SRLW (R191): The 32-bit logical right shift of ra by rb, sign-extended, goes to rd. -/
  | srlw (i : Issue)
  /-- SRA (R189): rd receives ra shifted right by rb with sign fill. -/
  | sra (i : Issue)
  /-- SRAW (R191): The 32-bit arithmetic right shift of ra by rb, sign-extended, goes to rd. -/
  | sraw (i : Issue)
  /-- ROL (R189): rd receives ra rotated left by rb mod 64. -/
  | rol (i : Issue)
  /-- ROLW (R191): The 32-bit left rotation of ra by rb mod 32, sign-extended, goes to rd. -/
  | rolw (i : Issue)
  /-- ROR (R189): rd receives ra rotated right by rb mod 64. -/
  | ror (i : Issue)
  /-- RORW (R191): The 32-bit right rotation of ra by rb mod 32, sign-extended, goes to rd. -/
  | rorw (i : Issue)
  /-- MUL (R189): rd receives the low 64 bits of ra times rb. -/
  | mul (i : Issue)
  /-- MULW (R189): The 32-bit product of ra and rb, sign-extended, goes to rd. -/
  | mulw (i : Issue)
  /-- MULH (R189): rd receives the high 64 bits of the signed product. -/
  | mulh (i : Issue)
  /-- MULHU (R189): rd receives the high 64 bits of the unsigned product. -/
  | mulhu (i : Issue)
  /-- DIV (R191): rd receives the signed quotient of ra by rb, with the defined results for zero and overflow. -/
  | div (i : Issue)
  /-- DIVW (R191): rd receives the 32-bit signed quotient, sign-extended. -/
  | divw (i : Issue)
  /-- DIVU (R191): rd receives the unsigned quotient of ra by rb. -/
  | divu (i : Issue)
  /-- DIVUW (R191): rd receives the 32-bit unsigned quotient, sign-extended. -/
  | divuw (i : Issue)
  /-- REM (R191): rd receives the signed remainder. -/
  | rem (i : Issue)
  /-- REMW (R191): rd receives the 32-bit signed remainder, sign-extended. -/
  | remw (i : Issue)
  /-- REMU (R191): rd receives the unsigned remainder. -/
  | remu (i : Issue)
  /-- REMUW (R191): rd receives the 32-bit unsigned remainder, sign-extended. -/
  | remuw (i : Issue)
  /-- SEQ (R189): rd receives 1 if ra equals rb, else 0. -/
  | seq (i : Issue)
  /-- SNE (R189): rd receives 1 if ra differs from rb, else 0. -/
  | sne (i : Issue)
  /-- SLT (R189): rd receives 1 if ra is less than rb as signed values. -/
  | slt (i : Issue)
  /-- SLTU (R189): rd receives 1 if ra is less than rb as unsigned values. -/
  | sltu (i : Issue)
  /-- SGE (R189): rd receives 1 if ra is not less than rb as signed values. -/
  | sge (i : Issue)
  /-- SGEU (R189): rd receives 1 if ra is not less than rb as unsigned values. -/
  | sgeu (i : Issue)
  /-- ADDI (R190): rd receives ra plus sext(IMM16). -/
  | addi (i : Issue)
  /-- ADDIW (R190): rd receives the 32-bit sum of ra and sext(IMM16), sign-extended. -/
  | addiw (i : Issue)
  /-- ANDI (R190): rd receives ra and zext(IMM16). -/
  | andi (i : Issue)
  /-- ORI (R190): rd receives ra or zext(IMM16). -/
  | ori (i : Issue)
  /-- XORI (R190): rd receives ra xor zext(IMM16). -/
  | xori (i : Issue)
  /-- LUI (R190): rd receives sext of IMM16 shifted left by 16. -/
  | lui (i : Issue)
  /-- SLLI (R190): rd receives ra shifted left by the immediate count. -/
  | slli (i : Issue)
  /-- SRLI (R190): rd receives ra shifted right by the immediate count with zero fill. -/
  | srli (i : Issue)
  /-- SRAI (R190): rd receives ra shifted right by the immediate count with sign fill. -/
  | srai (i : Issue)
  /-- ROLI (R190): rd receives ra rotated left by the immediate count. -/
  | roli (i : Issue)
  /-- SLLIW (R190): The 32-bit immediate left shift of ra, sign-extended, goes to rd. -/
  | slliw (i : Issue)
  /-- SRLIW (R190): The 32-bit immediate logical right shift of ra, sign-extended, goes to rd. -/
  | srliw (i : Issue)
  /-- SRAIW (R190): The 32-bit immediate arithmetic right shift of ra, sign-extended, goes to rd. -/
  | sraiw (i : Issue)
  /-- ROLIW (R190): The 32-bit immediate left rotation of ra, sign-extended, goes to rd. -/
  | roliw (i : Issue)
  /-- SEQI (R190): rd receives 1 if ra equals sext(IMM16). -/
  | seqi (i : Issue)
  /-- SNEI (R190): rd receives 1 if ra differs from sext(IMM16). -/
  | snei (i : Issue)
  /-- SLTI (R190): rd receives 1 if ra is less than sext(IMM16) as signed values. -/
  | slti (i : Issue)
  /-- SLTIU (R190): rd receives 1 if ra is less than sext(IMM16) as unsigned values. -/
  | sltiu (i : Issue)
  /-- SGEI (R190): rd receives 1 if ra is not less than sext(IMM16) as signed values. -/
  | sgei (i : Issue)
  /-- SGEIU (R190): rd receives 1 if ra is not less than sext(IMM16) as unsigned values. -/
  | sgeiu (i : Issue)
  /-- LD (R194): Checks and performs a sign-extending load from the named space, or faults ACCESS. -/
  | ld (i : Issue)
  /-- LDU (R194): Checks and performs a zero-extending load from the named space, or faults ACCESS. -/
  | ldu (i : Issue)
  /-- ST (R194): Checks and performs a store to the named space, completing in the background. -/
  | st (i : Issue)
  /-- LOAD_ANSWER (R196): The answer to a WINDOW, LOCAL or REG load arrives, writing rd or taking the outcome its error dictates. -/
  | loadAnswer (x : Proc) (r : RdRes)
  /-- BZ (R192): Branches by OFF21 when rs is zero. -/
  | bz (i : Issue)
  /-- BNZ (R192): Branches by OFF21 when rs is non-zero. -/
  | bnz (i : Issue)
  /-- J (R192): Jumps by OFF26. -/
  | j (i : Issue)
  /-- JAL (R192): Saves PC plus 4 in g31 and jumps by OFF26. -/
  | jal (i : Issue)
  /-- JR (R192): Jumps to ra and saves PC plus 4 in rd. -/
  | jr (i : Issue)
  /-- MOVB (R197): Copies rc bytes from ra to rd one element at a time, resumable after any element. -/
  | movb (i : Issue)
  /-- FILB (R197): Fills rc bytes at rd from the pattern in ra. -/
  | filb (i : Issue)
  /-- CMPB (R197): Compares bytes at rd and ra until a difference or rc reaches zero. -/
  | cmpb (i : Issue)
  /-- SCNB (R197): Scans from ra for the byte rd[7:0] until a match or rc reaches zero. -/
  | scnb (i : Issue)
  /-- SEND (R200): Starts the transfer described by a scratch record on the internal mover queue, clearing its event bit. -/
  | send (i : Issue)
  /-- SEND_COMPLETE (R200): A SEND transfer completes, writes word 3 of its record and sets its event bit. -/
  | sendComplete (t : Fin 512) (ev : Fin 8)
  /-- POST (R199): Sets the given bits of a partition's CUE_EVENT. -/
  | post (i : Issue)
  /-- WAITEV (R201): Waits for a selected event bit, or for an rb-tick timeout. -/
  | waitev (i : Issue)
  /-- WAITEV_TIMEOUT (R201): A WAITEV reaches its rb-th tick edge and wakes with rd equal to 0. -/
  | waitevTimeout (t : Fin 512)
  /-- YIELD (R199): The thread issues nothing more until step 5 of the next tick edge. -/
  | yield (i : Issue)
  /-- RTN (R204): Ends the routine after its SENDs and any flush read, returning the code in g1, and zeroes its scratch. -/
  | rtn (i : Issue)
  /-- RDTK (R199): rd receives TCK_COUNT. -/
  | rdtk (i : Issue)
  /-- RDCY (R199): rd receives the cycles since the last edge cycle. -/
  | rdcy (i : Issue)
  /-- CRD (R208): Reads a control register into rd. -/
  | crd (i : Issue)
  /-- CWR (R208): Writes ra to a control register. -/
  | cwr (i : Issue)
  /-- CRS (R208): Sets bits of a control register and returns its old value. -/
  | crs (i : Issue)
  /-- CRC (R208): Clears bits of a control register and returns its old value. -/
  | crc (i : Issue)
  /-- RTE (R209): Leaves the highest active wings level, restoring PC and bank. -/
  | rte (i : Issue)
  /-- WFI (R211): Stops issue until an interrupt can be taken or an asynchronous trap arrives. -/
  | wfi (i : Issue)
  /-- CALLR (R212): Starts an owner routine on an idle OWNER thread and returns a call number or a refusal code. -/
  | callr (i : Issue)
  /-- WINGS_START (R213): WNG_CTL START starts a held core at ENTRY, or is refused for a bad ENTRY. -/
  | wingsStart (c : Fin 4) (entry : BitVec 32)
  /-- DISABLE (R218): A write to LNK_CTL DISABLE moves the link to DISABLED on 1, or to WAIT with zero backoff on 0. -/
  | disable (l : Fin 96) (b : Bool)
  /-- REWIDEN (R222): REWIDEN in ACTIVE retrains the link at the image width with every lane re-examined. -/
  | rewiden (l : Fin 96)
  /-- RETRY_NOW (R218): RETRY_NOW ends a WAIT backoff at once and enters DETECT. -/
  | retryNow (l : Fin 96)
  /-- REKEY_NOW (R240): REKEY_NOW starts a rekey in ACTIVE. -/
  | rekeyNow (l : Fin 96)
  /-- BACKOFF_EXPIRE (R219): The WAIT backoff expires and the link enters DETECT. -/
  | backoffExpire (l : Fin 96)
  /-- RECEIVER_DETECT (R217): A 1 ms receiver detect in DETECT looks for far-end termination and enters TRAIN when it finds some. -/
  | receiverDetect (l : Fin 96) (term : BitVec 8)
  /-- TRAINING_BLOCK (R221): A received training block advances SIGNAL, ALIGN, EQ, CONFIG and DONE, and enters HANDSHAKE or ACTIVE once width is agreed. -/
  | trainingBlock (l : Fin 96) (lane : Fin 8) (payload : BitVec 256)
  /-- TRAIN_TIMEOUT (R218): TRAIN without agreement for 20 ms sends the link to WAIT with TRAIN_TIMEOUT or NO_LANES. -/
  | trainTimeout (l : Fin 96)
  /-- CROSSED (R223): Termination on every lane and no signal for 20 ms after TRAIN began sends the link to WAIT with cause CROSSED. -/
  | crossed (l : Fin 96)
  /-- RETRAIN_TIMEOUT (R218): RETRAIN without agreement for 2 ms sends the link to WAIT with RETRAIN_FAIL or NO_LANES. -/
  | retrainTimeout (l : Fin 96)
  /-- AUTH_TIMEOUT (R218): HANDSHAKE without reaching ACTIVE for 50 ms sends the link to WAIT with AUTH_TIMEOUT. -/
  | authTimeout (l : Fin 96)
  /-- NO_SIGNAL (R223): Loss of signal or block lock for 10 µs marks the lane NO_SIGNAL and starts RETRAIN if it is active. -/
  | noSignal (lane : Fin 96)
  /-- SHORT (R223): The output current limit active for 100 µs marks the lane SHORT. -/
  | short (lane : Fin 96)
  /-- NOISY (R223): Corrected symbols above the threshold mark the lane NOISY. -/
  | noisy (lane : Fin 96)
  /-- FLIT_RECEIVE (R227): A received flit is CRC-checked and sequenced, and its GCM group is authenticated before its frames are released. -/
  | flitReceive (l : Fin 96) (f : RxFlit)
  /-- CMD (R230): The loom starts a CMD flit for a confirmed device cue, allotting an ordinary tag and starting the response timer. -/
  | cmd (l : Fin 96) (more : Bool)
  /-- DATA_TRANSMIT (R245): The loom sends a DATA frame of a write command in ascending OFFSET against endpoint credit. -/
  | dataTransmit (l : Fin 96) (ctag : BitVec 12) (more : Bool)
  /-- REHEARSE (R119): A REHEARSE flit starts for a speculative READ or SENSE, taking the lowest free rehearsal number. -/
  | rehearse (l : Fin 96) (more : Bool)
  /-- GO (R122): A GO flit starts for a confirmed rehearsal, releasing its held data and committing it. -/
  | go (l : Fin 96) (more : Bool)
  /-- STRIKE (R122): A STRIKE flit starts, cancelling a rehearsal at the device. -/
  | strike (l : Fin 96) (more : Bool)
  /-- REHEARSAL_WITHDRAWAL (R124): At the 224th tick edge after its REHEARSE, an unstarted rehearsal is withdrawn and its STRIKE is queued. -/
  | rehearsalWithdrawal (l : Fin 96) (n : Fin 64)
  /-- REHEARSAL_NUMBER_RELEASE (R128): A rehearsal number still held 288 tick edges after a partition reset is freed. -/
  | rehearsalNumberRelease (l : Fin 96) (n : Fin 64)
  /-- CREDIT_SEND (R227): The loom sends a CREDIT within 32 flits or 128 sc of the oldest unacknowledged flit, or a NAK after a bad flit, with data-credit grants. -/
  | creditSend (l : Fin 96) (grants : List (Nat × Nat)) (more : Bool)
  /-- KEEPALIVE (R228): A KEEPALIVE is sent after 10 µs with no flit sent. -/
  | keepalive (l : Fin 96)
  /-- KEEPALIVE_LOST (R228): 100 µs in ACTIVE without a valid flit takes the link down with cause KEEPALIVE. -/
  | keepaliveLost (l : Fin 96)
  /-- HELLO_R (R239): A received HELLO_R has its chain and signature verified on two paths, keys derived and AUTH sent, or fails with AUTH_FAIL. -/
  | helloR (l : Fin 96) (sig : Verdict)
  /-- FINISH (R239): A received FINISH has its MAC verified on two paths, and the link enters ACTIVE with encryption. -/
  | finish (l : Fin 96) (mac : Verdict)
  /-- REKEY_THRESHOLD (R240): A group counter reaching 2^n − 2^16 starts a rekey by sending REKEY. -/
  | rekeyThreshold (l : Fin 96)
  /-- REKEY_OVERDUE (R240): A counter under the old key about to pass 2^n − 1 stops transmission and takes the link down with cause REKEY. -/
  | rekeyOverdue (l : Fin 96)
  /-- OWNER_MESSAGE_SEND (R250): LNK_OWN_TX SEND transmits an OWNER message in ACTIVE, or is refused. -/
  | ownerMessageSend (l : Fin 96)
  /-- OWNER_MESSAGE_SENT (R250): Completion of an OWNER send clears SEND and raises link owner message sent. -/
  | ownerMessageSent (l : Fin 96)
  /-- RX_ACK (R250): RX_ACK frees the receive area, so that a held OWNER message or VL 3 credit is released. -/
  | rxAck (l : Fin 96)
  /-- RESPONSE_TIMEOUT (R247): A command's response timer passes RESP_LIMIT, ending the cue with DEVICE_TIMEOUT and sending ABORT. -/
  | responseTimeout (l : Fin 96) (ctag : BitVec 12)
  /-- ABORT_UNANSWERED (R247): An ABORT unanswered for 256 tk keeps its tag out of use and fires abort unanswered. -/
  | abortUnanswered (l : Fin 96) (ctag : BitVec 12)
  /-- CAL (R254): A write of CAL starts octet PLL lock and lane calibration, unless it is ignored. -/
  | cal (o : Fin 12)
  /-- CAL_COMPLETE (R254): Octet calibration ends with CAL_DONE, putting its links into WAIT, or with CAL_FAIL and FAIL_CAUSE. -/
  | calComplete (o : Fin 12) (cause : Fin 4)
  /-- CONFIGURATION_REQUEST (R47): A host configuration request is answered, or given Configuration Request Retry Status before READY or during a drain. -/
  | configurationRequest (p : Fin 8) (q : CfgReq)
  /-- HOST_PORT_LINK_UP (R256): The host port reaches L0 and raises its rate toward PORT_MAX_RATE, setting BELOW_MIN if it cannot reach 32 GT/s. -/
  | hostPortLinkUp (p : Fin 8) (rate : Fin 8) (flit : Bool) (width : Fin 17)
  /-- FLR (R264): Initiate FLR written 1 starts a partition reset of the bound partition. -/
  | flr (p : Fin 8)
  /-- HOT_RESET (R264): A received hot reset starts a partition reset. -/
  | hotReset (p : Fin 8)
  /-- DL_DOWN (R264): DL_Down starts a partition reset. -/
  | dlDown (p : Fin 8)
  /-- PERST_N_ASSERT (R257): PERST_N_HPn low removes termination and starts a partition reset. -/
  | perstNAssert (n : Fin 8)
  /-- PERST_N_RELEASE (R257): Release of PERST_N_HPn lets the port train again. -/
  | perstNRelease (n : Fin 8)
  /-- DRAIN_END (R265): At the last internal answer the drain discards held state, restores F-reset fields, clears DRAINING and makes the function ready. -/
  | drainEnd (p : Fin 8)
  /-- HOST_COMPLETION (R262): A completion TLP for a loom request arrives and answers it, or is discarded as late for a quarantined tag. -/
  | hostCompletion (p : Fin 8) (tag : BitVec 10) (r : RdRes)
  /-- COMPLETION_TIMEOUT (R262): A non-posted request unanswered within the completion timeout is answered as a host completion error. -/
  | completionTimeout (p : Fin 8) (tag : BitVec 10)
  /-- QUARANTINE_EXPIRY (R266): A quarantined tag is freed once its completion timeout has elapsed. -/
  | quarantineExpiry (p : Fin 8) (tag : BitVec 10)
  /-- D3HOT_ENTRY (R268): PowerState D3hot stops all requests but PM_PME and LTR and holds status entries in the loom. -/
  | d3hotEntry (p : Fin 8)
  /-- D0_ENTRY (R270): PowerState D0 issues waiting requests in order, writes held entries, and then resumes interrupts. -/
  | d0Entry (p : Fin 8)
  /-- PME_REPEAT (R269): PM_PME is sent again every 100 ms while PME_Status stays 1 in D3hot. -/
  | pmeRepeat (p : Fin 8)
  /-- L1_ENTRY (R271): After 16 µs with no TLP queued or outstanding, the port requests L1. -/
  | l1Entry (p : Fin 8) (sub : Fin 4)
  /-- L1_EXIT (R271): A ready TLP makes the port start L1 exit and count L1_EXITS. -/
  | l1Exit (p : Fin 8)
  /-- L0P_WIDTH_CHANGE (R272): The loom accepts a host-requested L0p width change. -/
  | l0pWidthChange (p : Fin 8) (width : Fin 17)
  /-- L0P_WIDEN_REQUEST (R272): A TLP waiting 64 sc makes the loom request the full negotiated width. -/
  | l0pWidenRequest (p : Fin 8)
  /-- SUBMIT (R294): SUBMIT copies LEN bytes of a command message for the security block, or is lost when the source is BUSY. -/
  | submit (s : CmdSrc) (value : BitVec 64)
  /-- ATTEST (R299): The ATTEST command returns the signed attestation report. -/
  | attest (paths : Bool) (votes : List Vote)
  /-- GET_KEYS (R297): The GET_KEYS command returns the attestation or link identity public key. -/
  | getKeys (paths : Bool)
  /-- RESET_PARTITION (R297): The signed RESET_PARTITION command writes its result, then starts an owner partition reset, optionally with ERASE. -/
  | resetPartition (i : IdPaths) (k : KeyPaths) (votes : List Vote)
  /-- CHIP_RESET (R297): The signed CHIP_RESET command writes its result and schedules a chip reset 1 ms later. -/
  | chipReset (i : IdPaths) (k : KeyPaths) (votes : List Vote)
  /-- CHIP_RESET_DELAY_EXPIRY (R298): 1 ms after CHIP_RESET's result, the chip reset begins. -/
  | chipResetDelayExpiry
  /-- ADVANCE_SVN (R297): The signed ADVANCE_SVN command blows SVN bits up to the target count. -/
  | advanceSvn (i : IdPaths) (k : KeyPaths) (votes : List Vote) (stuck : List (Nat × Nat))
  /-- DISABLE_DEBUG (R297): The signed DISABLE_DEBUG command blows DEBUG_DISABLE and ends any debug access. -/
  | disableDebug (i : IdPaths) (k : KeyPaths) (votes : List Vote) (stuck : List (Nat × Nat))
  /-- FIRMWARE (R298): The signed FIRMWARE command copies the message to DEST, sets PENDING and raises the firmware source. -/
  | firmware (i : IdPaths) (k : KeyPaths) (votes : List Vote)
  /-- FINISH_FIRMWARE_COMMAND (R298): SEC_FWCMD FINISH copies the response and completes the pending FIRMWARE command, or sets LATE after a timeout. -/
  | finishFirmwareCommand (value : BitVec 64)
  /-- FW_TIMEOUT (R298): A FIRMWARE command without FINISH for 1 s ends with FW_TIMEOUT. -/
  | fwTimeout
  /-- VOTED_SWEEP (R281): Every 1,024 tk the voted store reads every voted word in the background. -/
  | votedSweep (votes : List (VWord × Vote))
  /-- DRBG_RESEED (R287): The DRBG is reseeded at least once every 1,024 tk. -/
  | drbgReseed
  /-- ENTROPY_FAILURE (R287): A failing health test stops key, nonce and challenge production and fires entropy failure. -/
  | entropyFailure (proportion : Bool)
  /-- TRAIN (R304): MEM_CH_CTL TRAIN starts a channel's training sequence, unless it is ignored. -/
  | train (m : Fin 4)
  /-- TRAINING_COMPLETE (R304): Channel training ends with TRAINED, or with TRAIN_FAIL and its cause. -/
  | trainingComplete (m : Fin 4) (r : TrainRes)
  /-- LINE_READ (R314): The controller reads a line: symbol decode, tag check and decryption, giving data or POISON, UNCORR or TAG. -/
  | lineRead (m : Fin 4) (line : Nat) (rd : LineReq) (e te : BitVec 640)
  /-- LINE_WRITE (R315): The controller writes a full line or merges a partial line after a checked read, updating its tag. -/
  | lineWrite (m : Fin 4) (line off : Nat) (bytes : List Byte) (wr : LineReq) (e te : BitVec 640)
  /-- TAG_LINE_WRITEBACK (R315): The controller writes a cached tag line back to DRAM. -/
  | tagLineWriteback (m : Fin 4) (tl : Nat)
  /-- REFRESH (R304): The controller refreshes the devices, at double rate above 85 °C. -/
  | refresh (m : Fin 4) (hot : Bool)
  /-- BUCKET_LEAK (R320): At every 2^LEAK_LOG2-th edge, LEVEL falls by 1. -/
  | bucketLeak (m : Fin 4)
  /-- MEM_BUCKET_WRITE (R320): A write to MEM_BUCKET clamps DEPTH and LEAK_LOG2 and lowers LEVEL to DEPTH. -/
  | memBucketWrite (m : Fin 4) (value : BitVec 64)
  /-- SCRUB_START (R321): START begins a scrub of FIRST to LAST, or is refused. -/
  | scrubStart (m : Fin 4) (value : BitVec 64)
  /-- SCRUB_STOP (R324): STOP ends a running scrub after the current line with STOPPED. -/
  | scrubStop (m : Fin 4)
  /-- SCRUB_LINE (R322): The scrubber reads one line within its rate limit, writes back corrections or poisons an UNCORR line, and updates its summary. -/
  | scrubLine (m : Fin 4) (e : BitVec 640)
  /-- COMMIT (R333): The controller commits eligible fast sources and one group of normal sources, queueing one MSI-X message per vector and loading timers. -/
  | commit (p : Fin 8)
  /-- COMMIT_RECHECK (R338): Under EXACT, at k+8 a commit is re-checked against masks decoded by k and masked sources are cancelled. -/
  | commitRecheck (p : Fin 8)
  /-- MASK_EFFECT (R338): A mask or unmask write decoded in cycle m takes effect in cycle m+8. -/
  | maskEffect
  /-- HOLDOFF_EXPIRY (R336): A group's hold-off timer expires, letting its normal sources commit again. -/
  | holdoffExpiry (own : Fin 9) (group : Fin 256)
  /-- ACKNOWLEDGE (R339): A write of 1 to ACT bits clears active sources, and stray bits are counted or fault by policy. -/
  | acknowledge (own : Fin 9) (bank : Bank) (i : Fin 1024) (bits : BitVec 64)
  /-- PEND_CLEAR (R331): A write of 1 to PEND bits clears pending sources. -/
  | pendClear (own : Fin 9) (bank : Bank) (i : Fin 1024) (bits : BitVec 64)
  /-- INTERRUPT_ENTRY (R340): A wings core takes an offered source at a boundary, committing it and entering the F or N level. -/
  | interruptEntry (c : Fin 4)
  /-- MBX_TX_HEAD (R346): A header write opens an item, reserving room, replacing an open item, or is refused with OVERRUN. -/
  | mbxTxHead (s : Side) (p : Fin 8) (w : BitVec 64)
  /-- MBX_TX_DATA (R346): A payload write adds a word to the open item and closes it when full, or counts TORN. -/
  | mbxTxData (s : Side) (p : Fin 8) (w : BitVec 64)
  /-- MBX_RX (R347): A read pops the oldest word of the oldest complete item, or returns the idle word. -/
  | mbxRx (s : Side) (p : Fin 8) (size off : Nat)
  /-- FLUSH_TX (R348): FLUSH_TX empties the FIFO that side writes. -/
  | flushTx (s : Side) (p : Fin 8)
  /-- FLUSH_RX (R348): FLUSH_RX empties the FIFO that side reads. -/
  | flushRx (s : Side) (p : Fin 8)
  /-- MAILBOX_POINTER_MISMATCH (R351): Disagreeing pointer copies empty the mailbox FIFO, set PTR_ERR and fire the fault source. -/
  | mailboxPointerMismatch (p : Fin 8) (fromWings : Bool)
  /-- TRC_EVT_READ (R354): A read of TRC_EVT pops the oldest entry, or returns the idle word. -/
  | trcEvtRead (l : Fin 96)
  /-- EVENT_FIFO_POINTER_MISMATCH (R354): Disagreeing pointers empty the event FIFO, set PTR_ERR and fire the fault source. -/
  | eventFifoPointerMismatch (l : Fin 96)
  /-- TRC_PUT (R358): A write adds a word to the trace FIFO, overwriting the oldest when storage is full. -/
  | trcPut (w : BitVec 64)
  /-- TRC_GET (R356): A read pops the oldest trace word, corrected by SECDED, or returns the idle or uncorrectable word. -/
  | trcGet (e : Ecc)
  /-- TRACE_MARK (R357): MARK places the mark at the read position. -/
  | traceMark (value : BitVec 64)
  /-- REWIND (R357): REWIND returns the read position to a valid mark, or sets MARK_LOST. -/
  | rewind (value : BitVec 64)
  /-- TRACE_POINTER_MISMATCH (R356): Disagreeing trace pointers empty the FIFO, invalidate the mark and fire the fault source. -/
  | tracePointerMismatch
  /-- FAULT_WINDOW_EXPIRY (R360): At step 3 of an edge, a source's AGE reaches W and its COUNT and AGE return to 0. -/
  | faultWindowExpiry (f : Fin 304)
  /-- BLOCK_RESET_END (R370): A block reset's duration ends, held register accesses proceed, and QUIET drops 64 sc later. -/
  | blockResetEnd (b : Fin 45) (c : Fin 4)
  /-- PWR_BRESET (R368): A PWR_BRESET GO write starts a block reset of the named instance, or is refused with BRESET_REFUSED. -/
  | pwrBreset (value : BitVec 64)
  /-- FAULT_INJECT (R277): FLT_INJECT GO raises one event of a source in factory test mode. -/
  | faultInject (b : Fin 45) (value : BitVec 64)
  /-- INTERFACE_TIMEOUT (R365): A request unanswered for 131,072 sc raises a datapath error and is answered as a bus error. -/
  | interfaceTimeout (t : Iface)
  /-- THERMAL_WARNING (R404): The junction reaching 105 °C fires the thermal warning once per rise. -/
  | thermalWarning (sensor : Fin 16) (temp : BitVec 16)
  /-- THERMAL_TRIP (R367): A sensor reaching 120 °C latches THERMTRIP_N low and fires thermal trip. -/
  | thermalTrip (sensor : Fin 16) (temp : BitVec 16)
  /-- HUSH (R372): A write to PWR_CTL HUSH requests hush at the next edge on 1, or leaves it in the next cycle on 0. -/
  | hush (b : Bool)
  /-- ENTDAA (R400): The I3C target takes part in dynamic address assignment. -/
  | entdaa (a : BitVec 7)
  /-- SETDASA (R400): The I3C target takes its static address as its dynamic address. -/
  | setdasa (static a : BitVec 7)
  /-- RSTDAA (R400): The I3C target clears its dynamic address. -/
  | rstdaa
  /-- GETPID (R400): The I3C target returns its PID. -/
  | getpid
  /-- GETBCR (R400): The I3C target returns BCR 0x00. -/
  | getbcr
  /-- GETDCR (R400): The I3C target returns DCR 0x00. -/
  | getdcr
  /-- GETSTATUS (R400): The I3C target returns its status. -/
  | getstatus
  /-- I3C_OFFSET_WRITE (R400): A 4-byte private write sets the telemetry read offset. -/
  | i3cOffsetWrite (bytes : List Byte)
  /-- I3C_PRIVATE_READ (R400): A private read returns telemetry registers from the offset onward, or zero bytes outside the set. -/
  | i3cPrivateRead (n : Nat)
  /-- SAMPLE_PRELOAD (R402): JTAG SAMPLE/PRELOAD selects the boundary register under scope S0. -/
  | samplePreload (levels bits : List Bool)
  /-- EXTEST (R402): JTAG EXTEST drives the boundary register under scope S0. -/
  | extest (levels bits : List Bool)
  /-- IDENT (R402): JTAG IDENT returns the 256-bit identity. -/
  | ident
  /-- CHALLENGE (R402): JTAG CHALLENGE returns the current 256-bit challenge. -/
  | challenge
  /-- TOKEN (R300): JTAG TOKEN Update-DR submits a debug token, checked on two paths, accepted or refused, renewing CHALLENGE. -/
  | token (bytes : List Byte) (v : TokenPaths)
  /-- REG (R402): JTAG REG Update-DR performs an owner-view read or write under scope S2. -/
  | reg (dr : BitVec 96)
  /-- WDBG_HALT (R402): JTAG WDBG HALT stops a wings core under scope S1. -/
  | wdbgHalt (c : Fin 4)
  /-- WDBG_RESUME (R402): JTAG WDBG RESUME restarts a halted wings core. -/
  | wdbgResume (c : Fin 4)
  /-- WDBG_STEP (R402): JTAG WDBG STEP single-steps a halted wings core. -/
  | wdbgStep (c : Fin 4)
  /-- REG_RD (R402): JTAG WDBG REG_RD reads a wings general register or the PC. -/
  | regRd (c : Fin 4) (r : BitVec 6)
  /-- REG_WR (R402): JTAG WDBG REG_WR writes a wings general register or the PC. -/
  | regWr (c : Fin 4) (r : BitVec 6) (d : BitVec 64)
  /-- TRACE (R402): JTAG TRACE Capture-DR pops TRC_GET under scope S3. -/
  | trace (e : Ecc)
  /-- FUSE (R402): JTAG FUSE reads or programs a fuse bit in factory test mode, with OWNER_SET obeying R278. -/
  | fuse (dr : BitVec 24) (stuck : List (Nat × Nat))
  /-- BYPASS (R402): JTAG BYPASS, or any instruction whose condition fails, selects the 1-bit bypass register. -/
  | bypass
  /-- CORE_PLL_LOCK (R41): The core PLL locks after PORST_N or RESET_N release, ending boot step 0 so that the ROM begins the flash probe of step 1. -/
  | corePllLock (octal : Bool) (seq0 seq1 : BitVec 64)
  /-- ENTROPY_HEALTH_RESTORED (R287): The entropy health tests pass again, so the waiting key, nonce and challenge requests and a waiting boot step 5 proceed, and FAULT_N set by the entropy wait is released at step 5. -/
  | entropyHealthRestored
  /-- THERMAL_WARNING_REARM (R364): The junction falls 5 °C below the warning threshold, re-arming the thermal warning and clearing PWR_THERM.WARN. -/
  | thermalWarningRearm (temp : BitVec 16)
  /-- REFCLK_HP_RETURN (R29): REFCLK_HPn returns after being absent, so host port HPn may again present termination and train. -/
  | refclkHpReturn (n : Fin 8)
  /-- BLOCK_LOCK_LOST (R218): An active lane's receiver loses block lock, which moves an ACTIVE link into RETRAIN at once. -/
  | blockLockLost (lane : Fin 96)
  /-- HOST_L1_EXIT (R271): The host side starts exit from L1 or an L1 substate, bringing the port back to L0 and updating HPT_STS.LSTATE. -/
  | hostL1Exit (p : Fin 8)
  /-- IO_LOCKED_ATOMIC_REQUEST (R261): A host I/O, locked or AtomicOp request to the function is answered with UR. -/
  | ioLockedAtomicRequest (p : Fin 8) (kind : Fin 3)
  /-- IMG_ROOT_HASH_READ (R382): A read of IMG_ROOT_HASH[i] votes its voted word; it corrects a two-way disagreement, and on a three-way disagreement it returns zero with the effects of R280. -/
  | imgRootHashRead (v : Vote) (i : Fin 6)
  /-- SENSOR_READINGS_VALID (R401): 1 ms after PORST_N release the temperature sensor readings become valid, replacing 0x8000 in PWR_TEMP and setting PWR_THERM.VALID. -/
  | sensorReadingsValid (temps : List (BitVec 16))
  deriving DecidableEq, Repr

end Sys2Proof
end

