-- ==== Sys2Proof/Machine/Operands.lean ====
section
/-! DEFINITION. The instruction formats of the Spindle instruction set: fields, legality and the operation a word
spells (08, R187 to R190, R192, R194, R197, R199, R208). -/

namespace Sys2Proof

/-- Operations of the Spindle instruction set. The seven privileged ones share the word form `prv`: the spec gives no POP
values, so the command names the operation (log entry 20). -/
inductive Op where
  | add | addw | sub | subw | and | or | xor | andn | neg | negw
  | sll | sllw | srl | srlw | sra | sraw | rol | rolw | ror | rorw
  | mul | mulw | mulh | mulhu | div | divw | divu | divuw | rem | remw | remu | remuw
  | seq | sne | slt | sltu | sge | sgeu
  | addi | addiw | andi | ori | xori | lui
  | slli | srli | srai | roli | slliw | srliw | sraiw | roliw
  | seqi | snei | slti | sltiu | sgei | sgeiu
  | ld | ldu | st | bz | bnz | j | jal | jr
  | movb | filb | cmpb | scnb
  | send | post | waitev | yield | rtn | rdtk | rdcy
  | prv
  deriving DecidableEq, Repr

/-! ### Fields -/

/-- Major opcode. -/
def fMajor (w : BitVec 32) : Nat := bitsAt w.toNat 26 6
/-- rd, rt or rs. -/
def fRd (w : BitVec 32) : Nat := bitsAt w.toNat 21 5
/-- ra. -/
def fRa (w : BitVec 32) : Nat := bitsAt w.toNat 16 5
/-- rb or rc. -/
def fRb (w : BitVec 32) : Nat := bitsAt w.toNat 11 5
/-- IMM16. -/
def fImm (w : BitVec 32) : BitVec 16 := w.extractLsb' 0 16
/-- sext(IMM16). -/
def immS (w : BitVec 32) : BitVec 64 := (fImm w).signExtend 64
/-- zext(IMM16). -/
def immZ (w : BitVec 32) : BitVec 64 := (fImm w).zeroExtend 64
/-- SPACE of an M word. -/
def fSpace (w : BitVec 32) : Nat := bitsAt w.toNat 14 2
/-- Bytes an M word accesses. -/
def fSize (w : BitVec 32) : Nat := 2 ^ bitsAt w.toNat 12 2
/-- sext(OFF) of an M word. -/
def fOff (w : BitVec 32) : Int := (w.extractLsb' 0 12).toInt
/-- 4 × sext(OFF21) of a B word. -/
def fOff21 (w : BitVec 32) : Int := 4 * (w.extractLsb' 0 21).toInt
/-- 4 × sext(OFF26) of a J word. -/
def fOff26 (w : BitVec 32) : Int := 4 * (w.extractLsb' 0 26).toInt
/-- Immediate shift count. -/
def fCount (w : BitVec 32) : Nat := bitsAt w.toNat 0 6
/-- DSP of a K word: STAGE rather than SCRATCH. -/
def fDsp (w : BitVec 32) : Bool := bitAt w.toNat 10
/-- SSP of a K word. -/
def fSsp (w : BitVec 32) : Bool := bitAt w.toNat 9
/-- Control register number of a P word. -/
def fCr (w : BitVec 32) : Nat := bitsAt w.toNat 4 12

/-! ### Operations by format -/

/-- OPR functions (R189): the function and its W form. -/
def oprFn : Nat → Bool → Option Op
  | 0x00, false => some .add
  | 0x00, true => some .addw
  | 0x01, false => some .sub
  | 0x01, true => some .subw
  | 0x02, false => some .and
  | 0x03, false => some .or
  | 0x04, false => some .xor
  | 0x05, false => some .andn
  | 0x06, false => some .neg
  | 0x06, true => some .negw
  | 0x08, false => some .sll
  | 0x08, true => some .sllw
  | 0x09, false => some .srl
  | 0x09, true => some .srlw
  | 0x0A, false => some .sra
  | 0x0A, true => some .sraw
  | 0x0B, false => some .rol
  | 0x0B, true => some .rolw
  | 0x0C, false => some .ror
  | 0x0C, true => some .rorw
  | 0x10, false => some .mul
  | 0x10, true => some .mulw
  | 0x11, false => some .mulh
  | 0x12, false => some .mulhu
  | 0x14, false => some .div
  | 0x14, true => some .divw
  | 0x15, false => some .divu
  | 0x15, true => some .divuw
  | 0x16, false => some .rem
  | 0x16, true => some .remw
  | 0x17, false => some .remu
  | 0x17, true => some .remuw
  | 0x18, false => some .seq
  | 0x19, false => some .sne
  | 0x1A, false => some .slt
  | 0x1B, false => some .sltu
  | 0x1C, false => some .sge
  | 0x1D, false => some .sgeu
  | _, _ => none

/-- R words (R187, R189): bits [10:7] zero, and the rb field of NEG. -/
def decodeR (w : BitVec 32) : Option Op :=
  if bitsAt w.toNat 7 4 ≠ 0 then none
  else match oprFn (bitsAt w.toNat 0 6) (bitAt w.toNat 6) with
    | some o => if (o = .neg ∨ o = .negw) ∧ fRb w ≠ 0 then none else some o
    | none => none

/-- Immediate shifts (R190). -/
def decodeShi (w : BitVec 32) : Option Op :=
  let k := bitsAt w.toNat 12 4
  if bitsAt w.toNat 6 6 ≠ 0 ∨ (4 ≤ k ∧ bitAt w.toNat 5) then none
  else match k with
    | 0 => some .slli
    | 1 => some .srli
    | 2 => some .srai
    | 3 => some .roli
    | 4 => some .slliw
    | 5 => some .srliw
    | 6 => some .sraiw
    | 7 => some .roliw
    | _ => none

/-- K words (R187, R197): reserved bits, changed registers that are g0 or named twice. -/
def decodeK (w : BitVec 32) : Option Op :=
  let d := fRd w
  let a := fRa w
  let c := fRb w
  let apart := d != a && d != c && a != c
  if bitsAt w.toNat 3 6 ≠ 0 then none
  else match bitsAt w.toNat 0 3 with
    | 0 => if apart && d != 0 && a != 0 && c != 0 then some .movb else none
    | 1 => if apart && d != 0 && c != 0 && !(fSsp w) then some .filb else none
    | 2 => if apart && d != 0 && a != 0 && c != 0 then some .cmpb else none
    | 3 => if apart && a != 0 && c != 0 && !(fDsp w) then some .scnb else none
    | _ => none

/-- S words (R187, R199): reserved bits and unused register fields. -/
def decodeS (w : BitVec 32) : Option Op :=
  let d := fRd w == 0
  let a := fRa w == 0
  let b := fRb w == 0
  if bitsAt w.toNat 4 7 ≠ 0 then none
  else match bitsAt w.toNat 0 4 with
    | 0 => if d && b then some .send else none
    | 1 => if d then some .post else none
    | 2 => some .waitev
    | 3 => if d && a && b then some .yield else none
    | 4 => if d && a && b then some .rtn else none
    | 5 => if a && b then some .rdtk else none
    | 6 => if a && b then some .rdcy else none
    | _ => none

/-- The operation a word spells; `none` is ILLEGAL wherever it runs (R187, R188). -/
def decodeOp (w : BitVec 32) : Option Op :=
  match fMajor w with
  | 0x00 => decodeR w
  | 0x01 => some .addi
  | 0x02 => some .addiw
  | 0x03 => some .andi
  | 0x04 => some .ori
  | 0x05 => some .xori
  | 0x06 => if fRa w = 0 then some .lui else none
  | 0x07 => decodeShi w
  | 0x08 => some .seqi
  | 0x09 => some .snei
  | 0x0A => some .slti
  | 0x0B => some .sltiu
  | 0x0C => some .sgei
  | 0x0D => some .sgeiu
  | 0x10 => some .ld
  | 0x11 => some .ldu
  | 0x12 => some .st
  | 0x18 => some .bz
  | 0x19 => some .bnz
  | 0x1A => some .j
  | 0x1B => some .jal
  | 0x1C => if fImm w = 0 then some .jr else none
  | 0x20 => decodeK w
  | 0x21 => decodeS w
  | 0x30 => some .prv
  | _ => none

/-- Operations no wings core runs (R207). -/
def wingsIllegal (o : Op) : Bool := o == .rtn || o == .send || o == .waitev || o == .yield

end Sys2Proof
end

