-- ==== Sys2Proof/Machine/Flags.lean ====
section
/-! DEFINITION. What the integer instructions compute (08, R189 to R191). The machine has no flag register: a compare
writes 0 or 1. -/

namespace Sys2Proof

/-- 1 or 0 (R190). -/
def bool64 (b : Bool) : Word := if b then 1 else 0

/-- sext(x[31:0]) (R189). -/
def sext32 (x : BitVec 32) : Word := x.signExtend 64

/-- x[31:0]. -/
def low32 (x : Word) : BitVec 32 := x.truncate 32

/-- Left shift; a count of the width or more gives 0 (R191). -/
def shl {n : Nat} (x : BitVec n) (c : Nat) : BitVec n := if n ≤ c then 0 else x <<< c

/-- Logical right shift. -/
def shr {n : Nat} (x : BitVec n) (c : Nat) : BitVec n := if n ≤ c then 0 else x >>> c

/-- Arithmetic right shift: sign fill from a count of the width on (R191). -/
def sar {n : Nat} (x : BitVec n) (c : Nat) : BitVec n := x.sshiftRight (min c n)

/-- Rotate left, count modulo the width (R191). -/
def rotl {n : Nat} (x : BitVec n) (c : Nat) : BitVec n := x.rotateLeft (c % n)

/-- Rotate right. -/
def rotr {n : Nat} (x : BitVec n) (c : Nat) : BitVec n := x.rotateRight (c % n)

/-- Signed quotient rounded toward zero; all ones by zero (R191). -/
def quoS {n : Nat} (a b : BitVec n) : BitVec n := if b = 0 then BitVec.allOnes n else a.sdiv b

/-- Unsigned quotient; all ones by zero (R191). -/
def quoU {n : Nat} (a b : BitVec n) : BitVec n := if b = 0 then BitVec.allOnes n else a / b

/-- Signed remainder; the dividend by zero (R189, R191). -/
def remS {n : Nat} (a b : BitVec n) : BitVec n := if b = 0 then a else a - b * a.sdiv b

/-- Unsigned remainder; the dividend by zero. -/
def remU {n : Nat} (a b : BitVec n) : BitVec n := if b = 0 then a else a - b * (a / b)

/-- High half of the signed product (R189). -/
def mulHighS (a b : Word) : Word := BitVec.ofInt 64 (a.toInt * b.toInt / (2 ^ 64 : Nat))

/-- High half of the unsigned product. -/
def mulHighU (a b : Word) : Word := BitVec.ofNat 64 (a.toNat * b.toNat / 2 ^ 64)

/-- The result of an integer operation on ra, rb and the word (R189, R190); `none` for an operation that is not one. -/
def aluVal (o : Op) (a b : Word) (w : BitVec 32) : Option Word :=
  let x := low32 a
  let y := low32 b
  let s := immS w
  let z := immZ w
  match o with
  | .add => some (a + b)
  | .addw => some (sext32 (x + y))
  | .sub => some (a - b)
  | .subw => some (sext32 (x - y))
  | .and => some (a &&& b)
  | .or => some (a ||| b)
  | .xor => some (a ^^^ b)
  | .andn => some (a &&& ~~~b)
  | .neg => some (0 - a)
  | .negw => some (sext32 (0 - x))
  | .sll => some (shl a b.toNat)
  | .sllw => some (sext32 (shl x y.toNat))
  | .srl => some (shr a b.toNat)
  | .srlw => some (sext32 (shr x y.toNat))
  | .sra => some (sar a b.toNat)
  | .sraw => some (sext32 (sar x y.toNat))
  | .rol => some (rotl a b.toNat)
  | .rolw => some (sext32 (rotl x y.toNat))
  | .ror => some (rotr a b.toNat)
  | .rorw => some (sext32 (rotr x y.toNat))
  | .mul => some (a * b)
  | .mulw => some (sext32 (x * y))
  | .mulh => some (mulHighS a b)
  | .mulhu => some (mulHighU a b)
  | .div => some (quoS a b)
  | .divw => some (sext32 (quoS x y))
  | .divu => some (quoU a b)
  | .divuw => some (sext32 (quoU x y))
  | .rem => some (remS a b)
  | .remw => some (sext32 (remS x y))
  | .remu => some (remU a b)
  | .remuw => some (sext32 (remU x y))
  | .seq => some (bool64 (a == b))
  | .sne => some (bool64 (a != b))
  | .slt => some (bool64 (a.slt b))
  | .sltu => some (bool64 (a.ult b))
  | .sge => some (bool64 (!(a.slt b)))
  | .sgeu => some (bool64 (!(a.ult b)))
  | .addi => some (a + s)
  | .addiw => some (sext32 (low32 (a + s)))
  | .andi => some (a &&& z)
  | .ori => some (a ||| z)
  | .xori => some (a ^^^ z)
  | .lui => some (sext32 (BitVec.ofNat 32 ((fImm w).toNat * 2 ^ 16)))
  | .slli => some (shl a (fCount w))
  | .srli => some (shr a (fCount w))
  | .srai => some (sar a (fCount w))
  | .roli => some (rotl a (fCount w))
  | .slliw => some (sext32 (shl x (fCount w)))
  | .srliw => some (sext32 (shr x (fCount w)))
  | .sraiw => some (sext32 (sar x (fCount w)))
  | .roliw => some (sext32 (rotl x (fCount w)))
  | .seqi => some (bool64 (a == s))
  | .snei => some (bool64 (a != s))
  | .slti => some (bool64 (a.slt s))
  | .sltiu => some (bool64 (a.ult s))
  | .sgei => some (bool64 (!(a.slt s)))
  | .sgeiu => some (bool64 (!(a.ult s)))
  | _ => none

/-- Whether an operation uses the divider (R185). -/
def usesDivider (o : Op) : Bool :=
  o == .div || o == .divw || o == .divu || o == .divuw || o == .rem || o == .remw || o == .remu || o == .remuw

/-- Latency of an integer operation in sc (R185). -/
def aluLatency (o : Op) : Nat :=
  if usesDivider o then 18
  else if o = .mul ∨ o = .mulw ∨ o = .mulh ∨ o = .mulhu then 3 else 1

end Sys2Proof
end

