-- ==== Sys2Proof/Config.lean ====
section
/-! DEFINITION. What an implementation or a die fixes, the values the spec leaves to randomness, and the
functions of the published standards the spec names without defining. Every constant here has no body: a
statement holds for every value (log entries 4, 6, 11). -/

namespace Sys2Proof

/-- The n-th value the entropy source or DRBG yields, 256 bits (R287): nonces, challenges, keys. A free value. -/
opaque Config.draw : Nat → BitVec 256

/-- IDN_LOT as fused (R276). -/
opaque Config.idnLot : BitVec 64

/-- WAFER, DIE_X and DIE_Y of IDN_POS as fused (R276). -/
opaque Config.idnPlace : BitVec 24

/-- TEST_REV of IDN_POS as fused (R276). -/
opaque Config.idnTestRev : BitVec 16

/-- IDN_POS bits [47:0] as fused (R276): STEPPING is that of the only part, B0 (R407). -/
def Config.idnPos : BitVec 48 := Config.idnTestRev ++ (0x10#8 ++ Config.idnPlace)

/-- The 128-bit die serial as fused (R276). -/
opaque Config.dieSerial : BitVec 128

/-- The CRC-16 as fused after the identity fields (R276). -/
opaque Config.identityCrc : BitVec 16

/-- The CRC-16 of R276 over a byte string; the spec gives no polynomial. -/
opaque Config.crc16 : List Byte → BitVec 16

/-- DEVICE_SECRET as fused (R276). -/
opaque Config.deviceSecret : BitVec 256

/-- DS_CHECK as fused (R276). -/
opaque Config.dsCheck : BitVec 32

/-- SHA-384 of a byte string (FIPS 180; named by R37, R285). -/
opaque Config.sha384 : List Byte → BitVec 384

/-- Verification under an algorithm of R290 (1 ML-DSA-65, 2 ML-DSA-87, 3 ECDSA P-384 over SHA-384): public key, context
string (none for ECDSA), message, signature (R37, R239, R291, R295, R300). -/
opaque Config.sigVerify : Nat → List Byte → List Byte → List Byte → List Byte → Bool

/-- The public key of ML-DSA.KeyGen_internal of FIPS 204 for ML-DSA-65 from a 32-byte seed (R286). -/
opaque Config.mldsaKey : List Byte → List Byte

/-- An ML-DSA-65 signature by the key of a seed: context string, message, and the number of the random value that FIPS
204 lets a signer mix in (R299). -/
opaque Config.mldsaSign : List Byte → List Byte → List Byte → Nat → List Byte

/-- HKDF-SHA-384 of RFC 5869: input keying material, salt, info and the length of the output (R239, R286). -/
opaque Config.hkdf384 : List Byte → List Byte → List Byte → Nat → List Byte

/-- AES-256-XTS of one 64-byte line under a key (named by a draw number) and a local address (R312): a bijection. -/
opaque Config.xts (key addr : Nat) : BitVec 512 ≃ BitVec 512

/-- First 8 bytes of AES-256-CMAC over address and ciphertext under a tag key (R313), before 0 becomes 1. -/
opaque Config.cmac (key addr : Nat) (c : BitVec 512) : BitVec 64

/-- Whether a low level of PORST_N of that many nanoseconds, 10 to 20, resets (R392 allows either). -/
opaque Config.porstGlitch : Nat → Bool

/-- The word index by which INFO of sources 0x010 and 0x011 names a voted word (R364 gives no numbering). -/
opaque Config.votedIndex : Nat → Nat → Nat

/-- An INFO value of R364 whose packing the table does not state, from its two items. -/
opaque Config.infoPack : Nat → Nat → Nat → Nat

/-- The device's local DRAM content of a line that was never written under its keys (R317): free. -/
opaque Config.stale : Nat → Nat → BitVec 640

/-- The ECDH P-384 public key and the ML-KEM-1024 encapsulation key of a link's ephemeral keys, by the number of their draw
(R238, R240). -/
opaque Config.linkShares : Nat → List Byte

/-- The ML-KEM-1024 shared secret and the ECDH x-coordinate that ephemeral keys give with the partner's public key and
ciphertext (R239). -/
opaque Config.linkSecret : Nat → List Byte → List Byte

/-- HMAC-SHA-384 under a key of a byte string (R239). -/
opaque Config.hmac384 : List Byte → List Byte → List Byte

/-- Byte i of the AES-256-GCM key stream of a key and a nonce, which encrypts byte i of the plaintext (R226). -/
opaque Config.gcmStream : List Byte → List Byte → Nat → Byte

/-- The AES-256-GCM tag of a key, a nonce, additional data and a ciphertext (R226). -/
opaque Config.gcmTag : List Byte → List Byte → List Byte → List Byte → List Byte

/-- The ERR code of word 3 that a SEND transfer ended by a mover block reset writes (R181, R200 give none): 1 to 7. -/
opaque Config.resetSendErr : Fin 7

/-- Bytes of stage space that the data of a READ or SENSE may take before it is placed (R237, R268): the spec gives no size (log
entry 107). -/
opaque Config.readSpace : Nat

/-- What the flash shows at an owner-view offset for the n-th read that brings no bytes with it: the flash content is
outside the state. A free value. -/
opaque Config.flashRead : Nat → Nat → BitVec 64

/-- What a boundary cell captures whose content R402 does not give: the n-th capture, by cell. A free value. -/
opaque Config.scanCell : Nat → Nat → Bool

/-- The POP values of the privileged operations (R187, R208 to R212 give none): CRD, CWR, CRS, CRC, RTE, WFI and CALLR have
those of 0 to 6; the values of 7 to 15 are undefined operations. -/
opaque Config.popCode : Fin 16 ≃ Fin 16

/-- The two bytes GETSTATUS answers for the n-th request (R400 gives no content). A free value. -/
opaque Config.i3cStatus : Nat → BitVec 16

/-- Value of a register or PCIe configuration field that the PCIe standard defines and the spec does not. -/
opaque Config.pcieCfgRead : Nat → Nat → BitVec 32

end Sys2Proof
end

