-- ==== Sys2Proof/Machine/Blocks.lean ====
section
/-! DEFINITION. The fuses, the security block, the memory controllers, mailboxes, trace, management buses, what
the loom drives on its ports, and `M`: every piece of state but the fuses, the loaded image and the queue. -/

namespace Sys2Proof

/-- One copy of the owner fuses (R276). -/
structure FuseCopy where
  hash : BitVec 384
  set : Bool
  svn : BitVec 64
  dbg : Bool
  deriving DecidableEq, Repr

/-- Unblown fuses: every bit reads 0 (R276). -/
def FuseCopy.blank : FuseCopy := ⟨0, false, 0, false⟩

/-- The owner fuses: three copies of each field (R276). -/
structure Fuses where
  c0 : FuseCopy
  c1 : FuseCopy
  c2 : FuseCopy
  deriving DecidableEq, Repr

/-- A part as shipped: every owner fuse unblown (11, "Fuses"). -/
def Fuses.blank : Fuses := ⟨FuseCopy.blank, FuseCopy.blank, FuseCopy.blank⟩

/-- A fuse field that can be blown (R402 FUSE). -/
inductive FuseField where
  | hash | set | svn | dbg
  deriving DecidableEq, Repr

/-- Blows one bit of one copy: the bit reads 1 after (R276). -/
def FuseCopy.blow (c : FuseCopy) (k : FuseField) (b : Nat) : FuseCopy :=
  match k with
  | .hash => { c with hash := c.hash ||| (1#384 <<< b) }
  | .set => { c with set := true }
  | .svn => { c with svn := c.svn ||| (1#64 <<< b) }
  | .dbg => { c with dbg := true }

/-- A bit of a copy as it reads (R276). -/
def FuseCopy.bit (c : FuseCopy) (k : FuseField) (b : Nat) : Bool :=
  match k with
  | .hash => c.hash.getLsbD b
  | .set => c.set
  | .svn => c.svn.getLsbD b
  | .dbg => c.dbg

/-- Copy n of the fuses. -/
def Fuses.copy (u : Fuses) (n : Nat) : FuseCopy := if n = 0 then u.c0 else if n = 1 then u.c1 else u.c2

/-- Blows one bit of copy n. -/
def Fuses.blow (u : Fuses) (n : Nat) (k : FuseField) (b : Nat) : Fuses :=
  if n = 0 then { u with c0 := u.c0.blow k b }
  else if n = 1 then { u with c1 := u.c1.blow k b }
  else { u with c2 := u.c2.blow k b }

/-- The security block beside its registers (11). `sensed` is the voted fuse content of the voted store; `cmds` the
submitted commands in the order taken (source, message), `ownerKey` the owner public key held since step 3 (R288), `fw` the source and start cycle of a FIRMWARE command that
waits for FINISH; `mbuf` and `resp` the message buffers and response areas of the ports; `owed` the draws that wait
for entropy; `sweepIn` the ticks until the next sweep of the voted store falls due and `sweepDue` whether one is due (R281);
`reseedIn` the ticks until the DRBG must be reseeded (R287). -/
structure SecSt where
  sensed : FuseCopy
  dsOk : Bool
  derived : Option (BitVec 384)
  ownerKey : List Byte
  cmds : List (Nat × List Byte)
  fw : Option (Nat × Nat)
  lastFw : Option Nat
  mbuf : Map Mem
  resp : Map (List Byte)
  accepted : Nat
  chipResetAt : Option Nat
  challenge : Nat
  tokSts : Nat
  debugSeen : Bool
  nonceOwed : List Nat
  chalOwed : Bool
  keyOwed : List Nat
  dkey : Map Nat
  erase : List Nat
  sweepIn : Nat
  sweepDue : Bool
  reseedIn : Nat
  deriving DecidableEq, Repr

/-- The security block with nothing sensed; no challenge exists before step 0 (R374). -/
def SecSt.init : SecSt :=
  { sensed := FuseCopy.blank, dsOk := false, derived := none, ownerKey := [], cmds := [], fw := none, lastFw := none, mbuf := [],
    resp := [], accepted := 0, chipResetAt := none, challenge := 0, tokSts := 0, debugSeen := false,
    nonceOwed := [], chalOwed := true, keyOwed := [], dkey := [], erase := [], sweepIn := 1024,
    sweepDue := false, reseedIn := 1024 }

/-- Local memory (12): bursts written under the keys in force by (channel, line index), cached tag lines not yet
written back by (channel, tag line index), the running scrub of each channel (FIRST, LAST), the channels refreshed at
double rate, the edge of each channel's last leak; by (channel, owner) the line accesses that wait (R62), by channel the
partition served last and the lines served since owner work had one, and the scrubber's bursts with their cycles (R323); the
channels whose devices are in self-refresh (R325). -/
structure MemSt where
  lines : Map (BitVec 640)
  tags : Map (BitVec 512)
  scrub : Map (Nat × Nat)
  double : List Nat
  leakAt : Map Nat
  pend : Map Nat
  turn : Map Nat
  since : Map Nat
  bursts : Map (List Nat)
  selfRef : List Nat
  deriving DecidableEq, Repr

/-- One mailbox FIFO (R344, R346): complete items with their unread words, and the open item with its length. -/
structure Mbx where
  items : List (List Nat)
  opened : Option (Nat × List Nat)
  deriving DecidableEq, Repr

/-- The trace FIFO (R355 to R358): stored words oldest first, and how many of them were read. -/
structure TrcSt where
  words : List Nat
  rd : Nat
  deriving DecidableEq, Repr

/-- I3C target and JTAG TAP (R400, R402); `wdbg` is 1 more than the core that owes a single step, 0 for none;
`byp` is the bypass register. -/
structure MgtSt where
  i3cAddr : Option Nat
  i3cOff : Nat
  ir : Nat
  regData : Nat
  regDone : Bool
  wdbg : Nat
  fuseBit : Bool
  byp : Bool
  deriving DecidableEq, Repr

/-- Pins the loom drives (R366, R56, R47, R256). -/
inductive Pin where
  | alive | faultN | thermtripN | tickOut | clkreqN (n : Nat) | hpTerm (n : Nat)
  deriving DecidableEq, Repr

/-- What a request TLP carries beside its address and data (R262). -/
structure TlpAttr where
  noSnoop : Bool
  relaxed : Bool
  ido : Bool
  ep : Bool
  tc : Nat
  deriving DecidableEq, Repr

/-- No Snoop 0, Relaxed Ordering 0, ID-Based Ordering 0, EP 0, TC0 (R262). -/
def loomAttr : TlpAttr := ⟨false, false, false, false, 0⟩

/-- What the loom drives on its ports, and what it answers (log entry 5). An access of local DRAM names its fabric port and
its tag (R10, R12). -/
inductive OutK where
  | memRd (p tag addr len : Nat) (attr : TlpAttr)
  | memWr (p addr : Nat) (data : List Byte) (attr : TlpAttr)
  | msix (p vector addr data : Nat) (attr : TlpAttr)
  | pme (p : Nat)
  | cfg (p : Nat) (data : Nat)
  | crs (p : Nat)
  | cplUr (p : Nat)
  | ltr (p latencyNs : Nat)
  | regData (v : View) (off : Nat) (data : List Byte)
  | regUr (v : View) (off : Nat)
  | flit (l type vl seq : Nat) (close kphase : Bool) (area raw : List Byte)
  | train (l lane payload : Nat)
  | idle (l : Nat)
  | pin (name : Pin) (level : Bool)
  | flash (op addr : Nat) (data : List Byte)
  | i3c (data : List Byte)
  | jtagIr (capture : Nat)
  | jtag (ir : Nat) (data : List Byte)
  | fabric (err : Bool) (dst : Nat) (data : List Byte)
  | dramRd (src own addr len : Nat)
  | dramWr (src own addr : Nat) (data : List Byte)
  | line (m : Nat) (res : Nat) (data : List Byte)
  | wakeHost (p : Nat)
  | l0p (p width : Nat)
  deriving DecidableEq, Repr

/-- Every piece of the loom's state but fuses, image and queue. `f` holds the register fields that differ from their
reset values, by (field number, instance); `cyc` what happened in this cycle to a field on which hardware and software can
meet, for R5: its value before the first event of the cycle, and what the events of the cycle alone recorded; `brst` the start cycle of each block reset in progress and `quiet` the last cycle of its QUIET
(R370), by (instance, core); `held` the register accesses that wait for a block reset (R380); `asks` the issue cycle and the
fault instance addressed (0 for one that no block reset concerns) of the last request to another block (R365), by (0, processor)
for a load, (1, channel) for a descriptor read, (2, thread) and (3, thread) for a cue and a list read, (4 + engine, element); `voteDead` the voted words in
three-way disagreement (R280), `served` by spindle the cycle after its last issue and the thread it served, and in a second row the cycle and threads that let
their turn pass (R184), `upset` what the copies of other voted words show since an upset that no read has met
yet (R279), and `glitch` the words whose next check the two comparators answer differently (R282), `tagGlitch`
the stage slices whose next owner-tag check does (R12). -/
structure M where
  f : Map Nat
  cyc : Map (Nat × Nat)
  now : Nat
  fresh : Nat
  out : List (Nat × OutK)
  react : List React
  boot : BootSt
  pins : PinSt
  tick : TickSt
  bud : BudSt
  brst : Map Nat
  quiet : Map Nat
  held : List Access
  asks : Map (Nat × Nat)
  irq : IrqSt
  host : Map HostSt
  rings : Map RingSt
  dispq : Map (List Nat)
  lastRing : Map Nat
  scripts : Map Script
  waits : List (Nat × Nat)
  attn : List (Nat × Nat)
  rhs : Map Rehearsal
  chans : Map ChanSt
  subq : Map (List Xfer)
  eng : Map Nat
  cpus : Map Cpu
  served : Map (Nat × Nat)
  scratch : Mem
  stage : Mem
  div : Map Nat
  links : Map LinkSt
  sec : SecSt
  voteDead : List VWord
  upset : List (VWord × Vote)
  glitch : List VWord
  tagGlitch : List Nat
  mem : MemSt
  mbx : Map Mbx
  evt : Map (List (Nat × Nat))
  trc : TrcSt
  mgt : MgtSt
  deriving DecidableEq, Repr

end Sys2Proof
end

