-- ==== Sys2Proof/Machine/Fields.lean ====
section
/-! DEFINITION. Every register field the spec's tables give, with its place, access code, reset value and the
resets that restore it (R4, R9). One constructor per field; the tables of chapters 02 to 17 row by row. A reset
cell that names a source instead of a number (image, fuse, measured, pin) is held as 0 until that source loads it
(log entry 3). -/

namespace Sys2Proof

/-- Access codes of R4. -/
inductive Acc where
  | ro | rw | rw1c | rw1s | rc | wo | rwl
  deriving DecidableEq, Repr

/-- The registers of the register map (chapter 16). -/
inductive Reg where
  | IMG_BOOT_STS | IMG_PORT_CTL | IMG_FLASH_CMD | IMG_FLASH_STS | IMG_CHECK | TCK_STS | TCK_COUNT | TCK_SYNC_CNT 
  | TCK_CAP_A | TCK_CAP_B | TCK_LAST_A | TCK_LAST_B | TCK_EXHAUST | CUE_EVENT | CUE_STATS | CUE_LAST_ERR 
  | SPC_CUES | SPC_SQUASH | SPC_RHS | SPC_RHS_MISS | SPC_CTL | SPC_LINK | RNG_CFG_A | RNG_CFG_B | RNG_STS 
  | RNG_ENABLE | RNG_CNT_A | RNG_CNT_B | RNG_DB | RNG_PTR | MOV_LIST | MOV_CFG | MOV_CTL | MOV_STS | MOV_LAST 
  | MOV_CNT | MOV_QSTS | SPN_RFAULT_A | SPN_RFAULT_B | SPN_RSTATS | WNG_CTL | LNK_CTL | LNK_STS | LNK_LANE 
  | LNK_CNT_A | LNK_CNT_B | LNK_OWN_TX | LNK_OWN_RX | LNK_OCT_CTL | LNK_OCT_STS | HPT_STS | HPT_CNT | IDN_LOT 
  | IDN_POS | IDN_SERIAL_LO | IDN_SERIAL_HI | SEC_STS | SEC_VOTE | OCMD_CTL | SEC_WCMD | OCMD_STS | SEC_WSTS 
  | OCMD_NONCE | SEC_WNONCE | SEC_FWCMD | MEM_CH_CTL | MEM_CH_STS | MEM_BUCKET | MEM_ERR_A | MEM_ERR_B 
  | MEM_ERR_ADDR | MEM_SCRUB_CTL | MEM_SCRUB_RANGE | MEM_SCRUB_SUM_A | MEM_SCRUB_SUM_B | MEM_SCRUB_SUM_C 
  | MEM_SCRUB_HIST | IRQ_CFG | IRQ_PEND_N | IRQ_PEND_F | IRQ_RPEND | IRQ_MASK_N | IRQ_MASK_F | IRQ_RMASK 
  | IRQ_ACT_N | IRQ_ACT_F | IRQ_RACT | IRQ_SENSE | IRQ_STRAY_ACK | IRQ_WCFG | IRQ_WCTL | IRQ_WPEND_N 
  | IRQ_WPEND_F | IRQ_WMASK_N | IRQ_WMASK_F | IRQ_WACT_N | IRQ_WACT_F | IRQ_WSENSE | IRQ_WSTRAY | MBX_TX_HEAD 
  | MBX_TX_DATA | MBX_WTX_HEAD | MBX_WTX_DATA | MBX_RX | MBX_WRX | MBX_STS | MBX_WSTS | MBX_CTL | MBX_WCTL 
  | TRC_EVT | TRC_EVT_STS | TRC_PUT | TRC_GET | TRC_CTL | TRC_STS | TRC_CNT | FLT_STS | FLT_FIRST_A 
  | FLT_FIRST_B | FLT_CNT | FLT_SRC | FLT_INJECT | PWR_CTL | PWR_PIN | PWR_RST_CAUSE | PWR_BRESET | BSTS 
  | IMG_SEQ | IMG_ROOT_HASH | PWR_TEMP | PWR_THERM
  deriving DecidableEq, Repr

/-- The fields of the register tables, named register then field. -/
inductive Fld where
  | IMG_BOOT_STS_SLOT | IMG_BOOT_STS_FALLBACK | IMG_BOOT_STS_LAST_STEP | IMG_BOOT_STS_RESULT0
  | IMG_BOOT_STS_RESULT1 | IMG_BOOT_STS_RELEASE_REFUSED | IMG_PORT_CTL_RELEASE | IMG_PORT_CTL_READY
  | IMG_PORT_CTL_LINKED | IMG_FLASH_CMD_OP | IMG_FLASH_CMD_ADDR | IMG_FLASH_CMD_SRC | IMG_FLASH_STS_BUSY
  | IMG_FLASH_STS_REFUSED | IMG_FLASH_STS_PROTECT | IMG_FLASH_STS_ERROR | IMG_CHECK_START | IMG_CHECK_SLOT
  | IMG_CHECK_BUSY | IMG_CHECK_DONE | IMG_CHECK_RESULT | TCK_STS_PERIOD | TCK_STS_SOURCE | TCK_STS_OUT_EN
  | TCK_STS_LOCKED | TCK_STS_LOST | TCK_STS_MISS_RUN | TCK_STS_OFFSET | TCK_COUNT_COUNT | TCK_SYNC_CNT_STRAY
  | TCK_SYNC_CNT_MISSED | TCK_CAP_A_SPINDLE_CYCLES | TCK_CAP_A_MOVER_BYTES | TCK_CAP_B_HOSTPORT_BYTES
  | TCK_CAP_B_STAGE_QUOTA | TCK_CAP_B_FRAME_SCALE | TCK_LAST_A_CYCLES | TCK_LAST_A_MOVER_BYTES
  | TCK_LAST_B_HOSTPORT_BYTES | TCK_LAST_B_STAGE_USED | TCK_LAST_B_FLITS | TCK_EXHAUST_CYCLES_OUT
  | TCK_EXHAUST_MOVER_OUT | TCK_EXHAUST_HOSTPORT_OUT | TCK_EXHAUST_FRAME_OUT | CUE_EVENT_EVENT
  | CUE_STATS_STARTED | CUE_STATS_FAILED | CUE_LAST_ERR_STATUS | CUE_LAST_ERR_DETAIL | CUE_LAST_ERR_DEVSTAT
  | CUE_LAST_ERR_TAG | SPC_CUES_SPECULATED | SPC_CUES_DISCARDED | SPC_SQUASH_SQUASHES | SPC_SQUASH_REFETCH
  | SPC_SQUASH_SQUASH_ERR | SPC_RHS_SENT | SPC_RHS_GO | SPC_RHS_STRIKE | SPC_RHS_AUTO | SPC_RHS_MISS_WITHDRAWN
  | SPC_RHS_MISS_NOT_SENT | SPC_RHS_MISS_PROTOCOL | SPC_CTL_RHS_OFF | SPC_LINK_OUTSTANDING | SPC_LINK_PEAK
  | SPC_LINK_STRAY | SPC_LINK_PROTOCOL | SPC_LINK_AUTO | RNG_CFG_A_BASE | RNG_CFG_B_KIND | RNG_CFG_B_EXPRESS
  | RNG_CFG_B_SIZE_LOG2 | RNG_CFG_B_STATUS_RING | RNG_CFG_B_VECTOR | RNG_STS_HEAD | RNG_STS_TAIL | RNG_STS_LAP
  | RNG_STS_BACKED_UP | RNG_STS_PHASE_ERR | RNG_STS_HEAD_ERR | RNG_STS_DB_ERR | RNG_STS_FETCH_ERR | RNG_STS_HELD
  | RNG_ENABLE_ENABLE | RNG_ENABLE_ENABLED | RNG_ENABLE_REFUSED | RNG_ENABLE_REASON | RNG_ENABLE_RING
  | RNG_CNT_A_DB_IGNORED | RNG_CNT_A_REQ_CHECK | RNG_CNT_A_PREFETCH_USED | RNG_CNT_A_PREFETCH_REFETCH
  | RNG_CNT_B_INLINE_USED | RNG_CNT_B_INLINE_MISS | RNG_CNT_B_FULL_EVENTS | RNG_DB_POS | RNG_DB_INLINE
  | RNG_PTR_HEAD | RNG_PTR_TAIL | RNG_PTR_LAP | RNG_PTR_BACKED_UP | MOV_LIST_LSPACE | MOV_LIST_LIST_BASE
  | MOV_CFG_TRIG | MOV_CFG_ARM | MOV_CFG_CHAIN_SRC | MOV_CFG_PERIOD | MOV_CFG_AS_PART | MOV_CFG_TRIG_HEAD
  | MOV_CTL_START | MOV_CTL_STOP | MOV_CTL_CLEAR | MOV_CTL_HEAD | MOV_STS_STATE | MOV_STS_KICK
  | MOV_STS_CFG_REFUSED | MOV_STS_CH_ERR | MOV_STS_CUR | MOV_LAST_INDEX | MOV_LAST_DSTATUS | MOV_LAST_ERR
  | MOV_LAST_BYTES_DONE | MOV_CNT_DONE | MOV_CNT_BAD | MOV_CNT_TRIG_MISSED | MOV_QSTS_USED | MOV_QSTS_PEAK
  | SPN_RFAULT_A_INDEX | SPN_RFAULT_A_DETAIL | SPN_RFAULT_A_PC | SPN_RFAULT_B_TVAL | SPN_RSTATS_CALLS
  | SPN_RSTATS_FAULTS | WNG_CTL_START | WNG_CTL_RUNNING | WNG_CTL_HALTED | WNG_CTL_REFUSED | WNG_CTL_ENTRY
  | LNK_CTL_DISABLE | LNK_CTL_REWIDEN | LNK_CTL_RETRY_NOW | LNK_CTL_REKEY_NOW | LNK_STS_STATE | LNK_STS_WIDTH
  | LNK_STS_REVERSED | LNK_STS_ACTIVE_LANE0 | LNK_STS_LAST_CAUSE | LNK_STS_CONSEQ | LNK_STS_REKEYING
  | LNK_STS_TX_GROUPS | LNK_LANE_STATE | LNK_LANE_POL_INV | LNK_LANE_ACTIVE | LNK_LANE_PRESET
  | LNK_LANE_CORR_SYM | LNK_CNT_A_REPLAYS | LNK_CNT_A_CRC_ERR | LNK_CNT_A_UNCORR | LNK_CNT_A_RETRAINS
  | LNK_CNT_B_PROTO | LNK_CNT_B_STRAY | LNK_CNT_B_DOWNS | LNK_CNT_B_REKEYS | LNK_OWN_TX_OFF | LNK_OWN_TX_LEN
  | LNK_OWN_TX_SEND | LNK_OWN_TX_REFUSED | LNK_OWN_RX_OFF | LNK_OWN_RX_RX_FULL | LNK_OWN_RX_RX_ACK
  | LNK_OWN_RX_RX_LEN | LNK_OCT_CTL_CAL | LNK_OCT_STS_CAL_DONE | LNK_OCT_STS_CALIBRATING | LNK_OCT_STS_CAL_FAIL
  | LNK_OCT_STS_FAIL_CAUSE | LNK_OCT_STS_HOLDS_LINK | HPT_STS_RATE | HPT_STS_FLIT | HPT_STS_WIDTH
  | HPT_STS_CUR_WIDTH | HPT_STS_LSTATE | HPT_STS_D3HOT | HPT_STS_BELOW_MIN | HPT_STS_DRAINING
  | HPT_STS_OWNER_RESET | HPT_STS_LAST_CAUSE | HPT_STS_QUARANTINED | HPT_CNT_LATE_CPL | HPT_CNT_CPL_TIMEOUT
  | HPT_CNT_PME_SENT | HPT_CNT_L1_EXITS | IDN_LOT_LOT | IDN_POS_WAFER | IDN_POS_DIE_X | IDN_POS_DIE_Y
  | IDN_POS_STEPPING | IDN_POS_TEST_REV | IDN_POS_IDN_BAD | IDN_SERIAL_LO_SERIAL | IDN_SERIAL_HI_SERIAL
  | SEC_STS_OWNER_SET | SEC_STS_FACTORY_OPEN | SEC_STS_DEBUG_DISABLE | SEC_STS_DS_OK | SEC_STS_DEBUG_ACTIVE
  | SEC_STS_CERT_MISMATCH | SEC_STS_ENTROPY_OK | SEC_STS_SVN_STEPS | SEC_STS_DEBUG_SCOPE | SEC_VOTE_CORRECTED
  | SEC_VOTE_SEVERE | SEC_VOTE_PATH_DIS | OCMD_CTL_SUBMIT | OCMD_CTL_LEN | SEC_WCMD_SUBMIT | SEC_WCMD_OFF
  | SEC_WCMD_LEN | OCMD_STS_BUSY | OCMD_STS_DONE | OCMD_STS_SUBMIT_LOST | OCMD_STS_RESULT | OCMD_STS_RESP_LEN
  | OCMD_STS_CTYPE | OCMD_STS_FW_CODE | SEC_WSTS_BUSY | SEC_WSTS_DONE | SEC_WSTS_SUBMIT_LOST | SEC_WSTS_RESULT
  | SEC_WSTS_RESP_LEN | SEC_WSTS_CTYPE | SEC_WSTS_FW_CODE | OCMD_NONCE_NONCE | SEC_WNONCE_NONCE | SEC_FWCMD_DEST
  | SEC_FWCMD_ARMED | SEC_FWCMD_PENDING | SEC_FWCMD_FINISH | SEC_FWCMD_LATE | SEC_FWCMD_SRC | SEC_FWCMD_RESP_LEN
  | SEC_FWCMD_FW_CODE | MEM_CH_CTL_TRAIN | MEM_CH_STS_PRESENT | MEM_CH_STS_TRAINED | MEM_CH_STS_TRAINING
  | MEM_CH_STS_TRAIN_FAIL | MEM_CH_STS_FAIL_CAUSE | MEM_CH_STS_FAIL_SUB | MEM_CH_STS_FAIL_RANK | MEM_CH_STS_RATE
  | MEM_CH_STS_CAPACITY | MEM_CH_STS_RANKS | MEM_BUCKET_DEPTH | MEM_BUCKET_LEAK_LOG2 | MEM_BUCKET_LEVEL
  | MEM_BUCKET_OVERFLOWS | MEM_ERR_A_CORRECTED | MEM_ERR_A_UNCORR | MEM_ERR_A_POISON_HIT | MEM_ERR_B_TAG_FAIL
  | MEM_ERR_B_SPEC_ERR | MEM_ERR_B_TAG_REBUILT | MEM_ERR_B_WRITE_ERR | MEM_ERR_ADDR_KIND | MEM_ERR_ADDR_VALID
  | MEM_ERR_ADDR_ADDR | MEM_SCRUB_CTL_START | MEM_SCRUB_CTL_STOP | MEM_SCRUB_CTL_BUSY | MEM_SCRUB_CTL_DONE
  | MEM_SCRUB_CTL_REFUSED | MEM_SCRUB_CTL_STOPPED | MEM_SCRUB_CTL_RATE | MEM_SCRUB_RANGE_FIRST
  | MEM_SCRUB_RANGE_LAST | MEM_SCRUB_SUM_A_LINES | MEM_SCRUB_SUM_A_CORRECTED | MEM_SCRUB_SUM_B_UNCORR
  | MEM_SCRUB_SUM_B_POISON_SEEN | MEM_SCRUB_SUM_C_FIRST_FAIL | MEM_SCRUB_SUM_C_LAST_FAIL
  | MEM_SCRUB_SUM_C_FAIL_VALID | MEM_SCRUB_HIST_POS0 | MEM_SCRUB_HIST_POS1 | MEM_SCRUB_HIST_POS2
  | MEM_SCRUB_HIST_POS3 | IRQ_CFG_GLOBAL_HOLD | IRQ_CFG_RING_SENSE | IRQ_CFG_LATE_MASK | IRQ_CFG_STRAY_ACK
  | IRQ_CFG_LOST | IRQ_PEND_N_PEND | IRQ_PEND_F_PEND | IRQ_RPEND_PEND | IRQ_MASK_N_MASK | IRQ_MASK_F_MASK
  | IRQ_RMASK_MASK | IRQ_ACT_N_ACT | IRQ_ACT_F_ACT | IRQ_RACT_ACT | IRQ_SENSE_SENSE | IRQ_STRAY_ACK_COUNT
  | IRQ_WCFG_ROUTE | IRQ_WCFG_LOST | IRQ_WCTL_GLOBAL_HOLD | IRQ_WCTL_CUR_N | IRQ_WCTL_CUR_F | IRQ_WPEND_N_PEND
  | IRQ_WPEND_F_PEND | IRQ_WMASK_N_MASK | IRQ_WMASK_F_MASK | IRQ_WACT_N_ACT | IRQ_WACT_F_ACT | IRQ_WSENSE_SENSE
  | IRQ_WSTRAY_COUNT | MBX_TX_HEAD_WORD | MBX_TX_DATA_WORD | MBX_WTX_HEAD_WORD | MBX_WTX_DATA_WORD | MBX_RX_WORD
  | MBX_WRX_WORD | MBX_STS_TX_ITEMS | MBX_STS_TX_FREE | MBX_STS_RX_ITEMS | MBX_STS_OVERRUN | MBX_STS_PTR_ERR_TX
  | MBX_STS_PTR_ERR_RX | MBX_STS_TORN | MBX_WSTS_TX_ITEMS | MBX_WSTS_TX_FREE | MBX_WSTS_RX_ITEMS
  | MBX_WSTS_OVERRUN | MBX_WSTS_PTR_ERR_TX | MBX_WSTS_PTR_ERR_RX | MBX_WSTS_TORN | MBX_CTL_FLUSH_TX
  | MBX_CTL_FLUSH_RX | MBX_WCTL_FLUSH_TX | MBX_WCTL_FLUSH_RX | TRC_EVT_ENTRY | TRC_EVT_STS_COUNT
  | TRC_EVT_STS_PTR_ERR | TRC_EVT_STS_LOST | TRC_PUT_WORD | TRC_GET_WORD | TRC_CTL_MARK | TRC_CTL_REWIND
  | TRC_STS_COUNT | TRC_STS_MARK_VALID | TRC_STS_MARK_LOST | TRC_STS_PTR_ERR | TRC_CNT_LOST | TRC_CNT_CORR
  | TRC_CNT_UNCORR | FLT_STS_SEEN | FLT_STS_ACTIVE | FLT_STS_SEV_MERGED | FLT_STS_NEIGHBOUR | FLT_FIRST_A_SRC
  | FLT_FIRST_A_SEVERE | FLT_FIRST_A_VALID | FLT_FIRST_A_REACT | FLT_FIRST_A_TICK | FLT_FIRST_B_INFO
  | FLT_CNT_MERGE | FLT_CNT_SEVERE | FLT_SRC_COUNT | FLT_SRC_AGE | FLT_SRC_EVENTS | FLT_INJECT_LOCAL
  | FLT_INJECT_GO | PWR_CTL_HUSH | PWR_CTL_HUSH_ACTIVE | PWR_CTL_BRESET_REFUSED | PWR_CTL_NMT_LOST
  | PWR_PIN_FAULT_LOW | PWR_PIN_ALIVE_FROZEN | PWR_PIN_ALIVE | PWR_PIN_PIN_SRC | PWR_RST_CAUSE_KIND
  | PWR_RST_CAUSE_SRC | PWR_BRESET_BLOCK | PWR_BRESET_GO | PWR_BRESET_CORE | BSTS_RSVD_WR | BSTS_LOCKED_WR
  | BSTS_FLASH_BUSY_RD | BSTS_FIRST_OFF | BSTS_SPACE | BSTS_OFF_VALID | IMG_SEQ_SEQ | IMG_ROOT_HASH_HASH
  | PWR_TEMP_T0 | PWR_TEMP_T1 | PWR_TEMP_T2 | PWR_TEMP_T3 | PWR_THERM_MAX | PWR_THERM_MAX_SENSOR
  | PWR_THERM_WARN | PWR_THERM_TRIP | PWR_THERM_VALID | PWR_THERM_PEAK
  deriving DecidableEq, Repr

/-- What a register table says of one field: register, lowest bit, width, access, reset value, the reset letters
C, F and B of its cell (every field with letters has P), and `own`: a field whose write or read has a row of its own
in the opcode table, which the plain register access leaves to that row. -/
structure FSpec where
  reg : Reg
  lo : Nat
  w : Nat
  acc : Acc
  rst : Nat
  c : Bool
  f : Bool
  b : Bool
  own : Bool
  deriving DecidableEq, Repr

/-- The register tables (R4, R9). -/
def fldSpec : Fld → FSpec
  | .IMG_BOOT_STS_SLOT => ⟨.IMG_BOOT_STS, 0, 1, .ro, 0, true, false, false, false⟩
  | .IMG_BOOT_STS_FALLBACK => ⟨.IMG_BOOT_STS, 1, 1, .ro, 0, true, false, false, false⟩
  | .IMG_BOOT_STS_LAST_STEP => ⟨.IMG_BOOT_STS, 4, 4, .ro, 0, true, false, false, false⟩
  | .IMG_BOOT_STS_RESULT0 => ⟨.IMG_BOOT_STS, 8, 8, .ro, 0, true, false, false, false⟩
  | .IMG_BOOT_STS_RESULT1 => ⟨.IMG_BOOT_STS, 16, 8, .ro, 0, true, false, false, false⟩
  | .IMG_BOOT_STS_RELEASE_REFUSED => ⟨.IMG_BOOT_STS, 24, 1, .rw1c, 0, true, false, false, false⟩
  | .IMG_PORT_CTL_RELEASE => ⟨.IMG_PORT_CTL, 0, 8, .rw1s, 0, true, false, false, true⟩
  | .IMG_PORT_CTL_READY => ⟨.IMG_PORT_CTL, 8, 8, .rw1s, 0, true, false, false, true⟩
  | .IMG_PORT_CTL_LINKED => ⟨.IMG_PORT_CTL, 16, 8, .ro, 0, true, false, false, false⟩
  | .IMG_FLASH_CMD_OP => ⟨.IMG_FLASH_CMD, 0, 2, .wo, 0, false, false, false, true⟩
  | .IMG_FLASH_CMD_ADDR => ⟨.IMG_FLASH_CMD, 8, 25, .wo, 0, false, false, false, true⟩
  | .IMG_FLASH_CMD_SRC => ⟨.IMG_FLASH_CMD, 48, 16, .wo, 0, false, false, false, true⟩
  | .IMG_FLASH_STS_BUSY => ⟨.IMG_FLASH_STS, 0, 1, .ro, 0, true, false, false, false⟩
  | .IMG_FLASH_STS_REFUSED => ⟨.IMG_FLASH_STS, 1, 1, .rw1c, 0, true, false, false, false⟩
  | .IMG_FLASH_STS_PROTECT => ⟨.IMG_FLASH_STS, 2, 1, .rw1c, 0, true, false, false, false⟩
  | .IMG_FLASH_STS_ERROR => ⟨.IMG_FLASH_STS, 3, 1, .rw1c, 0, true, false, false, false⟩
  | .IMG_CHECK_START => ⟨.IMG_CHECK, 0, 1, .rw1s, 0, true, false, false, true⟩
  | .IMG_CHECK_SLOT => ⟨.IMG_CHECK, 1, 1, .rw, 0, true, false, false, false⟩
  | .IMG_CHECK_BUSY => ⟨.IMG_CHECK, 2, 1, .ro, 0, true, false, false, false⟩
  | .IMG_CHECK_DONE => ⟨.IMG_CHECK, 3, 1, .rw1c, 0, true, false, false, false⟩
  | .IMG_CHECK_RESULT => ⟨.IMG_CHECK, 8, 8, .ro, 0, true, false, false, false⟩
  | .TCK_STS_PERIOD => ⟨.TCK_STS, 0, 15, .ro, 0, true, false, false, false⟩
  | .TCK_STS_SOURCE => ⟨.TCK_STS, 15, 1, .ro, 0, true, false, false, false⟩
  | .TCK_STS_OUT_EN => ⟨.TCK_STS, 16, 1, .ro, 0, true, false, false, false⟩
  | .TCK_STS_LOCKED => ⟨.TCK_STS, 17, 1, .ro, 0, true, false, false, false⟩
  | .TCK_STS_LOST => ⟨.TCK_STS, 18, 1, .rw1c, 0, true, false, false, false⟩
  | .TCK_STS_MISS_RUN => ⟨.TCK_STS, 32, 4, .ro, 0, true, false, false, false⟩
  | .TCK_STS_OFFSET => ⟨.TCK_STS, 48, 16, .ro, 0, true, false, false, false⟩
  | .TCK_COUNT_COUNT => ⟨.TCK_COUNT, 0, 64, .ro, 0, true, false, false, false⟩
  | .TCK_SYNC_CNT_STRAY => ⟨.TCK_SYNC_CNT, 0, 32, .rc, 0, true, false, false, false⟩
  | .TCK_SYNC_CNT_MISSED => ⟨.TCK_SYNC_CNT, 32, 32, .rc, 0, true, false, false, false⟩
  | .TCK_CAP_A_SPINDLE_CYCLES => ⟨.TCK_CAP_A, 0, 32, .rw, 0, true, false, false, false⟩
  | .TCK_CAP_A_MOVER_BYTES => ⟨.TCK_CAP_A, 32, 32, .rw, 0, true, false, false, false⟩
  | .TCK_CAP_B_HOSTPORT_BYTES => ⟨.TCK_CAP_B, 0, 32, .rw, 0, true, false, false, false⟩
  | .TCK_CAP_B_STAGE_QUOTA => ⟨.TCK_CAP_B, 32, 16, .rw, 0, true, false, false, false⟩
  | .TCK_CAP_B_FRAME_SCALE => ⟨.TCK_CAP_B, 48, 8, .rw, 0x80, true, false, false, false⟩
  | .TCK_LAST_A_CYCLES => ⟨.TCK_LAST_A, 0, 32, .ro, 0, true, true, false, false⟩
  | .TCK_LAST_A_MOVER_BYTES => ⟨.TCK_LAST_A, 32, 32, .ro, 0, true, true, false, false⟩
  | .TCK_LAST_B_HOSTPORT_BYTES => ⟨.TCK_LAST_B, 0, 32, .ro, 0, true, true, false, false⟩
  | .TCK_LAST_B_STAGE_USED => ⟨.TCK_LAST_B, 32, 16, .ro, 0, true, true, false, false⟩
  | .TCK_LAST_B_FLITS => ⟨.TCK_LAST_B, 48, 16, .ro, 0, true, true, false, false⟩
  | .TCK_EXHAUST_CYCLES_OUT => ⟨.TCK_EXHAUST, 0, 16, .rc, 0, true, true, false, false⟩
  | .TCK_EXHAUST_MOVER_OUT => ⟨.TCK_EXHAUST, 16, 16, .rc, 0, true, true, false, false⟩
  | .TCK_EXHAUST_HOSTPORT_OUT => ⟨.TCK_EXHAUST, 32, 16, .rc, 0, true, true, false, false⟩
  | .TCK_EXHAUST_FRAME_OUT => ⟨.TCK_EXHAUST, 48, 16, .rc, 0, true, true, false, false⟩
  | .CUE_EVENT_EVENT => ⟨.CUE_EVENT, 0, 64, .rw1s, 0, true, true, false, true⟩
  | .CUE_STATS_STARTED => ⟨.CUE_STATS, 0, 32, .rc, 0, true, true, false, false⟩
  | .CUE_STATS_FAILED => ⟨.CUE_STATS, 32, 32, .rc, 0, true, true, false, false⟩
  | .CUE_LAST_ERR_STATUS => ⟨.CUE_LAST_ERR, 0, 8, .ro, 0, true, true, false, false⟩
  | .CUE_LAST_ERR_DETAIL => ⟨.CUE_LAST_ERR, 8, 8, .ro, 0, true, true, false, false⟩
  | .CUE_LAST_ERR_DEVSTAT => ⟨.CUE_LAST_ERR, 16, 8, .ro, 0, true, true, false, false⟩
  | .CUE_LAST_ERR_TAG => ⟨.CUE_LAST_ERR, 32, 32, .ro, 0, true, true, false, false⟩
  | .SPC_CUES_SPECULATED => ⟨.SPC_CUES, 0, 32, .rc, 0, true, true, false, false⟩
  | .SPC_CUES_DISCARDED => ⟨.SPC_CUES, 32, 32, .rc, 0, true, true, false, false⟩
  | .SPC_SQUASH_SQUASHES => ⟨.SPC_SQUASH, 0, 32, .rc, 0, true, true, false, false⟩
  | .SPC_SQUASH_REFETCH => ⟨.SPC_SQUASH, 32, 16, .rc, 0, true, true, false, false⟩
  | .SPC_SQUASH_SQUASH_ERR => ⟨.SPC_SQUASH, 48, 16, .rc, 0, true, true, false, false⟩
  | .SPC_RHS_SENT => ⟨.SPC_RHS, 0, 16, .rc, 0, true, true, false, false⟩
  | .SPC_RHS_GO => ⟨.SPC_RHS, 16, 16, .rc, 0, true, true, false, false⟩
  | .SPC_RHS_STRIKE => ⟨.SPC_RHS, 32, 16, .rc, 0, true, true, false, false⟩
  | .SPC_RHS_AUTO => ⟨.SPC_RHS, 48, 16, .rc, 0, true, true, false, false⟩
  | .SPC_RHS_MISS_WITHDRAWN => ⟨.SPC_RHS_MISS, 0, 16, .rc, 0, true, true, false, false⟩
  | .SPC_RHS_MISS_NOT_SENT => ⟨.SPC_RHS_MISS, 16, 16, .rc, 0, true, true, false, false⟩
  | .SPC_RHS_MISS_PROTOCOL => ⟨.SPC_RHS_MISS, 32, 16, .rc, 0, true, true, false, false⟩
  | .SPC_CTL_RHS_OFF => ⟨.SPC_CTL, 0, 8, .rw, 0, true, false, false, false⟩
  | .SPC_LINK_OUTSTANDING => ⟨.SPC_LINK, 0, 7, .ro, 0, true, false, false, false⟩
  | .SPC_LINK_PEAK => ⟨.SPC_LINK, 8, 7, .rc, 0, true, false, false, false⟩
  | .SPC_LINK_STRAY => ⟨.SPC_LINK, 16, 16, .rc, 0, true, false, false, false⟩
  | .SPC_LINK_PROTOCOL => ⟨.SPC_LINK, 32, 16, .rc, 0, true, false, false, false⟩
  | .SPC_LINK_AUTO => ⟨.SPC_LINK, 48, 16, .rc, 0, true, false, false, false⟩
  | .RNG_CFG_A_BASE => ⟨.RNG_CFG_A, 6, 58, .rwl, 0, true, true, false, false⟩
  | .RNG_CFG_B_KIND => ⟨.RNG_CFG_B, 0, 2, .rwl, 0, true, true, false, false⟩
  | .RNG_CFG_B_EXPRESS => ⟨.RNG_CFG_B, 2, 1, .rwl, 0, true, true, false, false⟩
  | .RNG_CFG_B_SIZE_LOG2 => ⟨.RNG_CFG_B, 8, 5, .rwl, 0, true, true, false, false⟩
  | .RNG_CFG_B_STATUS_RING => ⟨.RNG_CFG_B, 16, 16, .rwl, 0, true, true, false, false⟩
  | .RNG_CFG_B_VECTOR => ⟨.RNG_CFG_B, 32, 11, .rwl, 0, true, true, false, false⟩
  | .RNG_STS_HEAD => ⟨.RNG_STS, 0, 16, .ro, 0, true, true, false, false⟩
  | .RNG_STS_TAIL => ⟨.RNG_STS, 16, 16, .ro, 0, true, true, false, false⟩
  | .RNG_STS_LAP => ⟨.RNG_STS, 32, 1, .ro, 1, true, true, false, false⟩
  | .RNG_STS_BACKED_UP => ⟨.RNG_STS, 33, 1, .ro, 0, true, true, false, false⟩
  | .RNG_STS_PHASE_ERR => ⟨.RNG_STS, 34, 1, .rw1c, 0, true, true, false, false⟩
  | .RNG_STS_HEAD_ERR => ⟨.RNG_STS, 35, 1, .rw1c, 0, true, true, false, false⟩
  | .RNG_STS_DB_ERR => ⟨.RNG_STS, 36, 1, .rw1c, 0, true, true, false, false⟩
  | .RNG_STS_FETCH_ERR => ⟨.RNG_STS, 37, 1, .rw1c, 0, true, true, false, false⟩
  | .RNG_STS_HELD => ⟨.RNG_STS, 44, 20, .ro, 0, true, true, false, false⟩
  | .RNG_ENABLE_ENABLE => ⟨.RNG_ENABLE, 0, 1, .rw1s, 0, true, true, false, true⟩
  | .RNG_ENABLE_ENABLED => ⟨.RNG_ENABLE, 1, 1, .ro, 0, true, true, false, false⟩
  | .RNG_ENABLE_REFUSED => ⟨.RNG_ENABLE, 2, 1, .rw1c, 0, true, true, false, false⟩
  | .RNG_ENABLE_REASON => ⟨.RNG_ENABLE, 8, 3, .ro, 0, true, true, false, false⟩
  | .RNG_ENABLE_RING => ⟨.RNG_ENABLE, 32, 16, .ro, 0, true, true, false, false⟩
  | .RNG_CNT_A_DB_IGNORED => ⟨.RNG_CNT_A, 0, 16, .rc, 0, true, true, false, false⟩
  | .RNG_CNT_A_REQ_CHECK => ⟨.RNG_CNT_A, 16, 16, .rc, 0, true, true, false, false⟩
  | .RNG_CNT_A_PREFETCH_USED => ⟨.RNG_CNT_A, 32, 16, .rc, 0, true, true, false, false⟩
  | .RNG_CNT_A_PREFETCH_REFETCH => ⟨.RNG_CNT_A, 48, 16, .rc, 0, true, true, false, false⟩
  | .RNG_CNT_B_INLINE_USED => ⟨.RNG_CNT_B, 0, 16, .rc, 0, true, true, false, false⟩
  | .RNG_CNT_B_INLINE_MISS => ⟨.RNG_CNT_B, 16, 16, .rc, 0, true, true, false, false⟩
  | .RNG_CNT_B_FULL_EVENTS => ⟨.RNG_CNT_B, 32, 16, .rc, 0, true, true, false, false⟩
  | .RNG_DB_POS => ⟨.RNG_DB, 0, 16, .wo, 0, false, false, false, true⟩
  | .RNG_DB_INLINE => ⟨.RNG_DB, 63, 1, .wo, 0, false, false, false, true⟩
  | .RNG_PTR_HEAD => ⟨.RNG_PTR, 0, 16, .ro, 0, true, true, false, false⟩
  | .RNG_PTR_TAIL => ⟨.RNG_PTR, 16, 16, .ro, 0, true, true, false, false⟩
  | .RNG_PTR_LAP => ⟨.RNG_PTR, 32, 1, .ro, 1, true, true, false, false⟩
  | .RNG_PTR_BACKED_UP => ⟨.RNG_PTR, 33, 1, .ro, 0, true, true, false, false⟩
  | .MOV_LIST_LSPACE => ⟨.MOV_LIST, 0, 4, .rw, 0, true, true, false, true⟩
  | .MOV_LIST_LIST_BASE => ⟨.MOV_LIST, 5, 59, .rw, 0, true, true, false, true⟩
  | .MOV_CFG_TRIG => ⟨.MOV_CFG, 0, 2, .rw, 0, true, true, false, true⟩
  | .MOV_CFG_ARM => ⟨.MOV_CFG, 2, 1, .rw, 0, true, true, false, true⟩
  | .MOV_CFG_CHAIN_SRC => ⟨.MOV_CFG, 8, 10, .rw, 0, true, true, false, true⟩
  | .MOV_CFG_PERIOD => ⟨.MOV_CFG, 24, 16, .rw, 0, true, true, false, true⟩
  | .MOV_CFG_AS_PART => ⟨.MOV_CFG, 40, 4, .rw, 8, true, true, false, true⟩
  | .MOV_CFG_TRIG_HEAD => ⟨.MOV_CFG, 44, 20, .rw, 0, true, true, false, true⟩
  | .MOV_CTL_START => ⟨.MOV_CTL, 0, 1, .wo, 0, false, false, false, true⟩
  | .MOV_CTL_STOP => ⟨.MOV_CTL, 1, 1, .wo, 0, false, false, false, true⟩
  | .MOV_CTL_CLEAR => ⟨.MOV_CTL, 2, 1, .wo, 0, false, false, false, true⟩
  | .MOV_CTL_HEAD => ⟨.MOV_CTL, 32, 20, .wo, 0, false, false, false, true⟩
  | .MOV_STS_STATE => ⟨.MOV_STS, 0, 2, .ro, 0, true, true, false, false⟩
  | .MOV_STS_KICK => ⟨.MOV_STS, 2, 1, .ro, 0, true, true, false, false⟩
  | .MOV_STS_CFG_REFUSED => ⟨.MOV_STS, 3, 1, .rw1c, 0, true, true, false, false⟩
  | .MOV_STS_CH_ERR => ⟨.MOV_STS, 4, 4, .ro, 0, true, true, false, false⟩
  | .MOV_STS_CUR => ⟨.MOV_STS, 8, 20, .ro, 0, true, true, false, false⟩
  | .MOV_LAST_INDEX => ⟨.MOV_LAST, 0, 20, .ro, 0, true, true, false, false⟩
  | .MOV_LAST_DSTATUS => ⟨.MOV_LAST, 20, 4, .ro, 0, true, true, false, false⟩
  | .MOV_LAST_ERR => ⟨.MOV_LAST, 24, 4, .ro, 0, true, true, false, false⟩
  | .MOV_LAST_BYTES_DONE => ⟨.MOV_LAST, 32, 32, .ro, 0, true, true, false, false⟩
  | .MOV_CNT_DONE => ⟨.MOV_CNT, 0, 32, .rc, 0, true, true, false, false⟩
  | .MOV_CNT_BAD => ⟨.MOV_CNT, 32, 16, .rc, 0, true, true, false, false⟩
  | .MOV_CNT_TRIG_MISSED => ⟨.MOV_CNT, 48, 16, .rc, 0, true, true, false, false⟩
  | .MOV_QSTS_USED => ⟨.MOV_QSTS, 0, 12, .ro, 0, true, false, false, false⟩
  | .MOV_QSTS_PEAK => ⟨.MOV_QSTS, 16, 12, .rc, 0, true, false, false, false⟩
  | .SPN_RFAULT_A_INDEX => ⟨.SPN_RFAULT_A, 0, 16, .ro, 0, true, true, false, false⟩
  | .SPN_RFAULT_A_DETAIL => ⟨.SPN_RFAULT_A, 16, 8, .ro, 0, true, true, false, false⟩
  | .SPN_RFAULT_A_PC => ⟨.SPN_RFAULT_A, 32, 32, .ro, 0, true, true, false, false⟩
  | .SPN_RFAULT_B_TVAL => ⟨.SPN_RFAULT_B, 0, 64, .ro, 0, true, true, false, false⟩
  | .SPN_RSTATS_CALLS => ⟨.SPN_RSTATS, 0, 32, .rc, 0, true, true, false, false⟩
  | .SPN_RSTATS_FAULTS => ⟨.SPN_RSTATS, 32, 32, .rc, 0, true, true, false, false⟩
  | .WNG_CTL_START => ⟨.WNG_CTL, 0, 1, .rw1s, 0, true, false, true, true⟩
  | .WNG_CTL_RUNNING => ⟨.WNG_CTL, 1, 1, .ro, 0, true, false, true, false⟩
  | .WNG_CTL_HALTED => ⟨.WNG_CTL, 2, 1, .ro, 0, true, false, true, false⟩
  | .WNG_CTL_REFUSED => ⟨.WNG_CTL, 3, 1, .rw1c, 0, true, false, true, false⟩
  | .WNG_CTL_ENTRY => ⟨.WNG_CTL, 32, 32, .rw, 0, true, false, true, false⟩
  | .LNK_CTL_DISABLE => ⟨.LNK_CTL, 0, 1, .rw, 0, true, false, false, true⟩
  | .LNK_CTL_REWIDEN => ⟨.LNK_CTL, 1, 1, .rw1s, 0, true, false, true, true⟩
  | .LNK_CTL_RETRY_NOW => ⟨.LNK_CTL, 2, 1, .rw1s, 0, true, false, true, true⟩
  | .LNK_CTL_REKEY_NOW => ⟨.LNK_CTL, 3, 1, .rw1s, 0, true, false, true, true⟩
  | .LNK_STS_STATE => ⟨.LNK_STS, 0, 3, .ro, 0, true, false, true, false⟩
  | .LNK_STS_WIDTH => ⟨.LNK_STS, 3, 4, .ro, 0, true, false, true, false⟩
  | .LNK_STS_REVERSED => ⟨.LNK_STS, 7, 1, .ro, 0, true, false, true, false⟩
  | .LNK_STS_ACTIVE_LANE0 => ⟨.LNK_STS, 8, 8, .ro, 0, true, false, true, false⟩
  | .LNK_STS_LAST_CAUSE => ⟨.LNK_STS, 16, 4, .ro, 0, true, false, true, false⟩
  | .LNK_STS_CONSEQ => ⟨.LNK_STS, 20, 1, .ro, 0, true, false, true, false⟩
  | .LNK_STS_REKEYING => ⟨.LNK_STS, 21, 1, .ro, 0, true, false, true, false⟩
  | .LNK_STS_TX_GROUPS => ⟨.LNK_STS, 32, 32, .ro, 0, true, false, true, false⟩
  | .LNK_LANE_STATE => ⟨.LNK_LANE, 0, 4, .ro, 0, true, false, true, false⟩
  | .LNK_LANE_POL_INV => ⟨.LNK_LANE, 4, 1, .ro, 0, true, false, true, false⟩
  | .LNK_LANE_ACTIVE => ⟨.LNK_LANE, 5, 1, .ro, 0, true, false, true, false⟩
  | .LNK_LANE_PRESET => ⟨.LNK_LANE, 8, 4, .ro, 0, true, false, true, false⟩
  | .LNK_LANE_CORR_SYM => ⟨.LNK_LANE, 32, 32, .rc, 0, true, false, true, false⟩
  | .LNK_CNT_A_REPLAYS => ⟨.LNK_CNT_A, 0, 16, .rc, 0, true, false, true, false⟩
  | .LNK_CNT_A_CRC_ERR => ⟨.LNK_CNT_A, 16, 16, .rc, 0, true, false, true, false⟩
  | .LNK_CNT_A_UNCORR => ⟨.LNK_CNT_A, 32, 16, .rc, 0, true, false, true, false⟩
  | .LNK_CNT_A_RETRAINS => ⟨.LNK_CNT_A, 48, 16, .rc, 0, true, false, true, false⟩
  | .LNK_CNT_B_PROTO => ⟨.LNK_CNT_B, 0, 16, .rc, 0, true, false, true, false⟩
  | .LNK_CNT_B_STRAY => ⟨.LNK_CNT_B, 16, 16, .rc, 0, true, false, true, false⟩
  | .LNK_CNT_B_DOWNS => ⟨.LNK_CNT_B, 32, 16, .rc, 0, true, false, true, false⟩
  | .LNK_CNT_B_REKEYS => ⟨.LNK_CNT_B, 48, 16, .rc, 0, true, false, true, false⟩
  | .LNK_OWN_TX_OFF => ⟨.LNK_OWN_TX, 0, 25, .rw, 0, true, false, true, false⟩
  | .LNK_OWN_TX_LEN => ⟨.LNK_OWN_TX, 32, 16, .rw, 0, true, false, true, false⟩
  | .LNK_OWN_TX_SEND => ⟨.LNK_OWN_TX, 48, 1, .rw1s, 0, true, false, true, true⟩
  | .LNK_OWN_TX_REFUSED => ⟨.LNK_OWN_TX, 49, 1, .rw1c, 0, true, false, true, false⟩
  | .LNK_OWN_RX_OFF => ⟨.LNK_OWN_RX, 0, 25, .rw, 0, true, false, true, false⟩
  | .LNK_OWN_RX_RX_FULL => ⟨.LNK_OWN_RX, 25, 1, .ro, 0, true, false, true, false⟩
  | .LNK_OWN_RX_RX_ACK => ⟨.LNK_OWN_RX, 26, 1, .rw1s, 0, true, false, true, true⟩
  | .LNK_OWN_RX_RX_LEN => ⟨.LNK_OWN_RX, 32, 16, .ro, 0, true, false, true, false⟩
  | .LNK_OCT_CTL_CAL => ⟨.LNK_OCT_CTL, 0, 1, .rw1s, 0, true, false, false, true⟩
  | .LNK_OCT_STS_CAL_DONE => ⟨.LNK_OCT_STS, 0, 1, .ro, 0, true, false, false, false⟩
  | .LNK_OCT_STS_CALIBRATING => ⟨.LNK_OCT_STS, 1, 1, .ro, 0, true, false, false, false⟩
  | .LNK_OCT_STS_CAL_FAIL => ⟨.LNK_OCT_STS, 2, 1, .rw1c, 0, true, false, false, false⟩
  | .LNK_OCT_STS_FAIL_CAUSE => ⟨.LNK_OCT_STS, 3, 2, .ro, 0, true, false, false, false⟩
  | .LNK_OCT_STS_HOLDS_LINK => ⟨.LNK_OCT_STS, 5, 1, .ro, 0, true, false, false, false⟩
  | .HPT_STS_RATE => ⟨.HPT_STS, 0, 4, .ro, 0, true, false, false, false⟩
  | .HPT_STS_FLIT => ⟨.HPT_STS, 4, 1, .ro, 0, true, false, false, false⟩
  | .HPT_STS_WIDTH => ⟨.HPT_STS, 5, 5, .ro, 0, true, false, false, false⟩
  | .HPT_STS_CUR_WIDTH => ⟨.HPT_STS, 10, 5, .ro, 0, true, false, false, false⟩
  | .HPT_STS_LSTATE => ⟨.HPT_STS, 16, 2, .ro, 0, true, false, false, false⟩
  | .HPT_STS_D3HOT => ⟨.HPT_STS, 18, 1, .ro, 0, true, true, false, false⟩
  | .HPT_STS_BELOW_MIN => ⟨.HPT_STS, 19, 1, .ro, 0, true, false, false, false⟩
  | .HPT_STS_DRAINING => ⟨.HPT_STS, 20, 1, .ro, 0, true, false, false, false⟩
  | .HPT_STS_OWNER_RESET => ⟨.HPT_STS, 21, 1, .rw1c, 0, true, false, false, false⟩
  | .HPT_STS_LAST_CAUSE => ⟨.HPT_STS, 22, 4, .ro, 0, true, false, false, false⟩
  | .HPT_STS_QUARANTINED => ⟨.HPT_STS, 26, 10, .ro, 0, true, false, false, false⟩
  | .HPT_CNT_LATE_CPL => ⟨.HPT_CNT, 0, 16, .rc, 0, true, false, false, false⟩
  | .HPT_CNT_CPL_TIMEOUT => ⟨.HPT_CNT, 16, 16, .rc, 0, true, true, false, false⟩
  | .HPT_CNT_PME_SENT => ⟨.HPT_CNT, 32, 16, .rc, 0, true, true, false, false⟩
  | .HPT_CNT_L1_EXITS => ⟨.HPT_CNT, 48, 16, .rc, 0, true, true, false, false⟩
  | .IDN_LOT_LOT => ⟨.IDN_LOT, 0, 64, .ro, 0, true, false, false, false⟩
  | .IDN_POS_WAFER => ⟨.IDN_POS, 0, 8, .ro, 0, true, false, false, false⟩
  | .IDN_POS_DIE_X => ⟨.IDN_POS, 8, 8, .ro, 0, true, false, false, false⟩
  | .IDN_POS_DIE_Y => ⟨.IDN_POS, 16, 8, .ro, 0, true, false, false, false⟩
  | .IDN_POS_STEPPING => ⟨.IDN_POS, 24, 8, .ro, 0, true, false, false, false⟩
  | .IDN_POS_TEST_REV => ⟨.IDN_POS, 32, 16, .ro, 0, true, false, false, false⟩
  | .IDN_POS_IDN_BAD => ⟨.IDN_POS, 48, 1, .ro, 0, true, false, false, false⟩
  | .IDN_SERIAL_LO_SERIAL => ⟨.IDN_SERIAL_LO, 0, 64, .ro, 0, true, false, false, false⟩
  | .IDN_SERIAL_HI_SERIAL => ⟨.IDN_SERIAL_HI, 0, 64, .ro, 0, true, false, false, false⟩
  | .SEC_STS_OWNER_SET => ⟨.SEC_STS, 0, 1, .ro, 0, true, false, false, false⟩
  | .SEC_STS_FACTORY_OPEN => ⟨.SEC_STS, 1, 1, .ro, 0, true, false, false, false⟩
  | .SEC_STS_DEBUG_DISABLE => ⟨.SEC_STS, 2, 1, .ro, 0, true, false, false, false⟩
  | .SEC_STS_DS_OK => ⟨.SEC_STS, 3, 1, .ro, 0, true, false, false, false⟩
  | .SEC_STS_DEBUG_ACTIVE => ⟨.SEC_STS, 4, 1, .ro, 0, true, false, false, false⟩
  | .SEC_STS_CERT_MISMATCH => ⟨.SEC_STS, 5, 1, .ro, 0, true, false, false, false⟩
  | .SEC_STS_ENTROPY_OK => ⟨.SEC_STS, 6, 1, .ro, 0, true, false, false, false⟩
  | .SEC_STS_SVN_STEPS => ⟨.SEC_STS, 8, 7, .ro, 0, true, false, false, false⟩
  | .SEC_STS_DEBUG_SCOPE => ⟨.SEC_STS, 16, 16, .ro, 0, true, false, false, false⟩
  | .SEC_VOTE_CORRECTED => ⟨.SEC_VOTE, 0, 32, .rc, 0, true, false, false, false⟩
  | .SEC_VOTE_SEVERE => ⟨.SEC_VOTE, 32, 16, .rc, 0, true, false, false, false⟩
  | .SEC_VOTE_PATH_DIS => ⟨.SEC_VOTE, 48, 16, .rc, 0, true, false, false, false⟩
  | .OCMD_CTL_SUBMIT => ⟨.OCMD_CTL, 0, 1, .wo, 0, false, false, false, true⟩
  | .OCMD_CTL_LEN => ⟨.OCMD_CTL, 32, 15, .wo, 0, true, false, false, true⟩
  | .SEC_WCMD_SUBMIT => ⟨.SEC_WCMD, 0, 1, .wo, 0, false, false, false, true⟩
  | .SEC_WCMD_OFF => ⟨.SEC_WCMD, 6, 19, .rw, 0, true, false, false, false⟩
  | .SEC_WCMD_LEN => ⟨.SEC_WCMD, 32, 15, .rw, 0, true, false, false, false⟩
  | .OCMD_STS_BUSY => ⟨.OCMD_STS, 0, 1, .ro, 0, true, false, false, false⟩
  | .OCMD_STS_DONE => ⟨.OCMD_STS, 1, 1, .rw1c, 0, true, false, false, false⟩
  | .OCMD_STS_SUBMIT_LOST => ⟨.OCMD_STS, 2, 1, .rw1c, 0, true, false, false, false⟩
  | .OCMD_STS_RESULT => ⟨.OCMD_STS, 8, 8, .ro, 0, true, false, false, false⟩
  | .OCMD_STS_RESP_LEN => ⟨.OCMD_STS, 16, 12, .ro, 0, true, false, false, false⟩
  | .OCMD_STS_CTYPE => ⟨.OCMD_STS, 32, 16, .ro, 0, true, false, false, false⟩
  | .OCMD_STS_FW_CODE => ⟨.OCMD_STS, 48, 8, .ro, 0, true, false, false, false⟩
  | .SEC_WSTS_BUSY => ⟨.SEC_WSTS, 0, 1, .ro, 0, true, false, false, false⟩
  | .SEC_WSTS_DONE => ⟨.SEC_WSTS, 1, 1, .rw1c, 0, true, false, false, false⟩
  | .SEC_WSTS_SUBMIT_LOST => ⟨.SEC_WSTS, 2, 1, .rw1c, 0, true, false, false, false⟩
  | .SEC_WSTS_RESULT => ⟨.SEC_WSTS, 8, 8, .ro, 0, true, false, false, false⟩
  | .SEC_WSTS_RESP_LEN => ⟨.SEC_WSTS, 16, 12, .ro, 0, true, false, false, false⟩
  | .SEC_WSTS_CTYPE => ⟨.SEC_WSTS, 32, 16, .ro, 0, true, false, false, false⟩
  | .SEC_WSTS_FW_CODE => ⟨.SEC_WSTS, 48, 8, .ro, 0, true, false, false, false⟩
  | .OCMD_NONCE_NONCE => ⟨.OCMD_NONCE, 0, 64, .ro, 0, true, false, false, false⟩
  | .SEC_WNONCE_NONCE => ⟨.SEC_WNONCE, 0, 64, .ro, 0, true, false, false, false⟩
  | .SEC_FWCMD_DEST => ⟨.SEC_FWCMD, 0, 25, .rw, 0, true, false, false, false⟩
  | .SEC_FWCMD_ARMED => ⟨.SEC_FWCMD, 25, 1, .rw, 0, true, false, false, false⟩
  | .SEC_FWCMD_PENDING => ⟨.SEC_FWCMD, 26, 1, .ro, 0, true, false, false, false⟩
  | .SEC_FWCMD_FINISH => ⟨.SEC_FWCMD, 27, 1, .wo, 0, false, false, false, true⟩
  | .SEC_FWCMD_LATE => ⟨.SEC_FWCMD, 28, 1, .rw1c, 0, true, false, false, false⟩
  | .SEC_FWCMD_SRC => ⟨.SEC_FWCMD, 32, 4, .ro, 0, true, false, false, false⟩
  | .SEC_FWCMD_RESP_LEN => ⟨.SEC_FWCMD, 36, 12, .wo, 0, false, false, false, true⟩
  | .SEC_FWCMD_FW_CODE => ⟨.SEC_FWCMD, 48, 8, .wo, 0, false, false, false, true⟩
  | .MEM_CH_CTL_TRAIN => ⟨.MEM_CH_CTL, 0, 1, .rw1s, 0, true, false, false, true⟩
  | .MEM_CH_STS_PRESENT => ⟨.MEM_CH_STS, 0, 1, .ro, 0, true, false, false, false⟩
  | .MEM_CH_STS_TRAINED => ⟨.MEM_CH_STS, 1, 1, .ro, 0, true, false, false, false⟩
  | .MEM_CH_STS_TRAINING => ⟨.MEM_CH_STS, 2, 1, .ro, 0, true, false, false, false⟩
  | .MEM_CH_STS_TRAIN_FAIL => ⟨.MEM_CH_STS, 3, 1, .rw1c, 0, true, false, false, false⟩
  | .MEM_CH_STS_FAIL_CAUSE => ⟨.MEM_CH_STS, 4, 2, .ro, 0, true, false, false, false⟩
  | .MEM_CH_STS_FAIL_SUB => ⟨.MEM_CH_STS, 6, 1, .ro, 0, true, false, false, false⟩
  | .MEM_CH_STS_FAIL_RANK => ⟨.MEM_CH_STS, 7, 1, .ro, 0, true, false, false, false⟩
  | .MEM_CH_STS_RATE => ⟨.MEM_CH_STS, 8, 16, .ro, 0, true, false, false, false⟩
  | .MEM_CH_STS_CAPACITY => ⟨.MEM_CH_STS, 24, 8, .ro, 0, true, false, false, false⟩
  | .MEM_CH_STS_RANKS => ⟨.MEM_CH_STS, 32, 2, .ro, 0, true, false, false, false⟩
  | .MEM_BUCKET_DEPTH => ⟨.MEM_BUCKET, 0, 16, .rw, 0x100, true, false, false, true⟩
  | .MEM_BUCKET_LEAK_LOG2 => ⟨.MEM_BUCKET, 16, 5, .rw, 0xa, true, false, false, true⟩
  | .MEM_BUCKET_LEVEL => ⟨.MEM_BUCKET, 32, 16, .ro, 0, true, false, false, false⟩
  | .MEM_BUCKET_OVERFLOWS => ⟨.MEM_BUCKET, 48, 16, .rc, 0, true, false, false, false⟩
  | .MEM_ERR_A_CORRECTED => ⟨.MEM_ERR_A, 0, 32, .rc, 0, true, false, false, false⟩
  | .MEM_ERR_A_UNCORR => ⟨.MEM_ERR_A, 32, 16, .rc, 0, true, false, false, false⟩
  | .MEM_ERR_A_POISON_HIT => ⟨.MEM_ERR_A, 48, 16, .rc, 0, true, false, false, false⟩
  | .MEM_ERR_B_TAG_FAIL => ⟨.MEM_ERR_B, 0, 16, .rc, 0, true, false, false, false⟩
  | .MEM_ERR_B_SPEC_ERR => ⟨.MEM_ERR_B, 16, 16, .rc, 0, true, false, false, false⟩
  | .MEM_ERR_B_TAG_REBUILT => ⟨.MEM_ERR_B, 32, 16, .rc, 0, true, false, false, false⟩
  | .MEM_ERR_B_WRITE_ERR => ⟨.MEM_ERR_B, 48, 16, .rc, 0, true, false, false, false⟩
  | .MEM_ERR_ADDR_KIND => ⟨.MEM_ERR_ADDR, 0, 2, .ro, 0, true, false, false, false⟩
  | .MEM_ERR_ADDR_VALID => ⟨.MEM_ERR_ADDR, 2, 1, .rw1c, 0, true, false, false, false⟩
  | .MEM_ERR_ADDR_ADDR => ⟨.MEM_ERR_ADDR, 6, 58, .ro, 0, true, false, false, false⟩
  | .MEM_SCRUB_CTL_START => ⟨.MEM_SCRUB_CTL, 0, 1, .rw1s, 0, true, false, false, true⟩
  | .MEM_SCRUB_CTL_STOP => ⟨.MEM_SCRUB_CTL, 1, 1, .wo, 0, false, false, false, true⟩
  | .MEM_SCRUB_CTL_BUSY => ⟨.MEM_SCRUB_CTL, 2, 1, .ro, 0, true, false, false, false⟩
  | .MEM_SCRUB_CTL_DONE => ⟨.MEM_SCRUB_CTL, 3, 1, .rw1c, 0, true, false, false, false⟩
  | .MEM_SCRUB_CTL_REFUSED => ⟨.MEM_SCRUB_CTL, 4, 1, .rw1c, 0, true, false, false, false⟩
  | .MEM_SCRUB_CTL_STOPPED => ⟨.MEM_SCRUB_CTL, 5, 1, .ro, 0, true, false, false, false⟩
  | .MEM_SCRUB_CTL_RATE => ⟨.MEM_SCRUB_CTL, 8, 5, .rw, 0xa, true, false, false, false⟩
  | .MEM_SCRUB_RANGE_FIRST => ⟨.MEM_SCRUB_RANGE, 0, 30, .rw, 0, true, false, false, false⟩
  | .MEM_SCRUB_RANGE_LAST => ⟨.MEM_SCRUB_RANGE, 32, 30, .rw, 0, true, false, false, false⟩
  | .MEM_SCRUB_SUM_A_LINES => ⟨.MEM_SCRUB_SUM_A, 0, 32, .ro, 0, true, false, false, false⟩
  | .MEM_SCRUB_SUM_A_CORRECTED => ⟨.MEM_SCRUB_SUM_A, 32, 32, .ro, 0, true, false, false, false⟩
  | .MEM_SCRUB_SUM_B_UNCORR => ⟨.MEM_SCRUB_SUM_B, 0, 32, .ro, 0, true, false, false, false⟩
  | .MEM_SCRUB_SUM_B_POISON_SEEN => ⟨.MEM_SCRUB_SUM_B, 32, 32, .ro, 0, true, false, false, false⟩
  | .MEM_SCRUB_SUM_C_FIRST_FAIL => ⟨.MEM_SCRUB_SUM_C, 0, 30, .ro, 0, true, false, false, false⟩
  | .MEM_SCRUB_SUM_C_LAST_FAIL => ⟨.MEM_SCRUB_SUM_C, 32, 30, .ro, 0, true, false, false, false⟩
  | .MEM_SCRUB_SUM_C_FAIL_VALID => ⟨.MEM_SCRUB_SUM_C, 62, 1, .ro, 0, true, false, false, false⟩
  | .MEM_SCRUB_HIST_POS0 => ⟨.MEM_SCRUB_HIST, 0, 16, .ro, 0, true, false, false, false⟩
  | .MEM_SCRUB_HIST_POS1 => ⟨.MEM_SCRUB_HIST, 16, 16, .ro, 0, true, false, false, false⟩
  | .MEM_SCRUB_HIST_POS2 => ⟨.MEM_SCRUB_HIST, 32, 16, .ro, 0, true, false, false, false⟩
  | .MEM_SCRUB_HIST_POS3 => ⟨.MEM_SCRUB_HIST, 48, 16, .ro, 0, true, false, false, false⟩
  | .IRQ_CFG_GLOBAL_HOLD => ⟨.IRQ_CFG, 0, 1, .rw, 0, true, true, false, false⟩
  | .IRQ_CFG_RING_SENSE => ⟨.IRQ_CFG, 1, 2, .rw, 0, true, true, false, false⟩
  | .IRQ_CFG_LATE_MASK => ⟨.IRQ_CFG, 3, 1, .ro, 0, true, false, false, false⟩
  | .IRQ_CFG_STRAY_ACK => ⟨.IRQ_CFG, 4, 1, .ro, 0, true, false, false, false⟩
  | .IRQ_CFG_LOST => ⟨.IRQ_CFG, 5, 1, .rw1c, 0, true, true, false, false⟩
  | .IRQ_PEND_N_PEND => ⟨.IRQ_PEND_N, 0, 64, .rw1c, 0, true, true, true, true⟩
  | .IRQ_PEND_F_PEND => ⟨.IRQ_PEND_F, 0, 64, .rw1c, 0, true, true, true, true⟩
  | .IRQ_RPEND_PEND => ⟨.IRQ_RPEND, 0, 64, .rw1c, 0, true, true, true, true⟩
  | .IRQ_MASK_N_MASK => ⟨.IRQ_MASK_N, 0, 64, .rw, 0, true, true, false, false⟩
  | .IRQ_MASK_F_MASK => ⟨.IRQ_MASK_F, 0, 64, .rw, 0, true, true, false, false⟩
  | .IRQ_RMASK_MASK => ⟨.IRQ_RMASK, 0, 64, .rw, 0, true, true, false, false⟩
  | .IRQ_ACT_N_ACT => ⟨.IRQ_ACT_N, 0, 64, .rw1c, 0, true, true, true, true⟩
  | .IRQ_ACT_F_ACT => ⟨.IRQ_ACT_F, 0, 64, .rw1c, 0, true, true, true, true⟩
  | .IRQ_RACT_ACT => ⟨.IRQ_RACT, 0, 64, .rw1c, 0, true, true, true, true⟩
  | .IRQ_SENSE_SENSE => ⟨.IRQ_SENSE, 0, 64, .rw, 0, true, true, false, false⟩
  | .IRQ_STRAY_ACK_COUNT => ⟨.IRQ_STRAY_ACK, 0, 32, .rc, 0, true, true, false, false⟩
  | .IRQ_WCFG_ROUTE => ⟨.IRQ_WCFG, 0, 32, .rw, 0xffaa5500, true, false, false, false⟩
  | .IRQ_WCFG_LOST => ⟨.IRQ_WCFG, 32, 1, .rw1c, 0, true, false, false, false⟩
  | .IRQ_WCTL_GLOBAL_HOLD => ⟨.IRQ_WCTL, 0, 1, .rw, 0, true, false, false, false⟩
  | .IRQ_WCTL_CUR_N => ⟨.IRQ_WCTL, 16, 13, .ro, 0, true, false, true, false⟩
  | .IRQ_WCTL_CUR_F => ⟨.IRQ_WCTL, 32, 13, .ro, 0, true, false, true, false⟩
  | .IRQ_WPEND_N_PEND => ⟨.IRQ_WPEND_N, 0, 64, .rw1c, 0, true, false, true, true⟩
  | .IRQ_WPEND_F_PEND => ⟨.IRQ_WPEND_F, 0, 64, .rw1c, 0, true, false, true, true⟩
  | .IRQ_WMASK_N_MASK => ⟨.IRQ_WMASK_N, 0, 64, .rw, 0, true, false, false, false⟩
  | .IRQ_WMASK_F_MASK => ⟨.IRQ_WMASK_F, 0, 64, .rw, 0, true, false, false, false⟩
  | .IRQ_WACT_N_ACT => ⟨.IRQ_WACT_N, 0, 64, .rw1c, 0, true, false, true, true⟩
  | .IRQ_WACT_F_ACT => ⟨.IRQ_WACT_F, 0, 64, .rw1c, 0, true, false, true, true⟩
  | .IRQ_WSENSE_SENSE => ⟨.IRQ_WSENSE, 0, 64, .rw, 0, true, false, false, false⟩
  | .IRQ_WSTRAY_COUNT => ⟨.IRQ_WSTRAY, 0, 32, .rc, 0, true, false, false, false⟩
  | .MBX_TX_HEAD_WORD => ⟨.MBX_TX_HEAD, 0, 64, .wo, 0, false, false, false, true⟩
  | .MBX_TX_DATA_WORD => ⟨.MBX_TX_DATA, 0, 64, .wo, 0, false, false, false, true⟩
  | .MBX_WTX_HEAD_WORD => ⟨.MBX_WTX_HEAD, 0, 64, .wo, 0, false, false, false, true⟩
  | .MBX_WTX_DATA_WORD => ⟨.MBX_WTX_DATA, 0, 64, .wo, 0, false, false, false, true⟩
  | .MBX_RX_WORD => ⟨.MBX_RX, 0, 64, .rc, 0xe0, true, true, true, true⟩
  | .MBX_WRX_WORD => ⟨.MBX_WRX, 0, 64, .rc, 0xe0, true, true, true, true⟩
  | .MBX_STS_TX_ITEMS => ⟨.MBX_STS, 0, 7, .ro, 0, true, true, true, false⟩
  | .MBX_STS_TX_FREE => ⟨.MBX_STS, 8, 10, .ro, 0x200, true, true, true, false⟩
  | .MBX_STS_RX_ITEMS => ⟨.MBX_STS, 24, 7, .ro, 0, true, true, true, false⟩
  | .MBX_STS_OVERRUN => ⟨.MBX_STS, 32, 1, .rw1c, 0, true, true, true, false⟩
  | .MBX_STS_PTR_ERR_TX => ⟨.MBX_STS, 33, 1, .rw1c, 0, true, true, true, false⟩
  | .MBX_STS_PTR_ERR_RX => ⟨.MBX_STS, 34, 1, .rw1c, 0, true, true, true, false⟩
  | .MBX_STS_TORN => ⟨.MBX_STS, 48, 16, .rc, 0, true, true, true, false⟩
  | .MBX_WSTS_TX_ITEMS => ⟨.MBX_WSTS, 0, 7, .ro, 0, true, true, true, false⟩
  | .MBX_WSTS_TX_FREE => ⟨.MBX_WSTS, 8, 10, .ro, 0x200, true, true, true, false⟩
  | .MBX_WSTS_RX_ITEMS => ⟨.MBX_WSTS, 24, 7, .ro, 0, true, true, true, false⟩
  | .MBX_WSTS_OVERRUN => ⟨.MBX_WSTS, 32, 1, .rw1c, 0, true, true, true, false⟩
  | .MBX_WSTS_PTR_ERR_TX => ⟨.MBX_WSTS, 33, 1, .rw1c, 0, true, true, true, false⟩
  | .MBX_WSTS_PTR_ERR_RX => ⟨.MBX_WSTS, 34, 1, .rw1c, 0, true, true, true, false⟩
  | .MBX_WSTS_TORN => ⟨.MBX_WSTS, 48, 16, .rc, 0, true, true, true, false⟩
  | .MBX_CTL_FLUSH_TX => ⟨.MBX_CTL, 0, 1, .wo, 0, false, false, false, true⟩
  | .MBX_CTL_FLUSH_RX => ⟨.MBX_CTL, 1, 1, .wo, 0, false, false, false, true⟩
  | .MBX_WCTL_FLUSH_TX => ⟨.MBX_WCTL, 0, 1, .wo, 0, false, false, false, true⟩
  | .MBX_WCTL_FLUSH_RX => ⟨.MBX_WCTL, 1, 1, .wo, 0, false, false, false, true⟩
  | .TRC_EVT_ENTRY => ⟨.TRC_EVT, 0, 64, .rc, 0xe0, true, false, false, true⟩
  | .TRC_EVT_STS_COUNT => ⟨.TRC_EVT_STS, 0, 6, .ro, 0, true, false, false, false⟩
  | .TRC_EVT_STS_PTR_ERR => ⟨.TRC_EVT_STS, 6, 1, .rw1c, 0, true, false, false, false⟩
  | .TRC_EVT_STS_LOST => ⟨.TRC_EVT_STS, 32, 32, .rc, 0, true, false, false, false⟩
  | .TRC_PUT_WORD => ⟨.TRC_PUT, 0, 63, .wo, 0, false, false, false, true⟩
  | .TRC_GET_WORD => ⟨.TRC_GET, 0, 64, .rc, 0xe0, true, false, true, true⟩
  | .TRC_CTL_MARK => ⟨.TRC_CTL, 0, 1, .wo, 0, false, false, false, true⟩
  | .TRC_CTL_REWIND => ⟨.TRC_CTL, 1, 1, .wo, 0, false, false, false, true⟩
  | .TRC_STS_COUNT => ⟨.TRC_STS, 0, 18, .ro, 0, true, false, true, false⟩
  | .TRC_STS_MARK_VALID => ⟨.TRC_STS, 18, 1, .ro, 0, true, false, true, false⟩
  | .TRC_STS_MARK_LOST => ⟨.TRC_STS, 19, 1, .rw1c, 0, true, false, true, false⟩
  | .TRC_STS_PTR_ERR => ⟨.TRC_STS, 20, 1, .rw1c, 0, true, false, true, false⟩
  | .TRC_CNT_LOST => ⟨.TRC_CNT, 0, 32, .rc, 0, true, false, true, false⟩
  | .TRC_CNT_CORR => ⟨.TRC_CNT, 32, 16, .rc, 0, true, false, true, false⟩
  | .TRC_CNT_UNCORR => ⟨.TRC_CNT, 48, 16, .rc, 0, true, false, true, false⟩
  | .FLT_STS_SEEN => ⟨.FLT_STS, 0, 20, .rw1c, 0, false, false, false, false⟩
  | .FLT_STS_ACTIVE => ⟨.FLT_STS, 32, 1, .rw1c, 0, false, false, false, false⟩
  | .FLT_STS_SEV_MERGED => ⟨.FLT_STS, 33, 1, .rw1c, 0, false, false, false, false⟩
  | .FLT_STS_NEIGHBOUR => ⟨.FLT_STS, 48, 16, .rc, 0, false, false, false, false⟩
  | .FLT_FIRST_A_SRC => ⟨.FLT_FIRST_A, 0, 12, .ro, 0, false, false, false, false⟩
  | .FLT_FIRST_A_SEVERE => ⟨.FLT_FIRST_A, 12, 1, .ro, 0, false, false, false, false⟩
  | .FLT_FIRST_A_VALID => ⟨.FLT_FIRST_A, 13, 1, .ro, 0, false, false, false, false⟩
  | .FLT_FIRST_A_REACT => ⟨.FLT_FIRST_A, 16, 8, .ro, 0, false, false, false, false⟩
  | .FLT_FIRST_A_TICK => ⟨.FLT_FIRST_A, 32, 32, .ro, 0, false, false, false, false⟩
  | .FLT_FIRST_B_INFO => ⟨.FLT_FIRST_B, 0, 64, .ro, 0, false, false, false, false⟩
  | .FLT_CNT_MERGE => ⟨.FLT_CNT, 0, 32, .rc, 0, false, false, false, false⟩
  | .FLT_CNT_SEVERE => ⟨.FLT_CNT, 32, 16, .rc, 0, false, false, false, false⟩
  | .FLT_SRC_COUNT => ⟨.FLT_SRC, 0, 8, .ro, 0, true, false, false, false⟩
  | .FLT_SRC_AGE => ⟨.FLT_SRC, 8, 20, .ro, 0, true, false, false, false⟩
  | .FLT_SRC_EVENTS => ⟨.FLT_SRC, 32, 32, .rc, 0, true, false, false, false⟩
  | .FLT_INJECT_LOCAL => ⟨.FLT_INJECT, 0, 5, .wo, 0, false, false, false, true⟩
  | .FLT_INJECT_GO => ⟨.FLT_INJECT, 8, 1, .wo, 0, false, false, false, true⟩
  | .PWR_CTL_HUSH => ⟨.PWR_CTL, 0, 1, .rw, 0, true, false, false, true⟩
  | .PWR_CTL_HUSH_ACTIVE => ⟨.PWR_CTL, 1, 1, .ro, 0, true, false, false, false⟩
  | .PWR_CTL_BRESET_REFUSED => ⟨.PWR_CTL, 2, 1, .rw1c, 0, true, false, false, false⟩
  | .PWR_CTL_NMT_LOST => ⟨.PWR_CTL, 3, 1, .rw1c, 0, true, false, false, false⟩
  | .PWR_PIN_FAULT_LOW => ⟨.PWR_PIN, 0, 1, .ro, 0, false, false, false, false⟩
  | .PWR_PIN_ALIVE_FROZEN => ⟨.PWR_PIN, 1, 1, .ro, 0, true, false, false, false⟩
  | .PWR_PIN_ALIVE => ⟨.PWR_PIN, 2, 1, .ro, 0, true, false, false, false⟩
  | .PWR_PIN_PIN_SRC => ⟨.PWR_PIN, 16, 12, .ro, 0, false, false, false, false⟩
  | .PWR_RST_CAUSE_KIND => ⟨.PWR_RST_CAUSE, 0, 3, .ro, 0, true, false, false, false⟩
  | .PWR_RST_CAUSE_SRC => ⟨.PWR_RST_CAUSE, 16, 12, .ro, 0, true, false, false, false⟩
  | .PWR_BRESET_BLOCK => ⟨.PWR_BRESET, 0, 8, .wo, 0, false, false, false, true⟩
  | .PWR_BRESET_GO => ⟨.PWR_BRESET, 8, 1, .wo, 0, false, false, false, true⟩
  | .PWR_BRESET_CORE => ⟨.PWR_BRESET, 9, 2, .wo, 0, false, false, false, true⟩
  | .BSTS_RSVD_WR => ⟨.BSTS, 0, 1, .rw1c, 0, true, true, false, false⟩
  | .BSTS_LOCKED_WR => ⟨.BSTS, 1, 1, .rw1c, 0, true, true, false, false⟩
  | .BSTS_FLASH_BUSY_RD => ⟨.BSTS, 2, 1, .rw1c, 0, true, true, false, false⟩
  | .BSTS_FIRST_OFF => ⟨.BSTS, 8, 32, .ro, 0, true, true, false, false⟩
  | .BSTS_SPACE => ⟨.BSTS, 40, 3, .ro, 0, true, true, false, false⟩
  | .BSTS_OFF_VALID => ⟨.BSTS, 43, 1, .rw1c, 0, true, true, false, false⟩
  | .IMG_SEQ_SEQ => ⟨.IMG_SEQ, 0, 64, .ro, 0, true, false, false, false⟩
  | .IMG_ROOT_HASH_HASH => ⟨.IMG_ROOT_HASH, 0, 64, .ro, 0, true, false, false, true⟩
  | .PWR_TEMP_T0 => ⟨.PWR_TEMP, 0, 16, .ro, 0x8000, true, false, false, false⟩
  | .PWR_TEMP_T1 => ⟨.PWR_TEMP, 16, 16, .ro, 0x8000, true, false, false, false⟩
  | .PWR_TEMP_T2 => ⟨.PWR_TEMP, 32, 16, .ro, 0x8000, true, false, false, false⟩
  | .PWR_TEMP_T3 => ⟨.PWR_TEMP, 48, 16, .ro, 0x8000, true, false, false, false⟩
  | .PWR_THERM_MAX => ⟨.PWR_THERM, 0, 16, .ro, 0x8000, true, false, false, false⟩
  | .PWR_THERM_MAX_SENSOR => ⟨.PWR_THERM, 16, 4, .ro, 0, true, false, false, false⟩
  | .PWR_THERM_WARN => ⟨.PWR_THERM, 24, 1, .ro, 0, true, false, false, false⟩
  | .PWR_THERM_TRIP => ⟨.PWR_THERM, 25, 1, .ro, 0, false, false, false, false⟩
  | .PWR_THERM_VALID => ⟨.PWR_THERM, 26, 1, .ro, 0, true, false, false, false⟩
  | .PWR_THERM_PEAK => ⟨.PWR_THERM, 32, 16, .ro, 0x8000, false, false, false, false⟩

/-- The fields of each register, in ascending bit order. -/
def regFields : Reg → List Fld
  | .IMG_BOOT_STS => [.IMG_BOOT_STS_SLOT, .IMG_BOOT_STS_FALLBACK, .IMG_BOOT_STS_LAST_STEP, .IMG_BOOT_STS_RESULT0, .IMG_BOOT_STS_RESULT1, .IMG_BOOT_STS_RELEASE_REFUSED]
  | .IMG_PORT_CTL => [.IMG_PORT_CTL_RELEASE, .IMG_PORT_CTL_READY, .IMG_PORT_CTL_LINKED]
  | .IMG_FLASH_CMD => [.IMG_FLASH_CMD_OP, .IMG_FLASH_CMD_ADDR, .IMG_FLASH_CMD_SRC]
  | .IMG_FLASH_STS => [.IMG_FLASH_STS_BUSY, .IMG_FLASH_STS_REFUSED, .IMG_FLASH_STS_PROTECT, .IMG_FLASH_STS_ERROR]
  | .IMG_CHECK => [.IMG_CHECK_START, .IMG_CHECK_SLOT, .IMG_CHECK_BUSY, .IMG_CHECK_DONE, .IMG_CHECK_RESULT]
  | .TCK_STS => [.TCK_STS_PERIOD, .TCK_STS_SOURCE, .TCK_STS_OUT_EN, .TCK_STS_LOCKED, .TCK_STS_LOST, .TCK_STS_MISS_RUN, .TCK_STS_OFFSET]
  | .TCK_COUNT => [.TCK_COUNT_COUNT]
  | .TCK_SYNC_CNT => [.TCK_SYNC_CNT_STRAY, .TCK_SYNC_CNT_MISSED]
  | .TCK_CAP_A => [.TCK_CAP_A_SPINDLE_CYCLES, .TCK_CAP_A_MOVER_BYTES]
  | .TCK_CAP_B => [.TCK_CAP_B_HOSTPORT_BYTES, .TCK_CAP_B_STAGE_QUOTA, .TCK_CAP_B_FRAME_SCALE]
  | .TCK_LAST_A => [.TCK_LAST_A_CYCLES, .TCK_LAST_A_MOVER_BYTES]
  | .TCK_LAST_B => [.TCK_LAST_B_HOSTPORT_BYTES, .TCK_LAST_B_STAGE_USED, .TCK_LAST_B_FLITS]
  | .TCK_EXHAUST => [.TCK_EXHAUST_CYCLES_OUT, .TCK_EXHAUST_MOVER_OUT, .TCK_EXHAUST_HOSTPORT_OUT, .TCK_EXHAUST_FRAME_OUT]
  | .CUE_EVENT => [.CUE_EVENT_EVENT]
  | .CUE_STATS => [.CUE_STATS_STARTED, .CUE_STATS_FAILED]
  | .CUE_LAST_ERR => [.CUE_LAST_ERR_STATUS, .CUE_LAST_ERR_DETAIL, .CUE_LAST_ERR_DEVSTAT, .CUE_LAST_ERR_TAG]
  | .SPC_CUES => [.SPC_CUES_SPECULATED, .SPC_CUES_DISCARDED]
  | .SPC_SQUASH => [.SPC_SQUASH_SQUASHES, .SPC_SQUASH_REFETCH, .SPC_SQUASH_SQUASH_ERR]
  | .SPC_RHS => [.SPC_RHS_SENT, .SPC_RHS_GO, .SPC_RHS_STRIKE, .SPC_RHS_AUTO]
  | .SPC_RHS_MISS => [.SPC_RHS_MISS_WITHDRAWN, .SPC_RHS_MISS_NOT_SENT, .SPC_RHS_MISS_PROTOCOL]
  | .SPC_CTL => [.SPC_CTL_RHS_OFF]
  | .SPC_LINK => [.SPC_LINK_OUTSTANDING, .SPC_LINK_PEAK, .SPC_LINK_STRAY, .SPC_LINK_PROTOCOL, .SPC_LINK_AUTO]
  | .RNG_CFG_A => [.RNG_CFG_A_BASE]
  | .RNG_CFG_B => [.RNG_CFG_B_KIND, .RNG_CFG_B_EXPRESS, .RNG_CFG_B_SIZE_LOG2, .RNG_CFG_B_STATUS_RING, .RNG_CFG_B_VECTOR]
  | .RNG_STS => [.RNG_STS_HEAD, .RNG_STS_TAIL, .RNG_STS_LAP, .RNG_STS_BACKED_UP, .RNG_STS_PHASE_ERR, .RNG_STS_HEAD_ERR, .RNG_STS_DB_ERR, .RNG_STS_FETCH_ERR, .RNG_STS_HELD]
  | .RNG_ENABLE => [.RNG_ENABLE_ENABLE, .RNG_ENABLE_ENABLED, .RNG_ENABLE_REFUSED, .RNG_ENABLE_REASON, .RNG_ENABLE_RING]
  | .RNG_CNT_A => [.RNG_CNT_A_DB_IGNORED, .RNG_CNT_A_REQ_CHECK, .RNG_CNT_A_PREFETCH_USED, .RNG_CNT_A_PREFETCH_REFETCH]
  | .RNG_CNT_B => [.RNG_CNT_B_INLINE_USED, .RNG_CNT_B_INLINE_MISS, .RNG_CNT_B_FULL_EVENTS]
  | .RNG_DB => [.RNG_DB_POS, .RNG_DB_INLINE]
  | .RNG_PTR => [.RNG_PTR_HEAD, .RNG_PTR_TAIL, .RNG_PTR_LAP, .RNG_PTR_BACKED_UP]
  | .MOV_LIST => [.MOV_LIST_LSPACE, .MOV_LIST_LIST_BASE]
  | .MOV_CFG => [.MOV_CFG_TRIG, .MOV_CFG_ARM, .MOV_CFG_CHAIN_SRC, .MOV_CFG_PERIOD, .MOV_CFG_AS_PART, .MOV_CFG_TRIG_HEAD]
  | .MOV_CTL => [.MOV_CTL_START, .MOV_CTL_STOP, .MOV_CTL_CLEAR, .MOV_CTL_HEAD]
  | .MOV_STS => [.MOV_STS_STATE, .MOV_STS_KICK, .MOV_STS_CFG_REFUSED, .MOV_STS_CH_ERR, .MOV_STS_CUR]
  | .MOV_LAST => [.MOV_LAST_INDEX, .MOV_LAST_DSTATUS, .MOV_LAST_ERR, .MOV_LAST_BYTES_DONE]
  | .MOV_CNT => [.MOV_CNT_DONE, .MOV_CNT_BAD, .MOV_CNT_TRIG_MISSED]
  | .MOV_QSTS => [.MOV_QSTS_USED, .MOV_QSTS_PEAK]
  | .SPN_RFAULT_A => [.SPN_RFAULT_A_INDEX, .SPN_RFAULT_A_DETAIL, .SPN_RFAULT_A_PC]
  | .SPN_RFAULT_B => [.SPN_RFAULT_B_TVAL]
  | .SPN_RSTATS => [.SPN_RSTATS_CALLS, .SPN_RSTATS_FAULTS]
  | .WNG_CTL => [.WNG_CTL_START, .WNG_CTL_RUNNING, .WNG_CTL_HALTED, .WNG_CTL_REFUSED, .WNG_CTL_ENTRY]
  | .LNK_CTL => [.LNK_CTL_DISABLE, .LNK_CTL_REWIDEN, .LNK_CTL_RETRY_NOW, .LNK_CTL_REKEY_NOW]
  | .LNK_STS => [.LNK_STS_STATE, .LNK_STS_WIDTH, .LNK_STS_REVERSED, .LNK_STS_ACTIVE_LANE0, .LNK_STS_LAST_CAUSE, .LNK_STS_CONSEQ, .LNK_STS_REKEYING, .LNK_STS_TX_GROUPS]
  | .LNK_LANE => [.LNK_LANE_STATE, .LNK_LANE_POL_INV, .LNK_LANE_ACTIVE, .LNK_LANE_PRESET, .LNK_LANE_CORR_SYM]
  | .LNK_CNT_A => [.LNK_CNT_A_REPLAYS, .LNK_CNT_A_CRC_ERR, .LNK_CNT_A_UNCORR, .LNK_CNT_A_RETRAINS]
  | .LNK_CNT_B => [.LNK_CNT_B_PROTO, .LNK_CNT_B_STRAY, .LNK_CNT_B_DOWNS, .LNK_CNT_B_REKEYS]
  | .LNK_OWN_TX => [.LNK_OWN_TX_OFF, .LNK_OWN_TX_LEN, .LNK_OWN_TX_SEND, .LNK_OWN_TX_REFUSED]
  | .LNK_OWN_RX => [.LNK_OWN_RX_OFF, .LNK_OWN_RX_RX_FULL, .LNK_OWN_RX_RX_ACK, .LNK_OWN_RX_RX_LEN]
  | .LNK_OCT_CTL => [.LNK_OCT_CTL_CAL]
  | .LNK_OCT_STS => [.LNK_OCT_STS_CAL_DONE, .LNK_OCT_STS_CALIBRATING, .LNK_OCT_STS_CAL_FAIL, .LNK_OCT_STS_FAIL_CAUSE, .LNK_OCT_STS_HOLDS_LINK]
  | .HPT_STS => [.HPT_STS_RATE, .HPT_STS_FLIT, .HPT_STS_WIDTH, .HPT_STS_CUR_WIDTH, .HPT_STS_LSTATE, .HPT_STS_D3HOT, .HPT_STS_BELOW_MIN, .HPT_STS_DRAINING, .HPT_STS_OWNER_RESET, .HPT_STS_LAST_CAUSE, .HPT_STS_QUARANTINED]
  | .HPT_CNT => [.HPT_CNT_LATE_CPL, .HPT_CNT_CPL_TIMEOUT, .HPT_CNT_PME_SENT, .HPT_CNT_L1_EXITS]
  | .IDN_LOT => [.IDN_LOT_LOT]
  | .IDN_POS => [.IDN_POS_WAFER, .IDN_POS_DIE_X, .IDN_POS_DIE_Y, .IDN_POS_STEPPING, .IDN_POS_TEST_REV, .IDN_POS_IDN_BAD]
  | .IDN_SERIAL_LO => [.IDN_SERIAL_LO_SERIAL]
  | .IDN_SERIAL_HI => [.IDN_SERIAL_HI_SERIAL]
  | .SEC_STS => [.SEC_STS_OWNER_SET, .SEC_STS_FACTORY_OPEN, .SEC_STS_DEBUG_DISABLE, .SEC_STS_DS_OK, .SEC_STS_DEBUG_ACTIVE, .SEC_STS_CERT_MISMATCH, .SEC_STS_ENTROPY_OK, .SEC_STS_SVN_STEPS, .SEC_STS_DEBUG_SCOPE]
  | .SEC_VOTE => [.SEC_VOTE_CORRECTED, .SEC_VOTE_SEVERE, .SEC_VOTE_PATH_DIS]
  | .OCMD_CTL => [.OCMD_CTL_SUBMIT, .OCMD_CTL_LEN]
  | .SEC_WCMD => [.SEC_WCMD_SUBMIT, .SEC_WCMD_OFF, .SEC_WCMD_LEN]
  | .OCMD_STS => [.OCMD_STS_BUSY, .OCMD_STS_DONE, .OCMD_STS_SUBMIT_LOST, .OCMD_STS_RESULT, .OCMD_STS_RESP_LEN, .OCMD_STS_CTYPE, .OCMD_STS_FW_CODE]
  | .SEC_WSTS => [.SEC_WSTS_BUSY, .SEC_WSTS_DONE, .SEC_WSTS_SUBMIT_LOST, .SEC_WSTS_RESULT, .SEC_WSTS_RESP_LEN, .SEC_WSTS_CTYPE, .SEC_WSTS_FW_CODE]
  | .OCMD_NONCE => [.OCMD_NONCE_NONCE]
  | .SEC_WNONCE => [.SEC_WNONCE_NONCE]
  | .SEC_FWCMD => [.SEC_FWCMD_DEST, .SEC_FWCMD_ARMED, .SEC_FWCMD_PENDING, .SEC_FWCMD_FINISH, .SEC_FWCMD_LATE, .SEC_FWCMD_SRC, .SEC_FWCMD_RESP_LEN, .SEC_FWCMD_FW_CODE]
  | .MEM_CH_CTL => [.MEM_CH_CTL_TRAIN]
  | .MEM_CH_STS => [.MEM_CH_STS_PRESENT, .MEM_CH_STS_TRAINED, .MEM_CH_STS_TRAINING, .MEM_CH_STS_TRAIN_FAIL, .MEM_CH_STS_FAIL_CAUSE, .MEM_CH_STS_FAIL_SUB, .MEM_CH_STS_FAIL_RANK, .MEM_CH_STS_RATE, .MEM_CH_STS_CAPACITY, .MEM_CH_STS_RANKS]
  | .MEM_BUCKET => [.MEM_BUCKET_DEPTH, .MEM_BUCKET_LEAK_LOG2, .MEM_BUCKET_LEVEL, .MEM_BUCKET_OVERFLOWS]
  | .MEM_ERR_A => [.MEM_ERR_A_CORRECTED, .MEM_ERR_A_UNCORR, .MEM_ERR_A_POISON_HIT]
  | .MEM_ERR_B => [.MEM_ERR_B_TAG_FAIL, .MEM_ERR_B_SPEC_ERR, .MEM_ERR_B_TAG_REBUILT, .MEM_ERR_B_WRITE_ERR]
  | .MEM_ERR_ADDR => [.MEM_ERR_ADDR_KIND, .MEM_ERR_ADDR_VALID, .MEM_ERR_ADDR_ADDR]
  | .MEM_SCRUB_CTL => [.MEM_SCRUB_CTL_START, .MEM_SCRUB_CTL_STOP, .MEM_SCRUB_CTL_BUSY, .MEM_SCRUB_CTL_DONE, .MEM_SCRUB_CTL_REFUSED, .MEM_SCRUB_CTL_STOPPED, .MEM_SCRUB_CTL_RATE]
  | .MEM_SCRUB_RANGE => [.MEM_SCRUB_RANGE_FIRST, .MEM_SCRUB_RANGE_LAST]
  | .MEM_SCRUB_SUM_A => [.MEM_SCRUB_SUM_A_LINES, .MEM_SCRUB_SUM_A_CORRECTED]
  | .MEM_SCRUB_SUM_B => [.MEM_SCRUB_SUM_B_UNCORR, .MEM_SCRUB_SUM_B_POISON_SEEN]
  | .MEM_SCRUB_SUM_C => [.MEM_SCRUB_SUM_C_FIRST_FAIL, .MEM_SCRUB_SUM_C_LAST_FAIL, .MEM_SCRUB_SUM_C_FAIL_VALID]
  | .MEM_SCRUB_HIST => [.MEM_SCRUB_HIST_POS0, .MEM_SCRUB_HIST_POS1, .MEM_SCRUB_HIST_POS2, .MEM_SCRUB_HIST_POS3]
  | .IRQ_CFG => [.IRQ_CFG_GLOBAL_HOLD, .IRQ_CFG_RING_SENSE, .IRQ_CFG_LATE_MASK, .IRQ_CFG_STRAY_ACK, .IRQ_CFG_LOST]
  | .IRQ_PEND_N => [.IRQ_PEND_N_PEND]
  | .IRQ_PEND_F => [.IRQ_PEND_F_PEND]
  | .IRQ_RPEND => [.IRQ_RPEND_PEND]
  | .IRQ_MASK_N => [.IRQ_MASK_N_MASK]
  | .IRQ_MASK_F => [.IRQ_MASK_F_MASK]
  | .IRQ_RMASK => [.IRQ_RMASK_MASK]
  | .IRQ_ACT_N => [.IRQ_ACT_N_ACT]
  | .IRQ_ACT_F => [.IRQ_ACT_F_ACT]
  | .IRQ_RACT => [.IRQ_RACT_ACT]
  | .IRQ_SENSE => [.IRQ_SENSE_SENSE]
  | .IRQ_STRAY_ACK => [.IRQ_STRAY_ACK_COUNT]
  | .IRQ_WCFG => [.IRQ_WCFG_ROUTE, .IRQ_WCFG_LOST]
  | .IRQ_WCTL => [.IRQ_WCTL_GLOBAL_HOLD, .IRQ_WCTL_CUR_N, .IRQ_WCTL_CUR_F]
  | .IRQ_WPEND_N => [.IRQ_WPEND_N_PEND]
  | .IRQ_WPEND_F => [.IRQ_WPEND_F_PEND]
  | .IRQ_WMASK_N => [.IRQ_WMASK_N_MASK]
  | .IRQ_WMASK_F => [.IRQ_WMASK_F_MASK]
  | .IRQ_WACT_N => [.IRQ_WACT_N_ACT]
  | .IRQ_WACT_F => [.IRQ_WACT_F_ACT]
  | .IRQ_WSENSE => [.IRQ_WSENSE_SENSE]
  | .IRQ_WSTRAY => [.IRQ_WSTRAY_COUNT]
  | .MBX_TX_HEAD => [.MBX_TX_HEAD_WORD]
  | .MBX_TX_DATA => [.MBX_TX_DATA_WORD]
  | .MBX_WTX_HEAD => [.MBX_WTX_HEAD_WORD]
  | .MBX_WTX_DATA => [.MBX_WTX_DATA_WORD]
  | .MBX_RX => [.MBX_RX_WORD]
  | .MBX_WRX => [.MBX_WRX_WORD]
  | .MBX_STS => [.MBX_STS_TX_ITEMS, .MBX_STS_TX_FREE, .MBX_STS_RX_ITEMS, .MBX_STS_OVERRUN, .MBX_STS_PTR_ERR_TX, .MBX_STS_PTR_ERR_RX, .MBX_STS_TORN]
  | .MBX_WSTS => [.MBX_WSTS_TX_ITEMS, .MBX_WSTS_TX_FREE, .MBX_WSTS_RX_ITEMS, .MBX_WSTS_OVERRUN, .MBX_WSTS_PTR_ERR_TX, .MBX_WSTS_PTR_ERR_RX, .MBX_WSTS_TORN]
  | .MBX_CTL => [.MBX_CTL_FLUSH_TX, .MBX_CTL_FLUSH_RX]
  | .MBX_WCTL => [.MBX_WCTL_FLUSH_TX, .MBX_WCTL_FLUSH_RX]
  | .TRC_EVT => [.TRC_EVT_ENTRY]
  | .TRC_EVT_STS => [.TRC_EVT_STS_COUNT, .TRC_EVT_STS_PTR_ERR, .TRC_EVT_STS_LOST]
  | .TRC_PUT => [.TRC_PUT_WORD]
  | .TRC_GET => [.TRC_GET_WORD]
  | .TRC_CTL => [.TRC_CTL_MARK, .TRC_CTL_REWIND]
  | .TRC_STS => [.TRC_STS_COUNT, .TRC_STS_MARK_VALID, .TRC_STS_MARK_LOST, .TRC_STS_PTR_ERR]
  | .TRC_CNT => [.TRC_CNT_LOST, .TRC_CNT_CORR, .TRC_CNT_UNCORR]
  | .FLT_STS => [.FLT_STS_SEEN, .FLT_STS_ACTIVE, .FLT_STS_SEV_MERGED, .FLT_STS_NEIGHBOUR]
  | .FLT_FIRST_A => [.FLT_FIRST_A_SRC, .FLT_FIRST_A_SEVERE, .FLT_FIRST_A_VALID, .FLT_FIRST_A_REACT, .FLT_FIRST_A_TICK]
  | .FLT_FIRST_B => [.FLT_FIRST_B_INFO]
  | .FLT_CNT => [.FLT_CNT_MERGE, .FLT_CNT_SEVERE]
  | .FLT_SRC => [.FLT_SRC_COUNT, .FLT_SRC_AGE, .FLT_SRC_EVENTS]
  | .FLT_INJECT => [.FLT_INJECT_LOCAL, .FLT_INJECT_GO]
  | .PWR_CTL => [.PWR_CTL_HUSH, .PWR_CTL_HUSH_ACTIVE, .PWR_CTL_BRESET_REFUSED, .PWR_CTL_NMT_LOST]
  | .PWR_PIN => [.PWR_PIN_FAULT_LOW, .PWR_PIN_ALIVE_FROZEN, .PWR_PIN_ALIVE, .PWR_PIN_PIN_SRC]
  | .PWR_RST_CAUSE => [.PWR_RST_CAUSE_KIND, .PWR_RST_CAUSE_SRC]
  | .PWR_BRESET => [.PWR_BRESET_BLOCK, .PWR_BRESET_GO, .PWR_BRESET_CORE]
  | .BSTS => [.BSTS_RSVD_WR, .BSTS_LOCKED_WR, .BSTS_FLASH_BUSY_RD, .BSTS_FIRST_OFF, .BSTS_SPACE, .BSTS_OFF_VALID]
  | .IMG_SEQ => [.IMG_SEQ_SEQ]
  | .IMG_ROOT_HASH => [.IMG_ROOT_HASH_HASH]
  | .PWR_TEMP => [.PWR_TEMP_T0, .PWR_TEMP_T1, .PWR_TEMP_T2, .PWR_TEMP_T3]
  | .PWR_THERM => [.PWR_THERM_MAX, .PWR_THERM_MAX_SENSOR, .PWR_THERM_WARN, .PWR_THERM_TRIP, .PWR_THERM_VALID, .PWR_THERM_PEAK]

/-- Piece 0 of the list of all fields. -/
def fldPiece0 : List Fld :=
  [.IMG_BOOT_STS_SLOT, .IMG_BOOT_STS_FALLBACK, .IMG_BOOT_STS_LAST_STEP, .IMG_BOOT_STS_RESULT0, .IMG_BOOT_STS_RESULT1, .IMG_BOOT_STS_RELEASE_REFUSED, .IMG_PORT_CTL_RELEASE, .IMG_PORT_CTL_READY, .IMG_PORT_CTL_LINKED, .IMG_FLASH_CMD_OP, .IMG_FLASH_CMD_ADDR, .IMG_FLASH_CMD_SRC, .IMG_FLASH_STS_BUSY, .IMG_FLASH_STS_REFUSED, .IMG_FLASH_STS_PROTECT, .IMG_FLASH_STS_ERROR, .IMG_CHECK_START, .IMG_CHECK_SLOT, .IMG_CHECK_BUSY, .IMG_CHECK_DONE, .IMG_CHECK_RESULT, .TCK_STS_PERIOD, .TCK_STS_SOURCE, .TCK_STS_OUT_EN, .TCK_STS_LOCKED, .TCK_STS_LOST, .TCK_STS_MISS_RUN, .TCK_STS_OFFSET, .TCK_COUNT_COUNT, .TCK_SYNC_CNT_STRAY, .TCK_SYNC_CNT_MISSED, .TCK_CAP_A_SPINDLE_CYCLES, .TCK_CAP_A_MOVER_BYTES, .TCK_CAP_B_HOSTPORT_BYTES, .TCK_CAP_B_STAGE_QUOTA, .TCK_CAP_B_FRAME_SCALE, .TCK_LAST_A_CYCLES, .TCK_LAST_A_MOVER_BYTES, .TCK_LAST_B_HOSTPORT_BYTES, .TCK_LAST_B_STAGE_USED]

/-- Piece 1 of the list of all fields. -/
def fldPiece1 : List Fld :=
  [.TCK_LAST_B_FLITS, .TCK_EXHAUST_CYCLES_OUT, .TCK_EXHAUST_MOVER_OUT, .TCK_EXHAUST_HOSTPORT_OUT, .TCK_EXHAUST_FRAME_OUT, .CUE_EVENT_EVENT, .CUE_STATS_STARTED, .CUE_STATS_FAILED, .CUE_LAST_ERR_STATUS, .CUE_LAST_ERR_DETAIL, .CUE_LAST_ERR_DEVSTAT, .CUE_LAST_ERR_TAG, .SPC_CUES_SPECULATED, .SPC_CUES_DISCARDED, .SPC_SQUASH_SQUASHES, .SPC_SQUASH_REFETCH, .SPC_SQUASH_SQUASH_ERR, .SPC_RHS_SENT, .SPC_RHS_GO, .SPC_RHS_STRIKE, .SPC_RHS_AUTO, .SPC_RHS_MISS_WITHDRAWN, .SPC_RHS_MISS_NOT_SENT, .SPC_RHS_MISS_PROTOCOL, .SPC_CTL_RHS_OFF, .SPC_LINK_OUTSTANDING, .SPC_LINK_PEAK, .SPC_LINK_STRAY, .SPC_LINK_PROTOCOL, .SPC_LINK_AUTO, .RNG_CFG_A_BASE, .RNG_CFG_B_KIND, .RNG_CFG_B_EXPRESS, .RNG_CFG_B_SIZE_LOG2, .RNG_CFG_B_STATUS_RING, .RNG_CFG_B_VECTOR, .RNG_STS_HEAD, .RNG_STS_TAIL, .RNG_STS_LAP, .RNG_STS_BACKED_UP]

/-- Piece 2 of the list of all fields. -/
def fldPiece2 : List Fld :=
  [.RNG_STS_PHASE_ERR, .RNG_STS_HEAD_ERR, .RNG_STS_DB_ERR, .RNG_STS_FETCH_ERR, .RNG_STS_HELD, .RNG_ENABLE_ENABLE, .RNG_ENABLE_ENABLED, .RNG_ENABLE_REFUSED, .RNG_ENABLE_REASON, .RNG_ENABLE_RING, .RNG_CNT_A_DB_IGNORED, .RNG_CNT_A_REQ_CHECK, .RNG_CNT_A_PREFETCH_USED, .RNG_CNT_A_PREFETCH_REFETCH, .RNG_CNT_B_INLINE_USED, .RNG_CNT_B_INLINE_MISS, .RNG_CNT_B_FULL_EVENTS, .RNG_DB_POS, .RNG_DB_INLINE, .RNG_PTR_HEAD, .RNG_PTR_TAIL, .RNG_PTR_LAP, .RNG_PTR_BACKED_UP, .MOV_LIST_LSPACE, .MOV_LIST_LIST_BASE, .MOV_CFG_TRIG, .MOV_CFG_ARM, .MOV_CFG_CHAIN_SRC, .MOV_CFG_PERIOD, .MOV_CFG_AS_PART, .MOV_CFG_TRIG_HEAD, .MOV_CTL_START, .MOV_CTL_STOP, .MOV_CTL_CLEAR, .MOV_CTL_HEAD, .MOV_STS_STATE, .MOV_STS_KICK, .MOV_STS_CFG_REFUSED, .MOV_STS_CH_ERR, .MOV_STS_CUR]

/-- Piece 3 of the list of all fields. -/
def fldPiece3 : List Fld :=
  [.MOV_LAST_INDEX, .MOV_LAST_DSTATUS, .MOV_LAST_ERR, .MOV_LAST_BYTES_DONE, .MOV_CNT_DONE, .MOV_CNT_BAD, .MOV_CNT_TRIG_MISSED, .MOV_QSTS_USED, .MOV_QSTS_PEAK, .SPN_RFAULT_A_INDEX, .SPN_RFAULT_A_DETAIL, .SPN_RFAULT_A_PC, .SPN_RFAULT_B_TVAL, .SPN_RSTATS_CALLS, .SPN_RSTATS_FAULTS, .WNG_CTL_START, .WNG_CTL_RUNNING, .WNG_CTL_HALTED, .WNG_CTL_REFUSED, .WNG_CTL_ENTRY, .LNK_CTL_DISABLE, .LNK_CTL_REWIDEN, .LNK_CTL_RETRY_NOW, .LNK_CTL_REKEY_NOW, .LNK_STS_STATE, .LNK_STS_WIDTH, .LNK_STS_REVERSED, .LNK_STS_ACTIVE_LANE0, .LNK_STS_LAST_CAUSE, .LNK_STS_CONSEQ, .LNK_STS_REKEYING, .LNK_STS_TX_GROUPS, .LNK_LANE_STATE, .LNK_LANE_POL_INV, .LNK_LANE_ACTIVE, .LNK_LANE_PRESET, .LNK_LANE_CORR_SYM, .LNK_CNT_A_REPLAYS, .LNK_CNT_A_CRC_ERR, .LNK_CNT_A_UNCORR]

/-- Piece 4 of the list of all fields. -/
def fldPiece4 : List Fld :=
  [.LNK_CNT_A_RETRAINS, .LNK_CNT_B_PROTO, .LNK_CNT_B_STRAY, .LNK_CNT_B_DOWNS, .LNK_CNT_B_REKEYS, .LNK_OWN_TX_OFF, .LNK_OWN_TX_LEN, .LNK_OWN_TX_SEND, .LNK_OWN_TX_REFUSED, .LNK_OWN_RX_OFF, .LNK_OWN_RX_RX_FULL, .LNK_OWN_RX_RX_ACK, .LNK_OWN_RX_RX_LEN, .LNK_OCT_CTL_CAL, .LNK_OCT_STS_CAL_DONE, .LNK_OCT_STS_CALIBRATING, .LNK_OCT_STS_CAL_FAIL, .LNK_OCT_STS_FAIL_CAUSE, .LNK_OCT_STS_HOLDS_LINK, .HPT_STS_RATE, .HPT_STS_FLIT, .HPT_STS_WIDTH, .HPT_STS_CUR_WIDTH, .HPT_STS_LSTATE, .HPT_STS_D3HOT, .HPT_STS_BELOW_MIN, .HPT_STS_DRAINING, .HPT_STS_OWNER_RESET, .HPT_STS_LAST_CAUSE, .HPT_STS_QUARANTINED, .HPT_CNT_LATE_CPL, .HPT_CNT_CPL_TIMEOUT, .HPT_CNT_PME_SENT, .HPT_CNT_L1_EXITS, .IDN_LOT_LOT, .IDN_POS_WAFER, .IDN_POS_DIE_X, .IDN_POS_DIE_Y, .IDN_POS_STEPPING, .IDN_POS_TEST_REV]

/-- Piece 5 of the list of all fields. -/
def fldPiece5 : List Fld :=
  [.IDN_POS_IDN_BAD, .IDN_SERIAL_LO_SERIAL, .IDN_SERIAL_HI_SERIAL, .SEC_STS_OWNER_SET, .SEC_STS_FACTORY_OPEN, .SEC_STS_DEBUG_DISABLE, .SEC_STS_DS_OK, .SEC_STS_DEBUG_ACTIVE, .SEC_STS_CERT_MISMATCH, .SEC_STS_ENTROPY_OK, .SEC_STS_SVN_STEPS, .SEC_STS_DEBUG_SCOPE, .SEC_VOTE_CORRECTED, .SEC_VOTE_SEVERE, .SEC_VOTE_PATH_DIS, .OCMD_CTL_SUBMIT, .OCMD_CTL_LEN, .SEC_WCMD_SUBMIT, .SEC_WCMD_OFF, .SEC_WCMD_LEN, .OCMD_STS_BUSY, .OCMD_STS_DONE, .OCMD_STS_SUBMIT_LOST, .OCMD_STS_RESULT, .OCMD_STS_RESP_LEN, .OCMD_STS_CTYPE, .OCMD_STS_FW_CODE, .SEC_WSTS_BUSY, .SEC_WSTS_DONE, .SEC_WSTS_SUBMIT_LOST, .SEC_WSTS_RESULT, .SEC_WSTS_RESP_LEN, .SEC_WSTS_CTYPE, .SEC_WSTS_FW_CODE, .OCMD_NONCE_NONCE, .SEC_WNONCE_NONCE, .SEC_FWCMD_DEST, .SEC_FWCMD_ARMED, .SEC_FWCMD_PENDING, .SEC_FWCMD_FINISH]

/-- Piece 6 of the list of all fields. -/
def fldPiece6 : List Fld :=
  [.SEC_FWCMD_LATE, .SEC_FWCMD_SRC, .SEC_FWCMD_RESP_LEN, .SEC_FWCMD_FW_CODE, .MEM_CH_CTL_TRAIN, .MEM_CH_STS_PRESENT, .MEM_CH_STS_TRAINED, .MEM_CH_STS_TRAINING, .MEM_CH_STS_TRAIN_FAIL, .MEM_CH_STS_FAIL_CAUSE, .MEM_CH_STS_FAIL_SUB, .MEM_CH_STS_FAIL_RANK, .MEM_CH_STS_RATE, .MEM_CH_STS_CAPACITY, .MEM_CH_STS_RANKS, .MEM_BUCKET_DEPTH, .MEM_BUCKET_LEAK_LOG2, .MEM_BUCKET_LEVEL, .MEM_BUCKET_OVERFLOWS, .MEM_ERR_A_CORRECTED, .MEM_ERR_A_UNCORR, .MEM_ERR_A_POISON_HIT, .MEM_ERR_B_TAG_FAIL, .MEM_ERR_B_SPEC_ERR, .MEM_ERR_B_TAG_REBUILT, .MEM_ERR_B_WRITE_ERR, .MEM_ERR_ADDR_KIND, .MEM_ERR_ADDR_VALID, .MEM_ERR_ADDR_ADDR, .MEM_SCRUB_CTL_START, .MEM_SCRUB_CTL_STOP, .MEM_SCRUB_CTL_BUSY, .MEM_SCRUB_CTL_DONE, .MEM_SCRUB_CTL_REFUSED, .MEM_SCRUB_CTL_STOPPED, .MEM_SCRUB_CTL_RATE, .MEM_SCRUB_RANGE_FIRST, .MEM_SCRUB_RANGE_LAST, .MEM_SCRUB_SUM_A_LINES, .MEM_SCRUB_SUM_A_CORRECTED]

/-- Piece 7 of the list of all fields. -/
def fldPiece7 : List Fld :=
  [.MEM_SCRUB_SUM_B_UNCORR, .MEM_SCRUB_SUM_B_POISON_SEEN, .MEM_SCRUB_SUM_C_FIRST_FAIL, .MEM_SCRUB_SUM_C_LAST_FAIL, .MEM_SCRUB_SUM_C_FAIL_VALID, .MEM_SCRUB_HIST_POS0, .MEM_SCRUB_HIST_POS1, .MEM_SCRUB_HIST_POS2, .MEM_SCRUB_HIST_POS3, .IRQ_CFG_GLOBAL_HOLD, .IRQ_CFG_RING_SENSE, .IRQ_CFG_LATE_MASK, .IRQ_CFG_STRAY_ACK, .IRQ_CFG_LOST, .IRQ_PEND_N_PEND, .IRQ_PEND_F_PEND, .IRQ_RPEND_PEND, .IRQ_MASK_N_MASK, .IRQ_MASK_F_MASK, .IRQ_RMASK_MASK, .IRQ_ACT_N_ACT, .IRQ_ACT_F_ACT, .IRQ_RACT_ACT, .IRQ_SENSE_SENSE, .IRQ_STRAY_ACK_COUNT, .IRQ_WCFG_ROUTE, .IRQ_WCFG_LOST, .IRQ_WCTL_GLOBAL_HOLD, .IRQ_WCTL_CUR_N, .IRQ_WCTL_CUR_F, .IRQ_WPEND_N_PEND, .IRQ_WPEND_F_PEND, .IRQ_WMASK_N_MASK, .IRQ_WMASK_F_MASK, .IRQ_WACT_N_ACT, .IRQ_WACT_F_ACT, .IRQ_WSENSE_SENSE, .IRQ_WSTRAY_COUNT, .MBX_TX_HEAD_WORD, .MBX_TX_DATA_WORD]

/-- Piece 8 of the list of all fields. -/
def fldPiece8 : List Fld :=
  [.MBX_WTX_HEAD_WORD, .MBX_WTX_DATA_WORD, .MBX_RX_WORD, .MBX_WRX_WORD, .MBX_STS_TX_ITEMS, .MBX_STS_TX_FREE, .MBX_STS_RX_ITEMS, .MBX_STS_OVERRUN, .MBX_STS_PTR_ERR_TX, .MBX_STS_PTR_ERR_RX, .MBX_STS_TORN, .MBX_WSTS_TX_ITEMS, .MBX_WSTS_TX_FREE, .MBX_WSTS_RX_ITEMS, .MBX_WSTS_OVERRUN, .MBX_WSTS_PTR_ERR_TX, .MBX_WSTS_PTR_ERR_RX, .MBX_WSTS_TORN, .MBX_CTL_FLUSH_TX, .MBX_CTL_FLUSH_RX, .MBX_WCTL_FLUSH_TX, .MBX_WCTL_FLUSH_RX, .TRC_EVT_ENTRY, .TRC_EVT_STS_COUNT, .TRC_EVT_STS_PTR_ERR, .TRC_EVT_STS_LOST, .TRC_PUT_WORD, .TRC_GET_WORD, .TRC_CTL_MARK, .TRC_CTL_REWIND, .TRC_STS_COUNT, .TRC_STS_MARK_VALID, .TRC_STS_MARK_LOST, .TRC_STS_PTR_ERR, .TRC_CNT_LOST, .TRC_CNT_CORR, .TRC_CNT_UNCORR, .FLT_STS_SEEN, .FLT_STS_ACTIVE, .FLT_STS_SEV_MERGED]

/-- Piece 9 of the list of all fields. -/
def fldPiece9 : List Fld :=
  [.FLT_STS_NEIGHBOUR, .FLT_FIRST_A_SRC, .FLT_FIRST_A_SEVERE, .FLT_FIRST_A_VALID, .FLT_FIRST_A_REACT, .FLT_FIRST_A_TICK, .FLT_FIRST_B_INFO, .FLT_CNT_MERGE, .FLT_CNT_SEVERE, .FLT_SRC_COUNT, .FLT_SRC_AGE, .FLT_SRC_EVENTS, .FLT_INJECT_LOCAL, .FLT_INJECT_GO, .PWR_CTL_HUSH, .PWR_CTL_HUSH_ACTIVE, .PWR_CTL_BRESET_REFUSED, .PWR_CTL_NMT_LOST, .PWR_PIN_FAULT_LOW, .PWR_PIN_ALIVE_FROZEN, .PWR_PIN_ALIVE, .PWR_PIN_PIN_SRC, .PWR_RST_CAUSE_KIND, .PWR_RST_CAUSE_SRC, .PWR_BRESET_BLOCK, .PWR_BRESET_GO, .PWR_BRESET_CORE, .BSTS_RSVD_WR, .BSTS_LOCKED_WR, .BSTS_FLASH_BUSY_RD, .BSTS_FIRST_OFF, .BSTS_SPACE, .BSTS_OFF_VALID, .IMG_SEQ_SEQ, .IMG_ROOT_HASH_HASH, .PWR_TEMP_T0, .PWR_TEMP_T1, .PWR_TEMP_T2, .PWR_TEMP_T3, .PWR_THERM_MAX]

/-- Piece 10 of the list of all fields. -/
def fldPiece10 : List Fld :=
  [.PWR_THERM_MAX_SENSOR, .PWR_THERM_WARN, .PWR_THERM_TRIP, .PWR_THERM_VALID, .PWR_THERM_PEAK]

/-- All fields, in the order of their numbers. -/
def fldList : List Fld :=
  fldPiece0 ++ fldPiece1 ++ fldPiece2 ++ fldPiece3 ++ fldPiece4 ++ fldPiece5 ++ fldPiece6 ++ fldPiece7 ++ fldPiece8 ++ fldPiece9 ++ fldPiece10

/-- The number under which the field map stores a field. -/
def Fld.num (f : Fld) : Nat := f.ctorIdx

/-- The table entry of a stored field number. -/
def fldSpecAt (n : Nat) : FSpec := fldSpec (fldList.getD n .BSTS_RSVD_WR)

end Sys2Proof
end

