-- ==== Sys2Proof/Machine/Ops.lean ====
section
/-! DEFINITION. The named operations every meaning is built from: register fields, counters, outputs, free values,
the records of the sparse maps, and budgets. -/

namespace Sys2Proof

/-! ### Register fields -/

/-- The identity CRC-16 matches at sense: the 30 bytes of IDN_LOT, IDN_POS bits [47:0] and IDN_SERIAL against the CRC that
follows them (R276). -/
def identityGood : Bool :=
  Config.crc16 (leBytes 8 Config.idnLot.toNat ++ leBytes 6 Config.idnPos.toNat ++ leBytes 16 Config.dieSerial.toNat) ==
    Config.identityCrc

/-- The value a field has when nothing has changed it since its resets: the identity registers come from fuses
(R276), every other field from its Reset cell (R9). -/
def rstVal : Fld → Nat
  | .IDN_LOT_LOT => Config.idnLot.toNat
  | .IDN_POS_WAFER => bitsAt Config.idnPos.toNat 0 8
  | .IDN_POS_DIE_X => bitsAt Config.idnPos.toNat 8 8
  | .IDN_POS_DIE_Y => bitsAt Config.idnPos.toNat 16 8
  | .IDN_POS_STEPPING => bitsAt Config.idnPos.toNat 24 8
  | .IDN_POS_TEST_REV => bitsAt Config.idnPos.toNat 32 16
  | .IDN_POS_IDN_BAD => if identityGood then 0 else 1
  | .IDN_SERIAL_LO_SERIAL => bitsAt Config.dieSerial.toNat 0 64
  | .IDN_SERIAL_HI_SERIAL => bitsAt Config.dieSerial.toNat 64 64
  | f => (fldSpec f).rst

/-- The value of a register field at an instance. -/
def M.fld (m : M) (F : Fld) (i : Nat) : Nat := mapGet (rstVal F) m.f (F.num, i)

/-- A one-bit field as a truth value. -/
def M.flag (m : M) (F : Fld) (i : Nat) : Bool := m.fld F i != 0

/-- Writes a field, keeping its width. -/
def M.setFld (m : M) (F : Fld) (i v : Nat) : M :=
  { m with f := mapPut m.f (F.num, i) (v % 2 ^ (fldSpec F).w) }

/-- What this cycle's events have done to a field so far: its value before them, and what they alone recorded (R5). -/
def M.cycOf (m : M) (F : Fld) (i : Nat) : Nat × Nat := mapGet (m.fld F i, 0) m.cyc (F.num, i)

/-- The bits of a field that hardware set in this cycle (R5). -/
def M.cycSet (m : M) (F : Fld) (i : Nat) : Nat := (m.cycOf F i).2

/-- Writes a one-bit field; a set RW1C bit is noted for R5. -/
def M.setFlag (m : M) (F : Fld) (i : Nat) (b : Bool) : M :=
  { m.setFld F i (if b then 1 else 0) with
    cyc := if b && (fldSpec F).acc == .rw1c then mapPut m.cyc (F.num, i) ((m.cycOf F i).1, 1) else m.cyc }

/-- Returns a field to its reset value. -/
def M.rstFld (m : M) (F : Fld) (i : Nat) : M :=
  { m with f := mapDel m.f (F.num, i), cyc := mapDel m.cyc (F.num, i) }

/-- Adds to a counter, which saturates at all ones (R8); the events of an RC counter are noted for R5. -/
def M.bumpN (m : M) (F : Fld) (i n : Nat) : M :=
  { m.setFld F i (satAdd (fldSpec F).w (m.fld F i) n) with
    cyc := if (fldSpec F).acc == .rc && n != 0 then
        mapPut m.cyc (F.num, i) ((m.cycOf F i).1, satAdd (fldSpec F).w (m.cycSet F i) n) else m.cyc }

/-- Raises an RC field that holds a peak to n (R5). -/
def M.peak (m : M) (F : Fld) (i n : Nat) : M :=
  { m.setFld F i (max (m.fld F i) n) with
    cyc := if m.fld F i < n then mapPut m.cyc (F.num, i) ((m.cycOf F i).1, n) else m.cyc }

/-- A write of 1 to an RW1S bit whose action still runs: if hardware clears the bit in this very cycle, the write counts
as a new request (R5). -/
def M.askAgain (m : M) (F : Fld) (i : Nat) : M := { m with cyc := mapPut m.cyc (F.num, i) (1, 1) }

/-- Whether software has written 1 to an RW1S bit in this cycle while its action ran (R5). -/
def M.askedAgain (m : M) (F : Fld) (i : Nat) : Bool := m.cycSet F i == 1

/-- Counts one event (R8). -/
def M.bump (m : M) (F : Fld) (i : Nat) : M := m.bumpN F i 1

/-- Instance number of register r of partition p (a ring, a bank register, a mailbox). -/
def pinst (p i : Nat) : Nat := p * 65536 + i

/-- Drops every field entry that a predicate on (table entry, instance) selects: those fields read their reset value
again (R9). -/
def M.clearFlds (m : M) (sel : FSpec → Nat → Bool) : M :=
  { m with f := m.f.filter (fun e => !(sel (fldSpecAt e.1.1) e.1.2))
           cyc := m.cyc.filter (fun e => !(sel (fldSpecAt e.1.1) e.1.2)) }

/-! ### Outputs and free values -/

/-- Drives something on a port (log entry 5); the newest output stands first. -/
def M.emit (m : M) (k : OutK) : M := { m with out := (m.now, k) :: m.out }

/-- Takes the next free value's number (log entry 4). -/
def M.draw (m : M) : Nat × M := (m.fresh, { m with fresh := m.fresh + 1 })

/-! ### Records of the sparse maps -/

/-- The function and port of partition p. -/
def M.hostOf (m : M) (p : Nat) : HostSt := mapGet HostSt.init m.host (p, 0)

/-- Replaces the function and port of partition p. -/
def M.setHost (m : M) (p : Nat) (h : HostSt) : M := { m with host := mapPut m.host (p, 0) h }

/-- Ring r of partition p. -/
def M.ring (m : M) (p r : Nat) : RingSt := mapGet RingSt.init m.rings (p, r)

/-- Replaces ring r of partition p. -/
def M.setRing (m : M) (p r : Nat) (x : RingSt) : M := { m with rings := mapPut m.rings (p, r) x }

/-- Channel n. -/
def M.chan (m : M) (n : Nat) : ChanSt := mapGet ChanSt.init m.chans (n, 0)

/-- Replaces channel n. -/
def M.setChan (m : M) (n : Nat) (c : ChanSt) : M := { m with chans := mapPut m.chans (n, 0) c }

/-- The key of a spindle thread. -/
def thr (t : Nat) : Key := (0, t)

/-- The owner whose work a thread's routine is: a partition, or 8. -/
def Cpu.own (x : Cpu) : Nat := match x.rout with | some r => r.part | none => 8

/-- The key of a wings core. -/
def wng (c : Nat) : Key := (1, c)

/-- A thread or core. -/
def M.cpu (m : M) (k : Key) : Cpu := mapGet Cpu.init m.cpus k

/-- Replaces a thread or core. -/
def M.setCpu (m : M) (k : Key) (x : Cpu) : M := { m with cpus := mapPut m.cpus k x }

/-- Link l. -/
def M.link (m : M) (l : Nat) : LinkSt := mapGet LinkSt.init m.links (l, 0)

/-- Replaces link l. -/
def M.setLink (m : M) (l : Nat) (x : LinkSt) : M := { m with links := mapPut m.links (l, 0) x }

/-- A live script of partition p. -/
def M.script (m : M) (p tag : Nat) : Option Script := mapFind m.scripts (p, tag)

/-- Replaces a script. -/
def M.setScript (m : M) (s : Script) : M := { m with scripts := mapPut m.scripts (s.part, s.tag) s }

/-- Removes a script. -/
def M.delScript (m : M) (p tag : Nat) : M := { m with scripts := mapDel m.scripts (p, tag) }

/-- The scripts of partition p. -/
def M.scriptsOf (m : M) (p : Nat) : List Script := (m.scripts.filter (fun e => e.1.1 == p)).map (·.2)

/-- The script a thread holds. -/
def M.scriptOn (m : M) (t : Nat) : Option Script :=
  (m.scripts.find? (fun e => e.2.thread == some t)).map (·.2)

/-- Rehearsal n of link l. -/
def M.rh (m : M) (l n : Nat) : Option Rehearsal := mapFind m.rhs (l, n)

/-- Replaces a rehearsal. -/
def M.setRh (m : M) (l n : Nat) (r : Rehearsal) : M := { m with rhs := mapPut m.rhs (l, n) r }

/-- Frees a rehearsal number. -/
def M.delRh (m : M) (l n : Nat) : M := { m with rhs := mapDel m.rhs (l, n) }

/-- The sub-queue of an owner in a spindle cluster (R181). -/
def M.queue (m : M) (cl own : Nat) : List Xfer := mapGet [] m.subq (cl, own)

/-- Replaces a sub-queue. -/
def M.setQueue (m : M) (cl own : Nat) (q : List Xfer) : M := { m with subq := mapPut m.subq (cl, own) q }

/-- An empty mailbox FIFO. -/
def Mbx.empty : Mbx := ⟨[], none⟩

/-- Mailbox FIFO d of partition p: 0 to the wings, 1 from the wings (R344). -/
def M.mbxOf (m : M) (p d : Nat) : Mbx := mapGet Mbx.empty m.mbx (p, d)

/-- Replaces a mailbox FIFO. -/
def M.setMbx (m : M) (p d : Nat) (x : Mbx) : M := { m with mbx := mapPut m.mbx (p, d) x }

/-- Whether a block reset of instance b (core c of the wings) is in progress. -/
def M.inReset (m : M) (b c : Nat) : Bool := (mapFind m.brst (b, c)).isSome

/-- The state code of an attention latch: whether partition p's latch of a slot is set (R92). -/
def M.attnSet (m : M) (p slot : Nat) : Bool := m.attn.contains (p, slot)

/-! ### Budgets (R59 to R68) -/

/-- Index of a frame budget: partition and link. -/
def fidx (p l : Nat) : Nat := p * 128 + l

/-- The partition of a budget index. -/
def budPart (kind idx : Nat) : Nat := if kind = 3 ∨ kind = 4 then idx / 128 else idx

/-- What the in-force value becomes at step 2: the smaller of the image value and the cap (R59, R66). -/
def budNew (im : Image) (m : M) (kind idx : Nat) : Nat :=
  let p := budPart kind idx
  if kind = 0 then min (im.bud p).cycles (m.fld .TCK_CAP_A_SPINDLE_CYCLES p)
  else if kind = 1 then min (im.bud p).mover (m.fld .TCK_CAP_A_MOVER_BYTES p)
  else if kind = 2 then min (im.bud p).host (m.fld .TCK_CAP_B_HOSTPORT_BYTES p)
  else if kind = 5 then min (im.bud p).stage (m.fld .TCK_CAP_B_STAGE_QUOTA p)
  else im.frameSlots (idx % 128) p * m.fld .TCK_CAP_B_FRAME_SCALE p / 128

/-- The in-force value of a budget in this tick. -/
def M.inForce (m : M) (kind idx : Nat) : Nat := mapGet 0 m.bud.inf (kind, idx)

/-- The remaining allowance of a budget. -/
def M.left (m : M) (kind idx : Nat) : Nat := mapGet 0 m.bud.rem (kind, idx)

/-- An indivisible operation may start only when the allowance covers its cost (R64). -/
def M.covers (m : M) (kind idx n : Nat) : Bool := decide (n ≤ m.left kind idx)

/-- Whether the edge of this cycle, or the latest one, has not yet reloaded the budgets: what is charged now is deducted at its
step 2 (R57, R58). -/
def M.beforeReload (m : M) : Bool := m.tick.on && (m.now == m.tick.next || m.tick.phase == 1)

/-- The number of tick edges so far: an edge counts from its cycle e on, although TCK_COUNT rises at e + 3 (R57, R58). -/
def edgeCount (m : M) : Nat :=
  m.fld .TCK_COUNT_COUNT 0 +
    (if m.tick.on && (m.now == m.tick.next || decide (1 ≤ m.tick.phase ∧ m.tick.phase ≤ 3)) then 1 else 0)

/-- The number of tick edges whose cycle e has passed. -/
def edgesPast (m : M) : Nat :=
  m.fld .TCK_COUNT_COUNT 0 +
    (if m.tick.on && decide (1 ≤ m.tick.phase ∧ m.tick.phase ≤ 3 ∧ m.tick.edge < m.now) then 1 else 0)

/-- The latest edge cycle, this one included. -/
def edgeCycle (m : M) : Nat := if m.tick.on && m.now == m.tick.next then m.now else m.tick.edge

/-- Adds an element to a list that lacks it. -/
def addOnce (x : Nat) (l : List Nat) : List Nat := if l.contains x then l else x :: l

/-- Marks a budget of the tick that has reached zero with a value in force (R409; log entry 97). -/
def BudSt.markOut (b : BudSt) (kind idx : Nat) : BudSt :=
  if mapGet 0 b.rem (kind, idx) = 0 ∧ mapGet 0 b.inf (kind, idx) ≠ 0 then
    { b with exhausted := mapPut b.exhausted (min kind 3, budPart kind idx) 1 }
  else b

/-- A partition whose spindle budget is at zero stops until step 5 picks its threads again (R59, R67). -/
def BudSt.markStop (b : BudSt) (kind idx : Nat) : BudSt :=
  if kind = 0 ∧ mapGet 0 b.rem (kind, idx) = 0 then { b with stopped := addOnce idx b.stopped } else b

/-- Deducts the cost of an operation of server `sv` at its start (R64): in the ending tick's place, the new tick is charged for
what starts from the edge cycle on before the reload (R58). -/
def M.charge (m : M) (kind idx sv n : Nat) : M :=
  let b := { m.bud with rem := mapPut m.bud.rem (kind, idx) (m.left kind idx - n) }
  { m with bud := (if m.beforeReload then
      { b with early := mapPut b.early (kind, idx) (mapGet 0 b.early (kind, idx) + n), last := mapDel b.last (kind, sv) }
    else { b with charged := mapPut b.charged (kind, idx) (mapGet 0 b.charged (kind, idx) + n)
                  last := mapPut b.last (kind, sv) (idx, if kind = 4 then 1 else n) }.markOut kind idx).markStop kind idx }

/-- Whether owner code `o` (partition, or 8 OWNER, which no budget charges: R60) may start work of a cost. -/
def M.coversO (m : M) (kind o n : Nat) : Bool := o == 8 || m.covers kind o n

/-- Charges a partition; owner work is charged to no budget (R60). -/
def M.chargeO (m : M) (kind o sv n : Nat) : M :=
  if o = 8 then { m with bud := { m.bud with last := mapDel m.bud.last (kind, sv) } } else m.charge kind o sv n

/-- A partition reset sets carry and remaining allowances to zero (R68); the tick counts as one in which they reached zero
(R409). -/
def M.budReset (m : M) (p : Nat) : M :=
  let of := fun (k : Key) => budPart k.1 k.2 == p && k.1 != 5
  let keys := (m.bud.inf.map (·.1)).filter of
  let drop := fun (l : Map Nat) => l.filter (fun e => !(of e.1))
  let b := { m.bud with
    rem := drop m.bud.rem, early := drop m.bud.early
    charged := if m.beforeReload then drop m.bud.charged else m.bud.charged
    last := m.bud.last.filter (fun e => !(budPart e.1.1 e.2.1 == p)) }
  { m with bud := { keys.foldl (fun b k => b.markOut k.1 k.2) b with stopped := addOnce p b.stopped } }

/-! ### Bits of fields held as numbers -/

/-- Sets or clears bit b of a number. -/
def putBit (x b : Nat) (v : Bool) : Nat := if bitAt x b = v then x else if v then x + 2 ^ b else x - 2 ^ b

/-- Clears in x the bits set in y (RW1C). -/
def clearBits (x y : Nat) : Nat := x &&& (x ^^^ y)

/-! ### Issue slots (R184) -/

/-- The cycle after a spindle's last issue, and the thread of it. -/
def M.lastServed (m : M) (sp : Nat) : Nat × Nat := mapGet (0, 3) m.served (sp, 0)

/-- A spindle issues at most one instruction or cue-engine step per sc. -/
def M.spindleFree (m : M) (sp : Nat) : Bool := decide ((m.lastServed sp).1 ≤ m.now)

/-- Thread t takes its spindle's issue slot of this cycle. -/
def M.serveThread (m : M) (t : Nat) : M := { m with served := mapPut m.served (t / 4, 0) (m.now + 1, t % 4) }

/-- The threads of a spindle, as bits, that have let their turn of this cycle pass. -/
def M.passed (m : M) (sp : Nat) : Nat :=
  let x := mapGet (0, 0) m.served (sp, 1)
  if x.1 = m.now then x.2 else 0

/-- Thread t lets its turn of this cycle pass without issuing: it is not ready in it (R184). -/
def M.passTurn (m : M) (t : Nat) : M :=
  { m with served := mapPut m.served (t / 4, 1) (m.now, putBit (m.passed (t / 4)) (t % 4) true) }

/-- Stage units in use by a partition (R87). -/
def M.stageUsed (m : M) (p : Nat) : Nat := mapGet 0 m.bud.stage (p, 0)

/-- Takes stage units. -/
def M.stageTake (m : M) (p n : Nat) : M :=
  { m with bud := { m.bud with stage := mapPut m.bud.stage (p, 0) (m.stageUsed p + n) } }

/-- Frees stage units. -/
def M.stageFree (m : M) (p n : Nat) : M :=
  { m with bud := { m.bud with stage := mapPut m.bud.stage (p, 0) (m.stageUsed p - n) } }

/-- Stage units a request of n may use now: the space in use plus the request fits the quota (R68). -/
def M.stageFits (m : M) (p n : Nat) : Bool := decide (m.stageUsed p + n ≤ m.inForce 5 p)

end Sys2Proof
end

