-- ==== Sys2Proof/Machine/Irq.lean ====
section
/-! DEFINITION. The interrupt controller (13): source signals, the pending latch, masks in effect, eligibility,
commit and the message queue of a port. Owners are partitions 0 to 7 and 8, the wings; a ring source of local ring r
is numbered 0x10000 + r. -/

namespace Sys2Proof

/-- Which bit of a source a bank register holds (R331, R338). -/
inductive BankReg where
  | pend | mask | act
  deriving DecidableEq, Repr

/-- The field that holds a bank of an owner. -/
def bankFld (k : BankReg) (o : Nat) (b : Bank) : Fld :=
  match k, b with
  | .pend, .n => if o = 8 then .IRQ_WPEND_N_PEND else .IRQ_PEND_N_PEND
  | .pend, .f => if o = 8 then .IRQ_WPEND_F_PEND else .IRQ_PEND_F_PEND
  | .pend, .r => .IRQ_RPEND_PEND
  | .mask, .n => if o = 8 then .IRQ_WMASK_N_MASK else .IRQ_MASK_N_MASK
  | .mask, .f => if o = 8 then .IRQ_WMASK_F_MASK else .IRQ_MASK_F_MASK
  | .mask, .r => .IRQ_RMASK_MASK
  | .act, .n => if o = 8 then .IRQ_WACT_N_ACT else .IRQ_ACT_N_ACT
  | .act, .f => if o = 8 then .IRQ_WACT_F_ACT else .IRQ_ACT_F_ACT
  | .act, .r => .IRQ_RACT_ACT

/-- The instance of bank register i of an owner. -/
def bankInst (o i : Nat) : Nat := if o = 8 then i else pinst o i

/-- Number of ring source r. -/
def ringSrc (r : Nat) : Nat := 0x10000 + r

/-- The bank of a source: rings, or the class of its MAP entry; unmapped sources latch in the normal bank (R329). -/
def srcBank (im : Image) (o src : Nat) : Bank :=
  if 0x10000 ≤ src then .r
  else match im.mapOf o src with
    | some e => if e.fast then .f else .n
    | none => .n

/-- Register index and bit of a source in its bank. -/
def srcIdx (src : Nat) : Nat := src % 0x10000 / 64

/-- A bit of a source. -/
def srcBit (im : Image) (m : M) (k : BankReg) (o src : Nat) : Bool :=
  bitAt (m.fld (bankFld k o (srcBank im o src)) (bankInst o (srcIdx src))) (src % 64)

/-- PEND and ACT of a source as they stood at the start of this cycle, PEND in bit 0 and ACT in bit 1; bit 2 is set once
the source has an edge or a pulse in this cycle (R331). -/
def startBits (im : Image) (m : M) (o src : Nat) : Nat :=
  match mapFind m.irq.start (o, src) with
  | some x => x
  | none => (if srcBit im m .pend o src then 1 else 0) + (if srcBit im m .act o src then 2 else 0)

/-- Keeps the bits with which a source began the cycle, before one of them changes; `ev` adds bit 2. -/
def noteStart (im : Image) (o src : Nat) (ev : Bool) (m : M) : M :=
  { m with irq := { m.irq with
      start := mapPut m.irq.start (o, src) (startBits im m o src ||| (if ev then 4 else 0)) } }

/-- Writes a bit of a source. -/
def setSrcBit (im : Image) (k : BankReg) (o src : Nat) (v : Bool) (m : M) : M :=
  let F := bankFld k o (srcBank im o src)
  let i := bankInst o (srcIdx src)
  (noteStart im o src false m).setFld F i (putBit (m.fld F i) (src % 64) v)

/-- Whether a source exists (R327, R328): a STATUS ring of the partition, or a number of the table. -/
def sourceExists (im : Image) (m : M) (o src : Nat) : Bool :=
  if 0x10000 ≤ src then
    o != 8 && decide (src - 0x10000 < im.partN o (·.ringCount)) &&
      m.fld .RNG_CFG_B_KIND (pinst o (src - 0x10000)) == 2
  else srcExists im o src

/-- Sense mode of a source: 0 LEVEL, 1 RISE, 2 FALL, 3 BOTH. -/
def srcSense (m : M) (o src : Nat) : Nat :=
  if 0x10000 ≤ src then m.fld .IRQ_CFG_RING_SENSE (pinst o 0)
  else if o = 8 then bitsAt (m.fld .IRQ_WSENSE_SENSE (src / 32)) (2 * (src % 32)) 2
  else bitsAt (m.fld .IRQ_SENSE_SENSE (pinst o (src / 32))) (2 * (src % 32)) 2

/-- A LEVEL event sets PEND (R331). -/
def irqLatch (im : Image) (o src : Nat) (m : M) : M :=
  if sourceExists im m o src then setSrcBit im .pend o src true m else m

/-- An edge or a pulse sets PEND, and a commit or a write of the same cycle leaves it set (R331). -/
def irqEvent (im : Image) (o src : Nat) (m : M) : M :=
  if sourceExists im m o src then setSrcBit im .pend o src true (noteStart im o src true m) else m

/-- Something of a source falls in the next cycle. -/
def irqNext (o src : Nat) (pulse : Bool) (m : M) : M :=
  { m with irq := { m.irq with later := m.irq.later ++ [(o, src, pulse)] } }

/-- A one-cycle pulse gives one event in every mode, in FALL mode in the cycle after the pulse (R330). -/
def irqPulse (im : Image) (o src : Nat) (m : M) : M :=
  if srcSense m o src = 2 then irqNext o src false m else irqEvent im o src m

/-- The signal of a level source as the state gives it (R327, R328, R350). -/
def srcLevel (im : Image) (m : M) (o src : Nat) : Bool :=
  if 0x10000 ≤ src then decide (0 < (m.ring o (src - 0x10000)).used)
  else if src < 0x800 then src % 2 == 1 && m.fld .MOV_STS_STATE (src / 2) == 3
  else if o = 8 then
    if src = 0x800 then m.flag .IMG_CHECK_DONE 0
    else if src = 0x801 then m.flag .SEC_WSTS_DONE 0
    else if src = 0x802 then m.flag .SEC_FWCMD_PENDING 0
    else if 0x804 ≤ src ∧ src < 0x808 then mapGet 0 (m.cpu (wng (src - 0x804))).cr (0x00A, 0) != 0
    else if 0x808 ≤ src ∧ src < 0x80C then m.flag .MEM_SCRUB_CTL_DONE (src - 0x808)
    else if 0x810 ≤ src ∧ src < 0x818 then !(m.mbxOf (src - 0x810) 0).items.isEmpty
    else if 0x818 ≤ src ∧ src < 0x820 then
      let x := m.mbxOf (src - 0x818) 1
      let n := x.items.length + (if x.opened.isSome then 1 else 0)
      let w := (x.items.map List.length).sum + (match x.opened with | some (t, _) => t | none => 0)
      decide (n < 64) && decide (w + 8 ≤ 512)
    else if 0x980 ≤ src ∧ src < 0x9E0 then m.flag .LNK_OWN_RX_RX_FULL (src - 0x980)
    else false
  else if src = 0x800 then m.flag .OCMD_STS_DONE (im.partN o (·.hostPort))
  else if src = 0x802 then !(m.mbxOf o 1).items.isEmpty
  else if src = 0x803 then
    let x := m.mbxOf o 0
    let n := x.items.length + (if x.opened.isSome then 1 else 0)
    let w := (x.items.map List.length).sum + (match x.opened with | some (t, _) => t | none => 0)
    decide (n < 64) && decide (w + 8 ≤ 512)
  else false

/-- Brings a level source up to date: an edge or, in LEVEL mode, a high signal with ACT 0 is an event (R330). -/
def irqSync (im : Image) (o src : Nat) (m : M) : M :=
  let old := mapGet 0 m.irq.sig (o, src) != 0
  let new := srcLevel im m o src
  let m := { m with irq := { m.irq with sig := mapPut m.irq.sig (o, src) (if new then 1 else 0) } }
  let s := srcSense m o src
  let ev := if s = 0 then new && !(srcBit im m .act o src)
    else if s = 1 then !old && new
    else if s = 2 then old && !new
    else old != new
  if ev then (if s = 0 then irqLatch im o src m else irqEvent im o src m) else m

/-- In LEVEL mode every cycle with a high signal and ACT 0 is an event (R330). -/
def irqRelevel (im : Image) (o : Nat) (m : M) : M :=
  (m.irq.sig.filter (fun e => e.1.1 == o && e.2 != 0)).foldl (fun m e =>
    if srcSense m o e.1.2 = 0 ∧ srcBit im m .act o e.1.2 = false then irqLatch im o e.1.2 m else m) m

/-! ### Masks in effect (R338) -/

/-- Keys of masks that are no register field: Mask bit of vector v, Function Mask, MSI-X Enable. -/
def vecKey (p v : Nat) : Key := (1000, pinst p v)
/-- Key of the Function Mask. -/
def fmaskKey (p : Nat) : Key := (1001, p)
/-- Key of MSI-X Enable. -/
def msixEnKey (p : Nat) : Key := (1002, p)

/-- The value a mask has in effect in this cycle: that of the last write decoded 8 cycles ago or earlier; at reset a vector
is masked and every other mask clear (R338). -/
def effOf (m : M) (k : Key) : Nat :=
  match (m.irq.maskq.filter (fun w => decide (w.due ≤ m.now) && w.key == k)).getLast? with
  | some w => w.val
  | none => mapGet (if k.1 = 1000 then 1 else 0) m.irq.eff k

/-- Queues a mask write, which takes effect 8 cycles after its decode (R338). -/
def maskWrite (k : Key) (v : Nat) (m : M) : M :=
  { m with irq := { m.irq with maskq := m.irq.maskq ++ [⟨m.now + 8, k, v⟩] } }

/-- Puts in effect the mask writes due by cycle t, in decode order (R338). -/
def masksDue (t : Nat) (m : M) : M :=
  let due := m.irq.maskq.filter (fun w => decide (w.due ≤ t))
  { m with irq := { m.irq with
      eff := due.foldl (fun e w => mapPut e w.key w.val) m.irq.eff
      maskq := m.irq.maskq.filter (fun w => decide (t < w.due)) } }

/-- Vector and group of a partition source; `none` when unmapped (R328, R329). -/
def srcRoute (im : Image) (m : M) (p src : Nat) : Option (Nat × Nat) :=
  if 0x10000 ≤ src then
    let v := m.fld .RNG_CFG_B_VECTOR (pinst p (src - 0x10000))
    some (v, v % 256)
  else (im.mapOf p src).map (fun e => (e.vector, e.group))

/-- A source's own MASK bit in effect. -/
def srcMasked (im : Image) (m : M) (o src : Nat) : Bool :=
  bitAt (effOf m ((bankFld .mask o (srcBank im o src)).num, bankInst o (srcIdx src))) (src % 64)

/-- Whether the masks in effect let a partition source be delivered (R332). -/
def masksOpen (im : Image) (m : M) (p src vec : Nat) : Bool :=
  !(srcMasked im m p src) && effOf m (Fld.num .IRQ_CFG_GLOBAL_HOLD, pinst p 0) == 0 &&
  effOf m (msixEnKey p) == 1 && effOf m (fmaskKey p) == 0 && effOf m (vecKey p vec) == 0

/-- Whether the hold-off timer of a group runs in this cycle (R336). -/
def heldOff (m : M) (o g : Nat) : Bool :=
  match mapFind m.irq.hold (o, g) with
  | some e => decide (m.now ≤ e)
  | none => false

/-- The function is in D0 and no status entry held for D3hot is still unwritten (R332). -/
def d3Clear (m : M) (p : Nat) : Bool :=
  !(m.flag .HPT_STS_D3HOT (pinst p 0)) && (m.hostOf p).d3q.isEmpty &&
  !(m.rings.any (fun e => e.1.1 == p && (e.2.staged ++ e.2.held).any (·.d3)))

/-- Whether the function lets interrupts commit: D0, no held D3hot entry from the cycle before on, no drain, no reset of the
controller (R332, R342, R343). -/
def irqAwake (m : M) (p : Nat) : Bool :=
  d3Clear m p && decide ((m.hostOf p).awakeAt ≤ m.now) && !(m.flag .HPT_STS_DRAINING (pinst p 0)) && !(m.inReset 26 0)

/-- PEND 1 and ACT 0 at the start of this cycle (R331). -/
def asked (im : Image) (m : M) (o src : Nat) : Bool := startBits im m o src % 4 == 1

/-- Eligibility of a partition source (R332). -/
def eligible (im : Image) (m : M) (p src : Nat) : Bool :=
  asked im m p src && irqAwake m p &&
  (match srcRoute im m p src with
   | some (v, g) => masksOpen im m p src v && (srcBank im p src == .f || !(heldOff m p g))
   | none => false)

/-- Source numbers of the bits set in an owner's PEND registers of one bank, ascending. -/
def pendSources (m : M) (o : Nat) (b : Bank) : List Nat :=
  let n := (bankFld .pend o b).num
  ((m.f.filter (fun e => e.1.1 == n && (o == 8 || e.1.2 / 65536 == o))).map (fun e =>
    (setBits e.2 64).map (fun k => (if b = .r then 0x10000 else 0) + 64 * (e.1.2 % 65536) + k))).flatten

/-- The sources of one bank of an owner with PEND set, now or at the start of this cycle (R331). -/
def candSources (im : Image) (m : M) (o : Nat) (b : Bank) : List Nat :=
  pendSources m o b ++ ((m.irq.start.filter (fun e => e.1.1 == o && asked im m o e.1.2 && srcBank im o e.1.2 == b &&
    !(srcBit im m .pend o e.1.2))).map (·.1.2))

/-- Loads the hold-off timer of a group (R336); a hold-off of 0 never runs. -/
def loadHold (im : Image) (o g : Nat) (m : M) : M :=
  if im.holdoffSc o g = 0 then m
  else { m with irq := { m.irq with hold := mapPut m.irq.hold (o, g) (m.now + im.holdoffSc o g) } }

/-- A commit moves a source from PEND to ACT; an event of the same cycle sets PEND again (R331). -/
def commitSrc (im : Image) (o src : Nat) (m : M) : M :=
  setSrcBit im .act o src true (setSrcBit im .pend o src (bitAt (startBits im m o src) 2) m)

/-! ### Messages -/

/-- Four bytes of an MSI-X table entry (R259, R334). -/
def msixDword (m : M) (p v d : Nat) : Nat := mapGet (if d = 3 then 1 else 0) m.irq.msix (pinst p v, d)

/-- Whether the port of p may issue requests now: Bus Master Enable, D0, L0, not draining (R261, R268, R271). -/
def portOpen (m : M) (p : Nat) : Bool :=
  (m.hostOf p).bme && !(m.flag .HPT_STS_D3HOT (pinst p 0)) && m.fld .HPT_STS_LSTATE (pinst p 0) == 0 &&
  !(m.flag .HPT_STS_DRAINING (pinst p 0))

/-- Drives one MSI-X message (R262). -/
def sendMsg (p : Nat) (m : M) (x : Msg) : M :=
  m.emit (.msix p x.vector (msixDword m p x.vector 0 + 2 ^ 32 * msixDword m p x.vector 1) (msixDword m p x.vector 2) loomAttr)

/-- The first queued messages, at most n, that may start in this cycle: from cycle k + 2 of a commit in k on (R333, R335). -/
def readyMsgs (n : Nat) (m : M) (p : Nat) : List Msg := ((m.hostOf p).msgq.take n).takeWhile (fun x => decide (x.ready ≤ m.now))

/-- Issues at most the first n queued messages, in queue order, as far as the port and their cycles let them start (R333, R335,
R342). -/
def issueFirst (n p : Nat) (m : M) : M :=
  let q := readyMsgs n m p
  if portOpen m p && !q.isEmpty then
    (q.foldl (sendMsg p) m).setHost p
      { m.hostOf p with msgq := (m.hostOf p).msgq.drop q.length, lastTlp := m.now }
  else m

/-- Issues the queued messages that may start (R333, R342). -/
def issueMsgs (p : Nat) (m : M) : M := issueFirst (m.hostOf p).msgq.length p m

/-- Queues messages: fast ones in vector order ahead of every waiting normal message, then normal ones (R333). -/
def queueMsgs (p : Nat) (fast slow : List Nat) (ready : Nat) (m : M) : M :=
  let h := m.hostOf p
  let f := fast.map (fun v => (⟨p, v, true, ready⟩ : Msg))
  let s := slow.map (fun v => (⟨p, v, false, ready⟩ : Msg))
  m.setHost p { h with msgq := h.msgq.filter (·.fast) ++ f ++ h.msgq.filter (fun x => !x.fast) ++ s }

/-- Distinct values, ascending, of a list of numbers below a bound. -/
def distinct (bound : Nat) (l : List Nat) : List Nat := (List.range bound).filter (fun v => l.contains v)

/-- Vectors of sources. -/
def vectorsOf (im : Image) (m : M) (p : Nat) (srcs : List Nat) : List Nat :=
  srcs.filterMap (fun s => (srcRoute im m p s).map (·.1))

/-- Messages of a commit: one per distinct vector, a vector of any fast source being fast (R333). -/
def commitMsgs (im : Image) (p : Nat) (fast slow : List Nat) (ready : Nat) (m : M) : M :=
  let fv := distinct 2048 (vectorsOf im m p fast)
  let sv := (distinct 2048 (vectorsOf im m p slow)).filter (fun v => !(fv.contains v))
  issueMsgs p (queueMsgs p fv sv ready m)

/-- The normal group to commit: the first in ascending order after the group committed last (R333). -/
def nextGroup (m : M) (p : Nat) (groups : List Nat) : Option Nat :=
  let l := match mapFind m.irq.last (p, 0) with | some g => g + 1 | none => 0
  ((List.range 256).map (fun k => (l + k) % 256)).find? (fun g => groups.contains g)

/-- COMMIT (R333, R335, R338): fast sources, then the normal sources of one group, once in a cycle; messages at once, or
after the re-check of EXACT. -/
def opCommit (im : Image) (p : Nat) (m : M) : M :=
  if m.irq.did.contains p then m else
  let fast := (candSources im m p .f).filter (eligible im m p)
  let cand := (candSources im m p .n ++ candSources im m p .r).filter (eligible im m p)
  let grp := fun s => match srcRoute im m p s with | some (_, g) => g | none => 0
  let g := nextGroup m p (cand.map grp)
  let slow := match g with | some g => cand.filter (fun s => grp s == g) | none => []
  if fast.isEmpty && slow.isEmpty then m else
  let m1 := (fast ++ slow).foldl (fun m s => commitSrc im p s m)
    { m with irq := { m.irq with did := m.irq.did ++ [p] } }
  let old := match g with | some g => mapFind m.irq.hold (p, g) | none => none
  let m2 := match g with
    | some g =>
      let m := loadHold im p g m1
      { m with irq := { m.irq with last := mapPut m.irq.last (p, 0) g } }
    | none => m1
  if im.exact p then
    { m2 with irq := { m2.irq with prov := m2.irq.prov ++
        [⟨p, m.now, (fast.map (fun s => (1, s))) ++ (slow.map (fun s => (0, s))), g.map (fun g => (g, old))⟩] } }
  else commitMsgs im p fast slow (m.now + 2) m2

/-- A provisional source survives the re-check when no mask in effect covers it (R338). -/
def provKept (im : Image) (m : M) (p : Nat) (s : Nat × Nat) : Bool :=
  match srcRoute im m p s.2 with
  | some (v, _) => masksOpen im m p s.2 v
  | none => false

/-- COMMIT_RECHECK (R338): 8 cycles after a provisional commit, the sources that mask writes decoded by then cover are
cancelled, the timer load undone when no source of the commit is left, and the remaining messages leave. -/
def opCommitRecheck (im : Image) (p : Nat) (m : M) : M :=
  match m.irq.prov.find? (fun c => c.part == p) with
  | none => m
  | some c =>
    if m.now < c.cyc + 8 then m else
    let keep := c.srcs.filter (provKept im { m with now := c.cyc + 8 } p)
    let drop := c.srcs.filter (fun s => !(provKept im { m with now := c.cyc + 8 } p s))
    let m := drop.foldl (fun m s => setSrcBit im .pend p s.2 true (setSrcBit im .act p s.2 false m)) m
    let m := match c.group with
      | some (g, old) =>
        if !keep.isEmpty then m else
        { m with irq := { m.irq with hold :=
            match old with | some e => mapPut m.irq.hold (p, g) e | none => mapDel m.irq.hold (p, g) } }
      | none => m
    let m := { m with irq := { m.irq with prov := m.irq.prov.filter (fun d => d != c) } }
    commitMsgs im p ((keep.filter (fun s => s.1 == 1)).map (·.2)) ((keep.filter (fun s => s.1 == 0)).map (·.2))
      (c.cyc + 8) m

/-- MASK_EFFECT (R338): mask writes decoded 8 cycles ago take effect. -/
def opMaskEffect (m : M) : M := masksDue m.now m

/-- HOLDOFF_EXPIRY (R336): a timer whose last cycle has passed no longer runs. -/
def opHoldoffExpiry (o g : Nat) (m : M) : M :=
  match mapFind m.irq.hold (o, g) with
  | some e => if e < m.now then { m with irq := { m.irq with hold := mapDel m.irq.hold (o, g) } } else m
  | none => m

/-- PBA bit of vector v: some source mapped to it meets every condition but a clear Function or vector Mask (R334). -/
def pbaBit (im : Image) (m : M) (p v : Nat) : Bool :=
  (pendSources m p .f ++ pendSources m p .n ++ pendSources m p .r).any (fun s =>
    match srcRoute im m p s with
    | some (w, g) => w == v && !(srcBit im m .act p s) && d3Clear m p && !(srcMasked im m p s) &&
        effOf m (Fld.num .IRQ_CFG_GLOBAL_HOLD, pinst p 0) == 0 && effOf m (msixEnKey p) == 1 &&
        (srcBank im p s == .f || !(heldOff m p g))
    | none => false)

/-! ### Delivery to the wings (R340) -/

/-- A wings source that core c can be offered. -/
def wEligible (im : Image) (m : M) (c src : Nat) : Bool :=
  asked im m 8 src && !(srcMasked im m 8 src) && !(m.inReset 26 0) &&
  effOf m (Fld.num .IRQ_WCTL_GLOBAL_HOLD, c) == 0 &&
  (match im.mapOf 8 src with
   | some e => bitsAt (m.fld .IRQ_WCFG_ROUTE 0) (2 * e.group) 2 == c && (e.fast || !(heldOff m 8 e.group))
   | none => false)

/-- The source offered to core c in a class: the lowest-numbered eligible one. -/
def wOffer (im : Image) (m : M) (c : Nat) (fast : Bool) : Option Nat :=
  ((candSources im m 8 (if fast then .f else .n)).filter (wEligible im m c)).min?

/-- Commits the offered source to core c at a boundary (R340). -/
def wCommit (im : Image) (c src : Nat) (fast : Bool) (m : M) : M :=
  let m := commitSrc im 8 src m
  let m := m.setFld (if fast then .IRQ_WCTL_CUR_F else .IRQ_WCTL_CUR_N) c src
  if fast then m else match im.mapOf 8 src with | some e => loadHold im 8 e.group m | none => m

/-- The end of a cycle: a provisional commit whose re-check is due and had no command has it, and mask writes that took
effect are folded in (R338). -/
def irqLeave (im : Image) (m : M) : M :=
  masksDue m.now ((m.irq.prov.filter (fun c => decide (c.cyc + 8 ≤ m.now))).foldl (fun m c => opCommitRecheck im c.part m) m)

/-- The start of a cycle: the bits stand as they are, what the cycle before left for this one happens, and every LEVEL source with
a high signal and ACT 0 has an event (R330, R331). -/
def irqEnter (im : Image) (m : M) : M :=
  let l := m.irq.later
  let m := { m with irq := { m.irq with start := [], did := [], later := [] } }
  let m := l.foldl (fun m e => if e.2.2 then irqPulse im e.1 e.2.1 m else irqEvent im e.1 e.2.1 m) m
  m.irq.sig.foldl (fun m e =>
    if e.2 ≠ 0 ∧ srcSense m e.1.1 e.1.2 = 0 ∧ srcBit im m .act e.1.1 e.1.2 = false ∧ m.inReset 26 0 = false then
      irqLatch im e.1.1 e.1.2 m else m) m

end Sys2Proof
end

