-- ==== Sys2Proof/Machine/Fault.lean ====
section
/-! DEFINITION. Fault events: counting to severity, merging and reactions (15, R359 to R371). -/

namespace Sys2Proof

/-- FAULT_N is low while a pin reaction, the failed-boot state or the entropy wait holds it (R366). -/
def faultLow (m : M) : Bool := m.pins.faultReact || m.pins.faultBoot || m.pins.faultEntropy

/-- Drives FAULT_N to its level. -/
def driveFault (m : M) : M := m.emit (.pin .faultN (!(faultLow m)))

/-- The core a non-maskable trap goes to: the one ROUTE names for the group of the wings MAP entry, W0 without an
entry, and the lowest-numbered running core when that one is held or halted (R361). -/
def nmtCore (im : Image) (m : M) (f : Nat) : Option Nat :=
  let c := match im.mapOf 8 (0x1000 + f) with
    | some e => bitsAt (m.fld .IRQ_WCFG_ROUTE 0) (2 * e.group) 2
    | none => 0
  if (m.cpu (wng c)).running then some c else (List.range 4).find? (fun k => (m.cpu (wng k)).running)

/-- Asynchronous trap code NMT (R209). -/
def trapNmt : Nat := 5

/-- Asynchronous trap code of a routine's end by fault (R212). -/
def trapRoutine : Nat := 6

/-- Sends the non-maskable trap, TVAL = f, or sets NMT_LOST (R361). -/
def sendNmt (im : Image) (f : Nat) (m : M) : M :=
  match nmtCore im m f with
  | some c => let x := m.cpu (wng c); m.setCpu (wng c) { x with pend := x.pend ++ [(trapNmt, f)], wait := if x.wait = .wfi then .none else x.wait }
  | none => m.setFlag .PWR_CTL_NMT_LOST 0 true

/-- The external-pin reaction (R366): FAULT_N low, ALIVE frozen, the first source recorded. -/
def pinReaction (f : Nat) (m : M) : M :=
  let m := if m.flag .PWR_PIN_FAULT_LOW 0 then m else m.setFld .PWR_PIN_PIN_SRC 0 f
  let m := (m.setFlag .PWR_PIN_FAULT_LOW 0 true).setFlag .PWR_PIN_ALIVE_FROZEN 0 true
  driveFault { m with pins := { m.pins with faultReact := true } }

/-- Appends a reaction that acts after this event (R361). -/
def addReact (r : React) (m : M) : M := { m with react := m.react ++ [r] }

/-- The reactions of a reaction set, in the order of R361. -/
def reactions (im : Image) (f set : Nat) (ps : List Nat) (core : Nat) (m : M) : M :=
  let m := if bitAt set 0 then ps.foldl (fun m p => irqPulse im p (0x1000 + f) m) (irqPulse im 8 (0x1000 + f) m) else m
  let m := if bitAt set 1 then sendNmt im f m else m
  let m := if bitAt set 4 then pinReaction f m else m
  let m := match bitAt set 2, faultInst f with
    | true, some b => addReact (.blockReset b core) m
    | _, _ => m
  if bitAt set 3 then addReact (.chipReset f) m else m

/-- The entry of a source: the image's, or before any image one that never becomes severe and has no reaction
(log entry 13). -/
def faultEntry (im : Image) (f : Nat) : FaultE :=
  match im.faultOf f with
  | some e => e
  | none => ⟨f, 256, 0, 0, 0⟩

/-- Classifies one event (R360): whether it is severe, and the source's COUNT and AGE after it. An event that R280
declares severe leaves both; a window that ran out at the latest edge has ended first. -/
def classify (im : Image) (m : M) (f : Nat) (forced : Bool) : Bool × Nat × Nat :=
  let c := if m.tick.due.contains f then 0 else m.fld .FLT_SRC_COUNT f
  let a := if c = 0 then 0 else m.fld .FLT_SRC_AGE f
  if forced then (true, m.fld .FLT_SRC_COUNT f, m.fld .FLT_SRC_AGE f)
  else if (faultEntry im f).n ≤ c + 1 then (true, 0, 0) else (false, min (c + 1) 255, a)

/-- Whether an edge is due in this cycle, or step 3 of the latest one is still to come (R57, R360). -/
def beforeStep3 (m : M) : Bool := m.tick.on && (m.now == m.tick.next || m.tick.phase == 1 || m.tick.phase == 2)

/-- An event that comes from the edge cycle on before step 3 sees its source as step 3 leaves it: aged, and expired when AGE
reaches W; step 3 then passes the source over (R360). -/
def agedForEvent (im : Image) (f : Nat) (m : M) : M :=
  if beforeStep3 m = false ∨ m.tick.aged.contains f then m
  else
    let m := { m with tick := { m.tick with aged := f :: m.tick.aged } }
    if m.fld .FLT_SRC_COUNT f = 0 then m
    else if (faultEntry im f).w ≤ m.fld .FLT_SRC_AGE f + 1 then (m.setFld .FLT_SRC_COUNT f 0).setFld .FLT_SRC_AGE f 0
    else m.setFld .FLT_SRC_AGE f (m.fld .FLT_SRC_AGE f + 1)

/-- One event of fault source f with INFO, reporting to partitions ps; `core` is the wings core a block reset would
name (R360 to R364). -/
def faultEvent (im : Image) (f info : Nat) (ps : List Nat) (core : Nat) (forced : Bool) (m : M) : M :=
  match faultInst f with
  | none => m
  | some b =>
    let m := if forced then m else agedForEvent im f m
    let (sev, c, a) := classify im m f forced
    let m := (m.setFld .FLT_SRC_COUNT f c).setFld .FLT_SRC_AGE f a
    let m := if forced then m else { m with tick := { m.tick with due := m.tick.due.filter (fun x => x != f) } }
    let m := m.bump .FLT_SRC_EVENTS f
    let m := { m.setFld .FLT_STS_SEEN b (putBit (m.fld .FLT_STS_SEEN b) (faultLocal f) true) with
      cyc := mapPut m.cyc (Fld.num .FLT_STS_SEEN, b)
        ((m.cycOf .FLT_STS_SEEN b).1, putBit (m.cycSet .FLT_STS_SEEN b) (faultLocal f) true) }
    let m := if sev then m.bump .FLT_CNT_SEVERE b else m
    let set := if sev then (faultEntry im f).severe else (faultEntry im f).minor
    if m.flag .FLT_STS_ACTIVE b then
      let m := m.bump .FLT_CNT_MERGE b
      if sev then reactions im f set ps core (m.setFlag .FLT_STS_SEV_MERGED b true) else m
    else
      let m := m.setFld .FLT_FIRST_A_SRC b f
      let m := m.setFlag .FLT_FIRST_A_SEVERE b sev
      let m := m.setFlag .FLT_FIRST_A_VALID b true
      let m := m.setFld .FLT_FIRST_A_REACT b set
      let m := m.setFld .FLT_FIRST_A_TICK b (m.fld .TCK_COUNT_COUNT 0)
      let m := m.setFld .FLT_FIRST_B_INFO b info
      reactions im f set ps core (m.setFlag .FLT_STS_ACTIVE b true)

/-- Partitions a source reports to by its "To" column, with the partition or link it concerns (R364). -/
def faultParts (im : Image) (f : Nat) (p : Option Nat) (l : Option Nat) : List Nat :=
  match faultTo f with
  | .wings => []
  | .all => im.enabledParts
  | .link => match l with | some l => im.partsOnLink l | none => []
  | .part =>
    match (match faultTied im f with | some q => some q | none => p) with
    | some q => if im.enabled q then [q] else []
    | none => []

/-- Fires a source that concerns no partition or link of its own. -/
def fire (im : Image) (f info : Nat) (m : M) : M := faultEvent im f info (faultParts im f none none) 0 false m

/-- Fires a source concerning a partition. -/
def fireP (im : Image) (f info p : Nat) (m : M) : M := faultEvent im f info (faultParts im f (some p) none) 0 false m

/-- Fires a source concerning a link. -/
def fireL (im : Image) (f info l : Nat) (m : M) : M := faultEvent im f info (faultParts im f none (some l)) 0 false m

/-- Fires a wings source concerning a core. -/
def fireC (im : Image) (f info core : Nat) (m : M) : M := faultEvent im f info [] core false m

/-- Fires a source as a severe event whatever N and W (R280). -/
def fireSevere (im : Image) (f info : Nat) (m : M) : M :=
  faultEvent im f info (faultParts im f none none) 0 true m

/-- The fault events of a stage word read (R186, R364). -/
def stageEcc (im : Image) (a : Nat) (e : Ecc) (m : M) : M :=
  match e with
  | .ok => m
  | .corrected => fire im 0x070 a m
  | .uncorr => fire im 0x071 a m

/-- The fault events of a scratch word read (R186, R196, R364). -/
def scratchEcc (im : Image) (x : Proc) (a : Nat) (e : Ecc) (m : M) : M :=
  match x, e with
  | _, .ok => m
  | .thread t, .corrected => fire im 0x059 t.val m
  | .thread t, .uncorr =>
    let o := (m.cpu (thr t.val)).own
    faultEvent im 0x05A (Config.infoPack 0x05A t.val o) (if o < 8 then [o] else []) 0 false m
  | .core c, .corrected => fireC im 0x06C c.val c.val m
  | .core c, .uncorr => fireC im 0x06D (Config.infoPack 0x06D c.val a) c.val m

/-- Number of a voted word, by which INFO of 0x010 and 0x011 names it (R364). -/
def vwordInfo : VWord → Nat
  | .fuse i => Config.votedIndex 0 i.val
  | .window p i => Config.votedIndex (1 + p.val) i
  | .rights i => Config.votedIndex 9 i
  | .rootHash i => Config.votedIndex 10 i.val

/-- The worse of two vote outcomes. -/
def worse (a b : Vote) : Vote := if a = .three ∨ b = .three then .three else if a = .two ∨ b = .two then .two else .agree

/-- What the copies of a voted word show by an upset that no read has met yet. -/
def upsetOf (m : M) (w : VWord) : Vote := (m.upset.filter (fun e => e.1 == w)).foldl (fun v e => worse v e.2) .agree

/-- One read of a voted word (R279, R280): with what the copies show now, a word already in three-way disagreement
staying so. The first component is whether the value may be used. -/
def voteRead (im : Image) (w : VWord) (v : Vote) (m : M) : Bool × M :=
  let v := worse v (upsetOf m w)
  let m := { m with upset := m.upset.filter (fun e => e.1 != w) }
  if m.voteDead.contains w ∨ v = .three then
    let m := if m.voteDead.contains w then m else { m with voteDead := w :: m.voteDead }
    (false, fireSevere im 0x11 (vwordInfo w) (m.bump .SEC_VOTE_SEVERE 0))
  else if v = .two then (true, fire im 0x10 (vwordInfo w) (m.bump .SEC_VOTE_CORRECTED 0))
  else (true, m)

/-- A security decision whose two paths differ counts and fires (R282); `row` is the row of the table. -/
def pathDisagree (im : Image) (row : Nat) (m : M) : M := fire im 0x12 row (m.bump .SEC_VOTE_PATH_DIS 0)

/-- The results of the two paths of a decision whose rule gives `ok` (R282). -/
def pathsOf (v : Verdict) (ok : Bool) : Verdict := ⟨v.a == ok, v.b == ok⟩

/-- A window or slot-rights check of a word (R280, R282): the word is read by vote and compared twice; `row` is the row of
R282's table. False when the check is taken as a refusal. -/
def rightsRead (im : Image) (row : Nat) (w : VWord) (m : M) : Bool × M :=
  let (ok, m) := voteRead im w .agree m
  if m.glitch.contains w then (false, pathDisagree im row { m with glitch := m.glitch.filter (fun x => x != w) }) else (ok, m)

end Sys2Proof
end

