-- ==== Sys2Proof/Machine/Sec.lean ====
section
/-! DEFINITION. The security block: fuse votes, nonces, owner-command submission, checks and results, and the commands
that change nothing outside the block (11, R276 to R300). -/

namespace Sys2Proof

/-! ### Fuses (R276, R279) -/

/-- The value a vote of three words gives; the first copy when all differ, which no decision uses (R279, R280). -/
def voteOf (a b c : Nat) : Nat := if a = b ∨ a = c then a else if b = c then b else a

/-- The fuse fields as a word-wise vote reads them (R279). -/
def votedFuses (u : Fuses) : FuseCopy :=
  { hash := BitVec.ofNat 384 (((List.range 6).map (fun i =>
      voteOf (bitsAt u.c0.hash.toNat (64 * i) 64) (bitsAt u.c1.hash.toNat (64 * i) 64)
        (bitsAt u.c2.hash.toNat (64 * i) 64) * 2 ^ (64 * i))).sum)
    set := if u.c0.set = u.c1.set ∨ u.c0.set = u.c2.set then u.c0.set else u.c1.set
    svn := BitVec.ofNat 64 (voteOf u.c0.svn.toNat u.c1.svn.toNat u.c2.svn.toNat)
    dbg := if u.c0.dbg = u.c1.dbg ∨ u.c0.dbg = u.c2.dbg then u.c0.dbg else u.c1.dbg }

/-- Steps blown: the population count of the SVN word (R276). -/
def svnSteps (c : FuseCopy) : Nat := popCount c.svn.toNat 64

/-- Blows a bit in all three copies but those that stay unblown after three attempts, listed as (copy, bit)
(R297). -/
def blowBit (k : FuseField) (b : Nat) (stuck : List (Nat × Nat)) (u : Fuses) : Fuses :=
  [0, 1, 2].foldl (fun u n => if stuck.contains (n, b) then u else u.blow n k b) u

/-- Whether every copy of a bit reads blown. -/
def allBlown (u : Fuses) (k : FuseField) (b : Nat) : Bool :=
  (u.copy 0).bit k b && (u.copy 1).bit k b && (u.copy 2).bit k b

/-- Blows SVN bits in ascending order until the step count equals the target; the second component is false when a bit
could not be blown in every copy (R297). -/
def advanceTo (target : Nat) (stuck : List (Nat × Nat)) : List Nat → Fuses → Fuses × Bool
  | [], u => (u, true)
  | b :: bs, u =>
    if target ≤ svnSteps (votedFuses u) then (u, true)
    else if (votedFuses u).svn.getLsbD b then advanceTo target stuck bs u
    else
      let u := blowBit .svn b stuck u
      if allBlown u .svn b then advanceTo target stuck bs u else (u, false)

/-- Loads SVN and DEBUG_DISABLE of the voted store and SEC_STS after fuses were blown; OWNER_SET and OWNER_HASH keep
what was sensed (R278). -/
def senseAfterBlow (u : Fuses) (m : M) : M :=
  let v := votedFuses u
  let m := { m with sec := { m.sec with sensed := { m.sec.sensed with svn := v.svn, dbg := v.dbg } } }
  (m.setFld .SEC_STS_SVN_STEPS 0 (svnSteps v)).setFlag .SEC_STS_DEBUG_DISABLE 0 v.dbg

/-! ### Keys and signatures (R37, R286, R295, R299, R300) -/

/-- The bytes of a string of the spec. -/
def ascii (s : String) : List Byte := s.toList.map (fun c => BitVec.ofNat 8 c.toNat)

/-- SHA-384 of a byte string as its 48 bytes. -/
def hashBytes (b : List Byte) : List Byte := leBytes 48 (Config.sha384 b).toNat

/-- ML-DSA-87 verification under a context string. -/
def verify87 (key : List Byte) (ctx : String) (msg sig : List Byte) : Bool := Config.sigVerify 2 key (ascii ctx) msg sig

/-- The 32-byte seed of a key of this die under an owner hash: HKDF-SHA-384 with DEVICE_SECRET as input keying material,
OWNER_HASH as salt and the label as info (R286). -/
def keySeed (h : BitVec 384) (label : String) : List Byte :=
  Config.hkdf384 (leBytes 32 Config.deviceSecret.toNat) (leBytes 48 h.toNat) (ascii label) 32

/-- The attestation public key (R286). -/
def attestKey (h : BitVec 384) : List Byte := bytesAt (Config.mldsaKey (keySeed h "thr9624 attest")) 0 1952

/-- The link identity public key (R286). -/
def linkKey (h : BitVec 384) : List Byte := bytesAt (Config.mldsaKey (keySeed h "thr9624 link")) 0 1952

/-- A signature by the attestation key (R299). -/
def attestSign (h : BitVec 384) (msg : List Byte) (n : Nat) : List Byte :=
  bytesAt (Config.mldsaSign (keySeed h "thr9624 attest") (ascii "THR-9624 attestation") msg n) 0 3309

/-- The device secret check of R285: the first 4 bytes of SHA-384 of DEVICE_SECRET against DS_CHECK. -/
def secretOk : Bool := leAt (hashBytes (leBytes 32 Config.deviceSecret.toNat)) 0 4 == Config.dsCheck.toNat

/-! ### Votes -/

/-- Reads voted words with what their copies show; true when every one may be used (R279, R280). -/
def voteReads (im : Image) (l : List (VWord × Vote)) (m : M) : Bool × M :=
  l.foldl (fun a e => let r := voteRead im e.1 e.2 a.2; (a.1 && r.1, r.2)) (true, m)

/-- The words of OWNER_HASH with their votes; a word without a listed vote agrees. -/
def hashWords (votes : List Vote) : List (VWord × Vote) :=
  (List.range 6).map (fun i => (.fuse (Fin.ofNat 16 i), votes.getD i .agree))

/-- The background sweep of R281: every voted word is read; a word without a listed vote shows what it showed. -/
def sweepStore (im : Image) (votes : List (VWord × Vote)) (m : M) : M :=
  let known := (m.voteDead ++ m.upset.map (·.1)).eraseDups
  let rest := (known.filter (fun w => !(votes.any (fun e => e.1 == w)))).map (fun w => (w, Vote.agree))
  (voteReads im (votes ++ rest) { m with sec := { m.sec with sweepDue := false } }).2

/-- VOTED_SWEEP (R281): acts when a sweep is due. -/
def opVotedSweep (im : Image) (votes : List (VWord × Vote)) (m : M) : M :=
  if m.sec.sweepDue then sweepStore im votes m else m

/-- Ticks between two sweeps, and the longest time between two reseeds (R281, R287). -/
def sweepTicks : Nat := 1024

/-! ### Nonces and challenges (R287, R296, R300) -/

/-- Instance of word i of a source's nonce. -/
def nonceInst (s i : Nat) : Nat := if s = 8 then i else s * 65536 + i

/-- The field that holds a source's nonce. -/
def nonceFld (s : Nat) : Fld := if s = 8 then .SEC_WNONCE_NONCE else .OCMD_NONCE_NONCE

/-- Writes a source's nonce. -/
def setNonce (s v : Nat) (m : M) : M :=
  (List.range 4).foldl (fun m i => m.setFld (nonceFld s) (nonceInst s i) (bitsAt v (64 * i) 64)) m

/-- A source's nonce as a number. -/
def nonceOf (m : M) (s : Nat) : Nat :=
  ((List.range 4).map (fun i => m.fld (nonceFld s) (nonceInst s i) * 2 ^ (64 * i))).sum

/-- A new nonce for a source: at once, or when entropy returns; until then it reads 0 and no message matches
(R287; log entry 22). -/
def renewNonce (s : Nat) (m : M) : M :=
  if m.boot.entropy then
    let (n, m) := m.draw
    setNonce s (Config.draw n).toNat m
  else
    setNonce s 0 { m with sec := { m.sec with nonceOwed := if m.sec.nonceOwed.contains s then m.sec.nonceOwed
      else m.sec.nonceOwed ++ [s] } }

/-- A new JTAG challenge (R300), or when entropy returns. -/
def renewChallenge (m : M) : M :=
  if m.boot.entropy then
    let (n, m) := m.draw
    { m with sec := { m.sec with challenge := n, chalOwed := false } }
  else { m with sec := { m.sec with chalOwed := true } }

/-- The nonces and the challenge that waited for entropy (R287). -/
def secEntropy (m : M) : M :=
  let owed := m.sec.nonceOwed
  let m := owed.foldl (fun m s => renewNonce s m) { m with sec := { m.sec with nonceOwed := [] } }
  if m.sec.chalOwed then renewChallenge m else m

/-- ENTROPY_FAILURE (R287). -/
def opEntropyFailure (im : Image) (proportion : Bool) (m : M) : M :=
  let m := { m with boot := { m.boot with entropy := false } }
  fire im 0x014 (if proportion then 2 else 1) (m.setFlag .SEC_STS_ENTROPY_OK 0 false)

/-- DRBG_RESEED (R287): the values drawn after it are new ones; a failing source gives no seed. -/
def opDrbgReseed (m : M) : M :=
  if m.boot.entropy then { m.draw.2 with sec := { m.sec with reseedIn := sweepTicks } } else m

/-- What the security block does at a tick edge: a sweep falls due every 1,024 ticks, one that was due before then is made
first (R281); a reseed that is due is made, or waits for entropy (R287). -/
def secEdge (im : Image) (m : M) : M :=
  let m := if m.sec.reseedIn ≤ 1 then opDrbgReseed m else { m with sec := { m.sec with reseedIn := m.sec.reseedIn - 1 } }
  if 1 < m.sec.sweepIn then { m with sec := { m.sec with sweepIn := m.sec.sweepIn - 1 } }
  else
    let m := opVotedSweep im [] m
    { m with sec := { m.sec with sweepIn := sweepTicks, sweepDue := true } }

/-! ### Owner commands (R293 to R298) -/

/-- Number of a source. -/
def srcNum : CmdSrc → Nat
  | .port p => p.val
  | .wings => 8

/-- Results of R296. -/
def orOk : Nat := 1
/-- R296. -/
def orBadFormat : Nat := 2
/-- R296. -/
def orBadType : Nat := 3
/-- R296. -/
def orWrongDie : Nat := 4
/-- R296. -/
def orBadNonce : Nat := 5
/-- R296. -/
def orBadSig : Nat := 6
/-- R296. -/
def orPath : Nat := 7
/-- R296. -/
def orRefused : Nat := 8
/-- R296. -/
def orFuse : Nat := 9
/-- R296. -/
def orFwTimeout : Nat := 10

/-- CTYPE of a message. -/
def ctypeOf (b : List Byte) : Nat := leAt b 6 2

/-- PLEN of a message. -/
def plenOf (b : List Byte) : Nat := leAt b 8 4

/-- A signed type of R297. -/
def ctSigned (t : Nat) : Bool := decide (0x101 ≤ t) && decide (t ≤ 0x105)

/-- A type of R297. -/
def ctListed (t : Nat) : Bool := t == 1 || t == 2 || ctSigned t

/-- PLEN as R297 requires it. -/
def plenOk (t n : Nat) : Bool :=
  if t = 1 then n == 32 else if t = 2 then n == 1 else if t = 0x101 then n == 2
  else if t = 0x103 then n == 1 else if t = 0x105 then decide (1 ≤ n) && decide (n ≤ 23981) else n == 0

/-- Check 1 of R296: MAGIC "OCMD", VERSION, reserved bytes, LEN. -/
def secCheck1 (b : List Byte) : Bool :=
  bytesAt b 0 4 == [0x4F, 0x43, 0x4D, 0x44] && leAt b 4 2 == 1 && zeroAt b 12 4 && decide (b.length ≤ 28672)

/-- Checks 1 to 3 of R296: the first failure. -/
def secEarly (b : List Byte) : Option Nat :=
  let t := ctypeOf b
  if secCheck1 b = false then some orBadFormat
  else if ctListed t = false then some orBadType
  else if plenOk t (plenOf b) = false ∨ b.length ≠ 0x40 + plenOf b + (if ctSigned t then 4627 else 0) ∨
      (ctSigned t = false ∧ zeroAt b 0x10 48 = false) then some orBadFormat
  else none

/-- Reads bytes of the owner stage reserve; bytes beyond it read 0. -/
def ownRead (im : Image) (m : M) (a n : Nat) : List Byte :=
  memRead m.stage a (min n (im.ownerStageBytes - a)) ++ List.replicate (n - (im.ownerStageBytes - a)) 0

/-- Writes bytes of the owner stage reserve; bytes beyond it are dropped. -/
def ownWrite (im : Image) (a : Nat) (b : List Byte) (m : M) : M :=
  { m with stage := memWrite m.stage a (b.take (im.ownerStageBytes - a)) }

/-- Sets a field of a source's status register. -/
def setSts (s : Nat) (port wings : Fld) (v : Nat) (m : M) : M :=
  if s = 8 then m.setFld wings 0 v else m.setFld port s v

/-- A field of a source's status register. -/
def stsOf (m : M) (s : Nat) (port wings : Fld) : Nat := if s = 8 then m.fld wings 0 else m.fld port s

/-- Brings the source "owner command done" of a command source up to date (R294). -/
def syncDone (im : Image) (s : Nat) (m : M) : M :=
  if s = 8 then irqSync im 8 0x801 m
  else match im.partOfPort s with
    | some p => irqSync im p 0x800 m
    | none => m

/-- OWNER_COMMAND_DONE (R296): result, response, DONE, the renewed nonce and the interrupt source. -/
def finishCmd (im : Image) (s result : Nat) (msg resp : List Byte) (m : M) : M :=
  let m := setSts s .OCMD_STS_RESULT .SEC_WSTS_RESULT result m
  let m := setSts s .OCMD_STS_RESP_LEN .SEC_WSTS_RESP_LEN resp.length m
  let m := setSts s .OCMD_STS_CTYPE .SEC_WSTS_CTYPE (ctypeOf msg) m
  let m := if s = 8 then ownWrite im (64 * m.fld .SEC_WCMD_OFF 0) resp m
    else { m with sec := { m.sec with resp := mapPut m.sec.resp (s, 0) resp } }
  let m := setSts s .OCMD_STS_BUSY .SEC_WSTS_BUSY 0 m
  let m := setSts s .OCMD_STS_DONE .SEC_WSTS_DONE 1 m
  let m := if ctSigned (ctypeOf msg) && secCheck1 msg then renewNonce s m else m
  syncDone im s m

/-- Finishes at once every waiting command at the front that fails checks 1 to 3. -/
def secPump (im : Image) : Nat → M → M
  | 0, m => m
  | k + 1, m =>
    match m.sec.cmds with
    | [] => m
    | (s, b) :: t =>
      match secEarly b with
      | none => m
      | some r => secPump im k (finishCmd im s r b [] { m with sec := { m.sec with cmds := t } })

/-- Ends the command in progress and takes the next. -/
def endCmd (im : Image) (result : Nat) (resp : List Byte) (m : M) : M :=
  match m.sec.cmds with
  | [] => m
  | (s, b) :: t =>
    let m := finishCmd im s result b resp { m with sec := { m.sec with cmds := t, fw := none } }
    secPump im t.length m

/-- SUBMIT (R293, R294): LEN bytes are copied at decode; ignored with SUBMIT_LOST while BUSY. Source 8 keeps OFF and
LEN of the write. -/
def opSubmit (im : Image) (c : CmdSrc) (v : Nat) (m : M) : M :=
  let s := srcNum c
  if s ≠ 8 ∧ (im.partOfPort s).isNone then m
  else
    let m := if s = 8 then (m.setFld .SEC_WCMD_OFF 0 (bitsAt v 6 19)).setFld .SEC_WCMD_LEN 0 (bitsAt v 32 15) else m
    let n := bitsAt v 32 15
    if bitAt v 0 = false then m
    else if stsOf m s .OCMD_STS_BUSY .SEC_WSTS_BUSY ≠ 0 then
      setSts s .OCMD_STS_SUBMIT_LOST .SEC_WSTS_SUBMIT_LOST 1 m
    else
      let b := if s = 8 then ownRead im m (64 * bitsAt v 6 19) n else memRead (mapGet [] m.sec.mbuf (s, 0)) 0 n
      let m := setSts s .OCMD_STS_BUSY .SEC_WSTS_BUSY 1 m
      secPump im (m.sec.cmds.length + 1) { m with sec := { m.sec with cmds := m.sec.cmds ++ [(s, b)] } }

/-- The command in progress when it has a type: its source and message. -/
def cmdOfType (m : M) (t : Nat) : Option (Nat × List Byte) :=
  match m.sec.cmds with
  | [] => none
  | (s, b) :: _ => if ctypeOf b = t ∧ m.sec.fw = none then some (s, b) else none

/-- The die serial as its number. -/
def serialNat : Nat := Config.dieSerial.toNat

/-- Fires "owner command rejected" (R296). -/
def rejectCmd (im : Image) (s result : Nat) (m : M) : M :=
  let info := s + 2 ^ 8 * result
  match (if s = 8 then none else im.partOfPort s) with
  | some p => fireP im 0x016 info p m
  | none => fire im 0x016 info m

/-- A command refused with PATH_DISAGREE (R280, R282, R296). -/
def pathReject (im : Image) (s : Nat) (m : M) : Option Nat × M := (some orPath, rejectCmd im s orPath m)

/-- One decision of a signed command on its two paths (R282): a disagreement, or the result `bad`, ends it; else `go`
follows. -/
def decide2 (im : Image) (s : Nat) (v : Verdict) (bad : M → Option Nat × M) (go : M → Option Nat × M) (m : M) :
    Option Nat × M :=
  if v.a ≠ v.b then pathReject im s (pathDisagree im 3 m) else if v.a = false then bad m else go m

/-- The DIE_SERIAL of a signed command is zero or the die's (R296 check 4). -/
def dieOk (b : List Byte) : Bool := leAt b 0x10 16 == 0 || leAt b 0x10 16 == serialNat

/-- The NONCE of a signed command is its source's (R296 check 5). -/
def nonceOk (m : M) (s : Nat) (b : List Byte) : Bool := !(m.sec.nonceOwed.contains s) && leAt b 0x20 32 == nonceOf m s

/-- The owner public key held since step 3 has the hash that the voted store gives (R282). -/
def ownerKeyOk (m : M) : Bool := decide (Config.sha384 m.sec.ownerKey = m.sec.sensed.hash)

/-- SIG of a signed command verifies under the owner public key (R295). -/
def cmdSigOk (m : M) (b : List Byte) : Bool :=
  let n := 0x40 + plenOf b
  verify87 m.sec.ownerKey "THR-9624 owner command" (bytesAt b 0 n) (bytesAt b n 4627)

/-- Checks 4 to 6 of R296 of a signed command, each decision on two paths (R282): the failing result. -/
def secVerify (im : Image) (s : Nat) (b : List Byte) (x : CmdPaths) (votes : List Vote) (m : M) : Option Nat × M :=
  let badSig := fun m => (some orBadSig, rejectCmd im s orBadSig m)
  let sig := fun m => decide2 im s (pathsOf x.sig (cmdSigOk m b)) badSig (fun m => (none, m)) m
  let key := fun m =>
    let (ok, m) := voteReads im (hashWords votes) m
    if ok = false then pathReject im s m else decide2 im s (pathsOf x.key (ownerKeyOk m)) badSig sig m
  let nonce := fun m => decide2 im s (pathsOf x.nonce (nonceOk m s b)) (fun m => (some orBadNonce, m)) key m
  decide2 im s (pathsOf x.die (dieOk b)) (fun m => (some orWrongDie, m)) nonce m

/-- One more signed command accepted (R299). -/
def countAccepted (m : M) : M := { m with sec := { m.sec with accepted := min (m.sec.accepted + 1) (2 ^ 32 - 1) } }

/-- A signed command: verified, its condition checked, then run; or ended with the failing result. -/
def signedCmd (im : Image) (t : Nat) (x : CmdPaths) (votes : List Vote) (cond : M → List Byte → Bool)
    (run : Nat → List Byte → M → M) (m : M) : M :=
  match cmdOfType m t with
  | none => m
  | some (s, b) =>
    let (r, m) := secVerify im s b x votes m
    match r with
    | some r => endCmd im r [] m
    | none => if cond m b then run s b (countAccepted m) else endCmd im orRefused [] m

/-- The report of R299 before its signature; the counters are those of the state in which ATTEST is taken. -/
def attestReport (im : Image) (m : M) (s : Nat) (h : BitVec 384) (nonce : List Byte) : List Byte :=
  [0x54, 0x41, 0x54, 0x54] ++ leBytes 2 1 ++ leBytes 2 3581 ++ leBytes 8 Config.idnLot.toNat ++
  leBytes 8 Config.idnPos.toNat ++ leBytes 16 serialNat ++ leBytes 48 m.sec.sensed.hash.toNat ++
  bytesAt im.rootHash 0 48 ++ leBytes 8 im.seq ++ leBytes 1 im.svn ++ leBytes 1 (svnSteps m.sec.sensed) ++
  leBytes 1 (m.fld .IMG_BOOT_STS_SLOT 0) ++ leBytes 1 (m.fld .IMG_BOOT_STS_FALLBACK 0) ++
  leBytes 1 (m.fld .SEC_STS_OWNER_SET 0 + 2 * m.fld .SEC_STS_DEBUG_DISABLE 0 + 4 * m.fld .SEC_STS_DS_OK 0 +
    8 * (if m.sec.debugSeen ∨ m.flag .SEC_STS_DEBUG_ACTIVE 0 then 1 else 0) + 16 * m.fld .IDN_POS_IDN_BAD 0 +
    32 * m.fld .SEC_STS_CERT_MISMATCH 0) ++
  leBytes 3 0 ++ leBytes 8 (m.fld .TCK_COUNT_COUNT 0) ++ leBytes 4 (m.fld .SEC_VOTE_CORRECTED 0) ++
  leBytes 2 (m.fld .SEC_VOTE_SEVERE 0) ++ leBytes 2 (m.fld .SEC_VOTE_PATH_DIS 0) ++ leBytes 4 m.sec.accepted ++
  leBytes 1 s ++ leBytes 19 0 ++ nonce ++ hashBytes (attestKey h)

/-- ATTEST (R297, R299): `votes` are those of the six root hash words, then of the six OWNER_HASH words. -/
def opAttest (im : Image) (paths : Bool) (votes : List Vote) (m : M) : M :=
  match cmdOfType m 1 with
  | none => m
  | some (s, b) =>
    if paths = false then endCmd im orPath [] (rejectCmd im s orPath (pathDisagree im 3 m))
    else if m.flag .SEC_STS_DS_OK 0 = false then endCmd im orRefused [] m
    else
      let taken := m
      let (ok, m) := voteReads im ((List.range 6).map (fun i => (VWord.rootHash (Fin.ofNat 6 i), votes.getD i .agree)) ++
        hashWords (votes.drop 6)) m
      match ok, m.sec.derived with
      | true, some h =>
        let r := attestReport im taken s h (bytesAt b 0x40 32)
        let (n, m) := m.draw
        endCmd im orOk (r ++ attestSign h r n) m
      | _, _ => endCmd im orRefused [] m

/-- GET_KEYS (R297). -/
def opGetKeys (im : Image) (paths : Bool) (m : M) : M :=
  match cmdOfType m 2 with
  | none => m
  | some (s, b) =>
    let sel := leAt b 0x40 1
    if paths = false then endCmd im orPath [] (rejectCmd im s orPath (pathDisagree im 3 m))
    else match m.flag .SEC_STS_DS_OK 0 && decide (sel ≤ 1), m.sec.derived with
      | true, some h =>
        endCmd im orOk (if sel = 0 then attestKey h else linkKey h) m
      | _, _ => endCmd im orRefused [] m

/-- CHIP_RESET (R297, R298): result written, the chip reset 1 ms later. -/
def opChipResetCmd (im : Image) (x : CmdPaths) (votes : List Vote) (m : M) : M :=
  signedCmd im 0x102 x votes (fun _ _ => true) (fun _ _ m =>
    endCmd im orOk [] { m with sec := { m.sec with chipResetAt := some (m.now + 2000000) } }) m

/-- ADVANCE_SVN (R297): the fuses after it, and the rest of the state. -/
def opAdvanceSvn (im : Image) (x : CmdPaths) (votes : List Vote) (stuck : List (Nat × Nat)) (u : Fuses) (m : M) :
    Fuses × M :=
  match cmdOfType m 0x103 with
  | none => (u, m)
  | some (s, b) =>
    let (r, m) := secVerify im s b x votes m
    match r with
    | some r => (u, endCmd im r [] m)
    | none =>
      let t := leAt b 0x40 1
      if 64 < t ∨ im.svn < t then (u, endCmd im orRefused [] m)
      else
        let (u, ok) := advanceTo t stuck (List.range 64) u
        (u, endCmd im (if ok then orOk else orFuse) [] (senseAfterBlow u (countAccepted m)))

/-- Ends a debug token in force (R297, R300): the TAP leaves an instruction that needs its scope for bypass, so EXTEST lets the
pins go, and a single step that is owed is not made. A core that it halted stays so (log 49). -/
def endDebug (m : M) : M :=
  let m := (m.setFlag .SEC_STS_DEBUG_ACTIVE 0 false).setFld .SEC_STS_DEBUG_SCOPE 0 0
  { m with mgt := { m.mgt with
      wdbg := 0, ir := if [0x02, 0x03, 0x30, 0x40, 0x41].contains m.mgt.ir then 0xFF else m.mgt.ir } }

/-- DISABLE_DEBUG (R297): the fuses after it, and the rest of the state. -/
def opDisableDebug (im : Image) (x : CmdPaths) (votes : List Vote) (stuck : List (Nat × Nat)) (u : Fuses) (m : M) :
    Fuses × M :=
  match cmdOfType m 0x104 with
  | none => (u, m)
  | some (s, b) =>
    let (r, m) := secVerify im s b x votes m
    match r with
    | some r => (u, endCmd im r [] m)
    | none =>
      let u := blowBit .dbg 0 stuck u
      (u, endCmd im (if allBlown u .dbg 0 then orOk else orFuse) [] (endDebug (senseAfterBlow u (countAccepted m))))

/-- FIRMWARE (R298): the message goes to DEST, PENDING and SRC set, ARMED clears, the wings are told. -/
def opFirmware (im : Image) (x : CmdPaths) (votes : List Vote) (m : M) : M :=
  signedCmd im 0x105 x votes (fun m _ => m.flag .SEC_FWCMD_ARMED 0) (fun s b m =>
    let m := ownWrite im (m.fld .SEC_FWCMD_DEST 0) b m
    let m := ((m.setFlag .SEC_FWCMD_PENDING 0 true).setFld .SEC_FWCMD_SRC 0 s).setFlag .SEC_FWCMD_ARMED 0 false
    irqSync im 8 0x802 { m with sec := { m.sec with fw := some (s, m.now), lastFw := none } }) m

/-- Clears PENDING of SEC_FWCMD. -/
def fwClear (im : Image) (m : M) : M := irqSync im 8 0x802 (m.setFlag .SEC_FWCMD_PENDING 0 false)

/-- FINISH_FIRMWARE_COMMAND (R298): a write of SEC_FWCMD with FINISH 1. -/
def opFinishFw (im : Image) (v : Nat) (m : M) : M :=
  if bitAt v 27 = false then m
  else
    let m := if bitAt v 28 then m.setFlag .SEC_FWCMD_LATE 0 false else m
    let m := (m.setFld .SEC_FWCMD_DEST 0 (bitsAt v 0 25)).setFlag .SEC_FWCMD_ARMED 0 (bitAt v 25)
    match m.sec.fw with
    | some (s, _) =>
      let r := ownRead im m (bitsAt v 0 25) (min (bitsAt v 36 12) 3840)
      let m := setSts s .OCMD_STS_FW_CODE .SEC_WSTS_FW_CODE (bitsAt v 48 8) (fwClear im m)
      endCmd im orOk r m
    | none => if m.sec.lastFw.isSome then m.setFlag .SEC_FWCMD_LATE 0 true else m

/-- FW_TIMEOUT (R298): 1 s without FINISH. -/
def opFwTimeout (im : Image) (m : M) : M :=
  match m.sec.fw with
  | some (s, t) =>
    if m.now < t + 2000000000 then m
    else
      let m := fwClear im { m with sec := { m.sec with lastFw := some s } }
      endCmd im orFwTimeout [] m
  | none => m

/-- The security block's part of its block reset: the command in progress ends REFUSED (R288). -/
def secAbandon (im : Image) (m : M) : M :=
  let m := if m.sec.fw.isSome then fwClear im m else m
  endCmd im orRefused [] m

end Sys2Proof
end

