-- ==== Sys2Proof/Machine/LinkKeys.lean ====
section
/-! DEFINITION. The link's cryptography: CRC, certificates, session secrets, GCM groups (09, R225, R226, R239, R240; 11, R290,
R291). -/

namespace Sys2Proof

/-! ### CRC (R225) -/

/-- One bit step of the reflected CRC-32. -/
def crcBit (c : Nat) : Nat := if c % 2 = 1 then (c / 2) ^^^ 0xEDB88320 else c / 2

/-- One byte of the reflected CRC-32. -/
def crcByte (c : Nat) (b : Byte) : Nat := crcBit (crcBit (crcBit (crcBit (crcBit (crcBit (crcBit (crcBit (c ^^^ b.toNat))))))))

/-- CRC-32 of a byte string (R225). -/
def crc32 (l : List Byte) : Nat := (l.foldl crcByte 0xFFFFFFFF) ^^^ 0xFFFFFFFF

/-! ### Certificates (R290, R291) -/

/-- Length of a public key by KEY_ALG; 0 for a code that R290 does not list. -/
def certKeyLen (a : Nat) : Nat := if a = 1 then 1952 else if a = 2 then 2592 else if a = 3 then 97 else 0

/-- Length of a signature by SIG_ALG. -/
def certSigLen (a : Nat) : Nat := if a = 1 then 3309 else if a = 2 then 4627 else if a = 3 then 96 else 0

/-- KEY_ALG of a certificate. -/
def certAlg (c : List Byte) : Nat := leAt c 6 1

/-- KEY of a certificate. -/
def certKey (c : List Byte) : List Byte := bytesAt c 0x50 (certKeyLen (certAlg c))

/-- Length of the certificate at the front of a string. -/
def certLen (c : List Byte) : Nat := 0x50 + certKeyLen (certAlg c) + certSigLen (leAt c 7 1)

/-- A certificate's own layout: MAGIC, VERSION, listed codes, one usage, zero reserved bytes (R290, R291). -/
def certForm (usage : Nat) (c : List Byte) : Bool :=
  bytesAt c 0 4 == [0x4C, 0x4E, 0x43, 0x54] && leAt c 4 2 == 1 && certKeyLen (certAlg c) != 0 &&
    certSigLen (leAt c 7 1) != 0 && leAt c 8 1 == usage && zeroAt c 9 7

/-- Cuts a chain into its certificates; `none` when the bytes do not end with one, or are more than four. -/
def cutChain : Nat → List Byte → Option (List (List Byte))
  | 0, b => if b.isEmpty then some [] else none
  | n + 1, b =>
    if b.isEmpty then some []
    else if b.length < 0x50 ∨ b.length < certLen b then none
    else (cutChain n (b.drop (certLen b))).map (fun t => b.take (certLen b) :: t)

/-- A signature by a certificate's key; the spec names a context string for certificates alone. -/
def certVerify (c : List Byte) (ctx : String) (msg sig : List Byte) : Bool :=
  Config.sigVerify (certAlg c) (certKey c) (if certAlg c = 3 then [] else ascii ctx) msg sig

/-- A certificate is issued by the next: ISSUER_HASH names its key, whose algorithm SIG_ALG gives, and SIG verifies. -/
def issuedBy (c i : List Byte) : Bool :=
  let n := 0x50 + certKeyLen (certAlg c)
  bytesAt c 0x20 48 == hashBytes (certKey i) && leAt c 7 1 == certAlg i &&
    certVerify i "lenhus cert" (c.take n) (c.drop n)

/-- Each certificate of a chain is issued by the next, the last by itself. -/
def issuedAll : List (List Byte) → Bool
  | [] => true
  | [c] => issuedBy c c
  | c :: i :: t => issuedBy c i && issuedAll (i :: t)

/-- The chain rules of R291 but for the HELLO_R signature. -/
def chainOk (im : Image) (cs : List (List Byte)) : Bool :=
  decide (2 ≤ cs.length) && decide (cs.length ≤ 4) &&
    (match cs with | c :: t => certForm 1 c && t.all (certForm 2) | [] => false) &&
    issuedAll cs && (match cs.getLast? with | some c => im.anchors.contains (bytesAt c 0x20 48) | none => false)

/-! ### The handshake (R238, R239) -/

/-- The offset of SIG_LEN in a HELLO_R. -/
def helloRSigAt (b : List Byte) : Nat := 1717 + leAt b 1713 4

/-- The layout of a HELLO_R message (R238). -/
def helloRSound (b : List Byte) : Bool :=
  let s := helloRSigAt b
  decide (1719 ≤ b.length) && leAt b 0 2 == 1 && zeroAt b 2 6 && b.length == s + 2 + leAt b s 2

/-- Verdict of step 1 of R239: the chain is good and its leaf signed HELLO and HELLO_R. -/
def helloROk (im : Image) (hello b : List Byte) : Bool :=
  let s := helloRSigAt b
  match cutChain 4 (bytesAt b 1717 (leAt b 1713 4)) with
  | some (c :: t) => chainOk im (c :: t) && certVerify c "" (hashBytes (hello ++ b.take s)) (b.drop (s + 2))
  | _ => false

/-- The public key and ciphertext of a HELLO_R or REKEY_R from an offset. -/
def peerShares (b : List Byte) (off : Nat) : List Byte := bytesAt b off 1665

/-- The secrets that a secret input and a salt give (R239). -/
def linkKeys (secret salt : List Byte) : LinkKeys :=
  let h := fun (label : String) (n : Nat) => bytesAt (Config.hkdf384 secret salt (ascii label) n) 0 n
  { l2d := h "lenhus l2d key" 32, d2l := h "lenhus d2l key" 32, l2dIv := h "lenhus l2d iv" 8, d2lIv := h "lenhus d2l iv" 8,
    lFin := h "lenhus l fin" 48, dFin := h "lenhus d fin" 48, next := h "lenhus next" 48 }

/-- The secrets of a session (R239 step 2). -/
def sessionKeys (draw : Nat) (hello b : List Byte) : LinkKeys :=
  linkKeys (Config.linkSecret draw (peerShares b 48)) (hashBytes (hello ++ b))

/-- The secrets of a rekey: the previous "lenhus next" is the salt (R240). -/
def rekeyKeys (draw : Nat) (next b : List Byte) : LinkKeys := linkKeys (Config.linkSecret draw (peerShares b 0)) next

/-- A signature by the link identity key (R239, R286). -/
def linkSign (h : BitVec 384) (msg : List Byte) (n : Nat) : List Byte :=
  bytesAt (Config.mldsaSign (keySeed h "thr9624 link") [] msg n) 0 3309

/-- AUTH (R238, R239 step 3): certificate, signature and MAC. -/
def authMsg (im : Image) (h : BitVec 384) (lFin hello helloR : List Byte) (n : Nat) : List Byte :=
  let a := leBytes 4 im.cert.length ++ im.cert
  let b := a ++ leBytes 2 3309 ++ linkSign h (hashBytes (hello ++ helloR ++ a)) n
  b ++ bytesAt (Config.hmac384 lFin (hashBytes (hello ++ helloR ++ b))) 0 48

/-- The MAC that FINISH carries (R239 step 4). -/
def finishMac (dFin hello helloR auth : List Byte) : List Byte :=
  bytesAt (Config.hmac384 dFin (hashBytes (hello ++ helloR ++ auth))) 0 48

/-! ### Flits as transmitted (R225, R226) -/

/-- Header bytes 0 to 3 of a flit. -/
def flitHead (f : TxFlit) : List Byte :=
  [BitVec.ofNat 8 (f.type + 16 * f.vl + (if f.close then 64 else 0) + (if f.kphase then 128 else 0)), 0] ++ leBytes 2 f.seq

/-- The nonce of a group: the IV, then the group counter with its most significant byte first (R226, R3). -/
def groupNonce (iv : List Byte) (n : Nat) : List Byte := iv ++ (leBytes 4 n).reverse

/-- The plaintext of a flit of a group: a closing flit's area is cut to 232 bytes. -/
def flitPlain (f : TxFlit) : List Byte := if f.close then f.area.take 232 else f.area

/-- The ciphertext of the flit after `pre` bytes of its group. -/
def flitCipher (key nonce : List Byte) (pre : Nat) (f : TxFlit) : List Byte :=
  (flitPlain f).zipIdx.map (fun x => x.1 ^^^ Config.gcmStream key nonce (pre + x.2))

/-- The 248 bytes that carry a flit's area: ciphertext, and the tag of its group when it closes it; plaintext in HANDSHAKE. -/
def flitBody (key nonce : List Byte) (enc : Bool) (open_ : List TxFlit) (f : TxFlit) : List Byte :=
  if !enc then f.area
  else
    let pre := (open_.map (fun g => bytesAt g.raw 4 248)).flatten
    let c := flitCipher key nonce pre.length f
    if f.close then c ++ bytesAt (Config.gcmTag key nonce (((open_ ++ [f]).map flitHead).flatten) (pre ++ c)) 0 16 else c

/-- A flit's 256 bytes: header, area, CRC. -/
def flitRaw (head body : List Byte) : List Byte := head ++ body ++ leBytes 4 (crc32 (head ++ body))

end Sys2Proof
end

