-- ==== Sys2Proof/Machine/Bsts.lean ====
section
/-! DEFINITION. Block status registers (16, R376 to R378): RSVD_WR, LOCKED_WR and the record of the first offset. -/

namespace Sys2Proof

/-- Instance of the block status register of block k in the copy of a view: BAR2 and BAR4 accesses report in the same
function's BAR0 (R378). -/
def bstsInst (v : View) (k : Nat) : Nat :=
  match v with
  | .bar0 p => p.val * 65536 + k
  | .bar2 p => p.val * 65536 + k
  | .bar4 p => p.val * 65536 + k
  | .owner => 8 * 65536 + k

/-- SPACE code of a view. -/
def viewCode : View → Nat
  | .bar0 _ => 0
  | .bar2 _ => 1
  | .bar4 _ => 2
  | .owner => 3

/-- Takes the record of the first offending access (xxx_BSTS). -/
def bstsRecord (v : View) (k off : Nat) (m : M) : M :=
  let i := bstsInst v k
  if m.flag .BSTS_OFF_VALID i then m
  else ((m.setFld .BSTS_FIRST_OFF i off).setFld .BSTS_SPACE i (viewCode v)).setFlag .BSTS_OFF_VALID i true

/-- Sets RSVD_WR of block k (R6, R376). -/
def setRsvd (v : View) (k off : Nat) (m : M) : M := bstsRecord v k off (m.setFlag .BSTS_RSVD_WR (bstsInst v k) true)

/-- Sets LOCKED_WR of RNG_BSTS (R4). -/
def setLocked (v : View) (off : Nat) (m : M) : M := bstsRecord v 6 off (m.setFlag .BSTS_LOCKED_WR (bstsInst v 6) true)

/-- Block numbers of the status registers. -/
def bkIdn : Nat := 0
/-- IMG. -/
def bkImg : Nat := 1
/-- TCK. -/
def bkTck : Nat := 2
/-- SPN. -/
def bkSpn : Nat := 3
/-- CUE. -/
def bkCue : Nat := 4
/-- SPC. -/
def bkSpc : Nat := 5
/-- RNG. -/
def bkRng : Nat := 6
/-- MOV. -/
def bkMov : Nat := 7
/-- LNK. -/
def bkLnk : Nat := 8
/-- HPT. -/
def bkHpt : Nat := 9
/-- SEC. -/
def bkSec : Nat := 10
/-- MEM. -/
def bkMem : Nat := 11
/-- IRQ. -/
def bkIrq : Nat := 12
/-- MBX. -/
def bkMbx : Nat := 13
/-- TRC. -/
def bkTrc : Nat := 14
/-- FLT. -/
def bkFlt : Nat := 15
/-- PWR. -/
def bkPwr : Nat := 16

end Sys2Proof
end

