-- ==== Sys2Proof/Machine/HostTlp.lean ====
section
/-! DEFINITION. Requests the loom issues on a host port (R262, R268, R271) and status entries (R152 to R157). -/

namespace Sys2Proof

/-! ### Requests -/

/-- Non-posted requests a port may have outstanding (R262). -/
def tagLimit (h : HostSt) : Nat := if h.tag10 then 1024 else 256

/-- The k lowest tags that are neither outstanding nor in quarantine (R262, R266). -/
def freeTags (h : HostSt) (k : Nat) : List Nat :=
  ((List.range (tagLimit h)).filter (fun t => !(h.np.any (fun n => n.tag == t && n.res.isNone)) && !(h.quar.any (fun q => q.1 == t)))).take k

/-- The completion timeout in sc for the Device Control 2 value (R262). -/
def ctoSc (code : Nat) : Nat :=
  if code = 1 then 200000 else if code = 2 then 20000000 else if code = 5 then 110000000
  else if code = 6 then 420000000 else 100000000

/-- What a request has to charge, none for owner work. -/
def Tlp.cost : Tlp → Option Nat
  | .rd _ _ _ c => c
  | .wr _ _ c _ => c

/-- A request of owner work is charged to no budget (R60). -/
def Tlp.ofOwner (t : Tlp) : Bool := t.cost.isNone

/-- The most bytes one MemRd requests (R262); no size below 128 B can be programmed. -/
def readMax (h : HostSt) : Nat := min 256 (max 128 h.mrrs)

/-- The most bytes one MemWr carries (R262). -/
def payMax (h : HostSt) : Nat := max 128 h.mps

/-- A charge cut behind n bytes: the first TLP of an element or a write takes it whole (R63, R176), that of another read its own
bytes (R262). -/
def cutCost (whole : Bool) (n : Nat) (c : Option Nat) : Option Nat × Option Nat :=
  match c with
  | none => (none, none)
  | some k => if whole then (some k, some 0) else (some (min n k), some (k - n))

/-- A purpose whose host access is one indivisible operation however many TLPs it takes: an element (R176). -/
def Purp.whole : Purp → Bool
  | .elem .. => true
  | _ => false

/-- The first TLP of a request, and what is left of it (R262): a MemRd of at most `readMax` bytes, a MemWr of at most
Max_Payload_Size, in ascending address order. A flush read is one MemRd of no bytes (R177). -/
def cutTlp (h : HostSt) (t : Tlp) : Tlp × Option Tlp :=
  match t with
  | .rd purp addr len cost =>
    let n := readMax h
    if len ≤ n then (t, none)
    else let (a, b) := cutCost purp.whole n cost
      (.rd purp addr n a, some (.rd purp (addr + n) (len - n) b))
  | .wr addr data cost wb =>
    let n := payMax h
    if data.length ≤ n then (t, none)
    else let (a, b) := cutCost true n cost
      (.wr addr (data.take n) a none, some (.wr (addr + n) (data.drop n) b wb))

/-- The direction of a port that a TLP's data takes, as a server of R64. -/
def Tlp.server (p : Nat) : Tlp → Nat
  | .rd .. => 2 * p + 1
  | .wr .. => 2 * p

/-- Whether a TLP may issue now: port open, budget, and a free tag for a MemRd (R59, R64, R261, R262). -/
def tlpReady (m : M) (p : Nat) (t : Tlp) : Bool :=
  portOpen m p && (match t.cost with | none => true | some n => m.covers 2 p n) &&
  (match t with
   | .rd .. => !(freeTags (m.hostOf p) 1).isEmpty
   | .wr .. => true)

/-- Charges a TLP; a later TLP of an operation that is charged already costs nothing (R63). -/
def chargeTlp (p : Nat) (t : Tlp) (m : M) : M :=
  match t.cost with
  | none => m
  | some n => if n = 0 then m else m.charge 2 p (t.server p) n

/-- Charges and drives a TLP: a MemRd takes a tag and waits for its answer, a write is posted; a status writeback that is
issued lets its descriptor retire (R63, R177, R180, R262). -/
def sendTlp (p : Nat) (t : Tlp) (m : M) : M :=
  let m := chargeTlp p t m
  let h := m.hostOf p
  match t with
  | .rd purp addr len _ =>
    let tag := (freeTags h 1).headD 0
    (m.emit (.memRd p tag addr len loomAttr)).setHost p { h with
      np := h.np ++ [⟨tag, purp, m.now, addr, len, ctoSc h.cto, [], none⟩], lastTlp := m.now }
  | .wr addr data _ wb =>
    let m := (m.emit (.memWr p addr data loomAttr)).setHost p { h with lastTlp := m.now }
    match wb with
    | some c => { m with react := m.react ++ [.wbIssued c] }
    | none => m

/-- How many TLPs a request can take: none carries less than 128 bytes but the last. -/
def Tlp.parts : Tlp → Nat
  | .rd _ _ len _ => len / 128 + 1
  | .wr _ data _ _ => data.length / 128 + 1

/-- Issues a request TLP by TLP, with the sizes in force as each is issued, as far as each may issue; what is left waits (R261,
R262). -/
def issueTlps (p : Nat) : Nat → Tlp → M → M
  | 0, _, m => m
  | k + 1, t, m =>
    let (a, r) := cutTlp (m.hostOf p) t
    if tlpReady m p a then
      match r with
      | some b => issueTlps p k b (sendTlp p a m)
      | none => sendTlp p a m
    else m.setHost p { m.hostOf p with waitq := (m.hostOf p).waitq ++ [(m.now, t)] }

/-- Issues a request, or lets it wait behind those of its source: the partition's or the owner's (R14, R261, R262). -/
def reqTlp (p : Nat) (t : Tlp) (m : M) : M :=
  let h := m.hostOf p
  if h.waitq.any (fun w => w.2.ofOwner == t.ofOwner) then m.setHost p { h with waitq := h.waitq ++ [(m.now, t)] }
  else issueTlps p (t.parts + 1) t m

/-- The waiting requests that stand first for their source. -/
def waitHeads (l : List (Nat × Tlp)) : List (Nat × Tlp) :=
  (l.find? (fun w => !w.2.ofOwner)).toList ++ (l.find? (fun w => w.2.ofOwner)).toList

/-- The waiting request to issue from next: the older of the two sources' first ones whose next TLP may issue (R14, R270). -/
def nextTlp (m : M) (p : Nat) : Option (Nat × Tlp) :=
  match (waitHeads (m.hostOf p).waitq).filter (fun w => tlpReady m p (cutTlp (m.hostOf p) w.2).1) with
  | [a, b] => some (if b.1 < a.1 then b else a)
  | l => l.head?

/-- Issues the queued messages up to the last one that arose before a cycle, in queue order (R270, R333, R342). -/
def msgsBefore (p c : Nat) (m : M) : M :=
  let q := (m.hostOf p).msgq
  issueFirst (q.length - (q.reverse.takeWhile (fun x => decide (c ≤ x.ready))).length) p m

/-- The waiting requests once the first TLP of one of them has gone. -/
def afterFirst (w : Nat × Tlp) (r : Option Tlp) : List (Nat × Tlp) → List (Nat × Tlp)
  | [] => []
  | x :: t => if x = w then (match r with | some b => (w.1, b) :: t | none => t) else x :: afterFirst w r t

/-- Issues waiting requests and messages in the order they arose, as far as each may issue (R270). -/
def pumpTlps (p : Nat) : Nat → M → M
  | 0, m => m
  | k + 1, m =>
    match nextTlp m p with
    | none => m
    | some w =>
      let m := msgsBefore p w.1 m
      let h := m.hostOf p
      let (a, r) := cutTlp h w.2
      pumpTlps p k (sendTlp p a (m.setHost p { h with waitq := afterFirst w r h.waitq }))

/-- Issues what waits on a port, first requests and then messages (R270). -/
def pumpWaiting (p : Nat) (m : M) : M := pumpTlps p (((m.hostOf p).waitq.map (fun w => w.2.parts)).sum) m

/-- Issues whatever waits on a port (R270, R342). -/
def pumpHost (p : Nat) (m : M) : M := issueMsgs p (pumpWaiting p m)

/-- A purpose whose work is answered once, when every MemRd that serves it has its answer (R176, R262). -/
def Purp.joint : Purp → Bool
  | .dead _ | .lost => false
  | _ => true

/-- The answer of a request from those of its MemRd in ascending address order: the data joined, or the error of the
lowest-addressed one that failed (R176). -/
def joinRes : List RdRes → RdRes
  | [] => .data []
  | .data b :: t =>
    match joinRes t with
    | .data c => .data (b ++ c)
    | e => e
  | e :: _ => e

/-- The outstanding request with a tag (R262). -/
def npOf (m : M) (p tag : Nat) : Option NP := (m.hostOf p).np.find? (fun n => n.tag == tag && n.res.isNone)

/-- The answer of one MemRd: its tag is free, and once no other MemRd of its work waits or lacks its answer, that work is
answered. The MemRd of a split request stay in the list, answered, until the last of them is (R176). -/
def answerTag (p : Nat) (n : NP) (r : RdRes) (m : M) : Option (Purp × RdRes) × M :=
  let h := m.hostOf p
  if !n.purp.joint then
    (some (n.purp, r), m.setHost p { h with np := h.np.filter (fun k => !(k.tag == n.tag && k.res.isNone)) })
  else
    let np := h.np.map (fun k => if k.tag = n.tag ∧ k.res.isNone then { k with res := some r } else k)
    let mine := np.filter (fun k => k.purp == n.purp)
    if mine.all (fun k => k.res.isSome) && !(h.waitq.any (fun w => match w.2 with | .rd u _ _ _ => u == n.purp | _ => false)) then
      (some (n.purp, joinRes (mine.filterMap (·.res))),
        m.setHost p { h with np := np.filter (fun k => k.purp != n.purp) })
    else (none, m.setHost p { h with np := np })

/-- A completion of a MemRd (R262): data that ends short of what was asked is one of several completions split at the read
completion boundary, and is kept until the rest has come. -/
def takeCpl (p : Nat) (n : NP) (r : RdRes) (m : M) : Option (Purp × RdRes) × M :=
  match r with
  | .data b =>
    if n.got.length + b.length < n.len then
      let h := m.hostOf p
      (none, m.setHost p { h with np := h.np.map (fun k =>
        if k.tag = n.tag ∧ k.res.isNone then { k with got := k.got ++ b } else k) })
    else answerTag p n (.data (n.got ++ b)) m
  | e => answerTag p n e m

/-- Takes the outstanding requests of a purpose out of the list. -/
def dropPurp (p : Nat) (u : Purp) (m : M) : M :=
  let h := m.hostOf p
  m.setHost p { h with np := h.np.filter (fun n => n.purp != u) }

/-- Whether a request of a purpose is outstanding or waiting. -/
def hasPurp (m : M) (p : Nat) (u : Purp) : Bool :=
  (m.hostOf p).np.any (fun n => n.purp == u) ||
  (m.hostOf p).waitq.any (fun t => match t.2 with | .rd v _ _ _ => v == u | _ => false)

/-- Marks the outstanding reads of a purpose as reads of discarded work, and drops those still waiting (R126). -/
def killPurp (p tag : Nat) (u : Purp) (m : M) : M :=
  let h := m.hostOf p
  m.setHost p { h with
    np := h.np.map (fun n => if n.purp = u then { n with purp := .dead tag } else n)
    waitq := h.waitq.filter (fun t => match t.2 with | .rd v _ _ _ => v != u | _ => true) }

/-- The host sends a TLP to the function of partition p (R271). -/
def hostTlp (p : Nat) (m : M) : M := m.setHost p { m.hostOf p with lastTlp := m.now }

/-! ### PM_PME (R269) -/

/-- The host port of a partition. -/
def portOf (im : Image) (p : Nat) : Nat := im.partN p (·.hostPort)

/-- The port returns to L0; from a substate it asserts the clock request (R271). -/
def leaveL1 (im : Image) (p : Nat) (m : M) : M :=
  let s := m.fld .HPT_STS_LSTATE (pinst p 0)
  let m := (m.setFld .HPT_STS_LSTATE (pinst p 0) 0).setHost p { m.hostOf p with lastTlp := m.now }
  if 2 ≤ s then m.emit (.pin (.clkreqN (portOf im p)) false) else m

/-- An L1 exit that the loom starts for a TLP of its own (R271). -/
def wakePort (im : Image) (p : Nat) (m : M) : M :=
  if m.fld .HPT_STS_LSTATE (pinst p 0) = 0 then m else leaveL1 im p (m.bump .HPT_CNT_L1_EXITS (pinst p 0))

/-- Drives PM_PME, for which the port leaves L1 (R269, R271). -/
def drivePme (im : Image) (p : Nat) (m : M) : M :=
  let m := ((wakePort im p m).emit (.pme p)).bump .HPT_CNT_PME_SENT (pinst p 0)
  m.setHost p { m.hostOf p with lastTlp := m.now }

/-- Sends PM_PME when PME_En is 1, and sets PME_Status (R269). -/
def sendPme (im : Image) (p : Nat) (m : M) : M :=
  let m := m.setHost p { m.hostOf p with pmeStatus := true, pmeAt := m.now }
  if (m.hostOf p).pmeEn then drivePme im p m else m

/-- Whether some partition source is pending on an unmasked vector (R269). -/
def pendUnmasked (im : Image) (m : M) (p : Nat) : Bool :=
  (pendSources m p .f ++ pendSources m p .n ++ pendSources m p .r).any (fun s =>
    match srcRoute im m p s with
    | some (v, _) => !(srcMasked im m p s) && effOf m (vecKey p v) == 0
    | none => false)

/-- In D3hot, a pending interrupt on an unmasked vector sends PM_PME once (R269). -/
def pmeOnPending (im : Image) (p : Nat) (m : M) : M :=
  if m.flag .HPT_STS_D3HOT (pinst p 0) && !(m.hostOf p).pmeStatus && pendUnmasked im m p then sendPme im p m else m

/-- In D3hot, a source that became pending in this cycle on an unmasked vector sends PM_PME (R269). -/
def pmeOnNew (im : Image) (p : Nat) (m : M) : M :=
  if m.flag .HPT_STS_D3HOT (pinst p 0) && !(m.hostOf p).pmeStatus && m.irq.start.any (fun e => e.1.1 == p && e.2 % 2 == 0 &&
      srcBit im m .pend p e.1.2 && (match srcRoute im m p e.1.2 with
        | some (v, _) => !(srcMasked im m p e.1.2) && effOf m (vecKey p v) == 0
        | none => false)) then sendPme im p m else m

/-! ### Status entries -/

/-- Units of a ring (R135). -/
def ringSize (m : M) (p r : Nat) : Nat := 2 ^ m.fld .RNG_CFG_B_SIZE_LOG2 (pinst p r)

/-- Host bus address of unit u of a ring (R135). -/
def unitAddr (m : M) (p r u : Nat) : Nat := m.fld .RNG_CFG_A_BASE (pinst p r) * 64 + 16 * u

/-- The 32 bytes of a status entry (R152). -/
def entryBytes (e : Entry) (phase : Nat) : List Byte :=
  leBytes 8 (1 + 128 * phase + 2 ^ 8 * e.status + 2 ^ 16 * e.detail + 2 ^ 24 * e.dev + 2 ^ 32 * e.sflags +
    2 ^ 48 * e.ring) ++
  leBytes 8 (e.residual % 2 ^ 32 + 2 ^ 32 * e.tag) ++ leBytes 8 e.ptr ++ leBytes 8 e.user

/-- A status ring has no room for one more entry: written, staged and held entries fill it (R155). -/
def ringFull (m : M) (p r : Nat) : Bool :=
  let x := m.ring p r
  decide (ringSize m p r < x.used + 2 * x.staged.length + 2) || !x.held.isEmpty

/-- Holds an entry for a full status ring: BACKED_UP, HELD, and the fault source once (R155). -/
def holdEntry (im : Image) (p r : Nat) (e : Entry) (m : M) : M :=
  let x := m.ring p r
  let m := m.setRing p r { x with held := x.held ++ [e] }
  let m := m.setFld .RNG_STS_HELD (pinst p r) (x.held.length + 1)
  if m.flag .RNG_STS_BACKED_UP (pinst p r) then m
  else fireP im (0x032 + 4 * portOf im p) r p
    ((m.setFlag .RNG_STS_BACKED_UP (pinst p r) true).bump .RNG_CNT_B_FULL_EVENTS (pinst p 0))

/-- Stages an entry behind the others of its ring: from now on it waits for the port. -/
def stageEntry (p r : Nat) (e : Entry) (m : M) : M :=
  let x := m.ring p r
  m.setRing p r { x with staged := x.staged ++ [{ e with since := m.now }] }

/-- Makes an entry ready for its status ring: held in D3hot (R268), held for a full ring (R155), else staged. The
first component says whether a full ring holds it. -/
def postEntry (im : Image) (p : Nat) (e : Entry) (m : M) : Bool × M :=
  let r := m.fld .RNG_CFG_B_STATUS_RING (pinst p e.ring)
  if m.flag .HPT_STS_D3HOT (pinst p 0) then
    let h := m.hostOf p
    let first := h.d3q.isEmpty
    let m := m.setHost p { h with d3q := h.d3q ++ [(r, e)] }
    (false, if first then sendPme im p m else m)
  else if ringFull m p r then (true, holdEntry im p r e m)
  else (false, stageEntry p r e m)

/-- Statuses that do not count in FAILED: OK, ROUTINE_END and HALTED (04, CUE_STATS), and the request statuses
NO_SCRIPT and REQUEST_CHECK, which are no terminal entries (R109, R141). -/
def notFailed (st : Nat) : Bool := st == 0x00 || st == 0x27 || st == 0x28 || st == 0x2B || st == 0x2C

/-- Counts a terminal entry in FAILED and records it in CUE_LAST_ERR when it is written (04, registers). -/
def countEntry (p : Nat) (e : Entry) (m : M) : M :=
  if e.term && !(notFailed e.status) then
    let i := pinst p 0
    ((((m.bump .CUE_STATS_FAILED i).setFld .CUE_LAST_ERR_STATUS i e.status).setFld .CUE_LAST_ERR_DETAIL i
      e.detail).setFld .CUE_LAST_ERR_DEVSTAT i e.dev).setFld .CUE_LAST_ERR_TAG i e.tag
  else m

/-- Writes one entry at the ring's write position: one 32 B MemWr in the lap phase of the pass, TAIL and LAP move, the
ring's signal is high, and a terminal entry ends its tag (R139, R152, R153, R75, R328). -/
def writeEntry (im : Image) (p r : Nat) (e : Entry) (m : M) : M :=
  let i := pinst p r
  let pos := m.fld .RNG_STS_TAIL i
  let lap := m.fld .RNG_STS_LAP i
  let size := ringSize m p r
  let m := sendTlp p (.wr (unitAddr m p r pos) (entryBytes e lap) (some 32) none) m
  let m := m.setFld .RNG_STS_TAIL i ((pos + 2) % size)
  let m := if size ≤ pos + 2 then m.setFld .RNG_STS_LAP i (1 - lap) else m
  let x := m.ring p r
  let m := m.setRing p r { x with used := x.used + 2 }
  let m := irqSync im p (ringSrc r) m
  let m := countEntry p e m
  let m := if e.d3 then m.setHost p { m.hostOf p with awakeAt := m.now + 1 } else m
  if e.term && e.ofScript then
    let parked := match m.script p e.tag with | some s => s.parked.isSome | none => false
    let m := m.delScript p e.tag
    if parked then addReact (.serve p) m else m
  else m

/-- The tag of a script that waits on an entry just written, when it is the script's intermediate entry: no later one of its
entries is still staged or held (R157). -/
def entryWakes (m : M) (p r : Nat) (e : Entry) : Option Nat :=
  let x := m.ring p r
  if e.term || !e.ofScript || (x.staged ++ x.held).any (fun y => y.ofScript && y.tag == e.tag) then none
  else match m.script p e.tag with
    | some s => if s.wait = .entry then some e.tag else none
    | none => none

end Sys2Proof
end

