-- ==== Sys2Proof/Machine/Cue.lean ====
section
/-! DEFINITION. The cue as bits, and the checks of R77 to R88, R96 and R99 that need no answer from outside. A
check answers `none`, or the status and detail of its failure (R82). -/

namespace Sys2Proof

/-- OPCODE (04, "The cue"). -/
def Cue.op (c : Cue) : Nat := bitsAt c.w0 0 8
/-- A flag by its word 0 bit. -/
def Cue.flag (c : Cue) (b : Nat) : Bool := bitAt c.w0 b
/-- CMD. -/
def Cue.cmd (c : Cue) : Nat := bitsAt c.w0 24 8
/-- COUNT. -/
def Cue.count (c : Cue) : Nat := bitsAt c.w0 32 32
/-- SLOT. -/
def Cue.slot (c : Cue) : Nat := bitsAt c.w2 0 16
/-- ARG. -/
def Cue.arg (c : Cue) : Nat := bitsAt c.w2 16 16
/-- PARAM. -/
def Cue.param (c : Cue) : Nat := bitsAt c.w2 32 32
/-- RHS. -/
def Cue.rhs (c : Cue) : Bool := c.flag 8
/-- EXP. -/
def Cue.exp (c : Cue) : Bool := c.flag 9
/-- FEN. -/
def Cue.fen (c : Cue) : Bool := c.flag 10
/-- STG. -/
def Cue.stg (c : Cue) : Bool := c.flag 11
/-- IDX. -/
def Cue.idx (c : Cue) : Bool := c.flag 12
/-- POST. -/
def Cue.post (c : Cue) : Bool := c.flag 13
/-- SUSP. -/
def Cue.susp (c : Cue) : Bool := c.flag 14
/-- SKIP. -/
def Cue.skip (c : Cue) : Bool := c.flag 15
/-- SLI. -/
def Cue.sli (c : Cue) : Bool := c.flag 16
/-- CC. -/
def Cue.cc (c : Cue) : Bool := c.flag 17
/-- CD. -/
def Cue.cd (c : Cue) : Bool := c.flag 18

/-- The cue in 32 bytes (R3). -/
def Cue.ofBytes (l : List Byte) : Cue := ⟨leAt l 0 8, leAt l 8 8, leAt l 16 8, leAt l 24 8⟩

/-- WRITE or CONTROL. -/
def Cue.isWrite (c : Cue) : Bool := c.op == 1 || c.op == 3
/-- READ or SENSE. -/
def Cue.isRead (c : Cue) : Bool := c.op == 2 || c.op == 4
/-- A device cue (R89). -/
def Cue.isDevice (c : Cue) : Bool := decide (1 ≤ c.op ∧ c.op ≤ 5)
/-- DSRC of a WRITE or CONTROL, 0 for any other cue (R77). -/
def Cue.dsrc (c : Cue) : Nat := if c.isWrite then c.arg else 0
/-- The relay's destination slot (R77). -/
def Cue.dstSlot (c : Cue) : Nat := c.arg
/-- Whether the cue has a data range to check (R86). -/
def Cue.hasRange (c : Cue) : Bool :=
  (c.isWrite || c.isRead) && c.count != 0 && !c.skip && !c.stg && c.dsrc == 0
/-- Whether the cue names a numbered buffer (R88). -/
def Cue.namesBuf (c : Cue) : Bool := (c.isWrite || c.isRead) && c.stg && c.count != 0
/-- BUF of a stage handle. -/
def Cue.buf (c : Cue) : Nat := bitsAt c.w1 0 4
/-- OFFSET of a stage handle. -/
def Cue.bufOff (c : Cue) : Nat := bitsAt c.w1 8 32
/-- USER_TAG of a cue, 0 when it has none (R77, R107). -/
def Cue.userTag (c : Cue) : Nat :=
  if c.isWrite then (if c.dsrc = 1 then 0 else c.w3)
  else if c.op = 2 ∨ c.op = 4 ∨ c.op = 5 ∨ c.op = 12 then c.w3 else 0
/-- A cue without CD and CC other than JUMP is the last of its script (R72). -/
def Cue.isLast (c : Cue) : Bool := c.op != 8 && !c.cc && !c.cd
/-- A cue of the LOOP count (R95). -/
def Cue.isControlRun (c : Cue) : Bool := c.op == 8 || c.op == 9 || c.op == 13 || c.op == 12

/-- Whether OPCODE is one of R89. -/
def opListed (n : Nat) : Bool := decide (1 ≤ n ∧ n ≤ 5) || decide (8 ≤ n ∧ n ≤ 13)

/-- The flags that R79 marks X, by word 0 bit. -/
def flagsX (op : Nat) : List Nat :=
  if op = 1 ∨ op = 3 then [15] else if op = 2 ∨ op = 4 then []
  else if op = 5 then [18, 15, 12, 11, 9]
  else if op = 10 ∨ op = 11 then [18, 15, 12, 11, 16, 9]
  else [18, 15, 13, 12, 11, 16, 9]

/-- CUE_CHECK. -/
def stCue : Nat := 0x20

/-- Checks 1 and 2 of R82: the opcode, then R78, R79 and R80. -/
def checkFlags (c : Cue) : Option (Nat × Nat) :=
  if !(opListed c.op) then some (stCue, 1)
  else if bitsAt c.w0 19 5 ≠ 0 ∨ (flagsX c.op).any c.flag ∨ (c.cd ∧ c.cc) ∨ (c.idx ∧ c.stg) ∨
      (c.skip ∧ (c.idx ∨ c.stg)) ∨ ((c.idx ∨ c.stg) ∧ c.dsrc ≠ 0) ∨ (c.cd ∧ c.count = 0) then some (stCue, 2)
  else none

/-- A handle's reserved bits are zero (R88). -/
def handleOk (c : Cue) : Bool := bitsAt c.w1 4 4 == 0 && bitsAt c.w1 40 24 == 0

/-- The columns of R77 for a cue, in order: whether the rule holds and whether a breach is COUNT. `carried` says the
cue stands in a START_INLINE entry with `payload` bytes after its last cue. -/
def fieldRules (c : Cue) (carried : Bool) (payload : Nat) : List (Bool × Bool) :=
  let z := fun n => (n == 0, false)
  if c.isWrite then
    [((c.op == 3 || c.count != 0) && (c.arg != 1 || decide (1 ≤ c.count ∧ c.count ≤ 8)) &&
        (c.arg != 2 || !carried || decide (c.count ≤ payload)), true),
     (if c.arg ≠ 0 ∨ c.count = 0 then c.w1 == 0 else (!c.stg || handleOk c), false),
     (decide (c.arg ≤ 2), false)]
  else if c.isRead then
    [(c.count != 0, true), (if c.skip then c.w1 == 0 else (!c.stg || handleOk c), false), z c.arg]
  else if c.op = 5 then
    [(c.count != 0, true), z c.w1, (!(bitAt c.arg 15), false), (decide (c.param < 256), false)]
  else if c.op = 8 then [z c.cmd, (c.count == 0, true), z c.w1, z c.slot, z c.arg, z c.param]
  else if c.op = 10 then
    [z c.cmd, (c.count == 0, true), z c.w1, (c.arg == 1 || c.slot == 0, false), (decide (c.arg ≤ 2), false),
     (c.arg != 0 || c.param != 0, false), (if c.arg = 2 then decide (c.w3 < 64) else c.w3 == 0, false)]
  else if c.op = 11 then [z c.cmd, (c.count == 0, true)]
  else if c.op = 12 then [z c.cmd, (c.count == 0, true), z c.w1, z c.slot, z c.arg, z c.param]
  else [z c.cmd, (c.count == 0, true), z c.w1, z c.slot, z c.arg, z c.param, z c.w3]

/-- Check 3 of R82: the first field that breaks its rule (R77). -/
def checkFields (c : Cue) (carried : Bool) (payload : Nat) : Option (Nat × Nat) :=
  match (fieldRules c carried payload).find? (fun r => !r.1) with
  | some r => some (stCue, if r.2 then 4 else 3)
  | none => none

/-- Check 4 of R82: the data-chaining rules against the cues of the group before it (R96), an inline payload outside an
entry (R77), and the inline end rule (R73). `lastInline` says the cue is the last inline cue. -/
def checkChain (c : Cue) (before : List Cue) (carried lastInline : Bool) : Option (Nat × Nat) :=
  let bad := match before with
    | [] => false
    | f :: _ => decide (16 ≤ before.length) || c.op != f.op || c.cmd != f.cmd || c.slot != f.slot ||
        c.param != f.param || c.susp || c.post || c.fen || c.exp ||
        decide (2 ^ 32 - 1 < ((before.map Cue.count).sum + c.count))
  if bad then some (stCue, 5)
  else if c.dsrc = 2 ∧ !carried then some (stCue, 7)
  else if lastInline ∧ c.op ≠ 8 ∧ (c.cc ∨ c.cd) then some (stCue, 7)
  else none

/-! ### Windows and rights (R84 to R86) -/

/-- The window of the table that holds a window-space byte: its index and entry. -/
def winAt (im : Image) (p a : Nat) : Option (Nat × Window) :=
  let l := im.windows p
  ((List.range l.length).zip l).find? (fun e => decide (e.2.wbase ≤ a ∧ a < e.2.wbase + e.2.wsize))

/-- The voted word of a window (R279). -/
def winWord (p i : Nat) : VWord := .window (Fin.ofNat 8 p) i

/-- The window that holds a window-space byte. One whose voted word is in three-way disagreement counts as none (R280). -/
def winOf (im : Image) (m : M) (p a : Nat) : Option (Nat × Window) :=
  (winAt im p a).filter (fun e => !(m.voteDead.contains (winWord p e.1)))

/-- LOAD, STORE, SCRIPT, PREFETCH as bits of WRIGHTS. -/
def rLoad : Nat := 0
/-- STORE. -/
def rStore : Nat := 1
/-- SCRIPT. -/
def rScript : Nat := 2
/-- PREFETCH. -/
def rPrefetch : Nat := 3

/-- The window check of R86 on one range: 0 passed, else the detail. -/
def winCheck (im : Image) (m : M) (p a len right : Nat) : Nat :=
  match winOf im m p a with
  | none => 1
  | some (_, w) =>
    if bitAt w.rights right = false then 2
    else if w.wbase + w.wsize < a + len ∨ 2 ^ 64 < a + len then 3 else 0

/-- Whether the window of an address also holds PREFETCH (R114). -/
def winPrefetch (im : Image) (m : M) (p a : Nat) : Bool :=
  match winOf im m p a with
  | some (_, w) => bitAt w.rights rPrefetch
  | none => false

/-- Reads voted words for an access check, each by vote and on two paths (R21, R279 to R282). False when one of them refuses
the access. -/
def accessWords (im : Image) : List VWord → M → Bool × M
  | [], m => (true, m)
  | w :: t, m =>
    let (ok, m) := rightsRead im 6 w m
    if ok then accessWords im t m else (false, m)

/-- The voted word a window check on an address reads. -/
def winWords (im : Image) (p a : Nat) : List VWord := ((winAt im p a).map (fun e => winWord p e.1)).toList

/-- The window check as the hardware makes it (R21, R86, R280, R282): the window's word is read, and a refused read leaves no
window. -/
def winCheckV (im : Image) (p a len right : Nat) (m : M) : Nat × M :=
  let (ok, m) := accessWords im (winWords im p a) m
  (if ok then winCheck im m p a len right else 1, m)

/-- Where a window-space address leads (R84): host memory of the partition, or local DRAM. -/
def winMap (im : Image) (m : M) (p a : Nat) : Option (Space × Nat) :=
  (winOf im m p a).map (fun e =>
    if e.2.kind = 0 then (.host p, e.2.target + (a - e.2.wbase))
    else (.dram, im.partN p (·.dramBase) + e.2.target + (a - e.2.wbase)))

/-- RIGHTS bit a device cue needs on its slot (R85). -/
def rightBit (op : Nat) : Nat := if op = 2 then 0 else if op = 1 then 1 else if op = 3 then 2 else 3

/-- Rights check on one slot (R20, R25, R85): 0 passed, 1 NO_GRANT, 2 NO_RIGHT. -/
def slotCheck (im : Image) (m : M) (p slot bit : Nat) : Nat :=
  match im.right slot with
  | none => 1
  | some r =>
    if r.part ≠ p ∨ bitAt slot 15 ∨ im.linkWidth (slot / 256) = 0 ∨ m.voteDead.contains (.rights slot) then 1
    else if bitAt r.rights bit then 0 else 2

/-- Check 6 of R82. -/
def checkRights (im : Image) (m : M) (p : Nat) (c : Cue) : Option (Nat × Nat) :=
  let r := if c.isWrite || c.isRead then slotCheck im m p c.slot (rightBit c.op)
    else if c.op = 5 then
      let a := slotCheck im m p c.slot 0
      if a ≠ 0 then a else slotCheck im m p c.dstSlot 1
    else if c.op = 10 ∧ c.arg = 1 then slotCheck im m p c.slot 3
    else 0
  if r = 0 then none else some (0x22, r)

/-- The first failing window detail of a list of ranges. -/
def firstWin (im : Image) (m : M) (p right : Nat) : List (Nat × Nat) → Nat
  | [] => 0
  | r :: t => let d := winCheck im m p r.1 r.2 right; if d ≠ 0 then d else firstWin im m p right t

/-- Data ranges of a cue in window space: its own, or those of its indirect list cut to COUNT (R99). -/
def dataRanges (c : Cue) (list : List (Nat × Nat)) : List (Nat × Nat) :=
  if !c.hasRange then []
  else if c.idx then
    (list.foldl (fun (acc : Nat × List (Nat × Nat)) e =>
      if acc.1 = 0 then acc else (acc.1 - e.2, acc.2 ++ [(e.1, min e.2 acc.1)])) (c.count, [])).2
  else [(c.w1, c.count)]

/-- Check 7 of R82: every range in one window with LOAD or STORE (R86, R99). -/
def checkWindow (im : Image) (m : M) (p : Nat) (c : Cue) (list : List (Nat × Nat)) : Option (Nat × Nat) :=
  let rs := if c.idx && c.hasRange then list else dataRanges c list
  let d := firstWin im m p (if c.isRead then rStore else rLoad) rs
  if d = 0 then none else some (0x21, d)

/-- 64 KiB units of a byte count (R87). -/
def units (n : Nat) : Nat := (n + 65535) / 65536

/-- Units of write space of a group with DSRC 0 data from window space (R410): `n` is the group's total COUNT. -/
def writeUnits (n : Nat) : Nat := min 4 (units n)

/-- The stage handle rules of R87 and R88. -/
def checkHandle (im : Image) (p : Nat) (c : Cue) (bufs : List SBuf) : Option (Nat × Nat) :=
  if !c.namesBuf then none else
  match bufs.find? (fun b => b.buf == c.buf) with
  | none =>
    if c.isWrite then some (0x23, 1)
    else if im.stageQuota p < units (c.bufOff + c.count) then some (0x23, 3) else none
  | some b => if b.units * 65536 < c.bufOff + c.count then some (0x23, 2) else none

/-- Check 8 of R82: the stage handle rules, and a write space that can never be granted (R410). `total` is the COUNT of the
group through this cue, `ranged` whether a cue of it so far takes data from window space. -/
def checkStage (im : Image) (p : Nat) (c : Cue) (bufs : List SBuf) (total : Nat) (ranged : Bool) : Option (Nat × Nat) :=
  match checkHandle im p c bufs with
  | some f => some f
  | none => if c.isWrite && ranged && decide (im.stageQuota p < writeUnits total) then some (0x23, 3) else none

/-- Check 9 of R82: the routine of a CALL (R93). -/
def routineOk (im : Image) (p : Nat) (c : Cue) : Bool :=
  match im.routine c.arg with
  | some r => bitAt r.callers p
  | none => false

/-- Check 9 as a failure. -/
def checkCall (im : Image) (p : Nat) (c : Cue) : Option (Nat × Nat) :=
  if c.op = 11 ∧ !(routineOk im p c) then some (0x26, 4) else none

/-- The first failure of a list of checks. -/
def firstFail : List (Option (Nat × Nat)) → Option (Nat × Nat)
  | [] => none
  | some r :: _ => some r
  | none :: t => firstFail t

/-- Checks 1 to 4 of R82. -/
def checksEarly (c : Cue) (before : List Cue) (carried lastInline : Bool) (payload : Nat) : Option (Nat × Nat) :=
  firstFail [checkFlags c, checkFields c carried payload, checkChain c before carried lastInline]

/-- Checks 6 to 9 of R82. -/
def checksLate (im : Image) (m : M) (p : Nat) (c : Cue) (list : List (Nat × Nat)) (bufs : List SBuf) (total : Nat) (ranged : Bool) :
    Option (Nat × Nat) :=
  firstFail [checkRights im m p c, checkWindow im m p c list, checkStage im p c bufs total ranged, checkCall im p c]

/-- The slot-rights words that check 6 reads. -/
def rightsWords (c : Cue) : List VWord :=
  if c.isWrite || c.isRead || (c.op == 10 && c.arg == 1) then [.rights c.slot]
  else if c.op = 5 then [.rights c.slot, .rights c.dstSlot] else []

/-- The window words that check 7 reads. -/
def rangeWords (im : Image) (p : Nat) (c : Cue) (list : List (Nat × Nat)) : List VWord :=
  ((if c.idx && c.hasRange then list else dataRanges c list).map (fun r => winWords im p r.1)).flatten

/-- Checks 6 to 9 of R82 as the hardware makes them: the voted words first (R21, R280, R282). -/
def checksLateV (im : Image) (p : Nat) (c : Cue) (list : List (Nat × Nat)) (bufs : List SBuf) (total : Nat) (ranged : Bool)
    (m : M) : Option (Nat × Nat) × M :=
  let (ok, m) := accessWords im (rightsWords c) m
  if !ok then (some (0x22, 1), m)
  else match checkRights im m p c with
    | some f => (some f, m)
    | none =>
      let (ok, m) := accessWords im (rangeWords im p c list) m
      (if ok then checksLate im m p c list bufs total ranged else some (0x21, 1), m)

/-- Failure of an error answer to a loom read (R109): BUS_ERROR or DATA_CHECK. -/
def readFail : RdRes → Nat × Nat
  | .data _ => (0, 0)
  | .ur => (0x25, 1)
  | .ca => (0x25, 1)
  | .timeout => (0x25, 1)
  | .fabric => (0x25, 2)
  | .poisoned => (0x24, 3)
  | .dram => (0x24, 1)
  | .stage => (0x24, 2)
  | .scratch => (0x24, 4)

end Sys2Proof
end

