-- ==== Sys2Proof/Machine/Cmdq.lean ====
section
/-! DEFINITION. Links as scripts see them: slots, the command virtual lane's queue, rehearsals and their states
(R119 to R130), and the transfers that wait in a cluster's sub-queues (R181). -/

namespace Sys2Proof

/-- The link of a slot address. -/
def slotLink (a : Nat) : Nat := a / 256
/-- The slot number on its link. -/
def slotNum (a : Nat) : Nat := a % 256

/-- LNK_STS.STATE values. -/
def lsOff : Nat := 0
/-- WAIT. -/
def lsWait : Nat := 1
/-- DETECT. -/
def lsDetect : Nat := 2
/-- TRAIN. -/
def lsTrain : Nat := 3
/-- HANDSHAKE. -/
def lsHand : Nat := 4
/-- ACTIVE. -/
def lsActive : Nat := 5
/-- RETRAIN. -/
def lsRetrain : Nat := 6
/-- DISABLED. -/
def lsDisabled : Nat := 7

/-- State of a link. -/
def M.linkState (m : M) (l : Nat) : Nat := m.fld .LNK_STS_STATE l

/-- A link that is ACTIVE or in RETRAIN (R251). -/
def M.linkLive (m : M) (l : Nat) : Bool := m.linkState l == lsActive || m.linkState l == lsRetrain

/-- The CAP entry of a slot in the current session (R242). -/
def M.capOf (m : M) (slot : Nat) : Option Cap :=
  (m.link (slotLink slot)).caps.find? (fun c => c.slot == slotNum slot && c.present)

/-- Response limit of a slot in sc (R247). -/
def M.respLimit (m : M) (slot : Nat) : Nat :=
  match m.capOf slot with
  | some c => c.limit * 2000
  | none => 0

/-- Queues a frame on the command virtual lane of a link. -/
def enqFrame (l : Nat) (f : QFrame) (m : M) : M :=
  let k := m.link l
  m.setLink l { k with cmdq := k.cmdq ++ [f] }

/-- Removes queued frames of a link. -/
def dropFrames (l : Nat) (p : QFrame → Bool) (m : M) : M :=
  let k := m.link l
  m.setLink l { k with cmdq := k.cmdq.filter (fun f => !(p f)) }

/-! ### Rehearsals -/

/-- The rehearsals of a link with their numbers. -/
def M.rhsOf (m : M) (l : Nat) : List (Nat × Rehearsal) :=
  (m.rhs.filter (fun e => e.1.1 == l)).map (fun e => (e.1.2, e.2))

/-- Rehearsal numbers in use on a link (SPC_LINK). -/
def syncRhs (l : Nat) (m : M) : M :=
  let n := (m.rhsOf l).length
  let m := m.setFld .SPC_LINK_OUTSTANDING l n
  m.peak .SPC_LINK_PEAK l n

/-- Whether an ABORT for a tag waits for its flit. -/
def abortWaits (m : M) (l t : Nat) : Bool :=
  (m.link l).cmdq.any (fun f => match f with | .abort _ u _ => u == t | _ => false)

/-- The lowest free rehearsal number of a link (R119); one whose ABORT still waits for its flit is not taken (R247). -/
def freeRhs (m : M) (l : Nat) : Option Nat := (List.range 64).find? (fun n => (m.rh l n).isNone && !(abortWaits m l n))

/-- Frees a rehearsal: its number and its space, in one cycle (R122). -/
def releaseRh (l n : Nat) (m : M) : M :=
  match m.rh l n with
  | none => m
  | some r => syncRhs l ((m.stageFree r.part r.hold).delRh l n)

/-- A queued frame without number n in a GO. -/
def QFrame.lessGo (n : Nat) : QFrame → QFrame
  | .go p mask => .go p (putBit mask n false)
  | f => f

/-- A queued frame without number n in a STRIKE. -/
def QFrame.lessStrike (n : Nat) : QFrame → QFrame
  | .strike p mask => .strike p (putBit mask n false)
  | f => f

/-- A GO or STRIKE that names no rehearsal any more. -/
def QFrame.isEmpty : QFrame → Bool
  | .go _ mask => mask == 0
  | .strike _ mask => mask == 0
  | _ => false

/-- Removes a queued GO for number n of a link (R122). -/
def dropGo (l n : Nat) (m : M) : M :=
  let k := m.link l
  m.setLink l { k with cmdq := (k.cmdq.map (QFrame.lessGo n)).filter (fun f => !f.isEmpty) }

/-- Removes a queued STRIKE for number n of a link (R122). -/
def dropStrike (l n : Nat) (m : M) : M :=
  let k := m.link l
  m.setLink l { k with cmdq := (k.cmdq.map (QFrame.lessStrike n)).filter (fun f => !f.isEmpty) }

/-- A rehearsal in OUT or CONFIRMED becomes STRIKING: queued GO removed, STRIKE queued, held data discarded. -/
def strikeRh (l n : Nat) (m : M) : M :=
  match m.rh l n with
  | none => m
  | some r =>
    let m := dropGo l n m
    enqFrame l (.strike r.part (2 ^ n)) (m.setRh l n { r with st := .striking, data := [] })

/-- A squash strikes a rehearsal and frees its space (R126). -/
def strikeSquash (l n : Nat) (m : M) : M :=
  match m.rh l n with
  | none => m
  | some r => strikeRh l n ((m.stageFree r.part r.hold).setRh l n { r with hold := 0 })

/-! ### Transfers in a sub-queue -/

/-- A transfer whose elements and flush are all answered. -/
def Xfer.idle (x : Xfer) : Bool :=
  x.elems.all (fun e => e.st == .ok || e.st == .bad) && (x.flush == 0 || x.flush == 3)

/-- BYTES_DONE (R178): the longest run of bytes from the first that were answered without error. `started` elements
that have been sent on to a link are gone from the list and count by their offset. -/
def runDone : Nat → List Elem → Nat
  | n, [] => n
  | n, e :: t => if e.st = .ok ∧ e.off ≤ n then runDone (max n (e.off + e.len)) t else n

/-- Bytes answered of a transfer. -/
def Xfer.bytesDone (x : Xfer) : Nat :=
  match x.elems with
  | [] => 0
  | e :: _ => if e.off = 0 then runDone 0 x.elems else 0

/-- The transfer of a cue with its cluster, when its sub-queue holds one. -/
def cueXfer (m : M) (p tag sn : Nat) : Option (Nat × Xfer) :=
  (m.subq.find? (fun e => e.1.2 == p && e.2.any (fun x => x.who == .cue p tag sn))).bind (fun e =>
    (e.2.find? (fun x => x.who == .cue p tag sn)).map (fun x => (e.1.1, x)))

/-- Items in all sub-queues of an internal queue (MOV_QSTS). -/
def queueUsed (m : M) (cl : Nat) : Nat := ((m.subq.filter (fun e => e.1.1 == cl)).map (fun e => e.2.length)).sum

/-- Replaces a sub-queue and brings USED and PEAK up to date. -/
def putQueue (cl own : Nat) (q : List Xfer) (m : M) : M :=
  let m := m.setQueue cl own q
  let n := queueUsed m cl
  let m := m.setFld .MOV_QSTS_USED cl n
  m.peak .MOV_QSTS_PEAK cl n

/-- Changes the transfers of a sub-queue. -/
def updQueue (cl own : Nat) (g : Xfer → Xfer) (m : M) : M := m.setQueue cl own ((m.queue cl own).map g)

/-- Changes the transfer of a cue. -/
def updCueXfer (p tag sn : Nat) (g : Xfer → Xfer) (m : M) : M :=
  match cueXfer m p tag sn with
  | none => m
  | some (cl, _) => updQueue cl p (fun x => if x.who = .cue p tag sn then g x else x) m

/-- Takes finished transfers that nobody owns out of a sub-queue. -/
def dropGone (cl own : Nat) (m : M) : M :=
  putQueue cl own ((m.queue cl own).filter (fun x => !(x.who == .gone && x.idle))) m

/-- Discards the transfer of a cue: no further element starts, its answers are awaited and discarded (R126, R181). -/
def discardXfer (p tag sn : Nat) (m : M) : M :=
  match cueXfer m p tag sn with
  | none => m
  | some (cl, _) => dropGone cl p (updQueue cl p (fun x => if x.who = .cue p tag sn then { x with who := .gone } else x) m)

/-- Whether a sub-queue takes one more item (R181). -/
def queueRoom (im : Image) (m : M) (cl own : Nat) : Bool := decide ((m.queue cl own).length < im.qdepth)

/-- A transfer at its start. -/
def Xfer.make (owner asPart : Nat) (who : XferOf) (src dst : List Range) (data : List Byte) (total avail : Nat) : Xfer :=
  { owner := owner, asPart := asPart, who := who, src := src, dst := dst, data := data, total := total, avail := avail,
    pos := 0, elems := [], flush := 0, flushId := 0, lastHost := none, err := 0, errBy := 0, stopped := false, late := [] }

end Sys2Proof
end

