-- ==== Sys2Proof/Machine/LocalMap.lean ====
section
/-! DEFINITION. The local address map (12) and the turns of the memory controllers (R62). -/

namespace Sys2Proof

/-! ### The local address space (R305 to R308) -/

/-- D_c of R305 in bytes: 7/8 of the capacity of channel c. -/
def chanData (im : Image) (c : Nat) : Nat :=
  match im.mem[c]? with
  | some x => if x.present = 1 then x.cap * 2 ^ 30 / 8 * 7 else 0
  | none => 0

/-- The present channels, ascending. -/
def presentChans (im : Image) : List Nat := (List.range 4).filter (fun c => chanData im c != 0)

/-- The zones of R306 as (base, floor, top, channels). -/
def memZones (im : Image) : Nat → Nat → Nat → List Nat → List (Nat × Nat × Nat × List Nat)
  | 0, _, _, _ => []
  | k + 1, base, floor, chans =>
    match (chans.map (chanData im)).min? with
    | none => []
    | some t =>
      (base, floor, t, chans) ::
        memZones im k (base + (t - floor) * chans.length) t (chans.filter (fun c => decide (t < chanData im c)))

/-- The zones of the image. -/
def zonesOf (im : Image) : List (Nat × Nat × Nat × List Nat) := memZones im 4 0 0 (presentChans im)

/-- Channel and channel offset of a data address (R306). -/
def chanAddr (im : Image) (a : Nat) : Option (Nat × Nat) :=
  (zonesOf im).findSome? (fun z =>
    let n := z.2.2.2.length
    if z.1 ≤ a ∧ a < z.1 + (z.2.2.1 - z.2.1) * n then
      let b := (a - z.1) / 256
      some (z.2.2.2.getD (b % n) 0, z.2.1 + b / n * 256 + a % 256)
    else none)

/-- The data address of an offset of channel c: the inverse of R306. -/
def localAddr (im : Image) (c off : Nat) : Option Nat :=
  (zonesOf im).findSome? (fun z =>
    if z.2.1 ≤ off ∧ off < z.2.2.1 then
      match z.2.2.2.findIdx? (fun k => k == c) with
      | some i => some (z.1 + ((off - z.2.1) / 256 * z.2.2.2.length + i) * 256 + off % 256)
      | none => none
    else none)

/-- The region of a local address: 8 the owner region, a partition's number, or none (R312). -/
def regionOf (im : Image) (a : Nat) : Option Nat :=
  if a < im.ownerDramBytes then some 8
  else (im.parts.find? (fun q => decide (q.dramBase ≤ a) && decide (a < q.dramBase + q.dramSize))).map (·.num)

/-- Line index of the tag line of line k of channel c (R308). -/
def tagLine (im : Image) (c k : Nat) : Nat := chanData im c / 64 + k / 8

/-! ### The turns of a memory controller (R62) -/

/-- A request of a partition waits at the controllers of the lines it covers: one line of work each (R62, R307). -/
def noteLines (im : Image) (q a n : Nat) (m : M) : M :=
  if 8 ≤ q ∨ n = 0 then m
  else
    let pend := (List.range ((a + n - 1) / 64 + 1 - a / 64)).foldl (fun l i =>
      match chanAddr im ((a / 64 + i) * 64) with
      | some (c, _) => mapPut l (c, q) (mapGet 0 l (c, q) + 1)
      | none => l) m.mem.pend
    { m with mem := { m.mem with pend := pend } }

/-- Notes the issue of a request to another block (R365). Its timer stands still while the block asserts QUIET (R370): it
starts when QUIET ends. -/
def noteAsk (k : Key) (b : Nat) (m : M) : M := { m with asks := mapPut m.asks k (max m.now (mapGet 0 m.quiet (b, 0)), b) }

/-- The fault instance of the memory controller that holds a local address. -/
def memInst (im : Image) (a : Nat) : Nat := match chanAddr im a with | some (c, _) => 29 + c | none => 0

/-- A fabric read of local DRAM from port src with tag own, for the work of q (8 the owner's); k names the request (R365). -/
def dramRead (im : Image) (k : Key) (src own q a n : Nat) (m : M) : M :=
  (noteAsk k (memInst im a) (noteLines im q a n m)).emit (.dramRd src own a n)

/-- A fabric write of local DRAM. -/
def dramWrite (im : Image) (src own q a : Nat) (b : List Byte) (m : M) : M :=
  (noteLines im q a b.length m).emit (.dramWr src own a b)

/-- The partitions with requests pending at controller c. -/
def linesWait (m : M) (c : Nat) : List Nat := (List.range 8).filter (fun q => mapGet 0 m.mem.pend (c, q) != 0)

/-- How far partition q stands behind the one served last (R62). -/
def turnDist (m : M) (c q : Nat) : Nat := (q + 7 - mapGet 7 m.mem.turn (c, 0)) % 8

/-- Whether controller c serves a line of requester q next: a partition in its turn of the round robin; the owner's work
when no partition waits, or after three lines of partitions (R62). -/
def lineTurn (m : M) (c q : Nat) : Bool :=
  if q < 8 then (linesWait m c).all (fun r => decide (turnDist m c q ≤ turnDist m c r))
  else (linesWait m c).isEmpty || decide (3 ≤ mapGet 0 m.mem.since (c, 0))

/-- A line of requester q is served. -/
def lineServed (c q : Nat) (m : M) : M :=
  if q < 8 then
    { m with mem := { m.mem with
      pend := (let n := mapGet 0 m.mem.pend (c, q); if n ≤ 1 then mapDel m.mem.pend (c, q) else mapPut m.mem.pend (c, q) (n - 1))
      turn := mapPut m.mem.turn (c, 0) q
      since := mapPut m.mem.since (c, 0) (min 3 (mapGet 0 m.mem.since (c, 0) + 1)) } }
  else { m with mem := { m.mem with since := mapDel m.mem.since (c, 0) } }

end Sys2Proof
end

