-- ==== Sys2Proof/Machine/Script.lean ====
section
/-! DEFINITION. Scripts (04, 05): entries, squash, confirmation, completion, the prompt window, the checks that
need reads, speculative work, hold, resume, halt and clear. -/

namespace Sys2Proof

/-- The partition's threads may issue: it has spindle budget left, and step 5 has picked threads that a spent budget stopped
(R57, R59, R112). -/
def spindleBudget (m : M) (p : Nat) : Bool := m.covers 0 p 1 && !(m.bud.stopped.contains p)

/-- One cue-engine step of a script's thread (R59, R184). -/
def cueStep (s : Script) (m : M) : M :=
  match s.thread with
  | some t => (m.charge 0 s.part (t / 4) 1).serveThread t
  | none => m

/-! ### Groups -/

/-- Cues of the first group of a window (R96): through the first cue without CD. -/
def groupLen : List PCue → Nat
  | [] => 0
  | c :: t => if c.cue.cd ∧ c.chk = .pass then 1 + groupLen t else 1

/-- Whether every cue of the first group is present and checked, or one of them failed (R97). -/
def groupWhole : List PCue → Bool
  | [] => false
  | c :: t => match c.chk with
    | .pending => false
    | .fail _ _ => true
    | .pass => if c.cue.cd then groupWhole t else true

/-- The groups of a window in order. -/
def groupsOf (l : List PCue) : List (List PCue) :=
  l.foldr (fun c acc => match acc with
    | g :: t => if c.cue.cd ∧ c.chk = .pass then (c :: g) :: t else [c] :: g :: t
    | [] => [[c]]) []

/-- The youngest confirmed cue or group of a script. -/
def Script.head (s : Script) : List PCue := s.win.take (groupLen s.win)

/-- Total COUNT of a group. -/
def groupTotal (g : List PCue) : Nat := (g.map (fun c => c.cue.count)).sum

/-- The first recorded failure of a group (R97). -/
def groupFail : List PCue → Option (PCue × Nat × Nat)
  | [] => none
  | c :: t => match c.chk with
    | .fail st d => some (c, st, d)
    | _ => groupFail t

/-- The cue in force after n bytes, and the bytes of it transferred (R98, R108). -/
def inForceAt : Nat → List PCue → Option (PCue × Nat)
  | _, [] => none
  | n, [c] => some (c, min n c.cue.count)
  | n, c :: t => if n < c.cue.count then some (c, n) else inForceAt (n - c.cue.count) t

/-! ### Entries -/

/-- SFLAGS (R107). -/
def sflags (s : Script) (inl : Bool) : Nat :=
  (if inl then 1 else 0) + (if s.side then 2 else 0) + (if s.skipped then 4 else 0) + (if s.attn then 8 else 0)

/-- A status entry of a script (R107). -/
def mkEntry (s : Script) (status detail residual ptr user : Nat) (inl term : Bool) : Entry :=
  ⟨status, detail, s.dev, sflags s inl, s.ring, residual, s.tag, ptr, user, term, true, 0, false⟩

/-- The entry for a cue or group of which n bytes were transferred (R107, R108). -/
def cueEntry (s : Script) (g : List PCue) (n status detail : Nat) (term : Bool) : Entry :=
  match inForceAt n g with
  | none => mkEntry s status detail 0 0 0 false term
  | some (c, k) => mkEntry s status detail (if c.cue.isDevice then c.cue.count - k else 0) c.ptr c.cue.userTag c.inl term

/-- The entry for a cue that failed a check or could not begin: RESIDUAL is its COUNT (R108). -/
def failEntry (s : Script) (c : PCue) (status detail : Nat) : Entry :=
  mkEntry s status detail c.cue.count c.ptr c.cue.userTag c.inl true

/-- An entry the ring unit produces for a request (R75, R106, R141). -/
def reqEntry (ring status detail tag : Nat) : Entry := ⟨status, detail, 0, 0, ring, 0, tag, 0, 0, true, false, 0, false⟩

/-! ### Squash (R126) -/

/-- Local memory still owes a thread the answer of a read that serves nothing any more. -/
def oweFetch (s : Script) (m : M) : M :=
  match s.thread with
  | some t => let x := m.cpu (thr t); m.setCpu (thr t) { x with fetchDrop := x.fetchDrop + 1 }
  | none => m

/-- The same of a list read. -/
def oweList (s : Script) (m : M) : M :=
  match s.thread with
  | some t => let x := m.cpu (thr t); m.setCpu (thr t) { x with listDrop := x.listDrop + 1 }
  | none => m

/-- Marks the outstanding fetch of a script's younger cues as a read of discarded cues. -/
def killFetch (s : Script) (m : M) : Script × M :=
  if !s.fetching then (s, m)
  else ({ s with fetching := false },
    if hasPurp m s.part (.cues s.tag) then killPurp s.part s.tag (.cues s.tag) m else oweFetch s m)

/-- Marks an outstanding list read of a discarded cue. -/
def killList (c : PCue) (s : Script) (m : M) : Script × M :=
  if !c.listOut then (s, m)
  else (s, if hasPurp m s.part (.ilist s.tag) then killPurp s.part s.tag (.ilist s.tag) m else oweList s m)

/-- Frees what a discarded cue held: queued REHEARSE, rehearsal, early data and its space, buffer it allocated. -/
def dropCue (acc : Script × M) (c : PCue) : Script × M :=
  let (s, m) := killList c acc.1 acc.2
  let l := slotLink c.cue.slot
  let m := if c.rq then (dropFrames l (fun f => f == .rehearse s.part s.tag c.sn) m).stageFree s.part c.runits else m
  let m := match c.rhs with
    | some n => strikeSquash l n m
    | none => m
  let m := (discardXfer s.part s.tag c.sn m).stageFree s.part c.wunits
  match c.newBuf with
  | none => (s, m)
  | some b =>
    let m := match s.bufs.find? (fun x => x.buf == b) with
      | some x => if x.granted then m.stageFree s.part x.units
        else { m with bud := { m.bud with stageq := m.bud.stageq.erase ⟨s.part, s.tag, some b, x.units⟩ } }
      | none => m
    ({ s with bufs := s.bufs.filter (fun x => x.buf != b) }, m)

/-- Discards every cue younger than the first `keep` of the window, oldest first (R126). -/
def squash (keep : Nat) (s : Script) (m : M) : Script × M :=
  let d := s.win.drop keep
  let (s, m) := killFetch s m
  let (s, m) := d.foldl dropCue (s, m)
  let i := pinst s.part 0
  ({ s with win := s.win.take keep, ahead := [] },
    if d.isEmpty then m else (m.bumpN .SPC_CUES_DISCARDED i d.length).bump .SPC_SQUASH_SQUASHES i)

/-! ### The end of a script (R109) -/

/-- Commands of a script that is over: their data and answers are discarded (R105, R248). -/
def killCmds (p tag : Nat) (m : M) : M :=
  { m with links := m.links.map (fun e => (e.1, { e.2 with
      cmds := e.2.cmds.map (fun c => if c.part = p ∧ c.tag = tag ∧ c.clear = false then { c with dead := true } else c)
      cmdq := e.2.cmdq.filter (fun f => match f with | .cmd q u _ => !(q == p && u == tag) | _ => true) })) }

/-- A committed rehearsal of a script that is over belongs to no cue any more: what answers it is discarded (R105, R130,
R248). -/
def detachRhs (p tag : Nat) (m : M) : M :=
  { m with rhs := m.rhs.map (fun e => (e.1,
      if e.2.part = p ∧ e.2.tag = tag ∧ e.2.st = .committed then { e.2 with detached := true, data := [] } else e.2)) }

/-- Whether the first cue of a window is younger than the current one, which has completed and whose entry is held (R105, R126,
R155): it is not confirmed yet. -/
def Script.headYounger (s : Script) : Bool := s.done.isSome && !s.last

/-- Cues of a window that a squash at the script's current cue leaves (R126). -/
def Script.keep (s : Script) : Nat := if s.headYounger then 0 else groupLen s.win

/-- ABORT for every command of a script that is outstanding (R247). -/
def abortOuts (p tag : Nat) (m : M) : M :=
  m.links.foldl (fun m e => (e.2.cmds.filter (fun c => c.part == p && c.tag == tag && !c.dead && !c.clear)).foldl
    (fun m c => enqFrame e.1.1 (.abort p c.ctag c.slot) m) m) m

/-- Ends a script with its terminal entry: younger work squashed, buffers and spaces freed, the thread free, the entry
staged or held; the tag stays live until the entry is written (R75, R87, R109, R155). -/
def endScript (im : Image) (s : Script) (e : Entry) (m : M) : M :=
  let (s, m) := squash s.keep s m
  let m := s.win.foldl (fun m c => (discardXfer s.part s.tag c.sn m).stageFree s.part c.wunits) m
  let m := s.bufs.foldl (fun m b => if b.granted then m.stageFree s.part b.units else m) m
  let m := detachRhs s.part s.tag (killCmds s.part s.tag m)
  let m := { m with
    waits := m.waits.filter (fun w => w != (s.part, s.tag))
    bud := { m.bud with stageq := m.bud.stageq.filter (fun w => !(w.part == s.part && w.tag == s.tag)) }
    dispq := mapPut m.dispq (s.part, 0) ((mapGet [] m.dispq (s.part, 0)).filter (fun t => t != s.tag)) }
  let m := m.setScript { s with st := .ended, thread := none, win := [], next := none, bufs := [], wait := .nothing,
                                ahead := [], halting := false, run := default, done := none, last := false }
  (postEntry im s.part e m).2

/-! ### Stage allocations (R68, R87) -/

/-- A request for stage space that can be granted at once: it fits and nothing of the partition waits before it. -/
def stageNow (m : M) (p n : Nat) : Bool := m.stageFits p n && !(m.bud.stageq.any (fun w => w.part == p))

/-- Declares the numbered buffer that the first READ or SENSE naming it allocates: granted when it can be, else its request
waits in order (R68, R87). -/
def declareBuf (c : PCue) (s : Script) (m : M) : PCue × Script × M :=
  if c.cue.isRead && c.cue.namesBuf && !(s.bufs.any (fun b => b.buf == c.cue.buf)) then
    let u := units (c.cue.bufOff + c.cue.count)
    let g := stageNow m s.part u
    ({ c with newBuf := some c.cue.buf }, { s with bufs := s.bufs ++ [⟨c.cue.buf, u, g, []⟩] },
      if g then m.stageTake s.part u
      else { m with bud := { m.bud with stageq := m.bud.stageq ++ [⟨s.part, s.tag, some c.cue.buf, u⟩] } })
  else (c, s, m)

/-! ### Checks on arrival (R82, R83, R99) -/

/-- The cues of the group before the one to be checked. -/
def groupBefore (l : List PCue) : List PCue := l.foldl (fun acc c => if c.cue.cd then acc ++ [c] else []) []

/-- The cluster of a script's thread. -/
def Script.cluster (s : Script) : Nat := match s.thread with | some t => t / 32 | none => 0

/-- The fabric port of the cluster of a script's thread (R10). -/
def clusterPort (s : Script) : Nat := 52 + s.cluster

/-- Issues a read of window space for a script: from host memory as a request, from local DRAM as a fabric read from port
`src`. -/
def winRead (im : Image) (k : Key) (src p a len : Nat) (purp : Purp) (m : M) : M :=
  match winMap im m p a with
  | some (.dram, x) => dramRead im k src p p x len m
  | some (_, x) => reqTlp p (.rd purp x len (some len)) m
  | none => m

/-- Bytes that the entries of a list supply. -/
def listSum (l : List (Nat × Nat)) : Nat := (l.map (·.2)).sum

/-- Check 5 of R82 up to the next read it needs: `.inl` a failure, `.inr true` the list is complete, `.inr false` one
more entry must be read (R99). -/
def listNext (im : Image) (p : Nat) (c : PCue) (m : M) : ((Nat × Nat) ⊕ Bool) × M :=
  if !(c.cue.idx && c.cue.hasRange) then (.inr true, m)
  else if c.cue.w1 % 16 ≠ 0 then (.inl (stCue, 8), m)
  else if c.cue.count ≤ listSum c.list then (.inr true, m)
  else if 256 ≤ c.list.length then (.inl (stCue, 8), m)
  else
    let (d, m) := winCheckV im p (c.cue.w1 + 16 * c.list.length) 16 rScript m
    (if d = 0 then .inr false else .inl (0x21, d), m)

/-- Checks the pending cue `c` that follows `pre` in the window; `conf` says its group is confirmed, so that its list
may be read without PREFETCH (R114). -/
def checkCue (im : Image) (pre : List PCue) (c : PCue) (s : Script) (m : M) : PCue × Script × M :=
  let before := groupBefore pre
  let conf := before.length == pre.length && !s.headYounger
  match checksEarly c.cue (before.map (·.cue)) c.inl (c.inl && c.ptr + 1 == s.icues.length) s.payload.length with
  | some (st, d) => ({ c with chk := .fail st d }, s, m)
  | none =>
    if c.listOut then (c, s, m) else
    match listNext im s.part c m with
    | (.inl (st, d), m) => ({ c with chk := .fail st d }, s, m)
    | (.inr false, m) =>
      let a := c.cue.w1 + 16 * c.list.length
      if !(conf || winPrefetch im m s.part a) then (c, s, m)
      else ({ c with listOut := true }, s, winRead im (3, s.thread.getD 0) (clusterPort s) s.part a 16 (.ilist s.tag) m)
    | (.inr true, m) =>
      match checksLateV im s.part c.cue c.list s.bufs ((before.map (fun x => x.cue.count)).sum + c.cue.count)
          ((before ++ [c]).any (fun x => x.cue.hasRange)) m with
      | (some (st, d), m) => ({ c with chk := .fail st d }, s, m)
      | (none, m) => declareBuf { c with chk := .pass } s m

/-- Checks the cues of a window in order, stopping at one whose list is not complete. -/
def checkFrom (im : Image) : List PCue → List PCue → Script → M → List PCue × Script × M
  | pre, [], s, m => (pre, s, m)
  | pre, c :: t, s, m =>
    if c.chk ≠ .pending then checkFrom im (pre ++ [c]) t s m
    else
      let (c, s, m) := checkCue im pre c s m
      if c.chk = .pending then (pre ++ c :: t, s, m) else checkFrom im (pre ++ [c]) t s m

/-- Makes the checks that can be made on a script's window (R82). -/
def runChecks (im : Image) (s : Script) (m : M) : Script × M :=
  let (w, s, m) := checkFrom im [] s.win s m
  ({ s with win := w }, m)

/-! ### The prompt window (R111 to R113) -/

/-- The successor R72 predicts for a cue. -/
def succOf (c : PCue) : Nat × Bool :=
  if c.cue.op = 8 then (c.cue.w3, false) else if c.inl then (c.ptr + 1, true) else (c.ptr + 32, false)

/-- Whether the youngest cue has failed no check so far: one that awaits its list has passed checks 1 to 4 (R82, R112). -/
def growsPast (s : Script) (c : PCue) : Bool :=
  match c.chk with
  | .pass => true
  | .fail _ _ => false
  | .pending => (checksEarly c.cue ((groupBefore s.win.dropLast).map (·.cue)) c.inl
      (c.inl && c.ptr + 1 == s.icues.length) s.payload.length).isNone

/-- Whether nothing has decided that the script runs no cue beyond its current one (R104, R105, R109). -/
def Script.goesOn (s : Script) : Bool := !s.halting && s.run.fin.isNone && !s.run.cleared

/-- The youngest cue of a window with the cues that chain data into it (R96). -/
def lastGroup (l : List PCue) : List PCue := groupBefore l.dropLast ++ l.getLast?.toList

/-- Whether the window may grow by the next cue (R81, R112). -/
def mayGrow (s : Script) : Bool :=
  s.goesOn &&
  match s.win.getLast? with
  | none => true
  | some c =>
    let g := lastGroup s.win
    growsPast s c && !c.cue.isLast && decide (s.win.length < 16 + groupLen s.win) &&
    (c.cue.cd ||
      (c.cue.op != 11 && c.cue.op != 13 && !(g.any (fun x => x.cue.fen)) &&
        (!(g.any (fun x => x.cue.susp)) || (s.run.confirmed && g.length == s.win.length))))

/-- Adds a cue to the window and predicts its successor; a cue behind an unfinished one is speculative (R115). -/
def addCue (im : Image) (ptr : Nat) (inl : Bool) (c : Cue) (chk : Chk) (s : Script) (m : M) : Script × M :=
  let k : PCue := { sn := s.sn, ptr := ptr, inl := inl, cue := c, chk := chk, list := [], listOut := false, rhs := none,
                    rq := false, runits := 0, wunits := 0, newBuf := none, sent := false, lost := false }
  let spec := s.headYounger || (groupBefore s.win).length != s.win.length
  let m := if spec then m.bump .SPC_CUES_SPECULATED (pinst s.part 0) else m
  let m := cueStep s m
  runChecks im { s with win := s.win ++ [k], next := some (succOf k), sn := s.sn + 1 } m

/-- Whether cues behind this one are not read before it lets them (R81, R112). -/
def Cue.stopsReads (c : Cue) : Bool := c.fen || c.susp || c.op == 11 || c.op == 13

/-- The cue to be decoded next, whether it is inline, and the fetched cues behind it: an inline cue, which needs no read, or a fetched one. A
fetched cue that is not the next is none (R71, R111 to R113). -/
def nextCue (s : Script) : Option (Bool × Fetched × List Fetched) :=
  match s.next with
  | some (i, true) => (s.icues[i]?).map (fun c => (true, ⟨i, c, .pending⟩, []))
  | some (a, false) => match s.ahead with
    | f :: t => if f.ptr = a then some (false, f, t) else none
    | [] => none
  | none => none

/-- Whether the script's thread has a cue to decode (R111, R112). -/
def mayDecode (s : Script) : Bool := (nextCue s).isSome && mayGrow s

/-- Whether the confirmed cue waits to begin. -/
def mayBegin (s : Script) : Bool := s.run.confirmed && !s.run.begun

/-- Whether the thread of a script fills its prompt window (R111): while the script runs, and while it waits (R155). -/
def Script.decoding (s : Script) : Bool := s.st == .running || s.st == .waiting

/-! ### Turns (R184) -/

/-- Whether a thread is ready: its routine's next instruction may issue, or its script has a cue-engine step to make. -/
def threadReady (m : M) (t : Nat) : Bool :=
  let x := m.cpu (thr t)
  match x.rout with
  | some r => x.wait == .none && decide (x.ready ≤ m.now) && (r.part == 8 || spindleBudget m r.part)
  | none => match m.scriptOn t with
    | some s => spindleBudget m s.part && ((s.decoding && mayDecode s) || (s.st == .running && mayBegin s))
    | none => false

/-- Whether thread t may take its spindle's issue slot of this cycle: the slot is free, and no ready thread, one that has
not let the cycle pass, stands between the thread served last and t in round-robin order (R184). -/
def mayStep (m : M) (t : Nat) : Bool :=
  let last := (m.lastServed (t / 4)).2
  let k := (t + 3 - last) % 4
  m.spindleFree (t / 4) && (List.range k).all (fun j =>
    bitAt (m.passed (t / 4)) ((last + 1 + j) % 4) || !(threadReady m (t / 4 * 4 + (last + 1 + j) % 4)))

/-- The fetched cues behind the one just decoded that stay: none when its group is complete and lets no younger cue be read yet
(R81, R112). -/
def keptAhead (s : Script) (c : Cue) (t : List Fetched) : List Fetched :=
  if !c.cd && (c.stopsReads || (groupBefore s.win).any (fun x => x.cue.stopsReads)) then [] else t

/-- A script's thread decodes its next cue when it may (R111, R113, R184); fetched cues that are not next, or that must not
have been read yet, are dropped (R81, R112). -/
def decodeNext (im : Image) (s : Script) (m : M) : Script × M :=
  match nextCue s, s.thread with
  | none, _ => ({ s with ahead := [] }, m)
  | some (inl, f, t), some k =>
    if mayGrow s && spindleBudget m s.part && mayStep m k then
      addCue im f.ptr inl f.cue f.chk { s with ahead := keptAhead s f.cue t } m
    else (s, m)
  | some _, none => (s, m)

/-! ### Data of a cue (R77, R86, R99, R181) -/

/-- Window-space ranges as places. -/
def mapRanges (im : Image) (m : M) (p : Nat) (l : List (Nat × Nat)) : List Range :=
  l.filterMap (fun r => (winMap im m p r.1).map (fun x => ⟨x.1, x.2, r.2⟩))

/-- The inline bytes of a cue with DSRC 1 or 2. -/
def inlineBytes (s : Script) (c : Cue) : List Byte :=
  if c.dsrc = 1 then leBytes c.count c.w3 else if c.dsrc = 2 then bytesAt s.payload 0 c.count else []

/-- The inline bytes of a group in order. -/
def groupInline (s : Script) (g : List PCue) : List Byte := (g.map (fun c => inlineBytes s c.cue)).flatten

/-- Whether a group's data travels as immediate data (R245). -/
def immediate (g : List PCue) : Bool :=
  g.all (fun c => c.cue.dsrc != 0 || c.cue.count == 0) && decide (groupTotal g ≤ 208)

/-- Destinations of a READ or SENSE group. -/
def groupDst (im : Image) (m : M) (s : Script) (g : List PCue) : List Range :=
  (g.map (fun c =>
    if c.cue.skip then [⟨.discard, 0, c.cue.count⟩]
    else if c.cue.stg then [⟨.buf s.part s.tag c.cue.buf, c.cue.bufOff, c.cue.count⟩]
    else mapRanges im m s.part (dataRanges c.cue c.list))).flatten

/-- Sources of a WRITE or CONTROL group; `off` counts the inline bytes before a cue. -/
def groupSrc (im : Image) (m : M) (s : Script) : Nat → List PCue → List Range
  | _, [] => []
  | off, c :: t =>
    if c.cue.dsrc ≠ 0 then ⟨.given, off, c.cue.count⟩ :: groupSrc im m s (off + c.cue.count) t
    else if c.cue.stg then ⟨.buf s.part s.tag c.cue.buf, c.cue.bufOff, c.cue.count⟩ :: groupSrc im m s off t
    else mapRanges im m s.part (dataRanges c.cue c.list) ++ groupSrc im m s off t

/-- The bytes of a WRITE or CONTROL group that are not read before it is confirmed (R114, R117): those of numbered buffers, and
those outside windows that hold PREFETCH. `off` counts the bytes before a cue. -/
def groupLate (im : Image) (m : M) (p : Nat) : Nat → List PCue → List (Nat × Nat)
  | _, [] => []
  | off, c :: t =>
    let own := if c.cue.dsrc ≠ 0 then [] else if c.cue.stg then [(off, c.cue.count)] else
      ((dataRanges c.cue c.list).foldl (fun (acc : Nat × List (Nat × Nat)) r =>
        (acc.1 + r.2, if winPrefetch im m p r.1 then acc.2 else acc.2 ++ [(acc.1, r.2)])) (off, [])).2
    own ++ groupLate im m p (off + c.cue.count) t

/-- The transfer of a group (R181): a read places what the device sends, a write fetches into write space, a relay
takes source data into relay space. -/
def groupXfer (im : Image) (m : M) (s : Script) (g : List PCue) (c : PCue) : Xfer :=
  let n := groupTotal g
  let who := XferOf.cue s.part s.tag c.sn
  if c.cue.isWrite then
    { Xfer.make s.part s.part who (groupSrc im m s 0 g) [⟨.link (slotLink c.cue.slot) 0, 0, n⟩] (groupInline s g) n n with
      late := groupLate im m s.part 0 g }
  else if c.cue.op = 5 then
    Xfer.make s.part s.part who [⟨.link (slotLink c.cue.slot) 0, 0, n⟩] [⟨.link (slotLink c.cue.dstSlot) 1, 0, n⟩] [] n 0
  else Xfer.make s.part s.part who [⟨.link (slotLink c.cue.slot) 0, 0, n⟩] (groupDst im m s g) [] n 0

/-- Posts a transfer to a sub-queue. -/
def postXfer (cl own : Nat) (x : Xfer) (m : M) : M := putQueue cl own (m.queue cl own ++ [x]) m

/-! ### Speculative work (R114, R118, R120, R410) -/

/-- The conditions of R118 but those on order and space. -/
def mayRehearse (m : M) (p : Nat) (c : Cue) : Bool :=
  let l := slotLink c.slot
  c.isRead && c.rhs && !c.susp && m.linkLive l &&
  (match m.capOf c.slot with | some k => k.rehearse | none => false) &&
  decide ((m.rhsOf l).length < 64) && !(bitAt (m.fld .SPC_CTL_RHS_OFF 0) p) && m.covers 3 (fidx p l) 1

/-- Rehearsal space of a group in units (R120). -/
def rhsUnits (g : List PCue) : Nat := min 4 (units (groupTotal g))

/-- Speculative work for one checked group: a REHEARSE is queued, or a write's data is read ahead. -/
def specGroup (im : Image) (s : Script) (acc : List PCue × Bool × M) (g : List PCue) : List PCue × Bool × M :=
  let (w, older, m) := acc
  match g with
  | [] => acc
  | c :: t =>
    let ok := groupWhole g && (groupFail g).isNone
    let (c, m) :=
      if ok && older && c.rhs.isNone && !c.rq && !c.lost && mayRehearse m s.part c.cue && stageNow m s.part (rhsUnits g) then
        ({ c with rq := true, runits := rhsUnits g },
          enqFrame (slotLink c.cue.slot) (.rehearse s.part s.tag c.sn) (m.stageTake s.part (rhsUnits g)))
      else if ok && c.cue.isWrite && c.wunits == 0 && s.thread.isSome &&
          stageNow m s.part (writeUnits (groupTotal g)) && queueRoom im m s.cluster s.part &&
          g.any (fun x => (dataRanges x.cue x.list).any (fun r => winPrefetch im m s.part r.1)) then
        ({ c with wunits := writeUnits (groupTotal g) },
          postXfer s.cluster s.part (groupXfer im m s (c :: t) c) (m.stageTake s.part (writeUnits (groupTotal g))))
      else (c, m)
    (w ++ c :: t, older && (!c.cue.isDevice || c.sent), m)

/-- Speculative work of a script (R114, R118): what its checked, unconfirmed cues allow. -/
def specWork (im : Image) (p tag : Nat) (m : M) : M :=
  match m.script p tag with
  | none => m
  | some s =>
    if s.st = .ended ∨ s.st = .queued ∨ s.halting then m else
    match groupsOf s.win with
    | [] => m
    | h :: t =>
      let older := match h with | c :: _ => !c.cue.isDevice || c.sent | [] => true
      let (w, _, m) := if s.headYounger then (h :: t).foldl (specGroup im s) ([], true, m)
        else t.foldl (specGroup im s) (h, older, m)
      m.setScript { s with win := w }

/-! ### Confirmation (R103, R110, R125) -/

/-- Replaces the first cue of a window. -/
def setHead (s : Script) (g : PCue → PCue) : Script :=
  match s.win with
  | [] => s
  | c :: t => { s with win := g c :: t }

/-- Why a confirmed device cue cannot go to its device: LINK_DOWN detail 0 or 1 (R251). -/
def linkRefusal (m : M) (c : Cue) : Option Nat :=
  let one := fun slot => if !(m.linkLive (slotLink slot)) then some 0 else if (m.capOf slot).isNone then some 1 else none
  if !c.isDevice then none
  else match one c.slot with
    | some d => some d
    | none => if c.op = 5 then one c.dstSlot else none

/-- A confirmed cue acts (R125): a rehearsal in OUT is confirmed and its GO queued; a REHEARSE still queued is removed;
a device cue whose link or slot is gone ends the script (R251). -/
def actHead (im : Image) (s : Script) (m : M) : M :=
  match s.win with
  | [] => m.setScript s
  | c :: _ =>
    let p := s.part
    let l := slotLink c.cue.slot
    let run : CueRun := { (default : CueRun) with confirmed := true }
    match c.rhs with
    | some n =>
      let m := match m.rh l n with
        | some r => enqFrame l (.go p (2 ^ n)) (m.setRh l n { r with st := .confirmed })
        | none => m
      m.setScript { s with run := { run with begun := true } }
    | none =>
      let m := if c.rq then (dropFrames l (fun f => f == .rehearse p s.tag c.sn) m).stageFree p c.runits else m
      let s := setHead s (fun c => { c with rq := false, runits := 0 })
      let m := if c.cue.isRead && c.cue.rhs then m.bump .SPC_RHS_MISS_NOT_SENT (pinst p 0) else m
      match linkRefusal m c.cue with
      | some d => endScript im s (failEntry s c 0x16 d) m
      | none => m.setScript { s with run := run }

/-- Confirms the first cue or group of the window when it is whole: a recorded failure ends the script (R83), the
1,024th control cue in a row ends it (R95), SUSP holds it (R103), else it acts. -/
def confirmHead (im : Image) (p tag : Nat) (m : M) : M :=
  match m.script p tag with
  | none => m
  | some s =>
    if s.st ≠ .running ∨ s.run.confirmed ∨ groupWhole s.win = false then m else
    match groupFail s.head with
    | some (x, st, d) => endScript im s (failEntry s x st d) m
    | none =>
      match s.win with
      | [] => m
      | c :: _ =>
        let loops := if c.cue.isControlRun then s.loops + 1 else 0
        if 1024 ≤ loops then endScript im s (failEntry s c stCue 9) m
        else if c.cue.susp && !s.resume then
          let e := mkEntry s 0x03 0 (if c.cue.isDevice then c.cue.count else 0) c.ptr c.cue.userTag c.inl false
          let (held, m) := postEntry im p e m
          m.setScript { s with st := .held, wait := if held then .entry else .nothing }
        else actHead im { s with loops := loops, resume := s.resume && !c.cue.susp } m

/-- Goes on with a script: inline cues are decoded, the head is confirmed, speculative work is done. -/
def goOn (im : Image) (p tag : Nat) (m : M) : M :=
  match m.script p tag with
  | none => m
  | some s =>
    if s.st = .ended ∨ s.st = .queued then m else
    let (s, m) := runChecks im s m
    let (s, m) := decodeNext im s m
    specWork im p tag (confirmHead im p tag (m.setScript s))

/-! ### Completion (R72, R73, R102, R104, R109) -/

/-- The cue after a skip (R102). -/
def skipOf (c : PCue) : Nat × Bool :=
  let s := succOf c
  if s.2 then (s.1 + 1, true) else (s.1 + 32, false)

/-- Completes the youngest confirmed cue or group, n bytes of it transferred, with or without a skip. -/
def completeCue (im : Image) (p tag n : Nat) (skip : Bool) (m : M) : M :=
  match m.script p tag with
  | none => m
  | some s =>
    let g := s.head
    match g.head?, g.getLast? with
    | some c, some z =>
      let ends := z.cue.isLast
      let sk := skip && !ends
      let cleared := s.run.cleared
      let m := discardXfer p tag c.sn (m.stageFree p c.wunits)
      let s := { s with skipped := sk, run := default,
                        win := (g.map (fun x => { x with wunits := 0 })) ++ s.win.drop g.length }
      let mark := c.cue.op == 12
      if ends then
        let (held, m) := if mark then postEntry im p (cueEntry s g n 0x01 0 false) m else (false, m)
        if held then m.setScript { s with st := .waiting, wait := .entry, done := some (g, n, s.side), last := true }
        else endScript im s (cueEntry s g n 0x00 0 true) m
      else if sk && z.inl && decide (s.icues.length ≤ (skipOf z).1) then
        endScript im s (cueEntry s g n stCue 7 true) m
      else if cleared then endScript im s (cueEntry s g n 0x29 0 true) m
      else
        let (held, m) :=
          if mark then postEntry im p (cueEntry s g n 0x01 0 false) m
          else if c.cue.post then postEntry im p (cueEntry s g n 0x02 0 false) m
          else (false, m)
        let s := { s with side := false, done := if held then some (g, n, s.side) else none }
        if s.halting then
          let t := if sk then skipOf z else succOf z
          endScript im s (mkEntry s 0x28 0 0 t.1 0 t.2 true) m
        else
        let (s, m) :=
          if sk then
            let (s, m) := squash g.length s m
            ({ s with win := [], next := some (skipOf z) },
              if z.inl then m else m.bump .SPC_SQUASH_REFETCH (pinst p 0))
          else ({ s with win := s.win.drop g.length }, m)
        if held then specWork im p tag (m.setScript { s with st := .waiting, wait := .entry })
        else goOn im p tag (m.setScript { s with st := .running, wait := .nothing })
    | _, _ => m

/-- Ends a script whose last cue has completed, its MARKER entry written or no longer awaited (R94, R155). -/
def endLast (im : Image) (s : Script) (m : M) : M :=
  match s.done with
  | some (g, n, _) => endScript im s (cueEntry s g n 0x00 0 true) m
  | none => m

/-- The intermediate entry of a script has been written: it goes on (R157). -/
def wakeEntry (im : Image) (p tag : Nat) (m : M) : M :=
  match m.script p tag with
  | none => m
  | some s =>
    if s.wait ≠ .entry then m
    else if s.last then endLast im s m
    else if s.st = .held then m.setScript { s with wait := .nothing }
    else goOn im p tag (m.setScript { s with st := .running, wait := .nothing, done := none })

/-! ### Device status and item outcomes (R98, R101, R181, R411) -/

/-- Outcome code of a device status (R100). -/
def outcome (d : Nat) : Nat := bitsAt d 0 3

/-- Row 1 of R101. -/
def devProto (d : Nat) : Bool :=
  bitsAt d 5 3 != 0 || outcome d == 0 || decide (5 ≤ outcome d) || (bitAt d 3 && outcome d != 1)

/-- Incorrect length of a device that moved x bytes of a total (R98): 0 none, 1 SHORT, 2 LONG. -/
def incLen (x total : Nat) : Nat := if x < total then 1 else if total < x then 2 else 0

/-- Whether incorrect length is suppressed: SLI of the cue in force when the device ended its transfer after x bytes (R98). -/
def sliAt (g : List PCue) (x : Nat) : Bool :=
  match inForceAt (if groupTotal g < x then groupTotal g else x) g with
  | some (c, _) => c.cue.sli
  | none => false

/-- Acts on a governing device status (R101): n bytes transferred, x bytes moved by the device. -/
def actStatus (im : Image) (s : Script) (d n x : Nat) (m : M) : M :=
  let g := s.head
  let inc := incLen x (groupTotal g)
  if devProto d then endScript im s (cueEntry s g n 0x14 0 true) (abortOuts s.part s.tag m)
  else if outcome d = 4 then endScript im s { cueEntry s g 0 0x12 0 true with residual := groupTotal g } m
  else if outcome d = 2 then endScript im s (cueEntry s g n 0x10 0 true) m
  else if outcome d = 3 then endScript im s (cueEntry s g n 0x11 0 true) m
  else if inc ≠ 0 ∧ sliAt g x = false then endScript im s (cueEntry s g n 0x13 inc true) m
  else completeCue im s.part s.tag n (bitAt d 3) (m.setScript s)

/-- A source status of a relay governs by itself when it ends the command (R411). -/
def srcGoverns (d : Nat) : Bool := devProto d || outcome d != 1

/-- Whether a device status that has come ends the script by itself (R101 rows 1 to 5): found before a later data error, it
stands (R109). -/
def statusEnds (s : Script) : Bool :=
  match s.run.status, s.win with
  | some (d, x), c :: _ => srcGoverns d ||
      (c.cue.op != 5 && incLen x (groupTotal s.head) != 0 && !(sliAt s.head x))
  | _, _ => false

/-- Bytes of the confirmed cue transferred so far (R105, R108): placed and answered for a read, acknowledged by the destination
for a relay. -/
def movedSoFar (m : M) (s : Script) : Nat :=
  match s.win with
  | [] => 0
  | c :: _ =>
    if c.cue.isRead then
      (match cueXfer m s.part s.tag c.sn with | some (_, x) => x.bytesDone | none => s.run.moved)
    else match s.run.status2 with
      | some (_, x) => min x (groupTotal s.head)
      | none => 0

/-- Evaluates the confirmed cue: it completes when its statuses have come, a relay's both (R90), and its data work is answered;
a relay's source status that ends the command governs, else the destination's (R411). A terminal cause found before ends the
script once the data writes are answered (R89, R101, R109, R153, R181). -/
def evalCue (im : Image) (p tag : Nat) (m : M) : M :=
  match m.script p tag with
  | none => m
  | some s =>
    match s.win with
    | [] => m
    | c :: _ =>
      let total := groupTotal s.head
      if s.st ≠ .running ∨ s.run.begun = false then m else
      match s.run.fin, s.run.status with
      | some (st, d), _ => if s.run.itemDone then endScript im s (cueEntry s s.head s.run.moved st d true) m else m
      | none, none => m
      | none, some (d, x) =>
        if c.cue.op = 5 then
          match s.run.status2 with
          | none => m
          | some (d2, x2) =>
            if srcGoverns d then actStatus im { s with dev := d, side := false } d (movedSoFar m s) total m
            else actStatus im { s with dev := d2, side := true } d2 (min x2 total) (if total < x then x else x2) m
        else if c.cue.isWrite then actStatus im s d (min x total) (min x total) m
        else if s.run.itemDone then actStatus im s d s.run.moved x m
        else m

/-- The cluster of the begun read whose data writes are not all answered, and its serial number (R153). -/
def dataOut (m : M) (s : Script) : Option (Nat × Nat) :=
  match s.win with
  | [] => none
  | c :: _ =>
    match cueXfer m s.part s.tag c.sn with
    | some (cl, x) =>
      if c.cue.isRead && x.elems.any (fun y => y.st == .writing || y.st == .posted) then some (cl, c.sn) else none
    | none => none

/-- A terminal cause ends the confirmed cue of a script (R109): younger cues are discarded, and the entry comes when every data
write of the cue is answered (R153). DEVICE_PROTOCOL aborts what is outstanding (R247). -/
def endNow (im : Image) (s : Script) (status detail : Nat) (m : M) : M :=
  let m := if status = 0x14 then abortOuts s.part s.tag m else m
  match dataOut m s with
  | none => endScript im s (cueEntry s s.head (movedSoFar m s) status detail true) m
  | some _ =>
    let (s, m) := squash (groupLen s.win) s m
    (killCmds s.part s.tag m).setScript { s with run := { s.run with fin := some (status, detail) } }

/-- Script status and detail of a mover error (R181); `by` holds them as the element answer gave them. -/
def itemFail (x : Xfer) : Option (Nat × Nat) := if x.err = 0 then none else some (x.errBy / 256, x.errBy % 256)

/-- An error that the movers have found in the data work of a cue acts at once on the confirmed cue, where the cause found first
stands: a status or cause that came before, or a CLEAR after a status that does not end the script (R105, R109). On a cue that is
not confirmed it is recorded (R83, R115). -/
def cueErr (im : Image) (x : Xfer) (m : M) : M :=
  match x.who, itemFail x with
  | .cue p tag sn, some (st, d) =>
    match m.script p tag with
    | none => m
    | some s =>
      match s.win with
      | [] => m
      | c :: _ =>
        if c.sn = sn ∧ (s.run.confirmed ∨ s.st = .held) then
          if s.run.fin.isSome ∨ statusEnds s then m
          else if s.run.cleared ∧ !(s.head.any (fun c => c.cue.isLast)) then endNow im s 0x29 0 m
          else endNow im s st d m
        else if s.win.any (fun c => c.sn == sn && c.chk == .pass) then
          goOn im p tag (m.setScript { s with win := s.win.map (fun c => if c.sn = sn then { c with chk := .fail st d } else c) })
        else m
  | _, _ => m

/-- The mover reports the data work of the confirmed cue complete (R181). -/
def cueItemDone (im : Image) (p tag sn : Nat) (x : Xfer) (m : M) : M :=
  match m.script p tag with
  | none => m
  | some s =>
    match s.win with
    | [] => m
    | c :: _ =>
      if c.sn = sn ∧ s.run.confirmed then
        evalCue im p tag (m.setScript
          { s with run := { s.run with itemDone := true, moved := if c.cue.isRead then x.bytesDone else s.run.moved } })
      else m

/-! ### Waits, attention and events (R91, R92) -/

/-- Whether the latch or event a WAIT waits on is set. -/
def waitMet (m : M) (p mode arg : Nat) : Bool :=
  if mode = 1 then m.attnSet p arg else if mode = 2 then bitAt (m.fld .CUE_EVENT_EVENT (pinst p 0)) arg else false

/-- Consumes the latch or event. -/
def consume (p mode arg : Nat) (m : M) : M :=
  if mode = 1 then { m with attn := m.attn.filter (fun a => a != (p, arg)) }
  else m.setFld .CUE_EVENT_EVENT (pinst p 0) (putBit (m.fld .CUE_EVENT_EVENT (pinst p 0)) arg false)

/-- The TICKS-th edge of a wait has come. -/
def waitOver (m : M) (ticks start : Nat) : Bool := ticks != 0 && decide (start + ticks ≤ edgeCount m)

/-- Ends the wait of a script and completes its WAIT. -/
def endWait (im : Image) (p tag : Nat) (skip : Bool) (m : M) : M :=
  match m.script p tag with
  | none => m
  | some s =>
    let m := { m with waits := m.waits.filter (fun w => w != (p, tag)) }
    completeCue im p tag 0 skip (m.setScript { s with st := .running, wait := .nothing })

/-- Scripts by ascending thread, those without one last: the order of entries decided in one cycle (R153). -/
def byThread (l : List Script) : List Script :=
  (List.range 512).flatMap (fun t => l.filter (fun s => s.thread == some t)) ++ l.filter (fun s => s.thread.isNone)

/-- The place of a script's entry among those decided in one cycle: its thread, one without a thread last (R153). -/
def threadRank (m : M) (p tag : Nat) : Nat :=
  match m.script p tag with
  | some s => s.thread.getD 512
  | none => 512

/-- Work of one cycle in the order of its ranks; of equal ranks, in the order given. -/
def byRank (l : List (Nat × (M → M))) : List (M → M) :=
  (List.range 513).flatMap (fun t => (l.filter (fun x => x.1 == t)).map (·.2))

/-- One waiting script takes its latch or event when it is set and its timeout has not come (R91, R92). The first component
collects the scripts that did. -/
def tryTake (acc : List Script × M) (w : Nat × Nat) : List Script × M :=
  match acc.2.script w.1 w.2 with
  | none => acc
  | some s =>
    match s.wait with
    | .cue mode arg ticks start =>
      if mode ≠ 0 ∧ waitMet acc.2 w.1 mode arg ∧ waitOver acc.2 ticks start = false then
        (acc.1 ++ [s], consume w.1 mode arg acc.2)
      else acc
    | _ => acc

/-- Waiting scripts take latches and events, the one that started first before the others (R91); their WAITs complete in thread
order (R153). -/
def wakeWaits (im : Image) (p : Nat) (m : M) : M :=
  let (l, m) := (m.waits.filter (fun w => w.1 == p)).foldl tryTake ([], m)
  (byThread l).foldl (fun m s => endWait im s.part s.tag false m) m

/-- Sets a slot's attention latch for the partition that holds it (R92). -/
def setAttn (im : Image) (slot : Nat) (m : M) : M :=
  match im.right slot with
  | none => m
  | some r =>
    if m.attnSet r.part slot then m else wakeWaits im r.part { m with attn := m.attn ++ [(r.part, slot)] }

/-- CUE_EVENT and POST: sets event bits (R91). -/
def setEvents (im : Image) (p bits : Nat) (m : M) : M :=
  wakeWaits im p (m.setFld .CUE_EVENT_EVENT (pinst p 0) (m.fld .CUE_EVENT_EVENT (pinst p 0) ||| bits))

/-! ### Requests on scripts (R103 to R106) -/

/-- RESUME on a live script (R103). -/
def resumeScript (im : Image) (s : Script) (m : M) : M :=
  match s.st with
  | .ended => m
  | .held =>
    if s.wait = .entry then m.setScript { s with resume := true, st := .waiting }
    else goOn im s.part s.tag (m.setScript { s with resume := true, st := .running })
  | _ => m.setScript { s with resume := true }

/-- Pointer of the cue a script stands at: the first of its window, or the one to fetch next. -/
def curPtr (s : Script) : Nat × Bool :=
  match s.win with
  | c :: _ => (c.ptr, c.inl)
  | [] => match s.next with
    | some n => n
    | none => (s.first, s.inl)

/-- Ends a script with HALTED naming a cue that had not begun. -/
def haltAt (im : Image) (s : Script) (t : Nat × Bool) (m : M) : M :=
  endScript im s (mkEntry s 0x28 0 0 t.1 0 t.2 true) m

/-- HALT on a live script (R104). The successor of a last cue whose MARKER entry is held is named like any other (R157). -/
def haltScript (im : Image) (s : Script) (m : M) : M :=
  match s.st with
  | .ended => m
  | .queued => haltAt im s (s.first, s.inl) m
  | .held => haltAt im s (curPtr s) m
  | .waiting =>
    if s.last then haltAt im s ((s.head.getLast?.map succOf).getD (curPtr s)) m
    else if s.run.begun then endScript im s (cueEntry s s.head 0 0x28 0 true) m
    else haltAt im s (curPtr s) m
  | .running =>
    if s.run.begun then
      let (s, m) := squash (groupLen s.win) s m
      m.setScript { s with halting := true }
    else haltAt im s (curPtr s) m

end Sys2Proof
end

