-- ==== Sys2Proof/Machine/ScriptOps.lean ====
section
/-! DEFINITION. What the script commands do: dispatch, parking, fetches and their answers, the cues themselves, waits
and stage grants (04, 05). -/

namespace Sys2Proof

/-- An idle thread: no script, no routine, nothing still ending (R143). -/
def threadIdle (m : M) (t : Nat) : Bool :=
  (m.scriptOn t).isNone && (m.cpu (thr t)).rout.isNone && (m.cpu (thr t)).wait == .none

/-- Whether the four threads of a spindle are idle (R372). -/
def spindleIdle (m : M) (sp : Nat) : Bool := (List.range 4).all (fun j => threadIdle m (4 * sp + j))

/-- Whether hush has gated a spindle's clock: its threads are idle, and it is not the lowest-numbered such spindle of a
partition (R372). -/
def gated (im : Image) (m : M) (sp : Nat) : Bool :=
  m.flag .PWR_CTL_HUSH_ACTIVE 0 && spindleIdle m sp &&
  (8 ≤ im.spindleOwner sp || (List.range sp).any (fun k => im.spindleOwner k == im.spindleOwner sp && spindleIdle m k))

/-- A gated spindle restarts 8 sc after a thread of it is needed (R372). -/
def wakeSpindle (im : Image) (t : Nat) (m : M) : M :=
  if gated im m (t / 4) then { m with served := mapPut m.served (t / 4, 0) (m.now + 8, (m.lastServed (t / 4)).2) } else m

/-- Whether R156 holds back the scripts of a request ring. -/
def heldBack (m : M) (p r : Nat) : Bool :=
  decide (4 ≤ (m.ring p (m.fld .RNG_CFG_B_STATUS_RING (pinst p r))).held.length)

/-- The dispatch queue of a partition, oldest first. -/
def dispQ (m : M) (p : Nat) : List Nat := mapGet [] m.dispq (p, 0)

/-- The script to be dispatched next: the first that R156 does not hold back (R143). -/
def nextDispatch (m : M) (p : Nat) : Option Nat :=
  (dispQ m p).find? (fun tag => match m.script p tag with
    | some s => !(heldBack m p s.ring)
    | none => false)

/-- A script starts on a thread and its first cue is confirmed when it is decoded (R110, R143). -/
def startOn (im : Image) (s : Script) (t : Nat) (m : M) : M :=
  let p := s.part
  let m := { m with dispq := mapPut m.dispq (p, 0) ((dispQ m p).filter (fun u => u != s.tag)) }
  let m := wakeSpindle im t (m.bump .CUE_STATS_STARTED (pinst p 0))
  goOn im p s.tag (m.setScript { s with st := .running, thread := some t, next := some (s.first, s.inl) })

/-- SCRIPT_DISPATCH (R67, R143, R156). -/
def opScriptDispatch (im : Image) (p tag t : Nat) (m : M) : M :=
  match m.script p tag with
  | none => m
  | some s =>
    if s.st = .queued ∧ s.parked = none ∧ nextDispatch m p = some tag ∧ im.spindleOwner (t / 4) = p ∧
        threadIdle m t ∧ m.inForce 0 p ≠ 0 then addReact (.serve p) (startOn im s t m)
    else m

/-- A thread that gives up its script leaves behind the reads of local memory that it waits for; the script makes them again when
it has a thread (R76). Reads of host memory answer the script wherever it is. -/
def parkReads (s : Script) (m : M) : Script × M :=
  let (s, m) := if s.fetching && !(hasPurp m s.part (.cues s.tag)) then ({ s with fetching := false }, oweFetch s m) else (s, m)
  if s.win.any (fun c => c.listOut) && !(hasPurp m s.part (.ilist s.tag)) then
    ({ s with win := s.win.map (fun c => { c with listOut := false }) }, oweList s m)
  else (s, m)

/-- SCRIPT_PARK (R76): a QUEUED, WAITING, HELD or ENDED script moves to a parked context. -/
def opScriptPark (p tag ctx : Nat) (m : M) : M :=
  match m.script p tag with
  | none => m
  | some s =>
    if s.st = .running ∨ s.parked.isSome ∨ m.scripts.any (fun e => e.2.parked == some ctx) then m
    else
      let (s, m) := parkReads s m
      addReact (.serve p) (m.setScript { s with parked := some ctx, thread := none })

/-- CONTEXT_RESTORE (R76, R319): the script returns to a thread, or its context is lost and it ends. -/
def opContextRestore (im : Image) (p tag t ch : Nat) (bad : Bool) (m : M) : M :=
  match m.script p tag with
  | none => m
  | some s =>
    if s.parked = none ∨ s.st = .ended then m
    else if bad then
      let m := fireP im (0x0B3 + 8 * ch) (Config.infoPack (0x0B3 + 8 * ch) tag p) p m
      endScript im { s with dev := 0 } { mkEntry s 0x24 1 0 0 0 false true with dev := 0, sflags := 0 } m
    else if im.spindleOwner (t / 4) = p ∧ threadIdle m t then
      if s.st = .queued then
        if nextDispatch m p = some tag ∧ m.inForce 0 p ≠ 0 then
          addReact (.serve p) (startOn im { s with parked := none } t m)
        else m
      else addReact (.serve p) (goOn im p tag ((wakeSpindle im t m).setScript { s with parked := none, thread := some t }))
    else m

/-- Cues one read may fetch from an address (R113): within a 256-byte-aligned block and the window, at most eight, in a
window with PREFETCH; else the one cue. One read of host memory is one MemRd (R63, R262). -/
def fetchCount (im : Image) (m : M) (p a : Nat) : Nat :=
  match winOf im m p a with
  | none => 1
  | some (_, w) =>
    if bitAt w.rights rPrefetch then
      max 1 (min (min ((256 - a % 256) / 32) ((w.wbase + w.wsize - a) / 32)) (if w.kind = 0 then readMax (m.hostOf p) / 32 else 8))
    else 1

/-- A fetch that fails, recorded with the address it names once a cue-engine step decodes it (R59, R71, R83). -/
def failFetch (im : Image) (a st d : Nat) (s : Script) (m : M) : M :=
  goOn im s.part s.tag (m.setScript { s with ahead := [⟨a, ⟨0, 0, 0, 0⟩, .fail st d⟩] })

/-- CUE_FETCH (R71, R81, R112, R113, R114): the thread reads the next cues. -/
def opCueFetch (im : Image) (t : Nat) (m : M) : M :=
  match m.scriptOn t with
  | none => m
  | some s =>
    match s.next with
    | some (a, false) =>
      if s.fetching || !s.ahead.isEmpty || s.halting || !(mayGrow s) || !(spindleBudget m s.part) || s.st == .ended then m
      else if a % 32 ≠ 0 then failFetch im a stCue 6 s m
      else
        let (d, m) := winCheckV im s.part a 32 rScript m
        if d ≠ 0 then failFetch im a 0x21 d s m
        else if (s.headYounger || (groupBefore s.win).length != s.win.length) && !(winPrefetch im m s.part a) then m
        else winRead im (2, t) (clusterPort s) s.part a (32 * fetchCount im m s.part a) (.cues s.tag) (m.setScript { s with fetching := true })
    | _ => m

/-- The cues of a read from an address. -/
def cueParts (a : Nat) (b : List Byte) : List Fetched :=
  (List.range (b.length / 32)).map (fun k => ⟨a + 32 * k, Cue.ofBytes (bytesAt b (32 * k) 32), .pending⟩)

/-- A fetch's answer for a script (R71, R82, R109). -/
def fetchAnswer (im : Image) (s : Script) (r : RdRes) (m : M) : M :=
  match s.next with
  | some (a, false) =>
    let s := { s with fetching := false }
    match r with
    | .data b => goOn im s.part s.tag (m.setScript { s with ahead := cueParts a b })
    | e => failFetch im a (readFail e).1 (readFail e).2 s m
  | _ => m

/-- An answer that belongs to discarded work: its error counts in SQUASH_ERR and nowhere else (R126). -/
def deadAnswer (p : Nat) (r : RdRes) (m : M) : M :=
  match r with
  | .data _ => m
  | _ => m.bump .SPC_SQUASH_SQUASH_ERR (pinst p 0)

/-- Whether the cue read of a thread's script is at a host port. -/
def fetchAtHost (m : M) (t : Nat) : Bool :=
  match m.scriptOn t with | some s => hasPurp m s.part (.cues s.tag) | none => false

/-- Whether the list read of a thread's script is at a host port. -/
def listAtHost (m : M) (t : Nat) : Bool :=
  match m.scriptOn t with | some s => hasPurp m s.part (.ilist s.tag) | none => false

/-- CUE_FETCH_COMPLETE (R82, R279): fetched cues arrive; `v` is what the window word of their address shows. -/
def opCueFetchComplete (im : Image) (t : Nat) (r : RdRes) (v : Vote) (m : M) : M :=
  let x := m.cpu (thr t)
  if 0 < x.fetchDrop ∧ fetchAtHost m t = false then
    deadAnswer (im.spindleOwner (t / 4)) r (m.setCpu (thr t) { x with fetchDrop := x.fetchDrop - 1 })
  else match m.scriptOn t with
  | none => m
  | some s =>
    if s.fetching then
      let m := dropPurp s.part (.cues s.tag) m
      match s.next with
      | some (a, false) =>
        match winWords im s.part a with
        | w :: _ => let (ok, m) := voteRead im w v m
          if ok then fetchAnswer im s r m
          else failFetch im a 0x21 1 { s with fetching := false } m
        | [] => fetchAnswer im s r m
      | _ => m
    else m

/-- A list entry's own rules (R99): the entry, or `none` when it breaks them. -/
def listEntry (b : List Byte) : Option (Nat × Nat) :=
  if leAt b 8 4 = 0 ∨ !(zeroAt b 12 4) then none else some (leAt b 0 8, leAt b 8 4)

/-- Records an indirect entry read for the cue that awaits it (R99). -/
def putEntry (r : RdRes) (c : PCue) : PCue :=
  if !c.listOut then c else
  match r with
  | .data b => match listEntry b with
    | some e => { c with listOut := false, list := c.list ++ [e] }
    | none => { c with listOut := false, chk := .fail stCue 8 }
  | e => { c with listOut := false, chk := .fail (readFail e).1 (readFail e).2 }

/-- Answer of a list read for a script. -/
def listAnswer (im : Image) (s : Script) (r : RdRes) (m : M) : M :=
  goOn im s.part s.tag (m.setScript { s with win := s.win.map (putEntry r) })

/-- INDIRECT_LIST_READ_COMPLETE (R99). -/
def opListComplete (im : Image) (t : Nat) (r : RdRes) (m : M) : M :=
  let x := m.cpu (thr t)
  if 0 < x.listDrop ∧ listAtHost m t = false then
    deadAnswer (im.spindleOwner (t / 4)) r (m.setCpu (thr t) { x with listDrop := x.listDrop - 1 })
  else match m.scriptOn t with
  | none => m
  | some s =>
    if s.win.any (fun c => c.listOut) then listAnswer im s r (dropPurp s.part (.ilist s.tag) m)
    else m

/-! ### The cues -/

/-- The script of thread t and its confirmed cue when that cue has an opcode, may execute, and has budget and its turn for
a cue-engine step (R59, R184). -/
def readyCue (t op : Nat) (m : M) : Option (Script × PCue) :=
  match m.scriptOn t with
  | none => none
  | some s => match s.win with
    | [] => none
    | c :: _ => if s.st = .running ∧ s.run.confirmed ∧ c.cue.op = op ∧ spindleBudget m s.part ∧ mayStep m t then some (s, c) else none

/-- The script waits for stage space that is already requested (R68). -/
def waitGrant (s : Script) (u : Nat) (m : M) : M := m.setScript { s with st := .waiting, wait := .stage u }

/-- The script requests stage space and waits for it (R68). -/
def waitStage (s : Script) (u : Nat) (m : M) : M :=
  let m := waitGrant s u m
  { m with bud := { m.bud with stageq := m.bud.stageq ++ [⟨s.part, s.tag, none, u⟩] } }

/-- The first buffer of a group that waits for its space. -/
def ungranted (s : Script) : Option SBuf :=
  s.bufs.find? (fun b => !b.granted && s.head.any (fun c => c.cue.namesBuf && c.cue.buf == b.buf))

/-- Stage units a cue must take before it begins: write space (R410) or relay space (R90). -/
def spaceNeed (im : Image) (s : Script) (c : PCue) : Nat :=
  if c.wunits ≠ 0 then 0
  else if c.cue.isWrite ∧ s.head.any (fun x => x.cue.hasRange) then writeUnits (groupTotal s.head)
  else if c.cue.op = 5 then min (min 16 (units (groupTotal s.head))) (max 1 (im.stageQuota s.part))
  else 0

/-- Whether a cue has data work for the movers. -/
def needsItem (s : Script) (c : PCue) : Bool := !(c.cue.isWrite && immediate s.head)

/-- A transfer with the data that its cue's rehearsal left behind when it was freed (R122); after a status no more
comes. -/
def keptXfer (s : Script) (x : Xfer) : Xfer :=
  let b := s.run.kept.take x.total
  { x with data := x.data ++ b, avail := x.avail + b.length,
           total := if s.run.begun ∧ s.run.status.isSome then b.length else x.total }

/-- Begins a device cue whose spaces are taken: its transfer is posted and its CMD frames are queued (R89, R90, R181). -/
def beginDevice (im : Image) (s : Script) (c : PCue) (m : M) : M :=
  let p := s.part
  let m := cueStep s m
  let post := needsItem s c && !s.run.itemDone && (cueXfer m p s.tag c.sn).isNone
  let m := if post then postXfer s.cluster p (keptXfer s (groupXfer im m s s.head c)) m else m
  let s := if post then { s with run := { s.run with kept := [] } } else s
  if s.run.begun then m.setScript s
  else
    let m := enqFrame (slotLink c.cue.slot) (.cmd p s.tag false) m
    let m := if c.cue.op = 5 then enqFrame (slotLink c.cue.dstSlot) (.cmd p s.tag true) m else m
    m.setScript { s with run := { s.run with begun := true } }

/-- WRITE, READ, CONTROL, SENSE, RELAY: the confirmed cue begins, or waits for the stage space of every buffer it names and of
its data (R68, R87, R410); a thread whose sub-queue is full stalls (R181); a cue whose link has gone ends its script (R251). -/
def opDeviceCue (im : Image) (op t : Nat) (m : M) : M :=
  match readyCue t op m with
  | none => m
  | some (s, c) =>
    if s.run.begun ∧ (needsItem s c = false ∨ (cueXfer m s.part s.tag c.sn).isSome ∨ s.run.itemDone) then m
    else if needsItem s c ∧ (cueXfer m s.part s.tag c.sn).isNone ∧ queueRoom im m s.cluster s.part = false then m.passTurn t
    else
      match (if s.run.begun then none else linkRefusal m c.cue) with
      | some d => endScript im s (failEntry s c 0x16 d) m
      | none =>
      match ungranted s with
      | some b => waitGrant s b.units m
      | none =>
        let u := spaceNeed im s c
        if u = 0 then beginDevice im s c m
        else if stageNow m s.part u then
          beginDevice im (setHead s (fun x => { x with wunits := u })) { c with wunits := u } (m.stageTake s.part u)
        else waitStage s u m

/-- JUMP, NOP, MARK, FENCE begin and complete in one cycle (R104). -/
def opSimpleCue (im : Image) (op t : Nat) (m : M) : M :=
  match readyCue t op m with
  | none => m
  | some (s, _) => completeCue im s.part s.tag 0 false (cueStep s m)

/-- WAIT starts (R91): a latch or event already set completes it at once. -/
def opWait (im : Image) (t : Nat) (m : M) : M :=
  match readyCue t 10 m with
  | none => m
  | some (s, c) =>
    let p := s.part
    let m := cueStep s m
    let mode := c.cue.arg
    let arg := if mode = 1 then c.cue.slot else bitsAt c.cue.w3 0 6
    if waitMet m p mode arg then completeCue im p s.tag 0 false (consume p mode arg m)
    else
      let m := m.setScript { s with st := .waiting, run := { s.run with begun := true },
                                    wait := .cue mode arg c.cue.param (edgeCount m) }
      { m with waits := m.waits ++ [(p, s.tag)] }

/-- WAIT_TICKS_EXPIRE and WAIT_TIMEOUT (R91, R92): the TICKS-th edge has come; MODE 0 completes, MODE 1 and 2 complete
with a skip. -/
def opWaitOver (im : Image) (t : Nat) (timeout : Bool) (m : M) : M :=
  match m.scriptOn t with
  | none => m
  | some s =>
    match s.wait with
    | .cue mode _ ticks start =>
      if waitOver m ticks start ∧ (mode ≠ 0) = timeout then endWait im s.part s.tag timeout m else m
    | _ => m

/-- A stage request of a script has been granted: its buffer takes the space, else the confirmed cue; the script goes on when
that is what it waits for (R68, R87, R410). -/
def grantTo (s : Script) (w : StageReq) (m : M) : M :=
  let waits : Bool := match w.buf with | none => true | some b => (ungranted s).any (fun x => x.buf == b)
  let s1 := match w.buf with
    | some b => { s with bufs := s.bufs.map (fun x => if x.buf = b then { x with granted := true } else x) }
    | none => setHead s (fun c => { c with wunits := w.units })
  m.setScript (match s.st, s.wait with
    | .waiting, .stage _ => if waits then { s1 with st := .running, wait := .nothing } else s1
    | _, _ => s1)

/-- STAGE_GRANT (R68): the first waiting allocation of the partition is granted once it fits. -/
def opStageGrant (p : Nat) (m : M) : M :=
  match m.bud.stageq.find? (fun w => w.part == p) with
  | none => m
  | some w =>
    if m.stageFits p w.units then
      match m.script p w.tag with
      | none => m
      | some s =>
        let m := m.stageTake p w.units
        grantTo s w { m with bud := { m.bud with stageq := m.bud.stageq.erase w } }
    else m

/-- CUE_EVENT (R91). -/
def opCueEvent (im : Image) (p bits : Nat) (m : M) : M := if im.enabled p then setEvents im p bits m else m

end Sys2Proof
end

