-- ==== Sys2Proof/Machine/Mover.lean ====
section
/-! DEFINITION. Elements, answers and transfers of the movers (07, R160 to R162, R176 to R182). -/

namespace Sys2Proof

/-- The number by which a request's purpose names a requester: a channel, or 4096 + the owner of a sub-queue. -/
def reqCode : Req → Nat
  | .chan c => c.val
  | .queue o => 4096 + o.val

/-- Takes the next element number of an engine. -/
def nextId (e : Nat) (m : M) : Nat × M :=
  let n := mapGet 0 m.eng (e, 2)
  (n, { m with eng := mapPut m.eng (e, 2) (n + 1) })

/-- The range of a list that holds byte n of a transfer, and the offset in it. -/
def rangeAt : List Range → Nat → Option (Range × Nat)
  | [], _ => none
  | r :: t, n => if n < r.len then some (r, n) else rangeAt t (n - r.len)

/-- Write or relay space a transfer to a link may hold, in bytes (R90, R410). -/
def linkSpace (m : M) (x : Xfer) : Nat :=
  match x.who with
  | .cue p tag sn => match m.script p tag with
    | some s => match s.win.find? (fun c => c.sn == sn) with
      | some c => 65536 * max 1 c.wunits
      | none => 0
    | none => 0
  | _ => 65536

/-- Bytes of a transfer that stand in write or relay space. -/
def Xfer.held (x : Xfer) : Nat := (x.elems.map (·.len)).sum

/-- Whether a transfer leads to a link. -/
def Xfer.toLink (x : Xfer) : Bool := x.dst.any (fun r => match r.sp with | .link _ _ => true | _ => false)

/-- Whether a transfer works for a cue that is not confirmed (R114). -/
def Xfer.early (m : M) (x : Xfer) : Bool :=
  match x.who with
  | .cue p tag sn => match m.script p tag with
    | some s => !(s.run.confirmed && (s.win.head?.map (·.sn)) == some sn)
    | none => true
  | _ => false

/-- The first byte from n on that lies in none of some ranges, which ascend. -/
def afterLate (l : List (Nat × Nat)) (n : Nat) : Nat := l.foldl (fun n g => if g.1 ≤ n ∧ n < g.1 + g.2 then g.1 + g.2 else n) n

/-- Where the next element of a transfer begins, and how many bytes it may take there (R114, R176): the next byte in order; before
the cue is confirmed, past the bytes that wait for that; then first the bytes passed over. -/
def Xfer.next (m : M) (x : Xfer) : Nat × Nat :=
  if x.early m then (let o := afterLate x.late x.pos; (o, x.total - o))
  else match x.late.find? (fun g => decide (g.1 < x.pos)) with
    | some g => g
    | none => (x.pos, x.total - x.pos)

/-- Takes the bytes from o to o + n off the ranges. -/
def cutLate (o n : Nat) (l : List (Nat × Nat)) : List (Nat × Nat) :=
  l.flatMap (fun g => if o ≤ g.1 ∧ g.1 < o + n then (if o + n < g.1 + g.2 then [(o + n, g.1 + g.2 - (o + n))] else []) else [g])

/-- The next element of a transfer: source and destination with offsets, and length: to the first 256-byte boundary of
the destination, or the end of a range (R176). Bytes read early lie in the first part of the write space. -/
def nextElem (m : M) (x : Xfer) : Option (Range × Nat × Range × Nat × Nat) :=
  let (o, k) := x.next m
  if x.stopped ∨ x.err ≠ 0 ∨ k = 0 then none else
  match rangeAt x.src o, rangeAt x.dst o with
  | some (s, i), some (d, j) =>
    let n := min (min (256 - (d.addr + j) % 256) (d.len - j)) (min (s.len - i) k)
    if x.avail < o + n then none
    else if x.toLink ∧ linkSpace m x < (if x.early m then o + n else x.held + n) then none
    else some (s, i, d, j, n)
  | _, _ => none

/-- The partition whose port a place uses. -/
def Space.hostPart : Space → Option Nat
  | .host p => some p
  | _ => none

/-- Whether budgets and the port let an element start (R59, R63, R182): mover bytes, the host-port bytes of the whole element,
Bus Master Enable. A port in a drain answers owner accesses with an error, so it does not hold them (R265). -/
def elemAllowed (m : M) (x : Xfer) (s d : Range) (n : Nat) : Bool :=
  let port := fun p => if x.owner == 8 then m.flag .HPT_STS_DRAINING (pinst p 0) || (m.hostOf p).bme
    else (m.hostOf p).bme && m.covers 2 p n
  m.coversO 1 x.owner n && ((Space.hostPart s.sp).all port) && ((Space.hostPart d.sp).all port)

/-- Records the first error of a transfer (R169, R179): no further element starts. -/
def Xfer.fail (x : Xfer) (err st d : Nat) : Xfer :=
  if x.err = 0 then { x with err := err, errBy := 256 * st + d } else x

/-- ERR of an error answer to a source read (R169). -/
def srcErr : RdRes → Nat
  | .data _ => 0
  | .ur => 4
  | .ca => 4
  | .timeout => 4
  | .fabric => 4
  | _ => 5

/-- ERR and script failure of an answer to a write (R169, R181). -/
def dstErr : WrRes → Nat × Nat × Nat
  | .ok => (0, 0, 0)
  | .ur => (6, 0x25, 1)
  | .fabric => (6, 0x25, 2)
  | .dram => (7, 0x24, 1)

/-- Sets an element's state. -/
def Xfer.setElem (x : Xfer) (id : Nat) (st : ElSt) (b : List Byte) : Xfer :=
  { x with elems := x.elems.map (fun e => if e.id = id then { e with st := st, data := b } else e) }

/-- Cost of a host access: owner work is charged to no partition (R60). -/
def hostCost (x : Xfer) (n : Nat) : Option Nat := if x.owner = 8 then none else some n

/-- Bytes of a numbered buffer or other on-die place. -/
def readPlace (m : M) (x : Xfer) (r : Range) (i n : Nat) : List Byte :=
  match r.sp with
  | .ownerStage => memRead m.stage (r.addr + i) n
  | .scratch k => memRead m.scratch (k * 65536 + r.addr + i) n
  | .buf p tag b => match m.script p tag with
    | some s => match s.bufs.find? (fun y => y.buf == b) with
      | some y => memRead y.data (r.addr + i) n
      | none => List.replicate n 0
    | none => List.replicate n 0
  | .pattern v => (List.range n).map (fun k => (leBytes 8 v).getD ((r.addr + i + k) % 8) 0)
  | .given => bytesAt x.data (r.addr + i) n
  | .link _ _ => x.data.take n
  | _ => List.replicate n 0

/-- Writes a numbered buffer of a script. -/
def writeBuf (p tag b a : Nat) (d : List Byte) (m : M) : M :=
  match m.script p tag with
  | none => m
  | some s => m.setScript { s with bufs := s.bufs.map (fun y => if y.buf = b then { y with data := memWrite y.data a d } else y) }

/-- The fabric port of engine e (R160). -/
def enginePort (e : Nat) : Nat := 52 + e

/-- The tag of a local-DRAM access of a transfer: its partition, or for an owner channel OWNER inside the owner region and
AS_PART elsewhere (R12, R162). -/
def dramTag (im : Image) (x : Xfer) (a n : Nat) : Nat :=
  if x.owner ≠ 8 then x.owner else if a + n ≤ im.ownerDramBytes then 8 else x.asPart

/-- The fault events of the on-die words an element reads (R186). -/
def placeWords (im : Image) (s : Range) (a : Nat) (e : Ecc) (m : M) : M :=
  match s.sp with
  | .scratch k => scratchEcc im (.thread (Fin.ofNat 512 k)) a e m
  | .ownerStage | .buf _ _ _ | .link _ _ => stageEcc im a e m
  | _ => m

/-- Whether a place is a memory on the die that may show an error when it is read or written; what goes to or comes from a link
lies in the stage buffer (R90, R410). -/
def Space.onDie : Space → Bool
  | .scratch _ | .ownerStage | .buf _ _ _ | .link _ _ => true
  | _ => false

/-- The script failure of an uncorrectable word on the die (R109): the stage buffer, or scratch. -/
def dieDetail : Space → Nat
  | .scratch _ => 4
  | _ => 2

/-- An element whose destination on the die answers with a fabric error response (R169). -/
def Xfer.badDst (x : Xfer) (id : Nat) : Xfer := (x.setElem id .bad []).fail 6 0x25 2

/-- The destination write of an element whose bytes are at hand (R176, R177). An on-die destination answers at once. -/
def writeElem (im : Image) (e : Nat) (x : Xfer) (id : Nat) (r : Range) (j : Nat) (d : List Byte) (bad : Bool) (m : M) : Xfer × M :=
  if bad && r.sp.onDie then (x.badDst id, m) else
  match r.sp with
  | .host p =>
    if m.flag .HPT_STS_DRAINING (pinst p 0) then ((x.setElem id .bad []).fail 6 0x25 1, m)
    else ({ x.setElem id .posted [] with lastHost := some (p, r.addr + j + d.length - 1) },
      reqTlp p (.wr (r.addr + j) d (hostCost x d.length) none) m)
  | .dram => (x.setElem id .writing [],
      dramWrite im (enginePort e) (dramTag im x (r.addr + j) d.length) x.owner (r.addr + j) d
        (noteAsk (4 + e, id) (memInst im (r.addr + j)) m))
  | .ownerStage => (x.setElem id .ok [], { m with stage := memWrite m.stage (r.addr + j) d })
  | .scratch k => (x.setElem id .ok [], { m with scratch := memWrite m.scratch (k * 65536 + r.addr + j) d })
  | .buf p tag b => (x.setElem id .ok [], writeBuf p tag b (r.addr + j) d m)
  | .link _ _ => (x.setElem id .ok d, m)
  | _ => (x.setElem id .ok [], m)

/-- Cuts a range at 256-byte-aligned boundaries (R11). -/
def blocks256 : Nat → Nat → Nat → List (Nat × Nat)
  | 0, _, _ => []
  | k + 1, a, n => if n = 0 then [] else
    let c := min n (256 - a % 256)
    (a, c) :: blocks256 k (a + c) (n - c)

/-- The next element of a transfer when budgets and the port let it start. -/
def readyElem (m : M) (x : Xfer) : Option (Range × Nat × Range × Nat × Nat) :=
  (nextElem m x).filter (fun t => elemAllowed m x t.1 t.2.2.1 t.2.2.2.2)

/-- Elements in the order of their bytes. -/
def insElem (y : Elem) : List Elem → List Elem
  | [] => [y]
  | e :: t => if y.off < e.off then y :: e :: t else e :: insElem y t

/-- A transfer with a new element of n bytes at its next place. -/
def Xfer.begin (m : M) (x : Xfer) (id n : Nat) : Xfer :=
  let o := (x.next m).1
  { x with pos := max x.pos (o + n), elems := insElem ⟨id, o, n, .reading, []⟩ x.elems,
           late := if x.early m then x.late else cutLate o n x.late }

/-- Starts an element of a transfer on engine e for requester q: mover bytes are charged, the source is read, with two
fabric transfers where it crosses a 256-byte boundary, and bytes at hand go to the destination at once (R59, R64, R176). -/
def startElem (im : Image) (e q : Nat) (ends : ElemEnds) (x : Xfer) (t : Range × Nat × Range × Nat × Nat) (m : M) : Xfer × M :=
  let (s, i, d, j, n) := t
  let (id, m) := nextId e m
  let x1 := x.begin m id n
  let m := m.chargeO 1 x.owner e n
  match s.sp with
  | .host p =>
    if m.flag .HPT_STS_DRAINING (pinst p 0) then ((x1.setElem id .bad []).fail 4 0x25 1, m)
    else (x1, reqTlp p (.rd (.elem e q id) (s.addr + i) n (hostCost x n)) m)
  | .dram => (x1, (blocks256 2 (s.addr + i) n).foldl
      (fun m b => dramRead im (4 + e, id) (enginePort e) (dramTag im x b.1 b.2) x.owner b.1 b.2 m) m)
  | .discard => writeElem im e x1 id d j (List.replicate n 0) ends.dstBus m
  | sp =>
    let m := placeWords im s (s.addr + i) ends.src m
    let x1 := match sp with | .link _ _ => { x1 with data := x1.data.drop n } | _ => x1
    if sp.onDie && ends.srcBus then ((x1.setElem id .bad []).fail 4 0x25 2, m)
    else if sp.onDie && ends.src == .uncorr then ((x1.setElem id .bad []).fail 5 0x24 (dieDetail sp), m)
    else writeElem im e x1 id d j (readPlace m x s i n) ends.dstBus m

/-- Counts an error answer that reaches discarded work (R126, R181). -/
def squashErr (x : Xfer) (m : M) : M := if x.who = .gone ∧ x.owner < 8 then m.bump .SPC_SQUASH_SQUASH_ERR (pinst x.owner 0) else m

/-- An answer for element `id` of a transfer (R169, R177, R179). -/
def answerElem (im : Image) (e : Nat) (x : Xfer) (id : Nat) (a : Ans) (m : M) : Xfer × M :=
  match x.elems.find? (fun y => y.id == id) with
  | none => (x, m)
  | some el =>
    match a, el.st with
    | .read l, .reading =>
      match joinRes l with
      | .data b =>
        match rangeAt x.dst el.off with
        | some (d, j) => if x.who = .gone then (x.setElem id .ok [], m) else writeElem im e x id d j (bytesAt b 0 el.len) false m
        | none => (x.setElem id .ok [], m)
      | r => ((x.setElem id .bad []).fail (srcErr r) (readFail r).1 (readFail r).2, squashErr x m)
    | .wrote .ok, .writing => (x.setElem id .ok [], m)
    | .wrote r, .writing => ((x.setElem id .bad []).fail (dstErr r).1 (dstErr r).2.1 (dstErr r).2.2, squashErr x m)
    | _, _ => (x, m)

/-- No further element of the transfer will start (R177, R179). -/
def Xfer.ended (x : Xfer) : Bool :=
  (decide (x.total ≤ x.pos) && !(x.late.any (fun g => decide (g.1 < x.pos)))) || x.stopped || x.err != 0 || x.who == .gone

/-- Issues the flush read once the last host write of the transfer has been issued (R177). -/
def flushXfer (e q : Nat) (x : Xfer) (m : M) : Xfer × M :=
  if x.ended ∧ x.flush = 0 ∧ x.elems.any (fun y => y.st == .posted) ∧
      x.elems.all (fun y => y.st != .reading && y.st != .writing) then
    match x.lastHost with
    | some (p, a) =>
      if m.flag .HPT_STS_DRAINING (pinst p 0) then
        (({ x with flush := 3, elems := x.elems.map (fun (y : Elem) =>
            if y.st = .posted then { y with st := .bad } else y) } : Xfer).fail 6 0x25 1, m)
      else
        let (id, m) := nextId e m
        ({ x with flush := 2, flushId := id }, reqTlp p (.rd (.flush e q id) (a / 4 * 4) 0 (hostCost x 1)) m)
    | none => (x, m)
  else (x, m)

/-- The answer of flush read `id` (R177, R178). -/
def answerFlush (id : Nat) (r : RdRes) (x : Xfer) : Xfer :=
  if x.flush ≠ 2 ∨ x.flushId ≠ id then x else
  let ok := match r with | .data _ => true | _ => false
  let x1 := { x with flush := 3, elems := x.elems.map (fun y =>
    if y.st = .posted then { y with st := if ok then .ok else .bad } else y) }
  if ok then x1 else x1.fail 6 (readFail r).1 (readFail r).2

/-- A transfer whose work is over and answered. -/
def Xfer.finished (x : Xfer) : Bool := x.ended && x.idle && !(x.elems.any (fun y => y.st == .posted))

/-! ### Internal queues (R181) -/

/-- Whether the LAST frame of a relay's destination command is still to be sent (R90, R245). -/
def lastOwed (m : M) (x : Xfer) : Bool :=
  match x.who with
  | .cue p tag _ => x.dst.any (fun r => match r.sp with
    | .link l 1 => (m.link l).cmds.any (fun c => c.part == p && c.tag == tag && c.dst && !c.sentLast && !c.dead && !c.clear) ||
        (m.link l).cmdq.any (fun f => f == .cmd p tag true)
    | _ => false)
  | _ => false

/-- Issues the flush reads of a sub-queue whose time has come (R177). -/
def flushQueue (cl own : Nat) (m : M) : M :=
  let (q, m) := (m.queue cl own).foldl (fun (acc : List Xfer × M) x =>
    let (x, m) := flushXfer cl (4096 + own) x acc.2
    (acc.1 ++ [x], m)) ([], m)
  putQueue cl own q m

/-- Whether a transfer leaves its sub-queue: a write or relay stays until its last byte is sent. -/
def Xfer.leaves (m : M) (x : Xfer) : Bool :=
  x.finished && (match x.who with
    | .cue _ _ _ => x.err != 0 || !x.toLink || (x.elems.isEmpty && !(lastOwed m x))
    | .gone => true
    | _ => false)

/-- Work for the transfers of cues, in the order of the cues' threads (R153). -/
def forCues (l : List Xfer) (f : Nat → Nat → Nat → Xfer → M → M) (m : M) : M :=
  (byRank (l.map (fun x => match x.who with
    | .cue p tag sn => (threadRank m p tag, f p tag sn x)
    | _ => (512, id)))).foldl (fun m g => g m) m

/-- Sees to the transfers of sub-queues after an answer or a new element: flush reads are issued, errors reach their cues,
finished transfers are taken out and reported (R109, R177, R181). -/
def settleQueues (im : Image) (ks : List (Nat × Nat)) (m : M) : M :=
  let m := ks.foldl (fun m k => flushQueue k.1 k.2 m) m
  let bad := ks.flatMap (fun k => (m.queue k.1 k.2).filter (fun x => x.err != 0))
  let m := forCues bad (fun _ _ _ x m => cueErr im x m) m
  let (done, m) := ks.foldl (fun (acc : List Xfer × M) k =>
    let q := m.queue k.1 k.2
    (acc.1 ++ q.filter (Xfer.leaves m), putQueue k.1 k.2 (q.filter (fun x => !(x.leaves m))) acc.2)) ([], m)
  forCues done (cueItemDone im) m

/-- Sees to the transfers of one sub-queue. -/
def settleQueue (im : Image) (cl own : Nat) (m : M) : M := settleQueues im [(cl, own)] m

/-- The item of a sub-queue whose turn it is: items start in the order posted, and one that cannot start holds back those
behind it (R182). Reads made before a cue's confirmation are items of their own (R181): when they have all started, they hold
back nothing. -/
def headItem (m : M) : List Xfer → Option (List Xfer × Xfer × List Xfer)
  | [] => none
  | x :: t =>
    if x.ended || (x.early m && (nextElem m x).isNone) then (headItem m t).map (fun r => (x :: r.1, r.2)) else some ([], x, t)

/-- The item of a sub-queue that can start an element now, with the element. -/
def queueStart (m : M) (l : List Xfer) : Option ((List Xfer × Xfer × List Xfer) × Range × Nat × Range × Nat × Nat) :=
  (headItem m l).bind (fun h => (readyElem m h.2.1).map (fun t => (h, t)))

/-! ### Readiness, turn and answer slots (R161, R182) -/

/-- Elements of a transfer whose answers are outstanding. -/
def Xfer.outstanding (x : Xfer) : Nat := (x.elems.filter (fun y => y.st == .reading || y.st == .writing)).length

/-- The transfers of the requesters of engine e by owner. -/
def engXfers (im : Image) (m : M) (e own : Nat) : List Xfer :=
  m.queue e own ++ ((m.chans.filter (fun c => c.1.1 / 64 == e && im.chanOwner c.1.1 == own)).map (fun c =>
    c.2.descs.map (·.x))).flatten

/-- Answer slots an owner uses on an engine. -/
def slotsUsed (im : Image) (m : M) (e own : Nat) : Nat := ((engXfers im m e own).map Xfer.outstanding).sum

/-- The owners of an engine (R182). -/
def engOwners (im : Image) (e : Nat) : List Nat :=
  (List.range 9).filter (fun o => (List.range 8).any (fun k => im.spindleOwner (8 * e + k) == o) ||
    (List.range 64).any (fun k => im.chanOwner (64 * e + k) == o))

/-- Whether an element of an owner may take an answer slot: every other owner keeps its reserved share (R182). -/
def slotFree (im : Image) (m : M) (e own : Nat) : Bool :=
  let os := engOwners im e
  let share := 64 / max 1 os.length
  let others := ((os.filter (fun o => o != own)).map (fun o => max share (slotsUsed im m e o))).sum
  decide (slotsUsed im m e own + 1 + others ≤ 64)

/-- The owner of a requester. -/
def reqOwner (im : Image) (q : Req) : Nat :=
  match q with
  | .chan c => im.chanOwner c.val
  | .queue o => o.val

/-- Descriptors of a channel that may start elements: the first, and the second once the first has started its last
element, unless it has FENCE (R172). -/
def startable (d : List DescRun) : List DescRun :=
  match d with
  | [] => []
  | [a] => [a]
  | a :: b :: _ => if a.x.pos < a.x.total ∧ a.chkErr = 0 ∧ a.abort = false then [a]
    else if bitAt (b.w.getD 0 0) 11 then [a] else [a, b]

/-- Whether a descriptor can start an element now. -/
def descReady (m : M) (d : DescRun) : Bool := d.chkErr == 0 && !d.abort && (readyElem m d.x).isSome

/-- Whether a requester can start an element now (R161, R182). -/
def reqReady (im : Image) (m : M) (e : Nat) (q : Req) : Bool :=
  slotFree im m e (reqOwner im q) &&
  match q with
  | .queue o => (queueStart m (m.queue e o.val)).isSome
  | .chan c => m.fld .MOV_STS_STATE c.val == 1 && (startable (m.chan c.val).descs).any (descReady m)

/-- The requesters of an engine in turn order: sub-queues by owner, then channels. -/
def engReqs (e : Nat) : List Req :=
  (List.finRange 9).map (fun o => Req.queue o) ++
  ((List.finRange 1024).filter (fun c => c.val / 64 == e)).map (fun c => Req.chan c)

/-- Whether a requester is an owner channel (R161). -/
def ownerChan (im : Image) (q : Req) : Bool :=
  match q with
  | .chan c => im.chanOwner c.val == 8
  | .queue _ => false

/-- The requester the engine serves now, if it has started no element in this cycle (R160): the first ready one after the
one served last; an owner channel only one cycle in sixteen while a partition requester is ready (R161). -/
def pickReq (im : Image) (m : M) (e : Nat) : Option Req :=
  if mapFind m.eng (e, 3) = some m.now then none else
  let l := engReqs e
  let k := mapGet 0 m.eng (e, 0)
  let ready := (l.drop k ++ l.take k).filter (reqReady im m e)
  let ownOk := !(ready.any (fun q => reqOwner im q != 8)) || (match mapFind m.eng (e, 1) with
    | some c => decide (c + 16 ≤ m.now)
    | none => true)
  (ready.filter (fun q => ownOk || !(ownerChan im q))).head?

/-- Notes which requester an engine served, and when. -/
def noteServed (im : Image) (e : Nat) (q : Req) (m : M) : M :=
  let m := { m with eng := mapPut (mapPut m.eng (e, 0) (((engReqs e).findIdx (fun r => r == q)) + 1)) (e, 3) m.now }
  if ownerChan im q then { m with eng := mapPut m.eng (e, 1) m.now } else m

end Sys2Proof
end

