-- ==== Sys2Proof/Machine/Chan.lean ====
section
/-! DEFINITION. Numbered mover channels: descriptors, runs, stops, triggers (07, R163 to R175, R178 to R180), and the
commands of the movers. -/

namespace Sys2Proof

/-- AS_PART of a channel: the partition itself for a partition channel (R162). -/
def asPart (im : Image) (m : M) (c : Nat) : Nat :=
  if im.chanOwner c = 8 then m.fld .MOV_CFG_AS_PART c else im.chanOwner c

/-- One range of a channel in a space, checked and translated (R164, R165): the place, or ERR. -/
def chanRange (im : Image) (m : M) (c sp a n right : Nat) : Nat ⊕ Range :=
  let o := im.chanOwner c
  let p := asPart im m c
  if sp = 0 then
    if 8 ≤ p then .inl 2
    else if winCheck im m p a n right ≠ 0 then .inl 3
    else match winMap im m p a with
      | some (s, x) => .inr ⟨s, x, n⟩
      | none => .inl 3
  else if o ≠ 8 then .inl 2
  else if sp = 1 then
    let b := im.partN p (·.dramBase)
    if a + n ≤ im.ownerDramBytes ∨ (p < 8 ∧ b ≤ a ∧ a + n ≤ b + im.partN p (·.dramSize)) then .inr ⟨.dram, a, n⟩
    else .inl 2
  else if sp = 2 then if p < 8 ∧ a + n ≤ 2 ^ 64 then .inr ⟨.host p, a, n⟩ else .inl 2
  else if sp = 3 then if a + n ≤ im.ownerStageBytes then .inr ⟨.ownerStage, a, n⟩ else .inl 2
  else .inl 2

/-- `chanRange` as the hardware makes it: a WINDOW range first reads its voted window word (R21, R165, R280, R282). -/
def chanRangeV (im : Image) (c sp a n right : Nat) (m : M) : (Nat ⊕ Range) × M :=
  if sp = 0 ∧ asPart im m c < 8 then
    let (ok, m) := accessWords im (winWords im (asPart im m c) a) m
    (if ok then chanRange im m c sp a n right else .inl 3, m)
  else (chanRange im m c sp a n right, m)

/-- Whether a space code is allowed for a channel (R164). -/
def spaceOk (im : Image) (m : M) (c sp : Nat) : Bool :=
  if im.chanOwner c = 8 then
    (sp == 0 || sp == 2) && decide (asPart im m c < 8) || sp == 1 || sp == 3
  else sp == 0

/-! ### Descriptors (R166 to R168) -/

/-- OP of a descriptor. -/
def dOp (w : List Nat) : Nat := bitsAt (w.getD 0 0) 0 8
/-- A DFLAGS bit by its word 0 bit. -/
def dFlag (w : List Nat) (b : Nat) : Bool := bitAt (w.getD 0 0) b
/-- COUNT of a descriptor. -/
def dCount (w : List Nat) : Nat := bitsAt (w.getD 0 0) 32 32
/-- NEXT of a descriptor. -/
def dNext (w : List Nat) : Nat := bitsAt (w.getD 3 0) 0 20
/-- The NEXT value that ends a list. -/
def lastNext : Nat := 0xFFFFF

/-- Check 1 of R168. -/
def dFields (w : List Nat) : Bool :=
  let op := dOp w
  decide (1 ≤ op ∧ op ≤ 3) && bitsAt (w.getD 0 0) 12 4 == 0 && bitsAt (w.getD 0 0) 24 8 == 0 &&
  bitsAt (w.getD 3 0) 20 4 == 0 && (op == 1 || bitsAt (w.getD 0 0) 16 4 == 0) &&
  (op != 3 || (bitsAt (w.getD 0 0) 20 4 == 0 && dCount w == 0 && w.getD 1 0 == 0 && w.getD 2 0 == 0))

/-- Whether two places overlap (R167). -/
def overlap (a b : Range) : Bool := a.sp == b.sp && decide (a.addr < b.addr + b.len) && decide (b.addr < a.addr + a.len)

/-- Checks of R168 in order: an ERR, or the source and destination of the transfer. -/
def checkDesc (im : Image) (c : Nat) (w : List Nat) (m : M) : (Nat ⊕ (List Range × List Range)) × M :=
  let ss := bitsAt (w.getD 0 0) 16 4
  let ds := bitsAt (w.getD 0 0) 20 4
  let n := dCount w
  if !(dFields w) then (.inl 1, m)
  else if dOp w = 3 then (.inr ([], []), m)
  else if (dOp w = 1 ∧ !(spaceOk im m c ss)) ∨ !(spaceOk im m c ds) then (.inl 2, m)
  else if n = 0 then (.inr ([], []), m)
  else
    let (src, m) : (Nat ⊕ Range) × M :=
      if dOp w = 1 then chanRangeV im c ss (w.getD 1 0) n rLoad m
      else (.inr ⟨.pattern (w.getD 1 0), w.getD 2 0 % 8, n⟩, m)
    match src with
    | .inl e => (.inl e, m)
    | .inr s =>
      let (dst, m) := chanRangeV im c ds (w.getD 2 0) n rStore m
      match dst with
      | .inl e => (.inl e, m)
      | .inr d => (if dOp w = 1 ∧ overlap s d then .inl 1 else .inr ([s], [d]), m)

/-- A descriptor as the channel takes it up. -/
def makeDesc (im : Image) (c i : Nat) (w : List Nat) (m : M) : DescRun × M :=
  let o := im.chanOwner c
  let p := asPart im m c
  match checkDesc im c w m with
  | (.inl e, m) => (⟨i, w, Xfer.make o p (.chan c i) [] [] [] 0 0, e, false, none, false, false⟩, m)
  | (.inr (s, d), m) => (⟨i, w, Xfer.make o p (.chan c i) s d [] (dCount w) (dCount w), 0, false, none, false, false⟩, m)

/-- LSPACE of a channel's list. -/
def lspace (m : M) (c : Nat) : Nat := m.fld .MOV_LIST_LSPACE c

/-- Address of descriptor i (07, "The descriptor"). -/
def descAddr (m : M) (c i : Nat) : Nat := m.fld .MOV_LIST_LIST_BASE c * 32 + 32 * i

/-! ### Runs -/

/-- The stopped interrupt source of a channel follows STATE (R327). -/
def setChState (im : Image) (c st : Nat) (m : M) : M :=
  irqSync im (im.chanOwner c) (2 * c + 1) (m.setFld .MOV_STS_STATE c st)

/-- Acts on descriptors in progress as a stop does (R171): one that has started no element is left untouched, unless it has
completed and only its status writeback is awaited; one that has not started its last is aborted. -/
def stopDescs (d : List DescRun) : List DescRun :=
  (d.filter (fun a => a.x.pos != 0 || a.wb.isSome)).map (fun a =>
    if a.x.pos < a.x.total ∧ a.x.err = 0 then { a with abort := true, x := { a.x with stopped := true } } else a)

/-- STOP and channel errors (R171, R172): STOPPING, or STOPPED at once when nothing is outstanding. -/
def stopChannel (im : Image) (c err : Nat) (m : M) : M :=
  let ch := m.chan c
  let m := m.setFld .MOV_STS_CH_ERR c err
  let ds := stopDescs ch.descs
  let m := m.setChan c { ch with descs := ds, reread := false }
  setChState im c (if ds.isEmpty ∧ ch.reading = none then 3 else 2) m

/-- The tag of a channel's access of local DRAM (R162). -/
def chanTag (im : Image) (m : M) (c a n : Nat) : Nat :=
  if im.chanOwner c ≠ 8 then im.chanOwner c else if a + n ≤ im.ownerDramBytes then 8 else asPart im m c

/-- Reads a descriptor, or word 3 of one again after a KICK (R165, R170, R172). -/
def readDesc (im : Image) (c i : Nat) (again : Bool) (m : M) : M :=
  if !(spaceOk im m c (lspace m c)) then stopChannel im c 8 m
  else
    let n := if again then 8 else 32
    let a := descAddr m c i + (if again then 24 else 0)
    match chanRangeV im c (lspace m c) a n rScript m with
    | (.inl _, m) => stopChannel im c 3 m
    | (.inr r, m) =>
      let ch := m.chan c
      let m := m.setChan c { ch with reading := some i, reread := again }
      match r.sp with
      | .host p =>
        if m.flag .HPT_STS_DRAINING (pinst p 0) then
          stopChannel im c 4 (m.setChan c { m.chan c with reading := none })
        else reqTlp p (.rd (.desc c) r.addr n (if im.chanOwner c = 8 then none else some n)) m
      | .dram => dramRead im (1, c) (enginePort (c / 64)) (chanTag im m c r.addr n) (im.chanOwner c) r.addr n m
      | _ => m

/-- Whether the partition that holds a channel drains: its channels stand still (R265). -/
def chanDrains (im : Image) (m : M) (c : Nat) : Bool :=
  decide (im.chanOwner c < 8) && m.flag .HPT_STS_DRAINING (pinst (im.chanOwner c) 0)

/-- A run begins at a descriptor (R170). -/
def startRun (im : Image) (c head : Nat) (m : M) : M :=
  if chanDrains im m c then m else readDesc im c head false ((setChState im c 1 (m.setFld .MOV_STS_CUR c head)).setChan c
    { m.chan c with descs := [], reading := none, reread := false })

/-- Counts a START or trigger that found the channel busy or stopped (R170). -/
def missTrig (c : Nat) (m : M) : M := m.bump .MOV_CNT_TRIG_MISSED c

/-- A trigger fires (R170, R174). -/
def fireTrigger (im : Image) (c : Nat) (m : M) : M :=
  if m.fld .MOV_STS_STATE c = 0 then startRun im c (m.fld .MOV_CFG_TRIG_HEAD c) m else missTrig c m

/-- CHAIN triggers of a channel whose run ends in IDLE (R174). -/
def chainFrom (im : Image) (c : Nat) (m : M) : M :=
  ((List.range 1024).filter (fun n => im.chanOwner n != 9 && m.fld .MOV_CFG_TRIG n == 3 && m.flag .MOV_CFG_ARM n &&
    m.fld .MOV_CFG_CHAIN_SRC n == c)).foldl (fun m n => fireTrigger im n m) m

/-- DSTATUS of a descriptor that is over (R169, R171). -/
def dStatus (d : DescRun) : Nat := if d.chkErr ≠ 0 ∨ (d.abort = false ∧ d.x.err ≠ 0) then 2 else if d.abort then 3 else 1

/-- ERR of a descriptor that is over. -/
def dErr (d : DescRun) : Nat := if d.chkErr ≠ 0 then d.chkErr else d.x.err

/-- Whether a descriptor's work is over (R177). -/
def dOver (d : DescRun) : Bool := d.chkErr != 0 || d.x.finished

/-- Bytes 27 to 31 of a completed descriptor (R166, R180). -/
def wbBytes (d : DescRun) : List Byte :=
  BitVec.ofNat 8 (dStatus d + 16 * dErr d) :: leBytes 4 d.x.bytesDone

/-- Follows NEXT of a descriptor that did not end its list. -/
def follow (im : Image) (c nxt : Nat) (m : M) : M :=
  if nxt = lastNext then m else readDesc im c nxt false m

/-- The end of a run (R170): IDLE and CHAIN triggers, or word 3 again after a KICK. -/
def endRun (im : Image) (c i : Nat) (m : M) : M :=
  if m.flag .MOV_STS_KICK c then readDesc im c i true (m.setFlag .MOV_STS_KICK c false)
  else chainFrom im c (setChState im c 0 (m.setFld .MOV_STS_CUR c i))

/-- What completion records: MOV_LAST and MOV_CNT (R180). -/
def recordDesc (c : Nat) (d : DescRun) (m : M) : M :=
  let m := (((m.setFld .MOV_LAST_INDEX c d.idx).setFld .MOV_LAST_DSTATUS c (dStatus d)).setFld .MOV_LAST_ERR c (dErr d)).setFld
    .MOV_LAST_BYTES_DONE c d.x.bytesDone
  let m := m.bump .MOV_CNT_DONE c
  if dStatus d = 2 then m.bump .MOV_CNT_BAD c else m

/-- The descriptor source of a channel, raised once the writeback is issued or acknowledged (R180). -/
def descIrq (im : Image) (c : Nat) (d : DescRun) (m : M) : M :=
  if dFlag d.w 8 then irqPulse im (im.chanOwner c) (2 * c) m else m

/-- CUR names the next descriptor of the list (R171). -/
def nextCur (c : Nat) (d : DescRun) (m : M) : M :=
  if dNext d.w = lastNext then m else m.setFld .MOV_STS_CUR c (dNext d.w)

/-- STOPPING ends with the last outstanding answer (R170). -/
def stoppedNow (im : Image) (c : Nat) (m : M) : M :=
  if (m.chan c).descs.isEmpty ∧ (m.chan c).reading = none then setChState im c 3 m else m

/-- The oldest descriptor leaves the channel, its status written or not wanted: its interrupt, then the channel's next
state (R170, R171). A last descriptor that completes BAD with STOP_BAD stops the channel and ends no run, and CUR then reads
its NEXT, 0xFFFFF (log entry 93). -/
def retireDesc (im : Image) (c : Nat) (d : DescRun) (m : M) : M :=
  let m := descIrq im c d m
  let ch := m.chan c
  let m := m.setChan c { ch with descs := ch.descs.drop 1 }
  let s := m.fld .MOV_STS_STATE c
  if s = 2 then stoppedNow im c (nextCur c d m)
  else if s ≠ 1 then m
  else if dStatus d = 2 ∧ dFlag d.w 9 then
    setChState im c 3 ((m.setFld .MOV_STS_CH_ERR c 2).setFld .MOV_STS_CUR c (dNext d.w))
  else if dNext d.w = lastNext then endRun im c d.idx m
  else
    let m := nextCur c d m
    if d.moved then m else follow im c (dNext d.w) m

/-- The writeback of the oldest descriptor failed (R166, R172): its interrupt, and a channel error, which a channel that
already stops does not record again. -/
def wbFail (im : Image) (c err : Nat) (d : DescRun) (m : M) : M :=
  let m := descIrq im c d m
  let ch := m.chan c
  let m := nextCur c d (m.setChan c { ch with descs := ch.descs.drop 1 })
  if m.fld .MOV_STS_STATE c = 1 then stopChannel im c err m
  else if m.fld .MOV_STS_STATE c = 2 then stoppedNow im c m
  else m

/-- Sets the outstanding writeback of the oldest descriptor. -/
def setWb (c : Nat) (d : DescRun) (w : Option Nat) (m : M) : M :=
  m.setChan c { m.chan c with descs := { d with wb := some w } :: (m.chan c).descs.drop 1 }

/-- Completes the oldest descriptor once its work is over: the completion is recorded, its status written unless NOWB,
and it retires when the write is issued, to host memory, or acknowledged (R166, R180). -/
def completeFirst (im : Image) (c : Nat) (m : M) : M :=
  match (m.chan c).descs with
  | [] => m
  | d :: _ =>
    if !(dOver d) ∨ d.wb.isSome then m
    else
      let m := recordDesc c d m
      if dFlag d.w 10 then retireDesc im c d m
      else match chanRangeV im c (lspace m c) (descAddr m c d.idx) 32 rStore m with
        | (.inl _, m) => wbFail im c 3 d m
        | (.inr r, m) => match r.sp with
          | .host p =>
            if m.flag .HPT_STS_DRAINING (pinst p 0) then wbFail im c 6 d m
            else reqTlp p (.wr (r.addr + 27) (wbBytes d) (if im.chanOwner c = 8 then none else some 5) (some c)) (setWb c d none m)
          | .ownerStage =>
            let (id, m) := nextId (c / 64) m
            noteAsk (4 + c / 64, id) 23 (setWb c d (some id) m)
          | _ =>
            let (id, m) := nextId (c / 64) m
            dramWrite im (enginePort (c / 64)) (chanTag im m c (r.addr + 27) 5) (im.chanOwner c) (r.addr + 27) (wbBytes d)
              (noteAsk (4 + c / 64, id) (memInst im (r.addr + 27)) (setWb c d (some id) m))

/-- Reads the next descriptor when the youngest has started its last element (R172). -/
def readAhead (im : Image) (c : Nat) (m : M) : M :=
  let ch := m.chan c
  match ch.descs with
  | [d] =>
    if m.fld .MOV_STS_STATE c = 1 ∧ d.moved = false ∧ ch.reading = none ∧ dNext d.w ≠ lastNext ∧ d.chkErr = 0 ∧
        d.abort = false ∧ d.fence = false ∧ 0 < d.x.total ∧ d.x.total ≤ d.x.pos ∧ !(dFlag d.w 9) then
      follow im c (dNext d.w) (m.setChan c { ch with descs := [{ d with moved := true }] })
    else m
  | _ => m

/-- Issues the flush reads of a channel's descriptors whose time has come (R177). -/
def flushDescs (c : Nat) (m : M) : M :=
  let ch := m.chan c
  let (ds, m) := ch.descs.foldl (fun (acc : List DescRun × M) d =>
    let (x, m) := flushXfer (c / 64) c d.x acc.2
    (acc.1 ++ [{ d with x := x }], m)) ([], m)
  m.setChan c { ch with descs := ds }

/-- Sees to a channel after an element, an answer or a descriptor: flush reads, read-ahead, completions in list order. A channel
error that a completion finds may leave the other descriptor a flush read to issue (R171). -/
def settleChan (im : Image) (c : Nat) (m : M) : M :=
  let next := fun (m : M) => flushDescs c (completeFirst im c m)
  completeFirst im c (next (next (readAhead im c (flushDescs c m))))

/-- The status writeback of a channel to host memory has been issued (R180). -/
def wbIssued (im : Image) (c : Nat) (m : M) : M :=
  match (m.chan c).descs with
  | d :: _ => if d.wb = some none then settleChan im c (retireDesc im c d m) else m
  | [] => m

/-- The status of a descriptor in the owner stage region, once the stage slice acknowledges it (R166, R180). -/
def wbStage (c : Nat) (d : DescRun) (m : M) : M :=
  if lspace m c = 3 then { m with stage := memWrite m.stage (descAddr m c d.idx + 27) (wbBytes d) } else m

/-! ### Commands -/

/-- Whether a view reaches a channel's registers: the owner view, or the partition it is allotted to (R162, R163). -/
def chanSeen (im : Image) (v : View) (c : Nat) : Bool :=
  im.chanOwner c != 9 && match v with
  | .owner => true
  | .bar0 p => im.chanOwner c == p.val
  | _ => false

/-- Whether a write to MOV_CTL or another WO register is clean; a bad one sets RSVD_WR (R6, MOV_CTL). `off` is the byte
offset of a register of channel c, 0 MOV_LIST to 0x28 MOV_CNT. -/
def chanOff (v : View) (c off : Nat) : Nat := (if v = .owner then 0x100000 else 0x300000) + 0x40 * c + off

/-- The checks of a MOV_CTL write: the channel's registers are seen; at most one of START, STOP, CLEAR; a reserved bit
only sets RSVD_WR. The first component says whether the action is made. -/
def ctlWrite (im : Image) (v : View) (c value : Nat) (m : M) : Bool × M :=
  if !(chanSeen im v c) then (false, m)
  else
    let m1 := if bitsAt value 3 29 ≠ 0 ∨ bitsAt value 52 12 ≠ 0 then setRsvd v bkMov (chanOff v c 0x10) m else m
    if 1 < popCount (bitsAt value 0 3) 3 then (false, setRsvd v bkMov (chanOff v c 0x10) m) else (true, m1)

/-- MOV_START (R170): from IDLE a run at HEAD; while RUNNING, KICK; otherwise TRIG_MISSED. -/
def opMovStart (im : Image) (v : View) (c value : Nat) (m : M) : M :=
  let (ok, m) := ctlWrite im v c value m
  if ok && bitAt value 0 then
    if m.fld .MOV_STS_STATE c = 0 then startRun im c (bitsAt value 32 20) m
    else if m.fld .MOV_STS_STATE c = 1 then m.setFlag .MOV_STS_KICK c true
    else missTrig c m
  else m

/-- MOV_STOP (R170, R171). -/
def opMovStop (im : Image) (v : View) (c value : Nat) (m : M) : M :=
  let (ok, m) := ctlWrite im v c value m
  if ok && bitAt value 1 && m.fld .MOV_STS_STATE c == 1 then settleChan im c (stopChannel im c 1 m) else m

/-- MOV_CLEAR (R170): in IDLE, CUR reads the descriptor completed last. -/
def opMovClear (im : Image) (v : View) (c value : Nat) (m : M) : M :=
  let (ok, m) := ctlWrite im v c value m
  if ok && bitAt value 2 && m.fld .MOV_STS_STATE c == 3 then
    setChState im c 0 ((m.setFld .MOV_STS_CH_ERR c 0).setFld .MOV_STS_CUR c (m.fld .MOV_LAST_INDEX c))
  else m

/-- Whether a write to MOV_LIST or MOV_CFG is refused (R175). -/
def cfgRefused (im : Image) (m : M) (c : Nat) (isList : Bool) (value : Nat) : Bool :=
  let st := m.fld .MOV_STS_STATE c
  let trig := bitsAt value 0 2
  let src := bitsAt value 8 10
  let ap := bitsAt value 40 4
  st == 1 || st == 2 ||
  (!isList &&
    (((trig == 1 || trig == 2) && bitsAt value 24 16 == 0) ||
     (trig == 3 && im.chanOwner src != im.chanOwner c) ||
     (im.chanOwner c == 8 && (decide (8 < ap) || (decide (ap < 8) && !(im.enabled ap))))))

/-- MOV_CFG_WRITE (R174, R175): writes MOV_LIST or MOV_CFG whole, or refuses it. -/
def opMovCfgWrite (im : Image) (v : View) (c : Nat) (isList : Bool) (value : Nat) (m : M) : M :=
  if !(chanSeen im v c) then m
  else
    let bad := if isList then bitAt value 4 else bitsAt value 3 5 != 0 || bitsAt value 18 6 != 0
    let m := if bad then setRsvd v bkMov (chanOff v c (if isList then 0 else 8)) m else m
    if cfgRefused im m c isList value then m.setFlag .MOV_STS_CFG_REFUSED c true
    else if isList then (m.setFld .MOV_LIST_LSPACE c value).setFld .MOV_LIST_LIST_BASE c (value / 32)
    else
      let armed := m.flag .MOV_CFG_ARM c
      let m := (((m.setFld .MOV_CFG_TRIG c value).setFld .MOV_CFG_ARM c (value / 4)).setFld .MOV_CFG_CHAIN_SRC c
        (value / 2 ^ 8)).setFld .MOV_CFG_PERIOD c (value / 2 ^ 24)
      let m := m.setFld .MOV_CFG_TRIG_HEAD c (value / 2 ^ 44)
      let m := if im.chanOwner c = 8 then m.setFld .MOV_CFG_AS_PART c (value / 2 ^ 40) else m
      if !armed && bitAt value 2 then m.setChan c { m.chan c with trigFrom := edgeCount m, armedAt := m.now } else m

/-- TICK_TRIGGER (R174): the PERIOD-th edge since arming, or since the trigger fired last, has come. -/
def opTickTrigger (im : Image) (c : Nat) (m : M) : M :=
  let ch := m.chan c
  let n := m.fld .MOV_CFG_PERIOD c
  if m.fld .MOV_CFG_TRIG c = 1 ∧ m.flag .MOV_CFG_ARM c ∧ n ≠ 0 ∧ ch.trigFrom + n ≤ m.fld .TCK_COUNT_COUNT 0 then
    fireTrigger im c (m.setChan c { ch with trigFrom := ch.trigFrom + n })
  else m

/-- TIMER_TRIGGER (R174): PERIOD × 64 sc have passed. -/
def opTimerTrigger (im : Image) (c : Nat) (m : M) : M :=
  let ch := m.chan c
  let n := 64 * m.fld .MOV_CFG_PERIOD c
  if m.fld .MOV_CFG_TRIG c = 2 ∧ m.flag .MOV_CFG_ARM c ∧ n ≠ 0 ∧ ch.armedAt + n ≤ m.now then
    fireTrigger im c (m.setChan c { ch with armedAt := ch.armedAt + n })
  else m

/-- The bytes a descriptor read returns: a list in stage space reads the stage itself. -/
def descData (m : M) (c i n : Nat) (b : List Byte) : List Byte :=
  if lspace m c = 3 then memRead m.stage (descAddr m c i + (if n = 8 then 24 else 0)) n else b

/-- A descriptor's words arrive (R168, R170, R172): it is taken up, or after a KICK the NEXT of the last one is followed. One
with FENCE that was read ahead is not used: it is read again once the descriptor before it has completed (log entry 94). -/
def takeDesc (im : Image) (c i : Nat) (b : List Byte) (m : M) : M :=
  let ch := m.chan c
  if ch.reread then
    let nxt := bitsAt (leAt (descData m c i 8 b) 0 8) 0 20
    let m := m.setChan c { ch with reading := none, reread := false }
    if nxt = lastNext then endRun im c i m else readDesc im c nxt false (m.setFld .MOV_STS_CUR c nxt)
  else
    let d := descData m c i 32 b
    let w := [leAt d 0 8, leAt d 8 8, leAt d 16 8, leAt d 24 8]
    let m := m.setChan c { ch with reading := none }
    if dFlag w 11 ∧ !ch.descs.isEmpty then
      m.setChan c { m.chan c with descs := ch.descs.map (fun a => { a with moved := false, fence := true }) }
    else
    let (ok, m) : Bool × M :=
      if dFlag w 10 then (true, m) else
        match chanRangeV im c (lspace m c) (descAddr m c i) 32 rStore m with
        | (.inl _, m) => (false, m)
        | (.inr _, m) => (true, m)
    if !ok then settleChan im c (stopChannel im c 3 m)
    else
      let (d, m) := makeDesc im c i w m
      settleChan im c (m.setChan c { m.chan c with descs := ch.descs ++ [d] })

/-- A descriptor read is answered (R168, R172). -/
def descAnswer (im : Image) (c : Nat) (r : RdRes) (m : M) : M :=
  let ch := m.chan c
  match ch.reading with
  | none => m
  | some i =>
    if m.fld .MOV_STS_STATE c ≠ 1 then
      let m := m.setChan c { ch with reading := none, reread := false }
      if ch.descs.isEmpty ∧ m.fld .MOV_STS_STATE c = 2 then setChState im c 3 m else m
    else match r with
    | .data b => takeDesc im c i b m
    | e => settleChan im c (stopChannel im c (if srcErr e = 4 then 4 else 5)
        (m.setChan c { ch with reading := none, reread := false }))

/-- DESCRIPTOR_READ (R168). -/
def opDescriptorRead (im : Image) (c : Nat) (r : RdRes) (m : M) : M :=
  if (m.chan c).reading.isSome then
    descAnswer im c r (match asPart im m c with | 8 => m | p => dropPurp p (.desc c) m)
  else m

/-- Starts an element of a channel's descriptors: of the first that can. -/
def startChan (im : Image) (c : Nat) (ends : ElemEnds) (m : M) : M :=
  let ch := m.chan c
  match (startable ch.descs).find? (descReady m) with
  | none => m
  | some d => match readyElem m d.x with
    | none => m
    | some t =>
      let (x, m) := startElem im (c / 64) c ends d.x t m
      let ds := ch.descs.map (fun a => if a.idx = d.idx ∧ a.x = d.x then { a with x := x } else a)
      settleChan im c (m.setChan c { m.chan c with descs := ds })

/-- MOVER_ELEMENT (R160, R161, R176, R182): the engine starts one element of the requester whose turn it is. -/
def opMoverElement (im : Image) (e : Nat) (q : Req) (ends : ElemEnds) (m : M) : M :=
  if pickReq im m e ≠ some q then m else
  let m := noteServed im e q m
  match q with
  | .chan c => startChan im c.val ends m
  | .queue o =>
    match queueStart m (m.queue e o.val) with
    | none => m
    | some ((a, x, b), t) =>
      let (x, m) := startElem im e (4096 + o.val) ends x t m
      settleQueue im e o.val (m.setQueue e o.val (a ++ x :: b))

/-- The elements and writebacks of a channel answered (R177, R180). -/
def chanAnswer (im : Image) (c id : Nat) (a : Ans) (m : M) : M :=
  let ch := m.chan c
  if chanDrains im m c then
    m.setChan c { ch with descs := ch.descs.map (fun d => if d.wb = some (some id) then { d with wb := none }
      else { d with x := (answerElem im (c / 64) { d.x with who := .gone } id a m).1 }) }
  else
  match ch.descs.find? (fun d => d.wb == some (some id)) with
  | some d =>
    match a with
    | .wrote .ok => settleChan im c (retireDesc im c d (wbStage c d m))
    | .wrote _ => settleChan im c (wbFail im c 6 d m)
    | _ => m
  | none =>
    let (ds, m) := ch.descs.foldl (fun (acc : List DescRun × M) d =>
      let (x, m) := answerElem im (c / 64) d.x id a acc.2
      (acc.1 ++ [{ d with x := x }], m)) ([], m)
    settleChan im c (m.setChan c { m.chan c with descs := ds })

/-- The elements of a sub-queue answered (R177). -/
def queueAnswer (im : Image) (e o id : Nat) (a : Ans) (m : M) : M :=
  let (l, m) := (m.queue e o).foldl (fun (acc : List Xfer × M) x =>
    let (x, m) := answerElem im e x id a acc.2
    (acc.1 ++ [x], m)) ([], m)
  settleQueue im e o (m.setQueue e o l)

/-- An answer for element `id` of a requester named by its code. -/
def answerCode (im : Image) (e code id : Nat) (a : Ans) (m : M) : M :=
  if 4096 ≤ code then queueAnswer im e (code - 4096) id a m else chanAnswer im code id a m

/-- Drops the outstanding host read of an element, whichever port carries it. -/
def dropElem (e code id : Nat) (m : M) : M :=
  (List.range 8).foldl (fun m p => dropPurp p (.elem e code id) m) m

/-- ELEMENT_ANSWER (R177, R179): `off` is the element's number on its engine. -/
def opElementAnswer (im : Image) (e : Nat) (q : Req) (off : Nat) (a : Ans) (m : M) : M :=
  answerCode im e (reqCode q) off a (dropElem e (reqCode q) off { m with asks := mapDel m.asks (4 + e, off) })

/-- A flush read is answered (R177, R178): `id` numbers it on its engine. -/
def flushCode (im : Image) (e code id : Nat) (r : RdRes) (m : M) : M :=
  if 4096 ≤ code then
    settleQueue im e (code - 4096) (m.setQueue e (code - 4096) ((m.queue e (code - 4096)).map (answerFlush id r)))
  else settleChan im code (m.setChan code
    { m.chan code with descs := (m.chan code).descs.map (fun d => { d with x := answerFlush id r d.x }) })

/-- FLUSH_READ_COMPLETE (R177). -/
def opFlushReadComplete (im : Image) (e : Nat) (q : Req) (id : Nat) (r : RdRes) (m : M) : M :=
  flushCode im e (reqCode q) id r ((List.range 8).foldl (fun m p => dropPurp p (.flush e (reqCode q) id) m) m)

end Sys2Proof
end

