-- ==== Sys2Proof/Machine/Finish.lean ====
section
/-! DEFINITION. Terminal causes that come from outside the cue's own completion: a CLEAR, a lost link, a response limit,
a STRUCK (R105, R109, R130, R153, R248). A read whose data writes are not all answered ends when they are. -/

namespace Sys2Proof

/-- The current cue or group of a script: the one that completed last while its intermediate entry is held, else the
first of the window (R104, R105). -/
def Script.current (s : Script) : List PCue :=
  match s.done with
  | some d => d.1
  | none => s.win

/-- Whether a script's current cue names a slot (R105). -/
def namesSlot (s : Script) (slot : Nat) : Bool :=
  match s.current with
  | [] => false
  | c :: _ => (c.cue.isDevice && (c.cue.slot == slot || (c.cue.op == 5 && c.cue.dstSlot == slot))) ||
      (c.cue.op == 10 && c.cue.arg == 1 && c.cue.slot == slot)

/-- Whether a script has an outstanding rehearsal to a slot (R105). -/
def rehearsesSlot (m : M) (s : Script) (slot : Nat) : Bool :=
  s.win.any (fun c => c.cue.slot == slot && (match c.rhs with
    | some n => match m.rh (slotLink slot) n with
      | some r => r.st != .striking && !r.detached
      | none => false
    | none => false))

/-- CLEAR acts on the rehearsal of the current cue (R130). -/
def clearRehearsal (s : Script) (m : M) : M :=
  match s.win with
  | [] => m
  | c :: _ =>
    let l := slotLink c.cue.slot
    match c.rhs with
    | none => m
    | some n => match m.rh l n with
      | none => m
      | some r => if r.st = .committed then m.setRh l n { r with detached := true } else strikeRh l n m

/-- A terminal cause from outside ends the begun cue of a script (R109, R153): a device status that ends it by itself and came
before stands, also while a relay's other status is awaited; no element starts any more. -/
def endCause (im : Image) (s : Script) (status detail : Nat) (m : M) : M :=
  match s.run.status, statusEnds s with
  | some (d, _), true =>
    if s.head.any (fun c => c.cue.op == 5) then
      actStatus im { s with dev := d, side := false } d (movedSoFar m s) (groupTotal s.head) m
    else m
  | _, _ =>
    match dataOut m s with
    | none => endNow im s status detail m
    | some (cl, sn) =>
      settleQueue im cl s.part (updCueXfer s.part s.tag sn (fun x => { x with stopped := true }) (endNow im s status detail m))

/-- Ends the script of a command or rehearsal whose cue is the confirmed one, with the bytes moved so far; a terminal
cause found before stands (R109). -/
def endCue (im : Image) (p tag status detail : Nat) (m : M) : M :=
  match m.script p tag with
  | none => m
  | some s =>
    if s.st = .ended ∨ s.head.isEmpty ∨ s.run.fin.isSome then m else endCause im s status detail m

/-- CLEAR ends one script (R105): a terminal cause or device status decided before stands, a cue that completed before is
still the current one, and a cue not begun has moved nothing. -/
def clearScript (im : Image) (s : Script) (m : M) : M :=
  match s.run.fin, s.done, s.run.status with
  | some _, _, _ => m
  | none, some (g, n, side), _ =>
    if s.last then endLast im s m else
    let e := cueEntry { s with side := side } g n 0x29 0 true
    let (s, m) := squash 0 s m
    endScript im s e m
  | none, none, some _ =>
    let (s, m) := squash (groupLen s.win) s m
    if s.head.any (fun c => c.cue.op == 5) then endCause im s 0x29 0 m
    else m.setScript { s with run := { s.run with cleared := true } }
  | none, none, none =>
    let (s, m) := squash (groupLen s.win) s m
    let m := clearRehearsal s m
    if s.run.begun then endCause im s 0x29 0 m
    else
      let t := curPtr s
      endScript im s (mkEntry s 0x29 0 0 t.1 0 t.2 true) m

/-- CLEAR of a granted slot (R105): the scripts end, the slot's clear command is queued, its latch is cleared. -/
def clearSlot (im : Image) (p slot : Nat) (m : M) : M :=
  let l := (m.scriptsOf p).filter (fun s => s.st != .ended && (namesSlot s slot || rehearsesSlot m s slot))
  let m := (byThread l).foldl (fun m s => clearScript im s m) m
  let m := { m with attn := m.attn.filter (fun a => a != (p, slot)) }
  if m.linkLive (slotLink slot) then enqFrame (slotLink slot) (.clear p slot) m else m

end Sys2Proof
end

