-- ==== Sys2Proof/Machine/Ring.lean ====
section
/-! DEFINITION. Request rings, status rings and doorbells (06, R135 to R159, R412). -/

namespace Sys2Proof

/-- KIND of a ring. -/
def ringKind (m : M) (p r : Nat) : Nat := m.fld .RNG_CFG_B_KIND (pinst p r)

/-- The ring enable has taken place and the ring is in service; a drain takes it out of service (R265). -/
def ringLive (im : Image) (m : M) (p r : Nat) : Bool :=
  m.flag .RNG_ENABLE_ENABLED (pinst p 0) && !(m.flag .HPT_STS_DRAINING (pinst p 0)) && (ringKind m p r == 1 || ringKind m p r == 2) &&
  decide (r < im.partN p (·.ringCount))

/-! ### Enable (R137) -/

/-- The first rule of R137 that a ring breaks, 0 for none. -/
def ringReason (im : Image) (m : M) (p r : Nat) : Nat :=
  let i := pinst p r
  let kind := m.fld .RNG_CFG_B_KIND i
  let sz := m.fld .RNG_CFG_B_SIZE_LOG2 i
  let st := m.fld .RNG_CFG_B_STATUS_RING i
  let vec := m.fld .RNG_CFG_B_VECTOR i
  let ex := m.flag .RNG_CFG_B_EXPRESS i
  if kind = 3 then 1
  else if kind ≠ 0 ∧ (sz < 6 ∨ 16 < sz) then 2
  else if kind ≠ 0 ∧ 2 ^ 64 < m.fld .RNG_CFG_A_BASE i * 64 + 16 * 2 ^ sz then 3
  else if kind = 1 ∧ (im.partN p (·.ringCount) ≤ st ∨ m.fld .RNG_CFG_B_KIND (pinst p st) ≠ 2) then 4
  else if kind = 2 ∧ im.partN p (·.vectors) ≤ vec then 5
  else if ex ∧ kind ≠ 1 then 6
  else if (kind = 1 ∧ vec ≠ 0) ∨ (kind = 2 ∧ st ≠ 0) then 7
  else 0

/-- RING_ENABLE (R137). -/
def opRingEnable (im : Image) (p : Nat) (m : M) : M :=
  let i := pinst p 0
  if im.enabled p = false ∨ m.flag .RNG_ENABLE_ENABLED i then m else
  match (List.range (im.partN p (·.ringCount))).find? (fun r => ringReason im m p r != 0) with
  | some r => ((m.setFlag .RNG_ENABLE_REFUSED i true).setFld .RNG_ENABLE_REASON i (ringReason im m p r)).setFld
      .RNG_ENABLE_RING i r
  | none => m.setFlag .RNG_ENABLE_ENABLED i true

/-! ### Entries at HEAD (R139 to R142, R147) -/

/-- HEAD of a ring. -/
def rHead (m : M) (p r : Nat) : Nat := m.fld .RNG_STS_HEAD (pinst p r)
/-- TAIL of a ring. -/
def rTail (m : M) (p r : Nat) : Nat := m.fld .RNG_STS_TAIL (pinst p r)

/-- Units published and not yet taken. -/
def rAvail (m : M) (p r : Nat) : Nat :=
  (rTail m p r + ringSize m p r - rHead m p r) % ringSize m p r

/-- What stands at HEAD of a request ring. -/
inductive HeadSt where
  | idle | fetch | stale | badPhase
  | ready (bytes : List Byte) (units : Nat) (pre : Bool)
  deriving DecidableEq, Repr

/-- Units of an entry by its header. -/
def hdrUnits (b : List Byte) : Nat := bitsAt (leAt b 0 1) 0 4 + 1
/-- PHASE of a header. -/
def hdrPhase (b : List Byte) : Bool := bitAt (leAt b 0 1) 7

/-- The copy of a unit. -/
def copyOf (x : RingSt) (u : Nat) : Option RCopy := x.pre.find? (fun c => c.unit == u)

/-- The entry at HEAD, from the inline window, fetched copies, or a prefetched copy that meets R147. -/
def headState (m : M) (p r : Nat) : HeadSt :=
  let x := m.ring p r
  let h := rHead m p r
  let av := rAvail m p r
  if av = 0 ∨ x.blocked then .idle else
  match x.inlq.find? (fun e => e.1 == h) with
  | some e => .ready e.2 (hdrUnits e.2) false
  | none =>
    match copyOf x h with
    | none => if x.fetch.isSome then .idle else .fetch
    | some c =>
      let k := min (hdrUnits c.data) (ringSize m p r - h)
      if c.pub ∧ hdrPhase c.data ≠ x.headLap then .badPhase
      else if c.pub = false ∧ (hdrPhase c.data ≠ x.headLap ∨ c.fresh = false) then .stale
      else if av < k then .idle
      else
        let cs := (List.range k).filterMap (fun j => copyOf x (h + j))
        if cs.length < k then (if x.fetch.isSome then .idle else if cs.all (·.pub) then .fetch else .stale)
        else if cs.all (·.pub) then .ready ((cs.map (·.data)).flatten) k false
        else if h / 4 = (h + k - 1) / 4 ∧ cs.all (fun c => c.pub || c.fresh) then .ready ((cs.map (·.data)).flatten) k true
        else .stale

/-- Reads n units from unit b of ring memory, a multiple of 4 (R135); units below `pubEnd` are published. -/
def readUnits (p r b n pubEnd : Nat) (m : M) : M :=
  let m := m.setRing p r { m.ring p r with fetch := some (b, n, pubEnd, true) }
  reqTlp p (.rd (.ring r) (unitAddr m p r b) (16 * n) (some (16 * n))) m

/-- Units one read of ring memory takes at most: one MemRd, and at most 32 units beyond TAIL (R63, R262; 06, "Prefetch beyond
the tail"). -/
def fetchUnits (m : M) (p : Nat) : Nat := readMax (m.hostOf p) / 16

/-- Whether a unit has no copy. -/
def unitLacks (x : RingSt) (u : Nat) : Bool := (copyOf x u).isNone

/-- Reads ring memory for published units, in whole 64-byte blocks from the first unit from HEAD that has no copy, going on
beyond TAIL, at most to the end of the ring and to the next block that has its copies (R135, R147). -/
def fetchRing (p r : Nat) (m : M) : M :=
  let x := m.ring p r
  let h := rHead m p r
  let size := ringSize m p r
  let u := h + ((List.range (size - h)).find? (fun j => unitLacks x (h + j))).getD 0
  let b := u / 4 * 4
  let k := ((List.range (min (fetchUnits m p) (size - b) / 4)).takeWhile (fun j =>
    j == 0 || (List.range 4).any (fun i => unitLacks x (b + 4 * j + i)))).length
  readUnits p r b (4 * k) (min size (h + rAvail m p r)) m

/-- Drops the copies of the entry at HEAD, and of nothing else (R147). -/
def dropHead (p r : Nat) (m : M) : M :=
  let x := m.ring p r
  let h := rHead m p r
  let k := match copyOf x h with | some c => hdrUnits c.data | none => 1
  m.setRing p r { x with pre := x.pre.filter (fun c => decide (c.unit < h ∨ h + k ≤ c.unit)) }

/-- Prepares a ring for taking: fetches, discards a stale copy, or stops on a phase error (R147, R158). -/
def prepRing (im : Image) (p r : Nat) (m : M) : M :=
  let again := fun (m : M) => if (m.ring p r).fetch.isSome then m else fetchRing p r m
  match headState m p r with
  | .fetch => fetchRing p r m
  | .stale => again (dropHead p r (m.bump .RNG_CNT_A_PREFETCH_REFETCH (pinst p 0)))
  | .badPhase =>
    let x := m.ring p r
    let m := m.setRing p r { x with blocked := true, pre := [] }
    fireP im (0x033 + 4 * portOf im p) r p (m.setFlag .RNG_STS_PHASE_ERR (pinst p r) true)
  | _ => m

/-- The checks of R141: 0 passed, else the DETAIL. `k` is how many units the ring still holds from HEAD. -/
def reqCheck (b : List Byte) (room : Nat) : Nat :=
  let ty := leAt b 1 1
  let n := hdrUnits b
  let nc := leAt b 2 1
  if ty < 1 ∨ 6 < ty then 1
  else if room < n ∨ ((ty = 1 ∨ ty = 3 ∨ ty = 4 ∨ ty = 5) ∧ n ≠ 1) ∨ (ty = 2 ∧ n < 1 + 2 * nc) then 2
  else if bitsAt (leAt b 0 1) 4 3 ≠ 0 ∨ (ty ≠ 2 ∧ !(zeroAt b 2 2)) ∨
      (ty = 2 ∧ (nc < 1 ∨ 7 < nc ∨ !(zeroAt b 3 1) ∨ !(zeroAt b 8 8))) ∨ ((ty = 3 ∨ ty = 4 ∨ ty = 6) ∧ !(zeroAt b 8 8)) ∨
      (ty = 5 ∧ !(zeroAt b 10 6)) then 3
  else 0

/-- A queued script of a START or START_INLINE (R75, R143). -/
def newScript (p r : Nat) (b : List Byte) : Script :=
  let inl := leAt b 1 1 == 2
  let nc := leAt b 2 1
  { part := p, tag := leAt b 4 4, ring := r, inl := inl, first := if inl then 0 else leAt b 8 8,
    icues := if inl then (List.range nc).map (fun k => Cue.ofBytes (bytesAt b (16 + 32 * k) 32)) else [],
    payload := if inl then b.drop (16 + 32 * nc) else [], st := .queued, thread := none, parked := none,
    resume := false, loops := 0, dev := 0, side := false, attn := false, skipped := false, win := [], next := none,
    fetching := false, ahead := [], sn := 0, bufs := [], wait := .nothing, run := default,
    halting := false, done := none, last := false }

/-- Scripts in the dispatch queue that are not parked. -/
def dispUsed (m : M) (p : Nat) : Nat :=
  ((dispQ m p).filter (fun tag => match m.script p tag with | some s => s.parked.isNone | none => false)).length

/-- A free parked context in the owner region of local DRAM (R76; log entry 96). -/
def freeCtx (im : Image) (m : M) : Option Nat :=
  if im.ownerDramBytes = 0 then none
  else (List.range 65536).find? (fun c => !(m.scripts.any (fun e => e.2.parked == some c)))

/-- Whether the dispatch queue of a partition is full. -/
def dispFull (im : Image) (m : M) (p : Nat) : Bool := decide (im.partN p (·.dispatchDepth) ≤ dispUsed m p)

/-- Whether the entry may be taken now: a START needs room in the dispatch queue or a parked context (R143). -/
def mayAct (im : Image) (m : M) (p : Nat) (b : List Byte) : Bool :=
  let ty := leAt b 1 1
  (ty != 1 && ty != 2) || !(dispFull im m p) || (freeCtx im m).isSome

/-- Acts on a request that passed its checks (R75, R103 to R106, R143). -/
def actRequest (im : Image) (p r : Nat) (b : List Byte) (m : M) : M :=
  let ty := leAt b 1 1
  let tag := leAt b 4 4
  let noScript := fun (m : M) => (postEntry im p (reqEntry r 0x2B 0 tag) m).2
  if ty = 1 ∨ ty = 2 then
    if (m.script p tag).isSome then (postEntry im p (reqEntry r 0x2A 0 tag) m).2
    else
      let ctx := if dispFull im m p then freeCtx im m else none
      let m := m.setScript { newScript p r b with parked := ctx }
      { m with dispq := mapPut m.dispq (p, 0) (dispQ m p ++ [tag]) }
  else if ty = 3 then match m.script p tag with
    | some s => resumeScript im s m
    | none => noScript m
  else if ty = 4 then match m.script p tag with
    | some s => haltScript im s m
    | none => noScript m
  else if ty = 5 then
    let slot := leAt b 8 2
    let (ok, m) := accessWords im [.rights slot] m
    if !ok ∨ slotCheck im m p slot 0 = 1 then (postEntry im p (reqEntry r 0x22 1 tag) m).2 else clearSlot im p slot m
  else m

/-- Takes the entry at HEAD: checks it, acts on it, moves HEAD past it (R141, R142). -/
def takeEntry (im : Image) (p r : Nat) (b : List Byte) (pre : Bool) (m : M) : M :=
  let i := pinst p r
  let h := rHead m p r
  let size := ringSize m p r
  let k := min (hdrUnits b) (size - h)
  let x := m.ring p r
  let m := if pre then m.bump .RNG_CNT_A_PREFETCH_USED (pinst p 0) else m
  let m := m.setFld .RNG_STS_HEAD i ((h + k) % size)
  let m := m.setRing p r { x with
    headLap := if size ≤ h + k then !x.headLap else x.headLap
    fetch := x.fetch.map (fun f => if h < f.1 + f.2.1 ∧ f.1 + f.2.1 ≤ h + k then (f.1, 0, 0, f.2.2.2) else f)
    inlq := x.inlq.filter (fun e => e.1 != h)
    pre := x.pre.filter (fun c => decide (c.unit < h ∨ h + k ≤ c.unit)) }
  let d := reqCheck b (size - h)
  if d ≠ 0 then (postEntry im p (reqEntry r 0x2C d (leAt b 4 4)) (m.bump .RNG_CNT_A_REQ_CHECK (pinst p 0))).2
  else actRequest im p r b m

/-! ### The express path (R131, R132) -/

/-- The idle thread an express request uses: the lowest-numbered of the partition. -/
def idleThread (im : Image) (m : M) (p : Nat) : Option Nat :=
  (List.range 512).find? (fun t => im.spindleOwner (t / 4) == p && threadIdle m t)

/-- The conditions of R131 on the entry at HEAD, taken from the inline window of a doorbell of 4 units. -/
def expressOk (im : Image) (m : M) (p r : Nat) (b : List Byte) : Bool :=
  let c := Cue.ofBytes (bytesAt b 16 32)
  let l := slotLink c.slot
  m.flag .RNG_CFG_B_EXPRESS (pinst p r) && leAt b 1 1 == 2 && hdrUnits b == 4 && leAt b 2 1 == 1 &&
  reqCheck b 4 == 0 && (m.script p (leAt b 4 4)).isNone && c.exp && !c.cd && !c.cc && !c.susp && !c.idx &&
  ((c.isWrite && c.dsrc == 2 && decide (1 ≤ c.count ∧ c.count ≤ 16)) || (c.op == 3 && c.count == 0) || c.isRead) &&
  (dispQ m p).isEmpty && (idleThread im m p).isSome && m.covers 0 p 1 && m.covers 3 (fidx p l) 1 &&
  m.linkState l == lsActive && (m.link l).cmdq.isEmpty && decide (0 < (m.link l).cr.getD 0 0) &&
  !(heldBack m p r)

/-- EXPRESS_DISPATCH (R132): the script is taken, dispatched to an idle thread and its cue begins. -/
def expressStart (im : Image) (p r : Nat) (b : List Byte) (m : M) : M :=
  let tag := leAt b 4 4
  let t := (idleThread im m p).getD 0
  let op := (Cue.ofBytes (bytesAt b 16 32)).op
  let m := takeEntry im p r b false { m with lastRing := mapPut m.lastRing (p, 0) r }
  match m.script p tag with
  | none => m
  | some s => opDeviceCue im op t (startOn im s t m)

/-! ### Service (R143, R156) -/

/-- The rings of a partition that have state, in turn order: ascending, starting after the one served last. -/
def ringTurn (m : M) (p : Nat) : List Nat :=
  let rs := (m.rings.filter (fun e => e.1.1 == p && ringKind m p e.1.2 == 1)).map (fun e => e.1.2)
  match mapFind m.lastRing (p, 0) with
  | none => rs
  | some l => rs.filter (fun r => decide (l < r)) ++ rs.filter (fun r => decide (r ≤ l))

/-- Whether a ring's entry can be taken now. -/
def takeable (im : Image) (m : M) (p r : Nat) : Option (List Byte × Bool) :=
  if heldBack m p r then none else
  match headState m p r with
  | .ready b _ pre => if mayAct im m p b then some (b, pre) else none
  | _ => none

/-- The ring to be served next. -/
def nextRing (im : Image) (m : M) (p : Nat) : Option Nat :=
  (ringTurn m p).find? (fun r => (takeable im m p r).isSome)

/-- Serves the rings of a partition: one entry from each in turn while entries can be taken (R143). -/
def serveRings (im : Image) (p : Nat) : Nat → M → M
  | 0, m => m
  | k + 1, m =>
    let m := (ringTurn m p).foldl (fun m r => prepRing im p r m) m
    match nextRing im m p with
    | none => m
    | some r => match takeable im m p r with
      | none => m
      | some (b, pre) =>
        serveRings im p k (takeEntry im p r b pre { m with lastRing := mapPut m.lastRing (p, 0) r })

/-- Bound on the entries that can be waiting: the published units of every ring. -/
def serveFuel (m : M) (p : Nat) : Nat :=
  ((m.rings.filter (fun e => e.1.1 == p)).map (fun e => rAvail m p e.1.2)).sum + 1

/-- Takes whatever can be taken. -/
def serve (im : Image) (p : Nat) (m : M) : M :=
  if m.flag .HPT_STS_DRAINING (pinst p 0) then m else serveRings im p (serveFuel m p) m

/-- Space for scripts has appeared: partition p takes on, and then the others, since parked contexts serve them all (R76, R143). -/
def serveFrom (im : Image) (p : Nat) (m : M) : M :=
  ((List.range 8).filter (fun q => q != p && im.enabled q)).foldl (fun m q => serve im q m) (serve im p m)

/-! ### Doorbells -/

/-- Uses or ignores the inline window for the entry at the previous TAIL (R145). -/
def useWindow (p r prev n : Nat) (lap : Bool) (m : M) : M :=
  let x := m.ring p r
  let ok := x.mark && hdrPhase x.win == lap && decide (hdrUnits x.win ≤ 4) && decide (hdrUnits x.win ≤ n)
  let m := m.bump (if ok then .RNG_CNT_B_INLINE_USED else .RNG_CNT_B_INLINE_MISS) (pinst p 0)
  m.setRing p r { x with mark := false, inlq := if ok then x.inlq ++ [(prev, bytesAt x.win 0 (16 * hdrUnits x.win))] else x.inlq }

/-- A doorbell on a request ring (R144, R145, R158, R412). One that is out of range has no effect at all: it does not examine
the entry at HEAD again (log entry 92). -/
def ringTail (im : Image) (p r value : Nat) (m : M) : M :=
  let i := pinst p r
  let size := ringSize m p r
  let t := bitsAt value 0 16
  let prev := rTail m p r
  if size ≤ t then fireP im (0x030 + 4 * portOf im p) r p (m.setFlag .RNG_STS_DB_ERR i true)
  else
    let m := m.setRing p r { m.ring p r with blocked := false }
    if t = prev then serve im p m
    else
      let n := (t + size - prev) % size
      let lap := m.flag .RNG_STS_LAP i
      let m := m.setFld .RNG_STS_TAIL i t
      let m := if t < prev then
          let x := m.ring p r
          (m.setFlag .RNG_STS_LAP i (!lap)).setRing p r { x with
            pre := x.pre.map (fun c => if c.pub then c else { c with fresh := false })
            fetch := x.fetch.map (fun f => (f.1, f.2.1, f.2.2.1, false)) }
        else m
      let m := if bitAt value 63 then useWindow p r prev n lap m else m
      match bitAt value 63 && n == 4, (m.ring p r).inlq.find? (fun e => e.1 == prev), rHead m p r == prev with
      | true, some e, true =>
        if expressOk im m p r e.2 then serve im p (expressStart im p r e.2 m) else serve im p m
      | _, _, _ => serve im p m

/-- Moves held entries into the ring's free places in order (R157). -/
def releaseHeld (p r : Nat) : Nat → M → M
  | 0, m => m
  | k + 1, m =>
    let x := m.ring p r
    match x.held with
    | [] => m
    | e :: t =>
      if ringSize m p r < x.used + 2 * x.staged.length + 2 then m
      else releaseHeld p r k (stageEntry p r e (m.setRing p r { x with held := t }))

/-- Brings HELD and BACKED_UP up to date (R155, R157). -/
def syncHeld (p r : Nat) (m : M) : M :=
  let n := (m.ring p r).held.length
  let m := m.setFld .RNG_STS_HELD (pinst p r) n
  if n = 0 then m.setFlag .RNG_STS_BACKED_UP (pinst p r) false else m

/-- A doorbell on a status ring (R154, R157). INLINE sets DB_ERR whatever the head; an invalid head sets HEAD_ERR and adds no
DB_ERR of its own (log entry 91). -/
def ringHead (im : Image) (p r value : Nat) (m : M) : M :=
  let i := pinst p r
  let size := ringSize m p r
  let h := bitsAt value 0 16
  let x := m.ring p r
  let n := (h + size - rHead m p r) % size
  let m := if bitAt value 63 then m.setFlag .RNG_STS_DB_ERR i true else m
  if size ≤ h ∨ h % 2 = 1 ∨ x.used < n then
    fireP im (0x031 + 4 * portOf im p) r p (m.setFlag .RNG_STS_HEAD_ERR i true)
  else
    let m := (m.setFld .RNG_STS_HEAD i h).setRing p r { x with used := x.used - n }
    let m := irqSync im p (ringSrc r) m
    let m := syncHeld p r (releaseHeld p r x.held.length m)
    serve im p m

/-- RNG_DB (R137, R144, R154): ignored before the ring enable and on a ring that is OFF. -/
def opRngDb (im : Image) (p r value : Nat) (m : M) : M :=
  if im.partN p (·.ringCount) ≤ r then m
  else
    let m := if bitsAt value 16 47 ≠ 0 then
        match (List.finRange 8).find? (fun q => q.val == p) with
        | some q => setRsvd (.bar2 q) bkRng (r * 0x1000) m
        | none => m
      else m
    if ringLive im m p r then
      if ringKind m p r = 1 then ringTail im p r value m else ringHead im p r value m
    else m.bump .RNG_CNT_A_DB_IGNORED (pinst p 0)

/-- INLINE_WINDOW_WRITE (R145). -/
def opWindowWrite (im : Image) (p r off : Nat) (data : List Byte) (m : M) : M :=
  if im.partN p (·.ringCount) ≤ r then m
  else if ringLive im m p r then
    let x := m.ring p r
    m.setRing p r { x with mark := true, win := bytesAt x.win 0 off ++ data ++ x.win.drop (off + data.length) }
  else m.bump .RNG_CNT_A_DB_IGNORED (pinst p 0)

/-- A read that ended at the last unit of the ring goes on at unit 0 (06, "Prefetch beyond the tail"). -/
def fetchOn (p r b n : Nat) (m : M) : M :=
  let size := ringSize m p r
  if b + n = size ∧ 0 < n ∧ n < fetchUnits m p ∧ (m.ring p r).fetch.isNone ∧ size ≤ rHead m p r + 32 then
    readUnits p r 0 (fetchUnits m p - n) (rHead m p r + rAvail m p r - size) m
  else m

/-- Ring memory answers (R142, R412). Units that HEAD has passed, and those that have their copy, are not kept; a read issued
before TAIL crossed to unit 0 is of the pass before (R147). An error of a read that held no published unit only discards the
copy. -/
def ringAnswer (im : Image) (p r : Nat) (res : RdRes) (m : M) : M :=
  let x := m.ring p r
  match x.fetch with
  | none => m
  | some (b, n, e, f) =>
    match res with
    | .data d =>
      let cs := (List.range n).map (fun k => (⟨b + k, bytesAt d (16 * k) 16, decide (b + k < e), f⟩ : RCopy))
      let cs := cs.filter (fun c => !(decide (rHead m p r < b + n ∧ c.unit < rHead m p r)) && unitLacks x c.unit)
      serve im p (fetchOn p r b n (m.setRing p r { x with fetch := none, pre := x.pre ++ cs }))
    | _ => if e ≤ b then serve im p (m.setRing p r { x with fetch := none }) else
      (m.setRing p r { x with fetch := none, blocked := true, pre := [] }).setFlag .RNG_STS_FETCH_ERR (pinst p r) true

/-- REQUEST_FETCH_COMPLETE (R142); a completion timeout also counts at the host port (R412). -/
def opRequestFetchComplete (im : Image) (p r unit : Nat) (res : RdRes) (m : M) : M :=
  match (m.ring p r).fetch with
  | some (b, _, _, _) =>
    if b = unit then
      ringAnswer im p r res (dropPurp p (.ring r) (if res = .timeout then m.bump .HPT_CNT_CPL_TIMEOUT (pinst p 0) else m))
    else m
  | none => m

/-- Writes an entry and lets the script that waits for it go on (R157). -/
def writeWake (im : Image) (p r : Nat) (e : Entry) (m : M) : M :=
  let w := entryWakes m p r e
  let m := writeEntry im p r e m
  match w with
  | some tag => wakeEntry im p tag m
  | none => m

/-- Whether an entry may be written now: the port is open, nothing of it waits, and 32 bytes of budget are left. -/
def entryReady (m : M) (p : Nat) : Bool := portOpen m p && !((m.hostOf p).waitq.any (fun w => !w.2.ofOwner)) && m.covers 2 p 32

/-- Writes the oldest staged entry of a ring when the port can take it (R153). -/
def writeStaged (im : Image) (p : Nat) (m : M) (r : Nat) : M :=
  let x := m.ring p r
  match x.staged with
  | [] => m
  | e :: t => if entryReady m p then writeWake im p r e (m.setRing p r { x with staged := t }) else m

/-- STATUS_ENTRY_WRITE (R153, R155, R157): the oldest staged entry of the ring is written once the port can take it. -/
def opStatusEntryWrite (im : Image) (p r : Nat) (m : M) : M := writeStaged im p m r

/-- An entry held for D3hot joins its ring behind those that are staged or held there (R155, R270); until it is written,
interrupts do not commit (R332). -/
def joinRing (im : Image) (p : Nat) (m : M) (d : Nat × Entry) : M :=
  let e := { d.2 with d3 := true }
  if ringFull m p d.1 then holdEntry im p d.1 e m else stageEntry p d.1 e m

/-- The rings of a partition's staged entries, one for each entry. -/
def stagedRings (m : M) (p : Nat) : List Nat :=
  (m.rings.filter (fun e => e.1.1 == p)).flatMap (fun e => e.2.staged.map (fun _ => e.1.2))

/-- In D0 again, the entries held for D3hot are written behind those staged before, in completion order, while the port can take
them (R270). -/
def writeD3All (im : Image) (p : Nat) (m : M) : M :=
  let d := (m.hostOf p).d3q
  let l := stagedRings m p ++ d.map (·.1)
  let m := d.foldl (joinRing im p) (m.setHost p { m.hostOf p with d3q := [] })
  l.foldl (writeStaged im p) m

end Sys2Proof
end

