-- ==== Sys2Proof/Machine/LinkState.lean ====
section
/-! DEFINITION. Link states, link down, lanes, event FIFO entries and what a session leaves (09, R217 to R224, R251,
R353). -/

namespace Sys2Proof

/-- The octet of a link or lane. -/
def octetOf (l : Nat) : Nat := l / 8

/-! ### Event FIFO (R353, R354) -/

/-- An event entry as its word (R353): code, two arguments, TICK, and VALID. -/
def evtWord (m : M) (code a b : Nat) : Nat :=
  code + 2 ^ 8 * (a % 256) + 2 ^ 16 * (b % 256) + 2 ^ 32 * (m.fld .TCK_COUNT_COUNT 0 % 2 ^ 31) + 2 ^ 63

/-- Adds an entry of cycle t: behind the entries of earlier cycles, and among those of its own in ascending order of
CODE (R353). -/
def evtAdd (t w : Nat) : List (Nat × Nat) → List (Nat × Nat)
  | [] => [(t, w)]
  | e :: q => if e.1 = t ∧ w % 256 < e.2 % 256 then (t, w) :: e :: q else e :: evtAdd t w q

/-- Writes an entry to a link's event FIFO, overwriting the oldest of 32 (R354). -/
def evtPush (l code a b : Nat) (m : M) : M :=
  let w := evtWord m code a b
  let q := mapGet [] m.evt (l, 0)
  let r := evtAdd m.now w (if 32 ≤ q.length then q.drop 1 else q)
  let m := { m with evt := mapPut m.evt (l, 0) r }.setFld .TRC_EVT_STS_COUNT l r.length
  if 32 ≤ q.length then m.bump .TRC_EVT_STS_LOST l else m

/-! ### Lanes -/

/-- The lanes of a link's cut. -/
def cutLanes (im : Image) (l : Nat) : List Nat := (List.range (im.linkWidth l)).map (fun k => l + k)

/-- LNK_LANE.STATE of a lane. -/
def laneState (m : M) (k : Nat) : Nat := m.fld .LNK_LANE_STATE k

/-- Records a lane's state; a fault writes an event (R223, R353). -/
def setLane (l k st : Nat) (m : M) : M :=
  let m := m.setFld .LNK_LANE_STATE k st
  if 2 ≤ st then evtPush l 2 k st m else m

/-- Whether a lane is among the active lanes. -/
def laneActive (m : M) (k : Nat) : Bool := m.flag .LNK_LANE_ACTIVE k

/-- Clears the active lanes of a link. -/
def clearActive (im : Image) (l : Nat) (m : M) : M :=
  ((cutLanes im l).foldl (fun m k => m.setFlag .LNK_LANE_ACTIVE k false) m).setFld .LNK_STS_WIDTH l 0

/-- Enters a link state and writes its event (R218, R353). -/
def enterState (l st cause : Nat) (m : M) : M :=
  let m := (m.setFld .LNK_STS_STATE l st).setLink l { m.link l with since := m.now }
  evtPush l 1 st (if st = lsWait then cause else 0) m

/-! ### What a lost session does to scripts (R127, R251) -/

/-- The cue of rehearsal n returns to having no rehearsal (R123, R127): a confirmed one goes out as a CMD, behind any
STRIKE queued, or ends with LINK_DOWN when its link is gone. -/
def loseRehearsal (im : Image) (l n : Nat) (p tag sn : Nat) (m : M) : M :=
  match m.script p tag with
  | none => m
  | some s =>
    let s := { s with win := s.win.map (fun (c : PCue) => if c.sn = sn ∧ c.rhs = some n then { c with rhs := none, sent := false, lost := true } else c) }
    match s.win with
    | [] => m
    | c :: _ =>
      if c.sn = sn ∧ s.run.confirmed then
        if m.linkLive l then enqFrame l (.cmd p tag false) (m.setScript s)
        else endCue im p tag 0x16 0 (m.setScript s)
      else specWork im p tag (m.setScript s)

/-- Frees a rehearsal at link loss and handles its cue (R127). -/
def rhLinkLoss (im : Image) (l : Nat) (m : M) (e : Nat × Rehearsal) : M :=
  let r := e.2
  let m := releaseRh l e.1 m
  if r.detached ∨ r.st = .striking then m
  else if r.st = .committed then endCue im r.part r.tag 0x16 0 m
  else loseRehearsal im l e.1 r.part r.tag r.sn m

/-- A frame that waited on a link that went down: its cue ends with LINK_DOWN (R251); a queued REHEARSE is removed. -/
def frameLinkLoss (im : Image) (m : M) (f : QFrame) : M :=
  match f with
  | .cmd p tag _ => endCue im p tag 0x16 0 m
  | .rehearse p tag sn => match m.script p tag with
    | none => m
    | some s =>
      let u := ((s.win.find? (fun c => c.sn == sn)).map (·.runits)).getD 0
      let m := m.stageFree p u
      m.setScript { s with win := s.win.map (fun c => if c.sn = sn then { c with rq := false, runits := 0 } else c) }
  | _ => m

/-- The rank of what a waiting frame's loss decides. -/
def frameRank (m : M) (f : QFrame) : Nat :=
  match f with
  | .cmd p tag _ => threadRank m p tag
  | .rehearse p tag _ => threadRank m p tag
  | _ => 512

/-- The confirmed device cue of a script that has not begun ends with LINK_DOWN when its link or slot has gone, also while it
waits for stage space (R251). -/
def refuseCue (im : Image) (p tag : Nat) (m : M) : M :=
  match m.script p tag with
  | none => m
  | some s => match s.win with
    | [] => m
    | c :: _ =>
      if s.run.confirmed ∧ s.run.begun = false ∧ (s.st = .running ∨ s.st = .waiting) then
        match linkRefusal m c.cue with
        | some d => endScript im s (failEntry s c 0x16 d) m
        | none => m
      else m

/-- The same for every script, each at the rank of its thread. -/
def refusals (im : Image) (m : M) : List (Nat × (M → M)) :=
  m.scripts.map (fun e => (threadRank m e.1.1 e.1.2, refuseCue im e.1.1 e.1.2))

/-- The link-down event takes the session's state (R217, R251): tags are free, the backoff of the link stays. What it decides for
commands, frames and rehearsals comes as work by thread (R127, R153). -/
def sessionEnd (im : Image) (l : Nat) (m : M) : List (Nat × (M → M)) × M :=
  let k := m.link l
  let m := m.setLink l { LinkSt.init with since := k.since, backoff := k.backoff, retryAt := k.retryAt, cutWidth := k.cutWidth }
  let m := ((m.setFlag .LNK_STS_REKEYING l false).setFlag .LNK_CTL_REKEY_NOW l false).setFlag .LNK_CTL_REWIDEN l false
  let m := (m.setFld .LNK_STS_TX_GROUPS l 0).setFlag .LNK_OWN_TX_SEND l false
  let live := k.cmds.filter (fun c => !c.dead && !c.clear)
  (live.map (fun c => (threadRank m c.part c.tag, endCue im c.part c.tag 0x16 0)) ++
    k.cmdq.map (fun f => (frameRank m f, fun m => frameLinkLoss im m f)) ++
    (m.rhsOf l).map (fun e => (threadRank m e.2.part e.2.tag, fun m => rhLinkLoss im l m e)), m)

/-- sc in 1 ms. -/
def msSc : Nat := 2000000

/-- The backoff of the next attempt (R219): after a session, or an attempt that failed; a link in WAIT or DISABLED has made
none. -/
def setBackoff (wasUp : Bool) (l : Nat) (m : M) : M :=
  let k := m.link l
  if m.linkState l = lsWait ∨ m.linkState l = lsDisabled ∨ m.linkState l = lsOff then m
  else if wasUp then
    let b := if k.sessStart + 1000 * msSc ≤ m.now then 1 else k.backoff
    m.setLink l { k with backoff := b, retryAt := m.now + b * msSc }
  else m.setLink l { k with backoff := min 1024 (2 * k.backoff), retryAt := m.now + k.backoff * msSc }

/-- A link leaves whatever state it is in for WAIT or DISABLED (R218, R219): the cause is recorded, an up link has its
link-down event. -/
def leaveState (im : Image) (st cause : Nat) (conseq : Bool) (l : Nat) (m : M) : List (Nat × (M → M)) × M :=
  let up := m.linkLive l
  let m := if up ∨ st = lsWait then m.setFld .LNK_STS_LAST_CAUSE l cause else m
  let m := if up then (m.bump .LNK_CNT_B_DOWNS l).setFlag .LNK_STS_CONSEQ l conseq else m
  sessionEnd im l (clearActive im l (enterState l st cause (setBackoff up l m)))

/-- Links leave their states in one cycle; what that decides for scripts is decided in the order of their threads (R153, R251). -/
def leaveAll (im : Image) (ls : List Nat) (st cause : Nat) (conseq : Bool) (m : M) : M :=
  let (w, m) := ls.foldl (fun (acc : List (Nat × (M → M)) × M) l =>
    let (w, m) := leaveState im st cause conseq l acc.2
    (acc.1 ++ w, m)) ([], m)
  ls.foldl (fun m l => syncRhs l m) ((byRank (w ++ refusals im m)).foldl (fun m g => g m) m)

/-- The same for one link. -/
def leaveTo (im : Image) (l st cause : Nat) (conseq : Bool) (m : M) : M := leaveAll im [l] st cause conseq m

/-- WAIT with the backoff of R219. -/
def toWait (im : Image) (l cause : Nat) (m : M) : M := leaveTo im l lsWait cause false m

/-- WAIT with zero backoff (R218). -/
def zeroBackoff (l : Nat) (m : M) : M := m.setLink l { m.link l with retryAt := m.now, backoff := 1 }

/-- LAST_CAUSE codes. -/
def lcTrain : Nat := 1
/-- CROSSED. -/
def lcCrossed : Nat := 2
/-- AUTH_FAIL. -/
def lcAuthFail : Nat := 3
/-- AUTH_TIMEOUT. -/
def lcAuthTime : Nat := 4
/-- TAG. -/
def lcTag : Nat := 5
/-- CREDIT. -/
def lcCredit : Nat := 6
/-- PROTOCOL. -/
def lcProto : Nat := 7
/-- KEEPALIVE. -/
def lcKeep : Nat := 8
/-- REKEY. -/
def lcRekey : Nat := 9
/-- RETRAIN_FAIL. -/
def lcRetrain : Nat := 10
/-- CLOSE. -/
def lcClose : Nat := 11
/-- BLOCK_RESET. -/
def lcBlock : Nat := 12
/-- DISABLE. -/
def lcDisable : Nat := 13
/-- NO_REFCLK. -/
def lcRefclk : Nat := 14
/-- NO_LANES. -/
def lcNoLanes : Nat := 15

/-! ### Training blocks out (R220) -/

/-- The receiver that lane k of a cut uses: the mapping is reversed when the LANE indices came reversed (R221). -/
def rxLane (im : Image) (m : M) (l k : Nat) : Nat := if m.flag .LNK_STS_REVERSED l then im.linkWidth l - 1 - k else k

/-- A LNK_LANE.STATE that leaves the receiver of a lane without fault (R223). -/
def rxStateOk (s : Nat) : Bool := !(s == 3 || s == 4 || s == 6 || s == 7)

/-- A LNK_LANE.STATE that leaves its transmitter without fault (R223). -/
def txStateOk (s : Nat) : Bool := !(s == 2 || s == 4 || s == 5 || s == 8)

/-- GOOD bits the loom sends: the lanes it receives without fault (R220). -/
def goodMask (im : Image) (m : M) (l : Nat) : Nat :=
  ((List.range (im.linkWidth l)).filter (fun k => rxStateOk (laneState m (l + rxLane im m l k)) &&
    (((m.link l).trn.getD (rxLane im m l k) default).peer).isSome)).foldl (fun a k => a + 2 ^ k) 0

/-- The training block the loom sends on lane k of a link (R220): it supports every width and asks for no preset. -/
def trainPayload (im : Image) (m : M) (l k step w first : Nat) : Nat :=
  bitsPut 0x4E4C 0 16 + bitsPut k 16 3 + bitsPut 0xF 20 4 + bitsPut step 24 3 +
  bitsPut (m.fld .LNK_LANE_PRESET (l + k)) 32 4 + bitsPut (goodMask im m l) 36 8 + bitsPut w 44 4 + bitsPut first 48 8

/-- Sends a training block on one lane. -/
def sendTrain (im : Image) (l k step w first : Nat) (m : M) : M :=
  m.emit (.train l (l + k) (trainPayload im m l k step w first))

/-- Enters RETRAIN (R218, R222, R223): the session is kept, lanes are examined again; REWIDEN examines all of the cut at
the image width. -/
def toRetrain (im : Image) (l : Nat) (wide : Bool) (m : M) : M :=
  if m.linkState l ≠ lsActive then m else
  let m := enterState l lsRetrain 0 (m.bump .LNK_CNT_A_RETRAINS l)
  let k := m.link l
  let m := m.setLink l { k with trn := List.replicate (im.linkWidth l) default,
                                cutWidth := if wide then im.linkWidth l else m.fld .LNK_STS_WIDTH l }
  let m := if wide then (cutLanes im l).foldl (fun m k => m.setFld .LNK_LANE_STATE k 1) m else m
  (List.range (im.linkWidth l)).foldl (fun m k => sendTrain im l k 1 0 0 m) m

end Sys2Proof
end

