-- ==== Sys2Proof/Machine/LinkTx.lean ====
section
/-! DEFINITION. What the loom sends on a link (09, R225 to R237, R244 to R248): flits, command frames, data,
rehearsals, credit, management messages. -/

namespace Sys2Proof

/-- A 248-byte frame area from a frame's leading bytes (R225). -/
def frameArea (l : List Byte) : List Byte := bytesAt l 0 248

/-- Whether a link takes a new flit: state with flits, replay buffer not full (R217, R227), group counter of the current
key not spent (R240). -/
def mayFlit (m : M) (l : Nat) : Bool :=
  (m.linkState l == lsHand || (m.linkState l == lsActive && decide (m.fld .LNK_STS_TX_GROUPS l < (m.link l).keyLimit))) &&
    decide ((m.link l).replay.length < 512)

/-- Whether the next flit closes its group (R226): the 16th does, and one after which no other is ready. -/
def closesGroup (m : M) (l : Nat) (more : Bool) : Bool :=
  m.linkState l == lsActive && (!more || (m.link l).txOpen.length + 1 == 16)

/-- The loom's transmit direction goes over to the keys of a rekey; its group counter restarts (R240). -/
def switchTx (l : Nat) (m : M) : M :=
  let k := m.link l
  (m.setLink l { k with kTx := !k.kTx, txKeys := k.fresh, txSwitch := false }).setFld .LNK_STS_TX_GROUPS l 0

/-- What the end of a transmit group leaves: the counter rises, and a rekey that waits for it takes the direction (R226,
R240). -/
def groupClosed (l : Nat) (m : M) : M :=
  let m := m.setFld .LNK_STS_TX_GROUPS l (m.fld .LNK_STS_TX_GROUPS l + 1)
  if (m.link l).txSwitch then switchTx l m else m

/-- A flit with its bytes as transmitted (R225, R226). -/
def makeFlit (m : M) (l type vl : Nat) (frame : List Byte) (close : Bool) : TxFlit :=
  let k := m.link l
  let enc := m.linkState l == lsActive
  let f : TxFlit := ⟨k.txSeq, type, vl, close, enc && k.kTx, frameArea frame, []⟩
  let body := flitBody k.txKeys.l2d (groupNonce k.txKeys.l2dIv (m.fld .LNK_STS_TX_GROUPS l)) enc k.txOpen f
  { f with raw := flitRaw (flitHead f) body }

/-- Puts a flit on the wire. -/
def emitFlit (l : Nat) (f : TxFlit) (m : M) : M := m.emit (.flit l f.type f.vl f.seq f.close f.kphase f.area f.raw)

/-- Starts a flit (R225 to R227): it takes the next SEQ, closes its group at the 16th flit or when none is ready to
follow, and stays in the replay buffer. -/
def sendFlit (l type vl : Nat) (frame : List Byte) (more : Bool) (m : M) : M :=
  let k := m.link l
  let close := closesGroup m l more
  let f := makeFlit m l type vl frame close
  let m := (emitFlit l f m).setLink l { k with
    txSeq := (k.txSeq + 1) % 65536
    replay := k.replay ++ [f]
    lastTx := m.now
    txOpen := if m.linkState l == lsActive && !close then k.txOpen ++ [f] else [] }
  if close then groupClosed l m else m

/-- Credits held for a virtual lane. -/
def txCredit (m : M) (l vl : Nat) : Nat := (m.link l).cr.getD vl 0

/-- Spends one credit of a virtual lane (R236). -/
def spendCredit (l vl : Nat) (m : M) : M :=
  let k := m.link l
  m.setLink l { k with cr := k.cr.set vl (k.cr.getD vl 0 - 1) }

/-! ### Management messages (R235) -/

/-- Cuts a message into fragments of at most 224 bytes. -/
def fragments (type : Nat) : Nat → Nat → List Byte → List (Nat × Nat × Bool × List Byte)
  | 0, _, _ => []
  | n + 1, i, b => (type, i, decide (b.length ≤ 224), b.take 224) ::
      (if b.length ≤ 224 then [] else fragments type n (i + 1) (b.drop 224))

/-- A MGMT frame (R235). -/
def mgmtFrame (f : Nat × Nat × Bool × List Byte) : List Byte :=
  leBytes 1 f.1 ++ leBytes 1 f.2.1 ++ leBytes 1 (if f.2.2.1 then 1 else 0) ++ leBytes 1 0 ++ leBytes 2 f.2.2.2.length ++
  leBytes 2 0 ++ f.2.2.2

/-! ### The command virtual lane (R229, R230, R233, R244) -/

/-- The partition a queued frame is charged to; 8 for the frames of a partition reset (R60). -/
def frameOwner : QFrame → Nat
  | .cmd p _ _ => p
  | .rehearse p _ _ => p
  | .go p _ => p
  | .strike p _ => p
  | .abort p _ _ => p
  | .clear p _ => p

/-- The first queued frame that a predicate selects and that no earlier frame of its own partition holds back, with
budget for its flit (R59, R64). -/
def pickFrame (m : M) (l : Nat) (sel : QFrame → Bool) : List Nat → List QFrame → Option QFrame
  | _, [] => none
  | seen, f :: t =>
    let o := frameOwner f
    if sel f ∧ o ∉ seen ∧ (o = 8 ∨ m.covers 3 (fidx o l) 1) then some f else pickFrame m l sel (o :: seen) t

/-! ### What is ready to follow a flit (R226) -/

/-- The leading bytes of a transfer's answered elements, in order from an offset. -/
def readyBytes : Nat → List Elem → List Byte
  | _, [] => []
  | n, e :: t => if e.off = n ∧ e.st = .ok then e.data ++ readyBytes (n + e.len) t else []

/-- The script and transfer that supply a command's data. -/
def cmdXfer (m : M) (c : Cmd) : Option (Nat × Xfer) :=
  match m.script c.part c.tag with
  | none => none
  | some s => match s.win with
    | [] => none
    | k :: _ => cueXfer m c.part c.tag k.sn

/-- Whether a command has a DATA frame to send (R236, R245): bytes that its source has answered, or a LAST of its own. -/
def dataReady (m : M) (l : Nat) (c : Cmd) : Bool :=
  !(c.dead || c.clear || c.sentLast) && (c.opc == 1 || c.opc == 3) && m.covers 3 (fidx c.part l) 1 &&
  (match cmdXfer m c with
    | some (_, x) => !(readyBytes c.sent x.elems).isEmpty || (c.dst && c.sent == x.total)
    | none => false)

/-- Whether a CREDIT is due (R227): a NAK, the 32nd flit, or 128 sc after the oldest flit not acknowledged. -/
def creditDue (m : M) (l : Nat) : Bool :=
  let k := m.link l
  k.nakDue || decide (32 ≤ k.unacked) || (decide (0 < k.unacked) && decide (k.unackedAt + 128 ≤ m.now))

/-- Whether a flit other than KEEPALIVE is ready for the slot after the one that starts now (R226): a management fragment, a frame
of the command virtual lane, a DATA frame of a command but `tag`, or a CREDIT. -/
def flitReady (m : M) (l : Nat) (tag : Option Nat) : Bool :=
  let k := m.link l
  decide (k.replay.length + 1 < 512) &&
  ((!k.mgmtq.isEmpty && decide (0 < txCredit m l 3)) ||
   (decide (0 < txCredit m l 0) && (pickFrame m l (fun _ => true) [] k.cmdq).isSome) ||
   (decide (0 < txCredit m l 1) && k.cmds.any (fun c => some c.ctag != tag && dataReady m l c)) ||
   creditDue m l)

/-- Removes the first occurrence of a frame from the queue of a link. -/
def takeFrame (l : Nat) (f : QFrame) (m : M) : M := m.setLink l { m.link l with cmdq := (m.link l).cmdq.erase f }

/-- Charges one flit to a partition; the frames of a partition reset are charged to none (R60). -/
def chargeFlit (o l : Nat) (m : M) : M := if o = 8 then m else m.charge 3 (fidx o l) l 1

/-- Sends a frame of the command virtual lane: queue, credit, budget, flit. -/
def sendVl0 (l type : Nat) (f : QFrame) (frame : List Byte) (more : Bool) (m : M) : M :=
  let m := chargeFlit (frameOwner f) l (spendCredit l 0 (takeFrame l f m))
  sendFlit l type 0 frame (more || flitReady m l none) m

/-! ### Management messages that go out (R235) -/

/-- Sends management fragments in order while VL 3 credit lasts. -/
def pumpMgmt (l : Nat) : Nat → M → M
  | 0, m => m
  | n + 1, m =>
    match (m.link l).mgmtq with
    | [] => m
    | f :: t =>
      if mayFlit m l ∧ 0 < txCredit m l 3 then
        let m := spendCredit l 3 (m.setLink l { m.link l with mgmtq := t })
        pumpMgmt l n (sendFlit l 9 3 (mgmtFrame f) (flitReady m l none) m)
      else m

/-- Queues a management message and sends what credit allows (R235). -/
def sendMgmt (l type : Nat) (b : List Byte) (m : M) : M :=
  let k := m.link l
  let fs := fragments type 256 0 b
  let m := m.setLink l { k with mgmtq := k.mgmtq ++ fs }
  pumpMgmt l (k.mgmtq.length + fs.length) m

/-- CLOSE with a cause, before the link leaves a state that carries flits (R219). -/
def sendClose (l cause : Nat) (m : M) : M :=
  if m.linkState l = lsActive ∨ m.linkState l = lsHand then sendMgmt l 8 (leBytes 1 cause) m else m

/-- Takes a link down, or ends a failed attempt, with CLOSE (R218, R219). -/
def linkDown (im : Image) (l cause : Nat) (m : M) : M := toWait im l cause (sendClose l cause m)

/-! ### Command frames (R230, R244) -/

/-- A CMD or REHEARSE frame (R230). -/
def cmdFrame (ckind opc dcmd slot ctag hold count param : Nat) (imm : List Byte) : List Byte :=
  leBytes 1 ckind ++ leBytes 1 opc ++ leBytes 1 dcmd ++ leBytes 1 slot ++ leBytes 2 ctag ++ leBytes 1 imm.length ++
  leBytes 1 hold ++ leBytes 4 count ++ leBytes 4 param ++ imm

/-- The lowest free ordinary tag (R244). A tag whose ABORT still waits for its flit is not allotted: the endpoint sees a later
command's CMD after the ABORT (R247). -/
def freeTagOf (m : M) (l : Nat) : Option Nat :=
  ((List.range 4031).map (fun n => n + 64)).find? (fun t =>
    !((m.link l).cmds.any (fun c => c.ctag == t)) && !(abortWaits m l t))

/-- Adds a command record. -/
def addCmd (l : Nat) (c : Cmd) (m : M) : M := m.setLink l { m.link l with cmds := (m.link l).cmds ++ [c] }

/-- Changes the command of a tag. -/
def updCmd (l ctag : Nat) (g : Cmd → Cmd) (m : M) : M :=
  m.setLink l { m.link l with cmds := (m.link l).cmds.map (fun c => if c.ctag = ctag then g c else c) }

/-- Frees a command tag. -/
def dropCmd (l ctag : Nat) (m : M) : M :=
  m.setLink l { m.link l with cmds := (m.link l).cmds.filter (fun c => c.ctag != ctag) }

/-- The command of a tag. -/
def findCmd (m : M) (l ctag : Nat) : Option Cmd := (m.link l).cmds.find? (fun c => c.ctag == ctag)

/-- A command record at the start of its flit (R247). -/
def newCmd (m : M) (l ctag part tag : Nat) (dst : Bool) (opc slot count sent : Nat) : Cmd :=
  { ctag := ctag, part := part, tag := tag, dst := dst, opc := opc, slot := slot, count := count, sent := sent,
    sentLast := sent == count && sent != 0, recv := 0, last := false, grant := 0, timer := m.now, dead := false,
    clear := false, abortTick := none, limit := m.respLimit (l * 256 + slot), stuck := false }

/-- Marks the head cue of a script as sent to its devices once none of its CMD frames waits any more: a relay has two (R118). -/
def markSent (im : Image) (p tag : Nat) (m : M) : M :=
  let waits := m.links.any (fun e => e.2.cmdq.any (fun f => match f with | .cmd q u _ => q == p && u == tag | _ => false))
  match m.script p tag with
  | none => m
  | some s => if waits then m else specWork im p tag (m.setScript (setHead s (fun c => { c with sent := true })))

/-- A confirmed device cue's CMD flit starts (R230, R245, R251). -/
def startCmd (im : Image) (l p tag : Nat) (dst more : Bool) (f : QFrame) (m : M) : M :=
  match m.script p tag with
  | none => takeFrame l f m
  | some s =>
    match s.win with
    | [] => takeFrame l f m
    | c :: _ =>
      let slot := if dst then c.cue.dstSlot else c.cue.slot
      if (m.capOf slot).isNone then endCue im p tag 0x16 1 (takeFrame l f m)
      else match freeTagOf m l with
        | none => m
        | some t =>
          let total := groupTotal s.head
          let imm := if c.cue.isWrite && immediate s.head then groupInline s s.head else []
          let opc := if dst then 1 else if c.cue.op = 5 then 2 else c.cue.op
          let dcmd := if dst then bitsAt c.cue.param 0 8 else c.cue.cmd
          let param := if c.cue.op = 5 then 0 else c.cue.param
          let m := sendVl0 l 1 f (cmdFrame 1 opc dcmd (slotNum slot) t 0 total param imm) more m
          markSent im p tag (addCmd l (newCmd m l t p tag dst opc (slotNum slot) total imm.length) m)

/-- CMD (R230, R247, R248): a COMMAND, ABORT or CLEAR flit starts. -/
def opCmd (im : Image) (l : Nat) (more : Bool) (m : M) : M :=
  if m.linkState l ≠ lsActive ∨ mayFlit m l = false ∨ txCredit m l 0 = 0 then m else
  match pickFrame m l (fun f => match f with | .cmd .. => true | .abort .. => true | .clear .. => true | _ => false) []
      (m.link l).cmdq with
  | some (.cmd p tag dst) => startCmd im l p tag dst more (.cmd p tag dst) m
  | some (.abort p t slot) =>
    let m := sendVl0 l 1 (.abort p t slot) (cmdFrame 2 0 0 slot t 0 0 0 []) more m
    let m := updCmd l t (fun c => { c with abortTick := some (edgeCount m) }) m
    match m.rh l t with
    | some r => m.setRh l t { r with abortTick := some (edgeCount m) }
    | none => m
  | some (.clear p slot) =>
    match freeTagOf m l with
    | none => m
    | some t =>
      let m := sendVl0 l 1 (.clear p slot) (cmdFrame 3 0 0 (slotNum slot) t 0 0 0 []) more m
      addCmd l { newCmd m l t p 0 false 0 (slotNum slot) 0 0 with clear := true } m
  | _ => m

/-! ### Data out (R231, R245) -/

/-- Takes n bytes off the front of the elements. -/
def dropBytes : Nat → List Elem → List Elem
  | _, [] => []
  | 0, l => l
  | n, e :: t => if e.len ≤ n then dropBytes (n - e.len) t
    else { e with off := e.off + n, len := e.len - n, data := e.data.drop n } :: t

/-- A DATA frame (R231). -/
def dataFrame (ctag : Nat) (last : Bool) (off : Nat) (b : List Byte) : List Byte :=
  leBytes 2 ctag ++ leBytes 1 (if last then 1 else 0) ++ leBytes 1 b.length ++ leBytes 4 off ++ b

/-- The bytes of the next DATA frame of a command that has r bytes ready, and whether a flit follows it (R225, R226, R231): 240, or
224 in a flit that closes its group, and in one that leaves too little for another that would not close. -/
def dataCut (m : M) (l ctag part r : Nat) (more : Bool) : Nat × Bool :=
  let others := more || flitReady m l (some ctag)
  let own := decide (1 < txCredit m l 1) && m.covers 3 (fidx part l) 2
  let full := (m.link l).txOpen.length + 1 == 16
  let n := min (if !full && (others || (own && decide (240 < r))) then 240 else 224) r
  (n, others || (own && decide (n < r)))

/-- DATA_TRANSMIT (R236, R245): the next DATA frame of a write command, LAST on its final byte; after a short relay
source, LAST on the last byte it supplied or alone. -/
def opDataTransmit (im : Image) (l ctag : Nat) (more : Bool) (m : M) : M :=
  if m.linkState l ≠ lsActive ∨ mayFlit m l = false ∨ txCredit m l 1 = 0 then m else
  match findCmd m l ctag with
  | none => m
  | some c =>
    if c.dead ∨ c.clear ∨ c.sentLast ∨ (c.opc ≠ 1 ∧ c.opc ≠ 3) ∨ m.covers 3 (fidx c.part l) 1 = false then m else
    match cmdXfer m c with
    | none => m
    | some (cl, x) =>
      let r := readyBytes c.sent x.elems
      let (n, after) := dataCut m l ctag c.part r.length more
      let last := c.sent + n == x.total
      if n = 0 ∧ (c.dst = false ∨ last = false) then m
      else
        let m := sendFlit l 2 1 (dataFrame ctag last c.sent (r.take n)) after (chargeFlit c.part l (spendCredit l 1 m))
        let m := updCmd l ctag (fun c => { c with sent := c.sent + n, sentLast := last, timer := m.now }) m
        let w := x.who
        let g := fun (y : Xfer) => if y.who = w then { y with elems := dropBytes n y.elems } else y
        settleQueue im cl c.part (updQueue cl c.part g m)

/-! ### Rehearsals out (R119, R120, R122) -/

/-- Removes a queued REHEARSE that gets no number: its space is freed and its cue has no rehearsal (R119). -/
def unqueueRehearse (l p tag sn : Nat) (m : M) : M :=
  let m := takeFrame l (.rehearse p tag sn) m
  match m.script p tag with
  | none => m
  | some s =>
    let u := ((s.win.find? (fun c => c.sn == sn)).map (·.runits)).getD 0
    (m.stageFree p u).setScript { s with
      win := s.win.map (fun (c : PCue) => if c.sn = sn then { c with rq := false, runits := 0 } else c) }

/-- Total COUNT of the group that starts at a cue of a window. -/
def groupAt (sn : Nat) : List PCue → List PCue
  | [] => []
  | c :: t => if c.sn = sn then (c :: t).take (groupLen (c :: t)) else groupAt sn t

/-- Whether the conditions of R118 still hold for a queued REHEARSE as its flit is to start: rehearsal is on for the partition and
the slot, and every older device cue has been sent (R118, R242). -/
def stillRehearses (m : M) (s : Script) (c : PCue) : Bool :=
  (match m.capOf c.cue.slot with | some k => k.rehearse | none => false) && !(bitAt (m.fld .SPC_CTL_RHS_OFF 0) s.part) &&
  ((groupsOf s.win).takeWhile (fun g => (g.head?.map (·.sn)) != some c.sn)).all (fun g =>
    g.head?.all (fun x => !x.cue.isDevice || x.sent))

/-- REHEARSE (R119, R120, R230): the flit starts, the lowest free number is taken. -/
def opRehearse (im : Image) (l : Nat) (more : Bool) (m : M) : M :=
  if m.linkState l ≠ lsActive ∨ mayFlit m l = false ∨ txCredit m l 0 = 0 then m else
  match pickFrame m l (fun f => match f with | .rehearse .. => true | _ => false) [] (m.link l).cmdq with
  | some (.rehearse p tag sn) =>
    match m.script p tag, freeRhs m l with
    | none, _ => takeFrame l (.rehearse p tag sn) m
    | some _, none => unqueueRehearse l p tag sn m
    | some s, some n =>
      match groupAt sn s.win with
      | [] => takeFrame l (.rehearse p tag sn) m
      | c :: t =>
        if !(stillRehearses m s c) then unqueueRehearse l p tag sn m else
        let total := groupTotal (c :: t)
        let m := sendVl0 l 4 (.rehearse p tag sn)
          (cmdFrame 1 c.cue.op c.cue.cmd (slotNum c.cue.slot) n c.runits total c.cue.param []) more m
        let r : Rehearsal := ⟨p, tag, sn, c.cue.slot, .out, false, c.runits, total, [], false, edgeCount m, none, 0, 0,
          m.now, none, m.respLimit c.cue.slot, false⟩
        let m := m.setRh l n r
        let m := (syncRhs l m).bump .SPC_RHS_SENT (pinst p 0)
        let g := fun (c : PCue) => if c.sn = sn then { c with rhs := some n, rq := false, runits := 0, sent := true } else c
        specWork im p tag (m.setScript { s with win := s.win.map g })
  | _ => m

/-- Passes held or arrived data of a committed rehearsal on to the transfer of its cue, once that is posted (R122). -/
def feedRh (im : Image) (l n : Nat) (m : M) : M :=
  match m.rh l n with
  | none => m
  | some r =>
    if r.st ≠ .committed ∨ r.detached then m else
    match cueXfer m r.part r.tag r.sn with
    | none => m
    | some (cl, x) =>
      let b := r.data.take (x.total - x.avail)
      let av := x.avail + b.length
      let m := m.setRh l n { r with data := [] }
      let w := x.who
      settleQueue im cl r.part (updQueue cl r.part (fun y => if y.who = w then
        { y with data := y.data ++ b, avail := av, total := if r.last then min y.total av else y.total } else y) m)

/-- A GO flit has started for number n (R122, R247). -/
def commitRh (im : Image) (l : Nat) (m : M) (n : Nat) : M :=
  match m.rh l n with
  | none => m
  | some r =>
    if r.st = .confirmed then
      feedRh im l n (m.setRh l n { r with
        st := .committed, timer := m.now, limit := if (m.capOf r.slot).isSome then m.respLimit r.slot else r.limit })
    else m

/-- GO (R122, R124, R233): one still queued at the 224th edge does not start. -/
def opGo (im : Image) (l : Nat) (more : Bool) (m : M) : M :=
  if m.linkState l ≠ lsActive ∨ mayFlit m l = false ∨ txCredit m l 0 = 0 then m else
  let young := fun (n : Nat) => match m.rh l n with | some r => decide (edgeCount m < r.start + 224) | none => false
  match pickFrame m l (fun f => match f with | .go _ b => (setBits b 64).all young | _ => false) [] (m.link l).cmdq with
  | some (.go p mask) =>
    let m := (sendVl0 l 5 (.go p mask) (leBytes 8 mask) more m).bump .SPC_RHS_GO (pinst p 0)
    (setBits mask 64).foldl (commitRh im l) m
  | _ => m

/-- The partitions whose rehearsals a STRIKE frame names; one charged to no budget names those of a partition reset (R128). -/
def strikeParts (m : M) (l p mask : Nat) : List Nat :=
  if p < 8 then [p]
  else (List.range 8).filter (fun q => (setBits mask 64).any (fun n => match m.rh l n with | some r => r.part == q | none => false))

/-- STRIKE (R122, R233). -/
def opStrike (l : Nat) (more : Bool) (m : M) : M :=
  if m.linkState l ≠ lsActive ∨ mayFlit m l = false ∨ txCredit m l 0 = 0 then m else
  match pickFrame m l (fun f => match f with | .strike .. => true | _ => false) [] (m.link l).cmdq with
  | some (.strike p mask) =>
    let m := sendVl0 l 6 (.strike p mask) (leBytes 8 mask) more m
    (strikeParts m l p mask).foldl (fun m q => m.bump .SPC_RHS_STRIKE (pinst q 0)) m
  | _ => m

/-- REHEARSAL_WITHDRAWAL (R124): the 224th edge has come for a rehearsal in OUT or CONFIRMED. -/
def opWithdraw (im : Image) (l n : Nat) (m : M) : M :=
  match m.rh l n with
  | none => m
  | some r =>
    if (r.st = .out ∨ r.st = .confirmed) ∧ r.start + 224 ≤ edgeCount m then
      loseRehearsal im l n r.part r.tag r.sn ((strikeRh l n m).bump .SPC_RHS_MISS_WITHDRAWN (pinst r.part 0))
    else m

/-- REHEARSAL_NUMBER_RELEASE (R128): 288 edges after a partition reset. -/
def opNumberRelease (l n : Nat) (m : M) : M :=
  match m.rh l n with
  | none => m
  | some r => match r.freeAt with
    | some t => if t ≤ edgeCount m then releaseRh l n (dropStrike l n m) else m
    | none => m

/-! ### Credit and keepalive (R227, R228, R234, R237) -/

/-- Bytes of a transfer that lie in the stage space of its command (R237). -/
def xferHolds (x : Xfer) : Nat := x.data.length + ((x.elems.filter (fun y => y.st != .ok)).map (·.len)).sum

/-- The stage space of a command that takes data, in bytes, with what lies in it (R237): a relay's space (R90), or the space of a
READ or SENSE, of which the spec gives no size (log entry 107). -/
def recvSpace (m : M) (c : Cmd) : Option (Nat × Nat) :=
  match m.script c.part c.tag with
  | none => none
  | some s => match s.win with
    | [] => none
    | k :: _ =>
      let x := (cueXfer m c.part c.tag k.sn).map (·.2)
      some (if k.cue.op = 5 then (65536 * k.wunits, match x with | some x => x.data.length + x.held | none => 0)
        else (Config.readSpace, match x with | some x => xferHolds x | none => 0))

/-- Whether g more flits of credit fit the space of an ordinary command: all the data they may bring up to COUNT, for what comes
after it is discarded (R237, R246). -/
def cmdRoom (m : M) (c : Cmd) (g : Nat) : Bool :=
  match recvSpace m c with
  | none => true
  | some (space, held) => decide (held + min (240 * (c.grant + g)) (c.count - c.recv) ≤ space)

/-- The same for a rehearsal: once GO has started, its data leaves the space as it is placed (R122, R237). -/
def rhRoom (m : M) (r : Rehearsal) (g : Nat) : Bool :=
  if r.st = .committed then
    let x := match cueXfer m r.part r.tag r.sn with | some (_, x) => xferHolds x | none => 0
    decide (r.data.length + x + min (240 * (r.grant + g)) (r.total - r.recv) ≤ r.hold * 65536)
  else decide (r.recv + 240 * (r.grant + g) ≤ r.hold * 65536)

/-- Whether a grant of flits to a tag may be made: the command takes data and has had no LAST, its partition has receive budget,
and its space holds what the credit lets come (R59, R237). -/
def grantOk (m : M) (l : Nat) (g : Nat × Nat) : Option Nat :=
  if g.2 = 0 ∨ 65535 < g.2 then none
  else if g.1 < 64 then
    match m.rh l g.1 with
    | some r => if r.st = .striking ∨ r.detached ∨ r.last ∨ m.covers 4 (fidx r.part l) g.2 = false then none
      else if rhRoom m r g.2 then some r.part else none
    | none => none
  else match findCmd m l g.1 with
    | some c => if c.dead || c.clear || c.last || !(c.opc == 2 || c.opc == 4) || !(m.covers 4 (fidx c.part l) g.2) ||
        !(cmdRoom m c g.2) then none
      else some c.part
    | none => none

/-- Makes one grant: receive budget is charged (R59). -/
def makeGrant (l : Nat) (acc : List (Nat × Nat) × M) (g : Nat × Nat) : List (Nat × Nat) × M :=
  match grantOk acc.2 l g with
  | none => acc
  | some p =>
    let m := acc.2.charge 4 (fidx p l) l g.2
    let m := match m.rh l g.1 with
      | some r => if g.1 < 64 then m.setRh l g.1 { r with grant := r.grant + g.2, timer := m.now } else m
      | none => m
    let m := updCmd l g.1 (fun c => { c with grant := c.grant + g.2, timer := m.now }) m
    (acc.1 ++ [g], m)

/-- A CREDIT frame (R234). -/
def creditFrame (ack : Nat) (nak : Bool) (ret : List Nat) (gs : List (Nat × Nat)) : List Byte :=
  leBytes 2 ack ++ leBytes 1 (if nak then 1 else 0) ++ leBytes 1 0 ++ (ret.map (fun n => leBytes 2 n)).flatten ++
  leBytes 1 gs.length ++ leBytes 3 0 ++ (gs.map (fun g => leBytes 2 g.1 ++ leBytes 2 g.2)).flatten

/-- CREDIT_SEND (R227, R234, R237): acknowledgement, returned credits, NAK after a bad flit, and the grants that may be
made. -/
def opCreditSend (l : Nat) (grants : List (Nat × Nat)) (more : Bool) (m : M) : M :=
  if mayFlit m l = false then m else
  let (gs, m) := (grants.take 54).foldl (makeGrant l) ([], m)
  let k := m.link l
  let m := if k.nakDue then evtPush l 4 (min 4 (k.nakTx + 1)) 1 (m.bump .LNK_CNT_A_REPLAYS l) else m
  let rx := (List.range 4).map (fun v => k.rxCr.getD v 0 + k.ret.getD v 0)
  let m := m.setLink l { m.link l with rxCr := rx, ret := [0, 0, 0, 0], unacked := 0, nakDue := false,
                                       nakTx := if k.nakDue then k.nakTx + 1 else k.nakTx }
  sendFlit l 7 0 (creditFrame ((k.rxSeq + 65535) % 65536) k.nakDue k.ret gs) (more || flitReady m l none) m

/-- KEEPALIVE (R228): 10 µs without a flit sent. -/
def opKeepalive (l : Nat) (m : M) : M :=
  if mayFlit m l ∧ (m.link l).lastTx + 20000 ≤ m.now then sendFlit l 8 0 [] (flitReady m l none) m else m

/-- KEEPALIVE_LOST (R228): 100 µs in ACTIVE without a valid flit. -/
def opKeepaliveLost (im : Image) (l : Nat) (m : M) : M :=
  if m.linkState l = lsActive ∧ (m.link l).lastRx + 200000 ≤ m.now then linkDown im l lcKeep m else m

/-! ### Response timers (R247) -/

/-- The slot number of the command that a tag names. -/
def slotOfTag (m : M) (l ctag : Nat) : Nat :=
  match findCmd m l ctag with
  | some c => c.slot
  | none => match m.rh l ctag with | some r => slotNum r.slot | none => 0

/-- Queues an ABORT for a tag. -/
def sendAbort (l p ctag : Nat) (m : M) : M := enqFrame l (.abort p ctag (slotOfTag m l ctag)) m

/-- A cue ends while its command is outstanding and the command is aborted (R247): the tag stays in use. -/
def abortCmd (im : Image) (l ctag p tag status : Nat) (m : M) : M :=
  let m := updCmd l ctag (fun c => { c with dead := true }) m
  let m := match m.rh l ctag with
    | some r => if ctag < 64 then m.setRh l ctag { r with detached := true } else m
    | none => m
  endCue im p tag status 0 (sendAbort l p ctag m)

/-- RESPONSE_TIMEOUT (R247). -/
def opResponseTimeout (im : Image) (l ctag : Nat) (m : M) : M :=
  if m.linkState l ≠ lsActive then m
  else if ctag < 64 then
    match m.rh l ctag with
    | some r => if r.st = .committed ∧ r.detached = false ∧ r.timer + r.limit < m.now then
        abortCmd im l ctag r.part r.tag 0x15 m else m
    | none => m
  else match findCmd m l ctag with
    | some c => if !c.dead && !c.clear && decide (c.timer + c.limit < m.now) then
        abortCmd im l ctag c.part c.tag 0x15 m else m
    | none => m

/-- Whether an ABORT has waited 256 tk for its answer (R247). -/
def abortLate (m : M) (o : Option Nat) : Bool := match o with | some t => decide (t + 256 ≤ edgeCount m) | none => false

/-- ABORT_UNANSWERED (R247): 256 edges after an ABORT the source fires, once; the tag stays out of use. -/
def opAbortUnanswered (im : Image) (l ctag : Nat) (m : M) : M :=
  let go := fun (m : M) => fireL im (0x0D3 + 8 * octetOf l) (l + 2 ^ 16 * ctag) l (evtPush l 9 (ctag % 256) (ctag / 256) m)
  match findCmd m l ctag, m.rh l ctag with
  | some c, _ => if abortLate m c.abortTick && !c.stuck then go (updCmd l ctag (fun c => { c with stuck := true }) m) else m
  | none, some r => if abortLate m r.abortTick && !r.stuck then go (m.setRh l ctag { r with stuck := true }) else m
  | none, none => m

end Sys2Proof
end

