-- ==== Sys2Proof/Machine/LinkRx.lean ====
section
/-! DEFINITION. What the loom does with a flit it receives (09: R225 to R227, R234 to R242, R245 to R253; 05: R122). -/

namespace Sys2Proof

/-! ### Flits (R225 to R227) -/

/-- A received flit's CRC (R225). -/
def flitCrcOk (raw : List Byte) : Bool := crc32 (raw.take 252) == leAt raw 252 4

/-! ### Protocol errors (R253) -/

/-- Records a frame that breaks row `row` of R253: its event, and for rows 1 to 7 the fault. -/
def protoErr (im : Image) (l row type : Nat) (m : M) : M :=
  let m := if row = 4 ∨ row = 5 ∨ row = 6 then m.bump .LNK_CNT_B_PROTO l
    else if row = 7 then m.bump .LNK_CNT_B_STRAY l else m
  let m := evtPush l 7 row type m
  if row < 8 then fireL im (0x0D2 + 8 * octetOf l) (l + 2 ^ 8 * row + 2 ^ 16 * type) l m else m

/-- A row that takes the link down (R253). -/
def protoDown (im : Image) (l row type cause : Nat) (m : M) : M := protoErr im l row type (linkDown im l cause m)

/-- A command in use breaks the rules: its cue ends with DEVICE_PROTOCOL and ABORT is sent (R247, R253). A command whose
cue has ended already has no more to end. -/
def protoCmd (im : Image) (l row type ctag : Nat) (m : M) : M :=
  let m := match findCmd m l ctag, m.rh l ctag with
    | some c, _ => if c.dead || c.clear then m else abortCmd im l ctag c.part c.tag 0x14 m
    | none, some r => abortCmd im l ctag r.part r.tag 0x14 m
    | none, none => m
  protoErr im l row type m

/-- A rehearsal protocol error in OUT or CONFIRMED (R122): STRIKING, counted, fault; its cue has no rehearsal any more
(R123). -/
def rhCount (im : Image) (l n p : Nat) (m : M) : M :=
  let m := (m.bump .SPC_RHS_MISS_PROTOCOL (pinst p 0)).bump .SPC_LINK_PROTOCOL l
  fireL im 0x074 (Config.infoPack 0x074 l n) l (evtPush l 8 n 0 m)

/-- The rehearsal becomes STRIKING by a protocol error. -/
def rhProto (im : Image) (l n : Nat) (m : M) : M :=
  match m.rh l n with
  | none => m
  | some r => loseRehearsal im l n r.part r.tag r.sn (rhCount im l n r.part (strikeRh l n m))

/-- Whether a tag names a command in use (R253). -/
def tagInUse (m : M) (l ctag : Nat) : Bool :=
  if ctag < 64 then (match m.rh l ctag with | some r => r.st == .committed && !r.detached | none => false)
  else (findCmd m l ctag).isSome

/-! ### STRUCK (R122) -/

/-- One number of a STRUCK frame. -/
def struckOne (im : Image) (l : Nat) (m : M) (n : Nat) : M :=
  match m.rh l n with
  | none => m.bump .SPC_LINK_STRAY l
  | some r =>
    match r.st with
    | .striking => releaseRh l n (dropStrike l n m)
    | .committed =>
      if r.detached && abortLate m r.abortTick then m else
      let m := releaseRh l n m
      if r.detached then m else rhCount im l n r.part (endCue im r.part r.tag 0x14 0 m)
    | _ =>
      let m := releaseRh l n (dropGo l n m)
      loseRehearsal im l n r.part r.tag r.sn
        ((m.bump .SPC_RHS_AUTO (pinst r.part 0)).bump .SPC_LINK_AUTO l)

/-! ### DATA and STATUS for a cue -/

/-- New bytes from the device reach the transfer of a cue (R181, R245): bytes beyond its total are discarded (R246). -/
def giveData (im : Image) (p tag sn : Nat) (b : List Byte) (last : Bool) (m : M) : M :=
  match cueXfer m p tag sn with
  | none => m
  | some (cl, x) =>
    let b := b.take (x.total - x.avail)
    let av := x.avail + b.length
    let w := x.who
    let g := fun (y : Xfer) => if y.who = w then
      { y with data := y.data ++ b, avail := av, total := if last then min y.total av else y.total } else y
    settleQueue im cl p (updQueue cl p g m)

/-- Serial number of the confirmed cue of a script. -/
def headSn (m : M) (p tag : Nat) : Nat :=
  match m.script p tag with
  | some s => match s.win with | c :: _ => c.sn | [] => 0
  | none => 0

/-- A device status reaches the confirmed cue of a script (R101, R181): `dst` from a relay's destination. -/
def cueStatus (im : Image) (p tag : Nat) (dst : Bool) (devstat xfer : Nat) (m : M) : M :=
  match m.script p tag with
  | none => m
  | some s =>
    let run := if dst then { s.run with status2 := some (devstat, xfer) } else { s.run with status := some (devstat, xfer) }
    let m := m.setScript { s with dev := devstat, side := dst, attn := s.attn || bitAt devstat 4, run := run }
    let m := if dst then m else giveData im p tag (headSn m p tag) [] (match s.win with
      | c :: _ => !c.cue.isWrite
      | [] => false) m
    evalCue im p tag m

/-- The attention latch of a slot (R92). -/
def attention (im : Image) (l slot devstat : Nat) (m : M) : M :=
  if bitAt devstat 4 then setAttn im (l * 256 + slot) m else m

/-! ### Frames -/

/-- The bytes of a frame area after n, up to the end of the frame, are zero (R225, R229). -/
def areaTail (f : RxFrame) (n : Nat) : Bool := zeroAt f.area n ((if f.close then 232 else 248) - n)

/-- A malformed DATA frame (R231). -/
def dataBad (f : RxFrame) : Bool :=
  let n := leAt f.area 3 1
  f.rsv || decide (4096 ≤ leAt f.area 0 2) || decide (2 ≤ leAt f.area 2 1) || n == 0 ||
    decide ((if f.close then 224 else 240) < n) || !(areaTail f (8 + n))

/-- A malformed STATUS frame (R232). -/
def statusBad (f : RxFrame) : Bool := f.rsv || decide (4096 ≤ leAt f.area 0 2) || !(areaTail f 8)

/-- Whether an acknowledged SEQ is one the loom may have an answer to (R227). -/
def ackOk (k : LinkSt) (a : Nat) : Bool :=
  match k.replay with
  | [] => (a + 1) % 65536 == k.txSeq
  | x :: _ => (a + 1) % 65536 == x.seq || k.replay.any (fun y => y.seq == a)

/-- A malformed CREDIT frame (R234). -/
def creditBad (k : LinkSt) (f : RxFrame) : Bool :=
  f.rsv || decide (2 ≤ leAt f.area 2 1) || leAt f.area 3 1 != 0 || leAt f.area 12 1 != 0 || !(areaTail f 13) ||
    !(ackOk k (leAt f.area 0 2))

/-- A malformed MGMT frame (R235). -/
def mgmtBad (f : RxFrame) : Bool :=
  let n := leAt f.area 4 2
  f.rsv || decide (2 ≤ leAt f.area 2 1) || leAt f.area 3 1 != 0 || leAt f.area 6 2 != 0 || n == 0 ||
    decide (224 < n) || !(areaTail f (8 + n))

/-! ### CREDIT (R227, R234, R236) -/

/-- The flits of a replay buffer after an acknowledged SEQ. -/
def afterAck (a : Nat) : List TxFlit → List TxFlit
  | [] => []
  | f :: t => if f.seq = a then t else afterAck a t

/-- Resends flits as they were (R226, R227). -/
def resend (l : Nat) (fs : List TxFlit) (m : M) : M :=
  let m := fs.foldl (fun m f => emitFlit l f m) m
  if fs.isEmpty then m else m.setLink l { m.link l with lastTx := m.now }

/-- A well-formed CREDIT (R227): flits are acknowledged, credits return, and a NAK makes the loom replay; the fourth for
one SEQ starts RETRAIN. -/
def rxCredit (im : Image) (l : Nat) (f : RxFrame) (m : M) : M :=
  let k := m.link l
  let a := leAt f.area 0 2
  let rest := if k.replay.any (fun y => y.seq == a) then afterAck a k.replay else k.replay
  let cr := (List.range 4).map (fun v => k.cr.getD v 0 + leAt f.area (4 + 2 * v) 2)
  let nak := leAt f.area 2 1 == 1
  let n := if k.nakSeq = some a then k.nakCnt + 1 else 1
  let m := m.setLink l { k with replay := rest, cr := cr }
  let m :=
    if !nak then m
    else
      let m := (m.setLink l { m.link l with nakSeq := some a, nakCnt := n }).bump .LNK_CNT_A_REPLAYS l
      if 4 ≤ n ∧ m.linkState l = lsActive then
        let m := toRetrain im l false m
        evtPush l 4 4 0 (m.setLink l { m.link l with nakSeq := none, nakCnt := 0 })
      else evtPush l 4 (min 4 n) 0 (resend l rest m)
  pumpMgmt l 256 m

/-! ### MGMT (R235, R238, R240, R242, R250) -/

/-- The entries of a CAP message; `none` when it is malformed (R242). -/
def capEntries (b : List Byte) : Option (List Cap) :=
  let n := leAt b 0 2
  let es := (List.range n).map (fun i =>
    (leAt b (4 + 4 * i) 1, leAt b (5 + 4 * i) 1, leAt b (6 + 4 * i) 2))
  if n ≤ 256 ∧ leAt b 2 2 = 0 ∧ b.length = 4 + 4 * n ∧ es.all (fun e => decide (e.2.1 < 4) && decide (1 ≤ e.2.2)) ∧
      (es.map (·.1)).Pairwise (· < ·) then
    some (es.map (fun e => ⟨e.1, bitAt e.2.1 0, bitAt e.2.1 1, e.2.2⟩))
  else none

/-- The slot a queued CMD frame goes to. -/
def cmdSlot (m : M) (p tag : Nat) (dst : Bool) : Option Nat :=
  match m.script p tag with
  | none => none
  | some s => match s.win with
    | [] => none
    | c :: _ => some (if dst then c.cue.dstSlot else c.cue.slot)

/-- A cue whose CMD waits for a slot that is no longer present ends with LINK_DOWN, detail 1 (R251, R253). -/
def capGone (im : Image) (l : Nat) (m : M) (f : QFrame) : M :=
  match f with
  | .cmd p tag dst => match cmdSlot m p tag dst with
    | some slot => if (m.capOf slot).isNone then endCue im p tag 0x16 1 (takeFrame l f m) else m
    | none => m
  | _ => m

/-- CAP (R242). -/
def rxCap (im : Image) (l : Nat) (es : List Cap) (m : M) : M :=
  let m := m.setLink l { m.link l with caps := es }
  let here := es.filter (·.present)
  let m := evtPush l 6 (min 255 here.length) (min 255 (here.filter (·.rehearse)).length) m
  (byRank ((m.link l).cmdq.map (fun f => (frameRank m f, fun m => capGone im l m f)) ++ refusals im m)).foldl (fun m g => g m) m

/-- Places an OWNER message in the receive area (R250). -/
def placeOwner (im : Image) (l : Nat) (b : List Byte) (m : M) : M :=
  let m := { m with stage := memWrite m.stage (m.fld .LNK_OWN_RX_OFF l) b }
  let m := (m.setFld .LNK_OWN_RX_RX_LEN l b.length).setFlag .LNK_OWN_RX_RX_FULL l true
  irqSync im 8 (0x980 + l) m

/-- A whole OWNER message: placed, or held while the area is full (R250). -/
def rxOwner (im : Image) (l : Nat) (b : List Byte) (m : M) : M :=
  let k := m.link l
  if m.flag .LNK_OWN_RX_RX_FULL l then
    m.setLink l { k with ownHeld := k.ownHeld ++ [(k.rxOwed, b)], rxOwed := 0 }
  else placeOwner im l b m

/-- RX_ACK (R250): the area is free; the next held message is placed and its credits return. -/
def opRxAck (im : Image) (l : Nat) (m : M) : M :=
  if isLink im l = false then m else
  let m := irqSync im 8 (0x980 + l) (m.setFlag .LNK_OWN_RX_RX_FULL l false)
  let k := m.link l
  match k.ownHeld with
  | [] => m.setLink l { k with ret := k.ret.set 3 (k.ret.getD 3 0 + k.rxOwed), rxOwed := 0 }
  | (n, b) :: t =>
    placeOwner im l b (m.setLink l { k with ownHeld := t, ret := k.ret.set 3 (k.ret.getD 3 0 + n) })

/-- REKEY_R (R240): new keys are derived; the loom switches its transmit key and inverts KPHASE, once the group it has open
closes; groups of the old phase are accepted until the first of the new one. -/
def rxRekey (l : Nat) (b : List Byte) (m : M) : M :=
  let k := m.link l
  let keys := match k.share with | some n => rekeyKeys n k.txKeys.next b | none => k.fresh
  let m := m.setLink l { k with fresh := keys, txSwitch := true, kOld := true, share := none, hs := 6 }
  if k.txOpen.isEmpty then switchTx l m else m

/-- Whether a complete message of a type is in order now (R238, R240). -/
def mgmtInOrder (m : M) (l t : Nat) : Bool :=
  let k := m.link l
  if m.linkState l = lsHand then (t == 2 && k.hs == 1) || (t == 4 && k.hs == 3) || t == 8
  else t == 5 || t == 8 || t == 9 || (t == 7 && k.rekeying && k.hs == 5)

/-- A complete management message. -/
def rxMgmt (im : Image) (l t : Nat) (b : List Byte) (m : M) : M :=
  let k := m.link l
  if t = 2 then m.setLink l { k with hs := 2, helloR := b }
  else if t = 4 then m.setLink l { k with hs := 4, fin := b }
  else if t = 5 then (match capEntries b with
    | some es => rxCap im l es m
    | none => protoErr im l 6 9 m)
  else if t = 7 then (if b.length = 1665 then rxRekey l b m else protoErr im l 6 9 m)
  else if t = 8 then (if m.linkLive l then linkDown im l lcClose m else m)
  else if t = 9 then rxOwner im l b m
  else m

/-- A MGMT frame in order (R235): it joins the message in assembly; its buffer's credit returns unless it holds an OWNER
message that waits (R250). -/
def rxFragment (im : Image) (l : Nat) (f : RxFrame) (m : M) : M :=
  let t := leAt f.area 0 1
  let b := bytesAt f.area 8 (leAt f.area 4 2)
  let k := m.link l
  let whole := (match k.rxMsg with | some (_, _, x) => x | none => []) ++ b
  let hold := t == 9 && m.flag .LNK_OWN_RX_RX_FULL l
  let k := if hold then { k with rxOwed := k.rxOwed + 1 } else { k with ret := k.ret.set 3 (k.ret.getD 3 0 + 1) }
  if leAt f.area 2 1 = 1 then rxMgmt im l t whole (m.setLink l { k with rxMsg := none })
  else m.setLink l { k with rxMsg := some (t, leAt f.area 1 1 + 1, whole) }

/-- Row 3 of R253: a message out of order, a reserved MTYPE, or fragments that are not consecutive. -/
def mgmtRow3 (m : M) (l : Nat) (f : RxFrame) : Bool :=
  let t := leAt f.area 0 1
  let i := leAt f.area 1 1
  !(mgmtInOrder m l t) || (match (m.link l).rxMsg with
    | some (t2, n, _) => t2 != t || n != i
    | none => i != 0)

/-! ### DATA (R231, R245, R246) -/

/-- Credit left for a DATA frame's tag (R237); `none` for a tag that is not in use. -/
def tagGrant (m : M) (l ctag : Nat) : Option Nat :=
  if ctag < 64 then (m.rh l ctag).map (·.grant) else (findCmd m l ctag).map (·.grant)

/-- Spends one flit of a tag's credit. -/
def spendGrant (l ctag : Nat) (m : M) : M :=
  if ctag < 64 then (match m.rh l ctag with | some r => m.setRh l ctag { r with grant := r.grant - 1 } | none => m)
  else updCmd l ctag (fun c => { c with grant := c.grant - 1 }) m

/-- DATA for a rehearsal number (R122). -/
def rxDataRh (im : Image) (l n : Nat) (f : RxFrame) (m : M) : M :=
  match m.rh l n with
  | none => m.bump .SPC_LINK_STRAY l
  | some r =>
    let off := leAt f.area 4 4
    let b := bytesAt f.area 8 (leAt f.area 3 1)
    let last := leAt f.area 2 1 == 1
    let order := off == r.recv && !r.last
    match r.st with
    | .striking => m
    | .committed =>
      if r.detached then m
      else if dataBad f then protoCmd im l 5 2 n m
      else if !order ∨ r.total + 2 ^ 20 < r.recv + b.length then protoCmd im l 8 2 n m
      else feedRh im l n (m.setRh l n { r with data := r.data ++ b, recv := r.recv + b.length, last := last, timer := m.now })
    | _ =>
      if dataBad f ∨ !order ∨ r.hold * 65536 < r.recv + b.length then rhProto im l n m
      else m.setRh l n { r with data := r.data ++ b, recv := r.recv + b.length, last := last }

/-- DATA for an ordinary tag (R245, R246). -/
def rxDataCmd (im : Image) (l ctag : Nat) (f : RxFrame) (m : M) : M :=
  match findCmd m l ctag with
  | none => protoErr im l (if dataBad f then 6 else 7) 2 m
  | some c =>
    let b := bytesAt f.area 8 (leAt f.area 3 1)
    let last := leAt f.area 2 1 == 1
    if dataBad f then protoCmd im l 5 2 ctag m
    else if c.dead ∨ c.clear then m
    else if c.opc = 1 ∨ c.opc = 3 ∨ c.last ∨ leAt f.area 4 4 ≠ c.recv ∨ c.count + 2 ^ 20 < c.recv + b.length then
      protoCmd im l 8 2 ctag m
    else
      let m := updCmd l ctag (fun c => { c with recv := c.recv + b.length, last := last, timer := m.now }) m
      giveData im c.part c.tag (headSn m c.part c.tag) b last m

/-! ### STATUS (R232, R245, R249) -/

/-- The data of a rehearsal that is freed by its STATUS stays with its cue until a transfer takes it (R122). -/
def keepData (r : Rehearsal) (m : M) : M :=
  match m.script r.part r.tag, cueXfer m r.part r.tag r.sn with
  | some s, none => m.setScript { s with run := { s.run with kept := s.run.kept ++ r.data } }
  | _, _ => m

/-- STATUS for a rehearsal number (R122, R245). -/
def rxStatusRh (im : Image) (l n : Nat) (f : RxFrame) (m : M) : M :=
  match m.rh l n with
  | none => m.bump .SPC_LINK_STRAY l
  | some r =>
    let d := leAt f.area 2 1
    let slot := leAt f.area 3 1
    let x := leAt f.area 4 4
    let att := fun (m : M) => if statusBad f || slot != slotNum r.slot then m else attention im l slot d m
    match r.st with
    | .striking => att m
    | .committed =>
      if r.detached then (if abortLate m r.abortTick then att m else releaseRh l n (att m))
      else if statusBad f then protoCmd im l 5 3 n m
      else if slot ≠ slotNum r.slot ∨ x ≠ r.recv ∨ (0 < r.recv ∧ r.last = false) then protoCmd im l 8 3 n (att m)
      else cueStatus im r.part r.tag false d x (keepData r (releaseRh l n (att m)))
    | _ => rhProto im l n (att m)

/-- STATUS for an ordinary tag (R245, R247, R248). -/
def rxStatusCmd (im : Image) (l ctag : Nat) (f : RxFrame) (m : M) : M :=
  let d := leAt f.area 2 1
  let slot := leAt f.area 3 1
  let x := leAt f.area 4 4
  match findCmd m l ctag with
  | none => protoErr im l (if statusBad f then 6 else 7) 3 m
  | some c =>
    if statusBad f then protoCmd im l 5 3 ctag m
    else if c.dead ∨ c.clear then
      let m := if slot = c.slot then attention im l slot d m else m
      if abortLate m c.abortTick then m else dropCmd l ctag m
    else
      let w := c.opc == 1 || c.opc == 3
      if slot ≠ c.slot ∨ (w = true ∧ c.sent < x) ∨ (w = false ∧ (x ≠ c.recv ∨ (0 < c.recv ∧ c.last = false))) then
        protoCmd im l 8 3 ctag (if slot = c.slot then attention im l slot d m else m)
      else cueStatus im c.part c.tag c.dst d x (dropCmd l ctag (attention im l slot d m))

/-- Unsolicited STATUS (R249). -/
def rxUnsolicited (im : Image) (l : Nat) (f : RxFrame) (m : M) : M :=
  let d := leAt f.area 2 1
  let slot := leAt f.area 3 1
  if statusBad f ∨ bitsAt d 5 3 ≠ 0 ∨ (m.capOf (l * 256 + slot)).isNone then protoErr im l 6 3 m
  else attention im l slot d m

/-! ### One frame, one group, one flit -/

/-- The virtual lane R229 gives a type from an endpoint; `none` for a type it may not send. -/
def rxVl : Nat → Option Nat
  | 2 => some 1
  | 3 => some 2
  | 6 => some 2
  | 7 => some 0
  | 8 => some 0
  | 9 => some 3
  | _ => none

/-- Row 1 of R253: a frame without credit, DATA beyond a tag's grant, a return beyond what was spent (R237). -/
def creditViolation (m : M) (l : Nat) (f : RxFrame) : Bool :=
  let k := m.link l
  if f.type = 3 ∨ f.type = 6 then k.rxCr.getD 2 0 == 0
  else if f.type = 9 then k.rxCr.getD 3 0 == 0
  else if f.type = 2 then tagGrant m l (leAt f.area 0 2) == some 0
  else if f.type = 7 then
    (List.range 4).any (fun v => decide (k.crMax.getD v 0 < k.cr.getD v 0 + leAt f.area (4 + 2 * v) 2))
  else false

/-- The buffer of a discarded management frame is free again (R236). -/
def freeVl3 (l type : Nat) (m : M) : M :=
  if type = 9 then m.setLink l { m.link l with ret := (m.link l).ret.set 3 ((m.link l).ret.getD 3 0 + 1) } else m

/-- A frame that passed rows 1 to 4 (R253). -/
def rxByType (im : Image) (l : Nat) (f : RxFrame) (m : M) : M :=
  let ctag := leAt f.area 0 2
  match f.type with
  | 2 => if ctag < 64 then rxDataRh im l ctag f (spendGrant l ctag m) else rxDataCmd im l ctag f (spendGrant l ctag m)
  | 3 => if ctag = 0xFFF then rxUnsolicited im l f m
    else if ctag < 64 then rxStatusRh im l ctag f m else rxStatusCmd im l ctag f m
  | 6 => if f.rsv ∨ leAt f.area 0 8 = 0 ∨ areaTail f 8 = false then protoErr im l 6 6 m
    else (byRank ((setBits (leAt f.area 0 8) 64).map (fun n =>
      ((match m.rh l n with | some r => threadRank m r.part r.tag | none => 512), fun m => struckOne im l m n)))).foldl (fun m g => g m) m
  | 7 => if creditBad (m.link l) f then protoErr im l 6 7 m else rxCredit im l f m
  | 8 => if f.rsv ∨ areaTail f 0 = false then protoErr im l 6 8 m else m
  | _ => if mgmtBad f then protoErr im l 6 9 (freeVl3 l 9 m) else rxFragment im l f m

/-- Takes a pool buffer for a frame and, for VL 2, gives it back: the frame is acted on at once (R236). -/
def takeBuffer (l : Nat) (f : RxFrame) (m : M) : M :=
  let k := m.link l
  if f.type = 3 ∨ f.type = 6 then
    m.setLink l { k with rxCr := k.rxCr.set 2 (k.rxCr.getD 2 0 - 1), ret := k.ret.set 2 (k.ret.getD 2 0 + 1) }
  else if f.type = 9 then m.setLink l { k with rxCr := k.rxCr.set 3 (k.rxCr.getD 3 0 - 1) }
  else m

/-- One received frame, judged by the rows of R253 in order. -/
def rxFrame (im : Image) (l : Nat) (m : M) (f : RxFrame) : M :=
  let hand := m.linkState l == lsHand
  if !(m.linkLive l) && !hand then m
  else if creditViolation m l f then protoDown im l 1 f.type lcCredit m
  else if hand ∧ f.type ≠ 7 ∧ f.type ≠ 8 ∧ f.type ≠ 9 then protoDown im l 2 f.type lcProto m
  else if f.type = 9 ∧ mgmtRow3 m l f then protoDown im l 3 9 (if hand then lcAuthFail else lcProto) m
  else
    let m := takeBuffer l f m
    if rxVl f.type ≠ some f.vl then protoErr im l 4 f.type (freeVl3 l f.type m) else rxByType im l f m

/-- A tag failure (R241): never replayed, the link goes down. -/
def tagFailure (im : Image) (l : Nat) (m : M) : M :=
  fireL im (0x0D0 + 8 * octetOf l) l l (linkDown im l lcTag m)

/-- The two public keys of a draw, 1,665 bytes (R238). -/
def shares (n : Nat) : List Byte := bytesAt (Config.linkShares n) 0 1665

/-- Sends REKEY once entropy gives its keys (R287). -/
def sendRekey (l : Nat) (m : M) : M :=
  if m.boot.entropy = false then m
  else
    let (n, m) := m.draw
    sendMgmt l 6 (shares n) (m.setLink l { m.link l with hs := 5, share := some n })

/-- Starts a rekey in ACTIVE unless one is in progress. -/
def startRekey (l : Nat) (m : M) : M :=
  if m.linkState l ≠ lsActive ∨ (m.link l).rekeying then m
  else
    let m := (m.setLink l { m.link l with rekeying := true, hs := 0 }).setFlag .LNK_STS_REKEYING l true
    sendRekey l (evtPush l 5 0 0 m)

/-- REKEY_NOW: ignored outside ACTIVE. -/
def opRekeyNow (l : Nat) (m : M) : M :=
  if m.flag .LNK_CTL_REKEY_NOW l then m.askAgain .LNK_CTL_REKEY_NOW l
  else if m.linkState l = lsActive then startRekey l (m.setFlag .LNK_CTL_REKEY_NOW l true) else m

/-- The first group of the new phase arrives (R240): the rekey is complete. -/
def rekeyDone (l : Nat) (m : M) : M :=
  let again := m.askedAgain .LNK_CTL_REKEY_NOW l
  let k := m.link l
  let m := m.setLink l { k with kRx := !k.kRx, rxKeys := k.fresh, kOld := false, rxGroups := 0, rekeying := false }
  let m := ((m.setFlag .LNK_STS_REKEYING l false).setFlag .LNK_CTL_REKEY_NOW l false).bump .LNK_CNT_B_REKEYS l
  let m := evtPush l 5 1 0 m
  if again then opRekeyNow l m else m

/-- An accepted encrypted flit (R226, R240): a group of the other phase is accepted only while a rekey awaits it; a
closing flit's tag decides for the whole group. -/
def rxEncrypted (im : Image) (l : Nat) (f : RxFrame) (phase tagOk : Bool) (m : M) : M :=
  let k := m.link l
  let flip := phase != k.kRx
  if flip && !(k.kOld && k.group.isEmpty) then tagFailure im l m
  else
    let m := if flip then rekeyDone l m else m
    let k := m.link l
    let g := k.group ++ [f]
    if f.close then
      if tagOk then
        g.foldl (rxFrame im l) (m.setLink l { k with group := [], rxGroups := k.rxGroups + 1 })
      else tagFailure im l m
    else if 16 ≤ g.length then tagFailure im l m
    else m.setLink l { k with group := g }

/-- A flit with the next SEQ is accepted (R227). -/
def rxAccept (im : Image) (l : Nat) (f : RxFlit) (m : M) : M :=
  let k := m.link l
  let h := leAt f.raw 0 1
  let close := bitAt h 6
  let m := m.setLink l { k with rxSeq := (k.rxSeq + 1) % 65536, rxBad := false, nakDue := false, nakTx := 0,
                                unacked := k.unacked + 1, unackedAt := if k.unacked = 0 then m.now else k.unackedAt }
  if m.linkState l = lsHand then
    rxFrame im l m ⟨h % 16, bitsAt h 4 2, bytesAt f.raw 4 248, false, leAt f.raw 1 1 != 0 || close || bitAt h 7⟩
  else rxEncrypted im l ⟨h % 16, bitsAt h 4 2, f.area, close, leAt f.raw 1 1 != 0⟩ (bitAt h 7) f.tagOk m

/-- A flit that cannot be used (R227): it and every later one are discarded until the replay arrives, and a NAK is
due. -/
def rxBadFlit (l : Nat) (m : M) : M := m.setLink l { m.link l with rxBad := true, nakDue := true }

/-- FLIT_RECEIVE (R227). -/
def opFlitReceive (im : Image) (l : Nat) (f : RxFlit) (m : M) : M :=
  if m.linkState l ≠ lsActive ∧ m.linkState l ≠ lsHand then m else
  let lanes := cutLanes im l
  let m := (f.corr.filter (fun c => c.1 ∈ lanes)).foldl (fun m c => m.bumpN .LNK_LANE_CORR_SYM c.1 c.2) m
  if !f.fecOk then rxBadFlit l (m.bump .LNK_CNT_A_UNCORR l)
  else if !(flitCrcOk f.raw) then rxBadFlit l (m.bump .LNK_CNT_A_CRC_ERR l)
  else
    let m := m.setLink l { m.link l with lastRx := m.now }
    let k := m.link l
    let seq := leAt f.raw 2 2
    if seq = k.rxSeq then rxAccept im l f m
    else if k.rxBad ∨ 32768 ≤ (seq + 65536 - k.rxSeq) % 65536 then m
    else rxBadFlit l m

end Sys2Proof
end

