-- ==== Sys2Proof/Machine/LinkTrain.lean ====
section
/-! DEFINITION. Attempts, training, handshake, rekey, owner messages and octet calibration (09, R217 to R223, R238 to
R240, R250, R254). -/

namespace Sys2Proof

/-! ### Attempts (R218, R219) -/

/-- Whether the links of an octet may attempt: calibrated and clocked (R218, R254). -/
def octetReady (m : M) (o : Nat) : Bool := m.flag .LNK_OCT_STS_CAL_DONE o && !(bitAt m.pins.onAbsent o)

/-- Enters DETECT: a new attempt examines every lane; a CROSSED diagnosis stays until a lane sees signal (R223, R224). -/
def toDetect (im : Image) (l : Nat) (m : M) : M :=
  let m := (enterState l lsDetect 0 m).setFlag .LNK_CTL_RETRY_NOW l false
  (cutLanes im l).foldl (fun m k =>
    (if laneState m k = 4 then m else m.setFld .LNK_LANE_STATE k 1).setFlag .LNK_LANE_POL_INV k false)
    (m.setFlag .LNK_STS_REVERSED l false)

/-- BACKOFF_EXPIRE (R218, R219). -/
def opBackoffExpire (im : Image) (l : Nat) (m : M) : M :=
  if m.linkState l = lsWait ∧ octetReady m (octetOf l) ∧
      ((m.link l).retryAt ≤ m.now ∨ m.flag .LNK_CTL_RETRY_NOW l = true) then toDetect im l m else m

/-- RETRY_NOW (R218): a write of 1 ends a WAIT backoff at once. -/
def opRetryNow (im : Image) (l : Nat) (m : M) : M :=
  if isLink im l = false then m else opBackoffExpire im l (m.setFlag .LNK_CTL_RETRY_NOW l true)

/-- DISABLE (R218). -/
def opDisable (im : Image) (l : Nat) (b : Bool) (m : M) : M :=
  if isLink im l = false then m else
  let m := m.setFlag .LNK_CTL_DISABLE l b
  if b then
    (if m.linkState l = lsDisabled ∨ m.linkState l = lsOff then m else leaveTo im l lsDisabled lcDisable false m)
  else if m.linkState l = lsDisabled then zeroBackoff l (enterState l lsWait (m.fld .LNK_STS_LAST_CAUSE l) m)
  else m

/-- RECEIVER_DETECT (R217, R218, R223): a termination on any lane of the cut starts TRAIN; lanes without one are
NO_TERM. Every lane transmits preset 5 until EQ assigns another (R399). -/
def opReceiverDetect (im : Image) (l : Nat) (term : BitVec 8) (m : M) : M :=
  let w := im.linkWidth l
  let found := fun k => term.getLsbD k
  if m.linkState l ≠ lsDetect ∨ (List.range w).all (fun k => !(found k)) then m
  else
    let m := enterState l lsTrain 0 m
    let m := if m.flag .PWR_CTL_HUSH_ACTIVE 0 then m.setLink l { m.link l with lanesAt := m.now + 20000 } else m
    let m := (List.range w).foldl (fun m k => (if found k then m else setLane l (l + k) 2 m).setFld .LNK_LANE_PRESET (l + k) 5) m
    let m := m.setLink l { m.link l with
      trn := (List.range w).map (fun k => { (default : LaneTr) with term := found k }), cutWidth := w }
    (List.range w).foldl (fun m k => sendTrain im l k 1 0 0 m) m

/-! ### Width (R222) -/

/-- Whether a lane of the cut is usable: its transmitter and the receiver it uses have no fault, and the partner receives it
(R222). -/
def laneUsable (im : Image) (m : M) (l good k : Nat) : Bool :=
  txStateOk (laneState m (l + k)) && rxStateOk (laneState m (l + rxLane im m l k)) && bitAt good k

/-- The lowest aligned group of w usable lanes in a cut of n. -/
def usableGroup (im : Image) (m : M) (l good n w : Nat) : Option Nat :=
  ((List.range (n / w)).map (fun i => i * w)).find? (fun f => (List.range w).all (fun i => laneUsable im m l good (f + i)))

/-- Width and first lane the loom proposes (R222). -/
def proposal (im : Image) (m : M) (l cap good : Nat) : Option (Nat × Nat) :=
  let n := im.linkWidth l
  let lim := (m.link l).cutWidth
  [(8, 3), (4, 2), (2, 1), (1, 0)].findSome? (fun x =>
    if x.1 ≤ n ∧ x.1 ≤ lim ∧ bitAt cap x.2 then (usableGroup im m l good n x.1).map (fun f => (x.1, f)) else none)

/-! ### What agreement starts -/

/-- HELLO (R238): sent when entropy gives its nonce and keys (R287). -/
def sendHello (im : Image) (l : Nat) (m : M) : M :=
  if m.boot.entropy = false then m else
  let (n, m) := m.draw
  let b := leBytes 2 1 ++ leBytes 2 im.pMax ++ leBytes 1 (m.link l).cutWidth ++ leBytes 3 0 ++
    leBytes 2 0 ++ leBytes 2 0 ++ leBytes 2 128 ++ leBytes 2 32 ++ leBytes 32 (Config.draw n).toNat ++ shares n
  sendMgmt l 1 b (m.setLink l { m.link l with hs := 1, hello := b, share := some n })

/-- HANDSHAKE begins (R227, R236): sequence numbers at 0, 4 credits for VL 3, HELLO. -/
def startHandshake (im : Image) (l : Nat) (m : M) : M :=
  let k := m.link l
  let m := enterState l lsHand 0 m
  let m := m.setLink l { LinkSt.init with since := m.now, backoff := k.backoff, retryAt := k.retryAt, trn := k.trn,
                                          cutWidth := k.cutWidth, cr := [0, 0, 0, 4], crMax := [0, 0, 0, 4],
                                          rxCr := [0, 0, 0, 4], lastTx := m.now, lastRx := m.now }
  sendHello im l m

/-- ACTIVE again after RETRAIN (R218, R227, R228, R247): timers go on from where they stood, and what was not
acknowledged is sent again. -/
def resume (l : Nat) (m : M) : M :=
  let k := m.link l
  let d := m.now - k.since
  let m := enterState l lsActive 0 m
  let m := m.setLink l { m.link l with
    lastRx := k.lastRx + d, cmds := k.cmds.map (fun c => { c with timer := c.timer + d }) }
  let g := fun (e : Key × Rehearsal) => if e.1.1 = l then (e.1, { e.2 with timer := e.2.timer + d }) else e
  let m := { m with rhs := m.rhs.map g }
  pumpMgmt l 256 (resend l k.replay (m.setFlag .LNK_CTL_REWIDEN l false))

/-- The width is agreed (R218, R222): flits start on the agreed lanes; LNK_STS.WIDTH shows it while the link is up (R217). -/
def linkAgreed (im : Image) (l w first : Nat) (m : M) : M :=
  let re := m.linkState l == lsRetrain
  let m := (cutLanes im l).foldl (fun m k =>
    m.setFlag .LNK_LANE_ACTIVE k (decide (l + first ≤ k) && decide (k < l + first + w))) m
  let m := m.setFld .LNK_STS_ACTIVE_LANE0 l (l + first)
  let m := if re then resume l (m.setFld .LNK_STS_WIDTH l w) else startHandshake im l (m.setLink l { m.link l with cutWidth := w })
  evtPush l 3 w (l + first) m

/-! ### Training blocks in (R221) -/

/-- Lane positions of the cut that blocks were read on, with the LANE each carries. -/
def laneOrder (im : Image) (m : M) (l : Nat) : List (Nat × Nat) :=
  (List.range (im.linkWidth l)).filterMap (fun k => ((m.link l).trn.getD k default).peer.map (fun p => (k, p)))

/-- ALIGN (R221): once every lane without a fault has read LANE, the order is identity, full reversal, or wrong. -/
def alignLanes (im : Image) (l : Nat) (m : M) : M :=
  let w := im.linkWidth l
  let o := laneOrder im m l
  let whole := (List.range w).all (fun k => decide (2 ≤ laneState m (l + k)) || o.any (fun x => x.1 == k))
  if !whole then m
  else if o.all (fun x => x.1 == x.2) then m
  else if o.all (fun x => x.1 + x.2 + 1 == w) then m.setFlag .LNK_STS_REVERSED l true
  else (o.filter (fun x => x.1 != x.2 || 2 ≤ (o.filter (fun y => y.2 == x.2)).length)).foldl
    (fun m x => setLane l (l + x.1) 7 m) m

/-- Whether every lane without a fault has been read. -/
def aligned (im : Image) (m : M) (l : Nat) : Bool :=
  (List.range (im.linkWidth l)).all (fun k => decide (2 ≤ laneState m (l + k)) ||
    (((m.link l).trn.getD k default).peer).isSome)

/-- Lanes the partner does not receive, as its GOOD bits in CONFIG say (R223). -/
def partnerLanes (im : Image) (l good : Nat) (m : M) : M :=
  (List.range (im.linkWidth l)).foldl (fun m k =>
    if laneState m (l + k) ≤ 1 ∧ bitAt good k = false then setLane l (l + k) 8 m else m) m

/-- The preset that the partner asks for in EQ on the lane its block names, which uses receiver k (R221, R399). -/
def takePreset (im : Image) (l k p : Nat) (m : M) : M :=
  if bitsAt p 24 3 = 3 ∧ bitsAt p 28 4 ≤ 9 then m.setFld .LNK_LANE_PRESET (l + rxLane im m l k) (bitsAt p 28 4) else m

/-- A valid training block on receiver k of a cut: `p` has MARK upright. Until every lane is aligned the loom answers ALIGN; then
EQ, until the partner's block shows that it has come to EQ; then CONFIG, and DONE once the proposals agree (R221). The answer goes
out on the lane that uses the receiver. With no usable group, CONFIG names width 0 (log entry 108). -/
def trainBlock (im : Image) (l k p : Nat) (inv : Bool) (m : M) : M :=
  let step := bitsAt p 24 3
  let good := bitsAt p 36 8
  let m := m.setFlag .LNK_LANE_POL_INV (l + k) inv
  let m := (cutLanes im l).foldl (fun m j => if laneState m j = 4 then m.setFld .LNK_LANE_STATE j 1 else m) m
  let x := (m.link l).trn.getD k default
  let first := x.peer.isNone
  let x := { x with peer := some (bitsAt p 16 3), cap := bitsAt p 20 4, good := good,
                    done := step == 5 }
  let m := m.setLink l { m.link l with trn := (m.link l).trn.set k x }
  let m := if first then alignLanes im l m else m
  let t := rxLane im m l k
  if !(aligned im m l) then sendTrain im l t 2 0 0 m
  else if step < 3 then sendTrain im l t 3 0 0 m
  else
    let m := takePreset im l k p m
    let m := if 4 ≤ step then partnerLanes im l good m else m
    match proposal im m l x.cap good with
    | none => sendTrain im l t 4 0 0 m
    | some (w, f) =>
      let same := decide (4 ≤ step) && bitsAt p 44 4 == w && bitsAt p 48 8 == f
      let x := { x with agree := if same then x.agree + 1 else 0 }
      let m := m.setLink l { m.link l with trn := (m.link l).trn.set k x }
      let m := sendTrain im l t (if 2 ≤ x.agree then 5 else 4) w f m
      if 2 ≤ x.agree ∧ x.done then linkAgreed im l w f m else m

/-- Whether lane k of a link receives nothing because its PMA is powered down (R372): in hush the lanes of an up link outside its
active width, and for 10 µs those that power up, at the end of hush or for an attempt in hush (log 113). -/
def pmaDown (m : M) (l k : Nat) : Bool :=
  decide (m.now < (m.link l).lanesAt) ||
  (m.flag .PWR_CTL_HUSH_ACTIVE 0 && m.linkLive l && !(m.flag .LNK_LANE_ACTIVE (l + k)))

/-- TRAINING_BLOCK (R220, R221). A lane that is powered down receives none; the attempt waits for it (R372). -/
def opTrainingBlock (im : Image) (l k : Nat) (payload : BitVec 256) (m : M) : M :=
  if pmaDown m l k ∨ (m.linkState l ≠ lsTrain ∧ m.linkState l ≠ lsRetrain) ∨ im.linkWidth l ≤ k then m
  else if 2 ≤ laneState m (l + k) ∧ laneState m (l + k) ≠ 4 then m
  else
    let inv := payload.toNat % 65536 == 0xB1B3
    let p := if inv then (~~~payload).toNat else payload.toNat
    let step := bitsAt p 24 3
    if p % 65536 ≠ 0x4E4C ∨ step = 0 ∨ 6 ≤ step then m else trainBlock im l k p inv m

/-! ### Timeouts of training and handshake (R218, R223) -/

/-- No lane of a cut is usable. -/
def noLanes (im : Image) (m : M) (l : Nat) : Bool := (cutLanes im l).all (fun k => decide (2 ≤ laneState m k))

/-- A crossed cable is recognised: termination on every lane, no signal on any (R223). -/
def crossedNow (im : Image) (m : M) (l : Nat) : Bool :=
  let t := (m.link l).trn
  t.length == im.linkWidth l && t.all (fun x => x.term && x.peer.isNone)

/-- CROSSED (R223). -/
def opCrossed (im : Image) (l : Nat) (m : M) : M :=
  if m.linkState l = lsTrain ∧ (m.link l).since + 20 * msSc ≤ m.now ∧ crossedNow im m l then
    let m := toWait im l lcCrossed m
    (cutLanes im l).foldl (fun m k => setLane l k 4 m) m
  else m

/-- TRAIN_TIMEOUT (R218): a crossed cable decides first. -/
def opTrainTimeout (im : Image) (l : Nat) (m : M) : M :=
  if m.linkState l = lsTrain ∧ (m.link l).since + 20 * msSc ≤ m.now then
    if crossedNow im m l then opCrossed im l m
    else toWait im l (if noLanes im m l then lcNoLanes else lcTrain) m
  else m

/-- RETRAIN_TIMEOUT (R218). -/
def opRetrainTimeout (im : Image) (l : Nat) (m : M) : M :=
  if m.linkState l = lsRetrain ∧ (m.link l).since + 2 * msSc ≤ m.now then
    toWait im l (if noLanes im m l then lcNoLanes else lcRetrain) m
  else m

/-- AUTH_TIMEOUT (R218). -/
def opAuthTimeout (im : Image) (l : Nat) (m : M) : M :=
  if m.linkState l = lsHand ∧ (m.link l).since + 50 * msSc ≤ m.now then linkDown im l lcAuthTime m else m

/-! ### Line faults (R223) -/

/-- A fault recorded on a lane of a link that trains or carries flits; on an active lane of an ACTIVE link it starts
RETRAIN. The lane that a receiver's fault strikes is the one that uses it. -/
def laneFault (im : Image) (lane st : Nat) (m : M) : M :=
  match im.linkOfLane lane with
  | none => m
  | some l =>
    let s := m.linkState l
    let user := if rxStateOk st then lane else l + rxLane im m l (lane - l)
    if laneState m lane ≤ 1 ∧ (s = lsTrain ∨ s = lsHand ∨ s = lsActive ∨ s = lsRetrain) then
      setLane l lane st (if laneActive m user then toRetrain im l false m else m)
    else m

/-- BLOCK_LOCK_LOST (R218): an active lane of an ACTIVE link. -/
def opBlockLockLost (im : Image) (lane : Nat) (m : M) : M :=
  match im.linkOfLane lane with
  | none => m
  | some l => if laneActive m (l + rxLane im m l (lane - l)) then toRetrain im l false m else m

/-- REWIDEN (R222, R223): in ACTIVE every lane of the cut is examined again at the image width. -/
def opRewiden (im : Image) (l : Nat) (m : M) : M :=
  if m.linkState l = lsActive then toRetrain im l true (m.setFlag .LNK_CTL_REWIDEN l true) else m

/-! ### Handshake (R238, R239, R241) -/

/-- A verification fails in HANDSHAKE (R218, R241): AUTH_FAIL, and the fault source fires. -/
def authFail (im : Image) (l : Nat) (m : M) : M :=
  fireL im (0x0D1 + 8 * octetOf l) (l + 2 ^ 8 * lcAuthFail) l (linkDown im l lcAuthFail m)

/-- The verdict of a link decision computed on two paths (R239, R282): a disagreement is counted and refused. -/
def linkVerdict (im : Image) (v : Verdict) (m : M) : Bool × M :=
  if v.a = v.b then (v.a, m) else (false, pathDisagree im 5 m)

/-- HELLO_R (R239): verified, keys derived, AUTH sent; or AUTH_FAIL, which DS_OK 0 and CERT_MISMATCH give always
(R285, R292). The operand says for each path whether it computes what the rule gives. -/
def opHelloR (im : Image) (l : Nat) (v : Verdict) (m : M) : M :=
  let k := m.link l
  if m.linkState l ≠ lsHand ∨ k.hs ≠ 2 then m
  else if helloRSound k.helloR = false ∨ m.flag .SEC_STS_DS_OK 0 = false ∨ m.flag .SEC_STS_CERT_MISMATCH 0 = true then
    authFail im l m
  else
    let (ok, m) := linkVerdict im (pathsOf v (helloROk im k.hello k.helloR)) m
    match ok, k.share, m.sec.derived with
    | true, some d, some h =>
      let (n, m) := m.draw
      let adv := (List.range 4).map (fun i => leAt k.helloR (8 + 2 * i) 2)
      let keys := sessionKeys d k.hello k.helloR
      let b := authMsg im h keys.lFin k.hello k.helloR n
      sendMgmt l 3 b (m.setLink l { m.link l with
        hs := 3, adv := adv, txKeys := keys, rxKeys := keys, share := none, auth := b })
    | _, _, _ => authFail im l m

/-- FINISH (R239): the session begins; both pools are replaced (R236). -/
def opFinish (im : Image) (l : Nat) (v : Verdict) (m : M) : M :=
  let k := m.link l
  if m.linkState l ≠ lsHand ∨ k.hs ≠ 4 then m
  else if k.fin.length ≠ 48 then authFail im l m
  else
    let (ok, m) := linkVerdict im (pathsOf v (k.fin == finishMac k.txKeys.dFin k.hello k.helloR k.auth)) m
    if !ok then authFail im l m
    else
      let m := m.setLink l { m.link l with
        hs := 0, hello := [], helloR := [], auth := [], fin := [], sessStart := m.now, cr := k.adv, crMax := k.adv, rxCr := [0, 0, 128, 32],
        ret := [0, 0, 0, 0], group := [], txOpen := [], rxGroups := 0, kTx := false, kRx := false, kOld := false,
        caps := [], mgmtq := [], keyLimit := 2 ^ im.rekeyLog2 - 1, lastRx := m.now }
      enterState l lsActive 0 ((m.setFld .LNK_STS_TX_GROUPS l 0).setFld .LNK_STS_WIDTH l (m.link l).cutWidth)

/-! ### Rekey (R240) -/

/-- REKEY_THRESHOLD: a group counter has reached 2^n − 2^16. -/
def opRekeyThreshold (im : Image) (l : Nat) (m : M) : M :=
  let t := 2 ^ im.rekeyLog2 - 2 ^ 16
  if t ≤ m.fld .LNK_STS_TX_GROUPS l ∨ t ≤ (m.link l).rxGroups then startRekey l m else m

/-- REKEY_OVERDUE (R219, R240): a counter under the old key would pass 2^n − 1. At the loom's own limit it sends nothing more;
when the device's is reached, the loom's direction still carries flits and CLOSE goes first. -/
def opRekeyOverdue (im : Image) (l : Nat) (m : M) : M :=
  let k := m.link l
  if !(m.linkLive l) then m
  else if k.keyLimit ≤ m.fld .LNK_STS_TX_GROUPS l then toWait im l lcRekey m
  else if k.keyLimit ≤ k.rxGroups then linkDown im l lcRekey m
  else m

/-! ### Owner messages (R250) -/

/-- OWNER_MESSAGE_SEND: LNK_OWN_TX.SEND written 1. -/
def opOwnerSend (im : Image) (l : Nat) (m : M) : M :=
  let n := m.fld .LNK_OWN_TX_LEN l
  if isLink im l = false then m
  else if m.flag .LNK_OWN_TX_SEND l then m.askAgain .LNK_OWN_TX_SEND l
  else if m.linkState l ≠ lsActive ∨ n = 0 ∨ 57344 < n then m.setFlag .LNK_OWN_TX_REFUSED l true
  else sendMgmt l 9 (memRead m.stage (m.fld .LNK_OWN_TX_OFF l) n) (m.setFlag .LNK_OWN_TX_SEND l true)

/-- OWNER_MESSAGE_SENT: the last fragment has gone. -/
def opOwnerSent (im : Image) (l : Nat) (m : M) : M :=
  if m.flag .LNK_OWN_TX_SEND l ∧ (m.link l).mgmtq.all (fun f => f.1 != 9) then
    let again := m.askedAgain .LNK_OWN_TX_SEND l
    let m := irqPulse im 8 (0x900 + l) (m.setFlag .LNK_OWN_TX_SEND l false)
    if again then opOwnerSend im l m else m
  else m

/-! ### Octets (R29, R254) -/

/-- CAL (R254). -/
def opCal (o : Nat) (m : M) : M :=
  if m.flag .LNK_OCT_STS_CALIBRATING o then m.askAgain .LNK_OCT_CTL_CAL o
  else if m.flag .LNK_OCT_STS_CAL_DONE o || !(m.flag .LNK_OCT_STS_HOLDS_LINK o) then m
  else
    let m := (m.setFlag .LNK_OCT_CTL_CAL o true).setFlag .LNK_OCT_STS_CALIBRATING o true
    (m.setFlag .LNK_OCT_STS_CAL_FAIL o false).setFld .LNK_OCT_STS_FAIL_CAUSE o 0

/-- CAL_COMPLETE (R254): cause 0 is success; an absent reference clock is cause 1. With the CAL ball of its band open
or shorted it never completes (R389). -/
def opCalComplete (im : Image) (o cause : Nat) (m : M) : M :=
  if m.flag .LNK_OCT_STS_CALIBRATING o = false then m
  else
    let c := if bitAt m.pins.onAbsent o then 1 else if bitAt m.pins.calBad (o / 6) ∧ cause = 0 then 3 else cause
    let again := m.askedAgain .LNK_OCT_CTL_CAL o
    let m := (m.setFlag .LNK_OCT_CTL_CAL o false).setFlag .LNK_OCT_STS_CALIBRATING o false
    if c = 0 then
      (im.linksOfOctet o).foldl (fun m l => if m.linkState l = lsWait then zeroBackoff l m else m)
        (m.setFlag .LNK_OCT_STS_CAL_DONE o true)
    else
      let m := (m.setFlag .LNK_OCT_STS_CAL_FAIL o true).setFld .LNK_OCT_STS_FAIL_CAUSE o c
      if again then opCal o m else m

/-- REFCLK_ON_ABSENT (R29, R218): every link of the octet that is neither OFF nor DISABLED waits for the clock. -/
def opRefclkOnAbsent (im : Image) (o : Nat) (m : M) : M :=
  let m := { m with pins := { m.pins with onAbsent := putBit m.pins.onAbsent o true } }
  let ls := (im.linksOfOctet o).filter (fun l => !(m.linkState l == lsOff || m.linkState l == lsDisabled))
  leaveAll im ls lsWait lcRefclk false (ls.foldl (fun m l => m.emit (.idle l)) m)

/-- Step 5 gives the loom its links: each stands in WAIT until its octet is calibrated; without the octet's reference clock
LAST_CAUSE says so (R43, R218, R254). -/
def startLinks (im : Image) (m : M) : M :=
  im.links.foldl (fun m e =>
    let c := if bitAt m.pins.onAbsent (octetOf e.link) then lcRefclk else 0
    enterState e.link lsWait c (m.setFld .LNK_STS_LAST_CAUSE e.link c)) m

/-- REFCLK_ON_RETURN (R254): the octet PLL relocks; CAL_DONE stays. -/
def opRefclkOnReturn (o : Nat) (m : M) : M :=
  { m with pins := { m.pins with onAbsent := putBit m.pins.onAbsent o false } }

/-- Requests that waited for entropy on links (R287): HELLO and REKEY messages. -/
def linkEntropy (im : Image) (m : M) : M :=
  im.links.foldl (fun m e =>
    if m.linkState e.link = lsHand ∧ (m.link e.link).hs = 0 then sendHello im e.link m
    else if m.linkState e.link = lsActive ∧ (m.link e.link).rekeying ∧ (m.link e.link).hs = 0 then sendRekey e.link m
    else m) m

end Sys2Proof
end

