-- ==== Sys2Proof/Machine/IsaCore.lean ====
section
/-! DEFINITION. Processors (08): registers, traps, the end of a routine, issue, integer instructions, branches. -/

namespace Sys2Proof

/-- The key of a processor. -/
def Proc.key : Proc → Key
  | .thread t => thr t.val
  | .core c => wng c.val

/-- The number of a processor's scratch: threads 0 to 511, cores 512 to 515. -/
def Proc.num : Proc → Nat
  | .thread t => t.val
  | .core c => 512 + c.val

/-- The processor with a number. -/
def procOf (n : Nat) : Proc := if n < 512 then .thread (Fin.ofNat 512 n) else .core (Fin.ofNat 4 (n - 512))

/-- The fabric port of a processor: its cluster's, or the management complex's (R10). -/
def procPort : Proc → Nat
  | .thread t => 52 + t.val / 32
  | .core _ => 72

/-! ### Registers (R186, R208) -/

/-- A control register of a core; an unlisted one reads 0. -/
def Cpu.crv (x : Cpu) (n : Nat) : Nat := (mapGet 0 x.cr (n, 0)).toNat

/-- Replaces a control register. -/
def Cpu.setCr (x : Cpu) (n v : Nat) : Cpu := { x with cr := mapPut x.cr (n, 0) (BitVec.ofNat 64 v) }

/-- The general register bank in use: WSTATUS.BANK. -/
def Cpu.bank (x : Cpu) : Nat := if bitAt (x.crv 0) 2 then 1 else 0

/-- A general register; g0 reads as zero (R186). -/
def Cpu.g (x : Cpu) (n : Nat) : Word := if n = 0 then 0 else mapGet 0 x.regs (x.bank, n)

/-- Writes a general register; a write to g0 is discarded (R186). -/
def Cpu.setG (x : Cpu) (n : Nat) (v : Word) : Cpu :=
  if n = 0 then x else { x with regs := mapPut x.regs (x.bank, n) v }

/-- Writes a WSTATUS bit. -/
def Cpu.setStat (x : Cpu) (b : Nat) (v : Bool) : Cpu := x.setCr 0 (putBit (x.crv 0) b v)

/-- Whether a level is active: 3 N, 4 F, 5 T. -/
def Cpu.inLevel (x : Cpu) (b : Nat) : Bool := bitAt (x.crv 0) b

/-! ### Traps and interrupts on a core (R209, R210) -/

/-- Enters a level of a core at an instruction boundary (R209): `b` is its WSTATUS bit; entry takes 3 sc. -/
def enterLevel (c b : Nat) (m : M) : M :=
  let x := m.cpu (wng c)
  let x := x.setCr (b - 2) x.pc
  let x := x.setStat b true
  let x := if b = 4 then x.setStat 2 true else x
  m.setCpu (wng c) { x with pc := x.crv (b + 1), wait := .none, ready := m.now + 3 }

/-- Trap entry with a cause and value (R209). -/
def trapEntry (c cause tval : Nat) (m : M) : M :=
  let m := enterLevel c 5 m
  m.setCpu (wng c) (((m.cpu (wng c)).setCr 7 cause).setCr 8 tval)

/-- A synchronous trap: taken at once, or a double trap halts the core (R209, R210). -/
def syncTrap (im : Image) (c cause tval : Nat) (m : M) : M :=
  let x := m.cpu (wng c)
  if x.inLevel 5 then
    let m := m.setCpu (wng c) { x with running := false, wait := .none }
    let m := (m.setFlag .WNG_CTL_HALTED c true).setFlag .WNG_CTL_RUNNING c false
    fireC im (0x068 + c) (Config.infoPack (0x068 + c) c cause) c m
  else trapEntry c cause tval m

/-- Frees a call number when its ROUTINE trap is taken (R212). -/
def freeCall (c n : Nat) (m : M) : M :=
  m.setCpu (wng c) { m.cpu (wng c) with calls := putBit (m.cpu (wng c)).calls n false }

/-- Whether a core stands at an instruction boundary: nothing awaited, or WFI, and the last latency over (R185, R209). -/
def atBoundary (now : Nat) (x : Cpu) : Bool :=
  x.running && !x.dbgHalt && (x.wait == .none || x.wait == .wfi) && decide (x.ready ≤ now)

/-- Takes the oldest asynchronous trap when the core can (R209, R210). -/
def takeAsync (c : Nat) (m : M) : M :=
  let x := m.cpu (wng c)
  match x.pend with
  | [] => m
  | (k, v) :: t =>
    if atBoundary m.now x && !(x.inLevel 5) then
      let m := trapEntry c k v (m.setCpu (wng c) { x with pend := t })
      if k = trapRoutine then freeCall c (bitsAt v 0 4) m else m
    else m

/-- Adds an asynchronous trap, taken at once at a boundary that allows it. -/
def addAsync (c k v : Nat) (m : M) : M :=
  let x := m.cpu (wng c)
  takeAsync c (m.setCpu (wng c) { x with pend := x.pend ++ [(k, v)], wait := if x.wait = .wfi then .none else x.wait })

/-! ### The end of a routine (R93, R203 to R206, R212) -/

/-- The load or the flush read that a thread waits for belongs to no routine any more: what answers it is discarded
(R206). -/
def dropLoad (t : Nat) (m : M) : M :=
  let x := m.cpu (thr t)
  let gone := fun (u : Purp) => u == .load t || u == .rtn t
  match x.wait, x.rout with
  | .load _, some r | .ret true, some r =>
    let h := m.hostOf r.part
    if h.np.any (fun n => gone n.purp) || h.waitq.any (fun w => match w.2 with | .rd u _ _ _ => gone u | _ => false) then
      m.setHost r.part { h with
        np := h.np.map (fun n => if gone n.purp then { n with purp := .lost } else n)
        waitq := h.waitq.filter (fun w => match w.2 with | .rd u _ _ _ => !(gone u) | _ => true) }
    else m.setCpu (thr t) { x with loadDrop := x.loadDrop + 1 }
  | _, _ => m

/-- The thread is free; its scratch is zero after 64 sc (R203). -/
def freeThread (t : Nat) (m : M) : M :=
  let x := m.cpu (thr t)
  { m.setCpu (thr t) { Cpu.init with
      ready := m.now + 64, loadDrop := x.loadDrop, fetchDrop := x.fetchDrop, listDrop := x.listDrop } with
    scratch := memClear m.scratch (t * 65536) 65536 }

/-- CALL_RES and CALL_DONE, or the trap, for a routine that a core called (R212). -/
def callEnd (im : Image) (r : RoutCtx) (code status value : Nat) (m : M) : M :=
  let x := m.cpu (wng r.core)
  let x := x.setCr (0x010 + r.call) (bitsPut code 0 8 + bitsPut status 8 8 + bitsPut value 32 32)
  if status = 0 then
    irqSync im 8 (0x804 + r.core) (m.setCpu (wng r.core) (x.setCr 0x00A (putBit (x.crv 0x00A) r.call true)))
  else addAsync r.core trapRoutine (r.call + 2 ^ 8 * status) (m.setCpu (wng r.core) x)

/-- The script outcome of a routine's normal return (R93). -/
def scriptReturn (im : Image) (r : RoutCtx) (code value : Nat) (m : M) : M :=
  match m.script r.part r.tag with
  | none => m
  | some s =>
    if code = 0 then completeCue im r.part r.tag 0 false m
    else if code = 1 then completeCue im r.part r.tag 0 true m
    else if code = 2 then endScript im s (cueEntry s s.head 0 0x00 0 true) m
    else endScript im s { cueEntry s s.head 0 0x27 0 true with residual := value } m

/-- A routine returns with a code up to 3 (R204, R212). -/
def routineReturn (im : Image) (t : Nat) (r : RoutCtx) (code value : Nat) (m : M) : M :=
  let m := freeThread t m
  if r.part = 8 then callEnd im r code 0 value m else scriptReturn im r code value m

/-- The outcome of an abnormal end once its transfers are answered (R205). -/
def routineDead (im : Image) (t : Nat) (r : RoutCtx) (status detail res : Nat) (m : M) : M :=
  let m := freeThread t m
  if r.part = 8 then callEnd im r 0 res 0 m
  else match m.script r.part r.tag with
    | none => m
    | some s => endScript im s (cueEntry s s.head 0 status detail true) m

/-- The SEND transfers of a thread that have not completed. -/
def sendsOf (m : M) (t : Nat) : List Xfer :=
  ((m.subq.filter (fun e => e.1.1 == t / 32)).map (fun e => e.2.filter (fun x => match x.who with
    | .send k _ _ => k == t
    | _ => false))).flatten

/-- Goes on with a thread that waits to end (R204, R206): transfers first, then a flush read, then the outcome. -/
def tryEnd (im : Image) (t : Nat) (m : M) : M :=
  let x := m.cpu (thr t)
  match x.rout with
  | none => m
  | some r =>
    if !(sendsOf m t).isEmpty then m else
    match x.wait with
    | .ending st d res _ => routineDead im t r st d res m
    | .ret false =>
      match r.stored with
      | some a =>
        let m := m.setCpu (thr t) { x with wait := .ret true, rout := some { r with stored := none } }
        reqTlp r.part (.rd (.rtn t) (a / 4 * 4) 0 (some 1)) m
      | none =>
        let code := (x.g 1).toNat
        let value := bitsAt (x.g 2).toNat 0 32
        if code ≤ 3 then routineReturn im t r code value m
        else
          let m := if r.part = 8 then m else m.bump .SPN_RSTATS_FAULTS (pinst r.part 0)
          routineDead im t r 0x26 5 5 m
    | _ => m

/-- An abnormal end (R205, R206): the thread issues nothing more, its transfers start nothing more. -/
def routineAbort (im : Image) (t st d res : Nat) (m : M) : M :=
  let x := m.cpu (thr t)
  match x.rout with
  | none => m
  | some r =>
    let m := if r.part = 8 then m else m.bump .SPN_RSTATS_FAULTS (pinst r.part 0)
    let g := fun (y : Xfer) => match y.who with
      | .send k _ _ => if k = t then { y with stopped := true } else y
      | _ => y
    let m := { m with subq := m.subq.map (fun (e : Key × List Xfer) => if e.1.1 = t / 32 then (e.1, e.2.map g) else e) }
    let m := dropLoad t m
    let m := m.setCpu (thr t) { m.cpu (thr t) with wait := .ending st d res 0 }
    tryEnd im t (settleQueue im (t / 32) r.part m)

/-- Records an ILLEGAL or ACCESS end of a partition routine (R205). -/
def recordFault (t detail tval : Nat) (m : M) : M :=
  let x := m.cpu (thr t)
  match x.rout with
  | none => m
  | some r =>
    if r.part = 8 then m
    else
      let i := pinst r.part 0
      (((m.setFld .SPN_RFAULT_A_INDEX i r.index).setFld .SPN_RFAULT_A_DETAIL i detail).setFld .SPN_RFAULT_A_PC i x.pc).setFld
        .SPN_RFAULT_B_TVAL i tval

/-! ### Causes, by processor -/

/-- ILLEGAL (R187): the instruction has no effect. -/
def raiseIllegal (im : Image) (x : Proc) (w : BitVec 32) (m : M) : M :=
  match x with
  | .thread t => routineAbort im t.val 0x26 1 1 (recordFault t.val 1 w.toNat m)
  | .core c => syncTrap im c.val 1 w.toNat m

/-- ACCESS with the address, or the PC of a fetch (R194, R205, R209). -/
def raiseAccess (im : Image) (x : Proc) (a : Nat) (m : M) : M :=
  match x with
  | .thread t => routineAbort im t.val 0x26 3 3 (recordFault t.val 3 a m)
  | .core c => syncTrap im c.val 2 a m

/-- A data or bus error of a load or fetch (R196): script status and detail, and the address. -/
def raiseData (im : Image) (x : Proc) (st d a : Nat) (m : M) : M :=
  match x with
  | .thread t => routineAbort im t.val st d (if st = 0x24 then 6 else 7) m
  | .core c => syncTrap im c.val (if st = 0x24 then 3 else 4) a m

/-! ### Issue (R184, R185, R192, R207) -/

/-- Whether a processor can issue now: it runs code, waits for nothing, its last instruction's latency has passed, a
partition's thread has budget (R59, R67), and a thread has its spindle's turn (R184). -/
def canIssue (m : M) (x : Proc) : Bool :=
  let k := m.cpu x.key
  k.wait == .none && decide (k.ready ≤ m.now) &&
  match x with
  | .thread t => (match k.rout with | some r => r.part == 8 || spindleBudget m r.part | none => false) && mayStep m t.val
  | .core c => k.running && (!k.dbgHalt || m.mgt.wdbg == c.val + 1) && !(m.inReset 22 c.val)

/-- A single step that the debug port asked of a core is used up (R402). -/
def endStep (x : Proc) (m : M) : M :=
  match x with
  | .core c => if m.mgt.wdbg = c.val + 1 then { m with mgt := { m.mgt with wdbg := 0 } } else m
  | .thread _ => m

/-- Where code lies in the owner stage reserve, and its length (R202, R207). -/
def codeArea (im : Image) (m : M) (x : Proc) : Nat × Nat :=
  match x with
  | .core _ => (0, im.loadArea.length)
  | .thread t => match (m.cpu (thr t.val)).rout with
    | some r => match im.routine r.index with
      | some q => (q.addr, q.code.length)
      | none => (0, 0)
    | none => (0, 0)

/-- Whether a fetch at PC lies in the code the processor may run: below LOAD_LEN on a core, up to CODE_LEN − 4 in a routine
(R192, R202, R207). -/
def fetchOk (im : Image) (m : M) (x : Proc) : Bool :=
  let pc := (m.cpu x.key).pc
  pc % 4 == 0 && decide (pc + (match x with | .core _ => 1 | .thread _ => 4) ≤ (codeArea im m x).2)

/-- The word at PC. -/
def fetchWord (im : Image) (m : M) (x : Proc) : Nat :=
  leVal (memRead m.stage ((codeArea im m x).1 + (m.cpu x.key).pc) 4)

/-- Charges the issue of an instruction and takes its spindle's slot (R59, R184, R185). -/
def chargeIssue (x : Proc) (m : M) : M :=
  match x with
  | .thread t => (m.chargeO 0 (m.cpu (thr t.val)).own (t.val / 4) 1).serveThread t.val
  | .core _ => m

/-- Whether a core could take an interrupt now (R209, R340). -/
def canTake (im : Image) (m : M) (c : Nat) : Bool :=
  let k := m.cpu (wng c)
  !(k.inLevel 5) && !(k.inLevel 4) &&
  ((bitAt (k.crv 0) 1 && (wOffer im m c true).isSome) ||
   (bitAt (k.crv 0) 0 && !(k.inLevel 3) && (wOffer im m c false).isSome))

/-- What a core takes at an instruction boundary before it issues: an asynchronous trap, a fast or a normal interrupt, in that
order (R209, R340, R341). -/
def takeAt (im : Image) (c : Nat) (m : M) : Option M :=
  let k := m.cpu (wng c)
  if !k.pend.isEmpty && !(k.inLevel 5) then some (takeAsync c m)
  else if canTake im m c then
    match (if bitAt (k.crv 0) 1 then wOffer im m c true else none) with
    | some s => some (enterLevel c 4 (wCommit im c s true m))
    | none => (wOffer im m c false).map (fun s => enterLevel c 3 (wCommit im c s false m))
  else none

/-- What stands before the next instruction of a processor at its boundary (R209, R341); a core halted for debug takes nothing. -/
def takenFirst (im : Image) (x : Proc) (m : M) : Option M :=
  match x with
  | .core c => if (m.cpu (wng c.val)).dbgHalt then none else takeAt im c.val (endStep x m)
  | .thread _ => none

/-- An instruction issues: the fetch is checked, the word is the one in memory, and `run` acts on it when it spells one
of the operations of the command (R187). A waiting asynchronous trap or an interrupt that the core can take is taken instead
(R341). -/
def issueOp (im : Image) (i : Issue) (want : Op → Bool) (run : M → M) (m : M) : M :=
  if canIssue m i.x = false then m
  else
    match takenFirst im i.x m with
    | some m => m
    | none =>
    if fetchOk im m i.x = false then raiseAccess im i.x (m.cpu i.x.key).pc (chargeIssue i.x (endStep i.x m))
    else if fetchWord im m i.x ≠ i.word.toNat then m
    else
      let m1 := endStep i.x m
      let m1 := stageEcc im ((codeArea im m1 i.x).1 + (m1.cpu i.x.key).pc) i.fetch m1
      if i.fetch = .uncorr then raiseData im i.x 0x24 2 (m1.cpu i.x.key).pc (chargeIssue i.x m1)
      else
        match decodeOp i.word with
        | none => raiseIllegal im i.x i.word (chargeIssue i.x m1)
        | some o =>
          let bad : Bool := match i.x with | .core _ => wingsIllegal o | .thread _ => o == .prv
          if bad then raiseIllegal im i.x i.word (chargeIssue i.x m1)
          else if want o then run m1 else m

/-- PC of the next instruction in sequence. -/
def nextPc (pc : Nat) : Nat := (pc + 4) % 2 ^ 64

/-- Ends an instruction in sequence with its result in rd, and its latency (R185). -/
def finishRd (x : Proc) (rd : Nat) (v : Word) (lat : Nat) (m : M) : M :=
  let k := m.cpu x.key
  m.setCpu x.key { k.setG rd v with pc := nextPc k.pc, ready := m.now + lat }

/-- The divider a processor uses: that of its spindle, or of its core. -/
def dividerKey : Proc → Key
  | .thread t => (0, t.val / 4)
  | .core c => (1, c.val)

/-- An integer instruction (R189 to R191): a divide that finds its divider busy does not issue, and its
spindle serves the next thread (R184, R185). -/
def runAlu (i : Issue) (o : Op) (m : M) : M :=
  let k := m.cpu i.x.key
  match aluVal o (k.g (fRa i.word)) (k.g (fRb i.word)) i.word with
  | none => m
  | some v =>
    let d := dividerKey i.x
    if usesDivider o ∧ m.now < mapGet 0 m.div d then (match i.x with | .thread t => m.passTurn t.val | .core _ => m)
    else
      let m := chargeIssue i.x m
      let m := if usesDivider o then { m with div := mapPut m.div d (m.now + 18) } else m
      finishRd i.x (fRd i.word) v (aluLatency o) m

/-- The command of an integer instruction. -/
def opAlu (im : Image) (o : Op) (i : Issue) (m : M) : M := issueOp im i (fun p => p == o) (runAlu i o) m

/-! ### Branches and jumps (R192) -/

/-- A branch or jump: whether it is taken, its target, and the register that receives PC + 4. -/
def jumpOf (o : Op) (k : Cpu) (w : BitVec 32) : Bool × Nat × Nat :=
  let z := k.g (fRd w) == 0
  match o with
  | .bz => (z, addOff k.pc (fOff21 w), 0)
  | .bnz => (!z, addOff k.pc (fOff21 w), 0)
  | .j => (true, addOff k.pc (fOff26 w), 0)
  | .jal => (true, addOff k.pc (fOff26 w), 31)
  | _ => (true, (k.g (fRa w)).toNat, fRd w)

/-- Runs a branch or jump; taken ones take 2 sc (R185). -/
def runJump (i : Issue) (o : Op) (m : M) : M :=
  let m := chargeIssue i.x m
  let k := m.cpu i.x.key
  let (taken, target, link) := jumpOf o k i.word
  let k1 := k.setG link (BitVec.ofNat 64 (k.pc + 4))
  m.setCpu i.x.key { k1 with pc := if taken then target else nextPc k.pc, ready := m.now + (if taken then 2 else 1) }

/-- The command of a branch or jump. -/
def opJump (im : Image) (o : Op) (i : Issue) (m : M) : M := issueOp im i (fun p => p == o) (runJump i o) m

end Sys2Proof
end

