-- ==== Sys2Proof/Machine/IsaOps.lean ====
section
/-! DEFINITION. Memory places of a processor, block-repeat instructions, stage operations, privileged operations, CALL
and the wings (08, R193 to R213; 04, R93; 03, R65; 13, R340). -/

namespace Sys2Proof

/-! ### Places (R193, R194) -/

/-- Bytes of a processor's scratch (R186). -/
def scratchBytes : Nat := 0x4000

/-- The routine context of a thread with its partition; `none` for owner code. -/
def partRoutine (m : M) (x : Proc) : Option RoutCtx :=
  match x with
  | .core _ => none
  | .thread t => match (m.cpu (thr t.val)).rout with
    | some r => if r.part = 8 then none else some r
    | none => none

/-- A stage handle with clean reserved bits: buffer and offset (R87, R194). -/
def handleOf (a : Nat) : Option (Nat × Nat) :=
  if bitsAt a 4 4 ≠ 0 ∨ bitsAt a 40 24 ≠ 0 then none else some (bitsAt a 0 4, bitsAt a 8 32)

/-- Whether a range of the owner stage reserve touches a routine's code (R194, R202). -/
def inCode (im : Image) (a n : Nat) : Bool :=
  im.routines.any (fun r => decide (a < r.addr + r.code.length) && decide (r.addr < a + n))

/-- A range of a granted numbered buffer of a script (R87, R88). -/
def bufRange (m : M) (p tag b : Nat) (e : Int) (n : Nat) : Option Range :=
  match m.script p tag with
  | none => none
  | some s => match s.bufs.find? (fun y => y.buf == b && y.granted) with
    | none => none
    | some y => if 0 ≤ e ∧ e + n ≤ 65536 * y.units then some ⟨.buf p tag b, e.toNat, n⟩ else none

/-- The place of an access to a space other than REG, when every rule of R194 holds. -/
def resolve (im : Image) (m : M) (x : Proc) (sp : Nat) (ra : Word) (off : Int) (n : Nat) (store : Bool) :
    Option Range :=
  let a := addOff ra.toNat off
  if sp = 0 then if a % n = 0 ∧ a + n ≤ scratchBytes then some ⟨.scratch x.num, a, n⟩ else none
  else match partRoutine m x with
    | some r =>
      if sp = 1 then
        if a % n = 0 ∧ winCheck im m r.part a n (if store then rStore else rLoad) = 0 then
          (winMap im m r.part a).map (fun y => ⟨y.1, y.2, n⟩)
        else none
      else match handleOf ra.toNat with
        | none => none
        | some (b, o) => if (o + off) % n = 0 then bufRange m r.part r.tag b (o + off) n else none
    | none =>
      if sp = 1 then if a % n = 0 ∧ a + n ≤ im.ownerDramBytes then some ⟨.dram, a, n⟩ else none
      else if a % n = 0 ∧ a + n ≤ im.ownerStageBytes ∧ !(store && inCode im a n) then some ⟨.ownerStage, a, n⟩ else none

/-- Reads the voted window word that a WINDOW access of a partition's routine depends on (R21, R194, R280, R282): false
refuses the access. -/
def accessVote (im : Image) (x : Proc) (sp a : Nat) (m : M) : Bool × M :=
  match partRoutine m x with
  | some r => if sp = 1 then accessWords im (winWords im r.part a) m else (true, m)
  | none => (true, m)

/-- The bytes at a place on the die. -/
def readSp (m : M) (r : Range) : List Byte :=
  match r.sp with
  | .scratch k => memRead m.scratch (k * 65536 + r.addr) r.len
  | .ownerStage => memRead m.stage r.addr r.len
  | .buf p tag b => match m.script p tag with
    | some s => match s.bufs.find? (fun y => y.buf == b) with
      | some y => memRead y.data r.addr r.len
      | none => List.replicate r.len 0
    | none => List.replicate r.len 0
  | _ => List.replicate r.len 0

/-- The owner-tag check of a processor's access at the slice of a stage address (R12, R282): two comparators that differ refuse it,
and the fault events of both fire. The slice of a script's buffer is taken from the offset in it (log 98). -/
def sliceTag (im : Image) (x : Proc) (r : Range) (m : M) : Bool × M :=
  match r.sp with
  | .ownerStage | .buf _ _ _ =>
    let k := bitsAt r.addr 8 5
    if m.tagGlitch.contains k then
      (false, fire im 0x072 (Config.infoPack 0x072 k (procPort x))
        (pathDisagree im 7 { m with tagGlitch := m.tagGlitch.filter (fun y => y != k) }))
    else (true, m)
  | _ => (true, m)

/-- Writes bytes at a place; a host store is a posted write that a flush must follow (R194, R204). -/
def writeSp (im : Image) (x : Proc) (r : Range) (b : List Byte) (m : M) : M :=
  match r.sp with
  | .scratch k => { m with scratch := memWrite m.scratch (k * 65536 + r.addr) b }
  | .ownerStage => { m with stage := memWrite m.stage r.addr b }
  | .buf p tag n => writeBuf p tag n r.addr b m
  | .dram => dramWrite im (procPort x) (m.cpu x.key).own (m.cpu x.key).own r.addr b m
  | .host p =>
    let k := m.cpu x.key
    let m := m.setCpu x.key { k with rout := k.rout.map (fun (c : RoutCtx) =>
      { c with stored := some (r.addr + r.len - 1) }) }
    reqTlp p (.wr r.addr b (if k.own = 8 then none else some r.len) none) m
  | _ => m

/-- The fault events of the word a place on the die shows when it is read. -/
def placeEcc (im : Image) (x : Proc) (r : Range) (e : Ecc) (m : M) : M :=
  match r.sp with
  | .scratch _ => scratchEcc im x r.addr e m
  | .ownerStage => stageEcc im r.addr e m
  | .buf _ _ _ => stageEcc im r.addr e m
  | _ => m

/-- Detail of DATA_CHECK for an uncorrectable word at a place (R196). -/
def placeDetail (r : Range) : Nat := match r.sp with | .scratch _ => 4 | _ => 2

/-! ### Block-repeat instructions (R197, R198) -/

/-- An address register after one byte: a partition's stage handle rises by 1 in its OFFSET field. -/
def advance (m : M) (x : Proc) (stage : Bool) (a : Word) : Word :=
  if stage && (partRoutine m x).isSome then a + 256 else a + 1

/-- The place of one element. -/
def elemAt (im : Image) (m : M) (x : Proc) (stage : Bool) (a : Word) (store : Bool) : Option Range :=
  resolve im m x (if stage then 2 else 0) a 0 1 store

/-- What one element of a block-repeat instruction does: it goes on with the outcomes of the reads to come, ends the instruction,
or fails at an address or at a bad word. -/
inductive BlkRes where
  | cont (es : List Ecc) (m : M) | stop (m : M) | access (a : Nat) (m : M) | bad (r : Range) (m : M)

/-- One byte of a place. -/
def readByte (m : M) (r : Range) : Byte := (readSp m r).getD 0 0

/-- Reads one byte of a place, its word showing the next outcome (R186): an uncorrectable word ends the element. -/
def blkByte (im : Image) (x : Proc) (r : Range) (es : List Ecc) (m : M) (go : Byte → List Ecc → M → BlkRes) : BlkRes :=
  let e := es.headD .ok
  let m1 := placeEcc im x r e m
  if e = .uncorr then .bad r m1 else go (readByte m1 r) es.tail m1

/-- Sets general registers of a processor. -/
def setGs (x : Proc) (l : List (Nat × Word)) (m : M) : M :=
  m.setCpu x.key (l.foldl (fun k e => k.setG e.1 e.2) (m.cpu x.key))

/-- One element (R197); `es` are the outcomes of the words it reads, in the order of the reads. -/
def blkElem (im : Image) (x : Proc) (o : Op) (w : BitVec 32) (es : List Ecc) (m : M) : BlkRes :=
  let k := m.cpu x.key
  let d := k.g (fRd w)
  let a := k.g (fRa w)
  let c := k.g (fRb w)
  let d1 := advance m x (fDsp w) d
  let a1 := advance m x (fSsp w) a
  match o with
  | .movb =>
    match elemAt im m x (fSsp w) a false with
    | none => .access a.toNat m
    | some s => match elemAt im m x (fDsp w) d true with
      | none => .access d.toNat m
      | some t => blkByte im x s es m (fun b es m =>
          .cont es (setGs x [(fRd w, d1), (fRa w, a1), (fRb w, c - 1)] (writeSp im x t [b] m)))
  | .filb =>
    match elemAt im m x (fDsp w) d true with
    | none => .access d.toNat m
    | some t => .cont es (setGs x [(fRd w, d1), (fRb w, c - 1)]
        (writeSp im x t [(leBytes 8 a.toNat).getD (t.addr % 8) 0] m))
  | .cmpb =>
    match elemAt im m x (fDsp w) d false with
    | none => .access d.toNat m
    | some t => match elemAt im m x (fSsp w) a false with
      | none => .access a.toNat m
      | some s => blkByte im x t es m (fun b es m => blkByte im x s es m (fun b' es m =>
          if b = b' then .cont es (setGs x [(fRd w, d1), (fRa w, a1), (fRb w, c - 1)] m) else .stop m))
  | _ =>
    match elemAt im m x (fSsp w) a false with
    | none => .access a.toNat m
    | some s => blkByte im x s es m (fun b es m =>
        if b = BitVec.ofNat 8 d.toNat then .stop m else .cont es (setGs x [(fRa w, a1), (fRb w, c - 1)] m))

/-- Ends a block-repeat instruction: PC moves on. -/
def blkDone (x : Proc) (m : M) : M :=
  let k := m.cpu x.key
  m.setCpu x.key { k with pc := nextPc k.pc }

/-- Up to n elements (R198); stopped after them, PC stays. -/
def blkRun (im : Image) (x : Proc) (o : Op) (w : BitVec 32) : Nat → List Ecc → M → M
  | 0, _, m => if (m.cpu x.key).g (fRb w) = 0 then blkDone x m else m
  | n + 1, es, m =>
    if (m.cpu x.key).g (fRb w) = 0 then blkDone x m
    else match blkElem im x o w es m with
      | .cont es m => blkRun im x o w n es m
      | .stop m => blkDone x m
      | .access a m => raiseAccess im x a m
      | .bad r m => raiseData im x 0x24 (placeDetail r) r.addr m

/-- Elements of one sc: 32 when no space is STAGE, else 16 (R198). -/
def blkRate (w : BitVec 32) : Nat := if fDsp w || fSsp w then 16 else 32

/-- One sc of a block-repeat instruction. -/
def runBlock (im : Image) (i : Issue) (o : Op) (m : M) : M :=
  let m := chargeIssue i.x m
  let m := m.setCpu i.x.key { m.cpu i.x.key with ready := m.now + 1 }
  blkRun im i.x o i.word (blkRate i.word) (i.data :: i.more) m

/-- The command of a block-repeat instruction: one sc of its work (log entry 21). -/
def opBlock (im : Image) (o : Op) (i : Issue) (m : M) : M := issueOp im i (fun p => p == o) (runBlock im i o) m

/-! ### SEND (R200) -/

/-- A place of a SEND transfer: ERR, or the range (R164, R165, R193, R200). -/
def sendRange (im : Image) (m : M) (t sp a n : Nat) (store : Bool) : Nat ⊕ Range :=
  if sp = 3 then .inl 2
  else if sp = 0 then if a + n ≤ scratchBytes then .inr ⟨.scratch t, a, n⟩ else .inl 2
  else match partRoutine m (.thread (Fin.ofNat 512 t)) with
    | some r =>
      if sp = 1 then
        if winCheck im m r.part a n (if store then rStore else rLoad) ≠ 0 then .inl 3
        else match winMap im m r.part a with | some y => .inr ⟨y.1, y.2, n⟩ | none => .inl 3
      else match handleOf a with
        | none => .inl 2
        | some (b, o) => match bufRange m r.part r.tag b o n with | some y => .inr y | none => .inl 2
    | none =>
      if sp = 1 then if a + n ≤ im.ownerDramBytes then .inr ⟨.dram, a, n⟩ else .inl 2
      else if a + n ≤ im.ownerStageBytes ∧ !(store && inCode im a n) then .inr ⟨.ownerStage, a, n⟩ else .inl 2

/-- The checks of a SEND record in the order of R168: ERR, or source and destination. -/
def sendCheck (im : Image) (m : M) (t w0 w1 w2 : Nat) : Nat ⊕ (List Range × List Range) :=
  let op := bitsAt w0 0 8
  let ss := bitsAt w0 8 2
  let ds := bitsAt w0 10 2
  let n := bitsAt w0 32 32
  if (op ≠ 1 ∧ op ≠ 2) ∨ bitsAt w0 15 17 ≠ 0 ∨ (op = 2 ∧ ss ≠ 0) then .inl 1
  else if ss = 3 ∨ ds = 3 then .inl 2
  else if n = 0 then .inr ([], [])
  else match sendRange im m t ds w2 n true with
    | .inl e => (match (if op = 1 then sendRange im m t ss w1 n false else .inl 0 : Nat ⊕ Range) with
      | .inl 0 => .inl e
      | .inl f => .inl f
      | .inr _ => .inl e)
    | .inr d =>
      if op = 2 then .inr ([⟨.pattern w1, d.addr % 8, n⟩], [d])
      else match sendRange im m t ss w1 n false with
        | .inl e => .inl e
        | .inr s => if overlap s d then .inl 1 else .inr ([s], [d])

/-- Reads the voted window words of a SEND's ranges (R21, R280, R282). -/
def sendVote (im : Image) (t w0 w1 w2 : Nat) (m : M) : Bool × M :=
  if bitsAt w0 32 32 = 0 then (true, m) else
  let (a, m) := accessVote im (.thread (Fin.ofNat 512 t)) (if bitsAt w0 0 8 = 1 then bitsAt w0 8 2 else 0) w1 m
  let (b, m) := accessVote im (.thread (Fin.ofNat 512 t)) (bitsAt w0 10 2) w2 m
  (a && b, m)

/-- The transfer of a SEND: `ok` says that no voted window word refuses it. -/
def sendXfer (im : Image) (m : M) (ok : Bool) (t own rec ev w0 w1 w2 : Nat) : Xfer :=
  match sendCheck im m t w0 w1 w2 with
  | .inl e => { Xfer.make own own (.send t rec ev) [] [] [] 0 0 with err := e }
  | .inr (s, d) =>
    if ok then Xfer.make own own (.send t rec ev) s d [] (bitsAt w0 32 32) (bitsAt w0 32 32)
    else { Xfer.make own own (.send t rec ev) [] [] [] 0 0 with err := 3 }

/-- Runs SEND: a record outside scratch or misaligned is ACCESS; a running transfer on the same event bit, or a full
sub-queue, makes the thread wait without issuing. -/
def runSend (im : Image) (i : Issue) (m : M) : M :=
  match i.x with
  | .core _ => m
  | .thread t =>
    let k := m.cpu (thr t.val)
    let a := (k.g (fRa i.word)).toNat
    if a % 32 ≠ 0 ∨ scratchBytes < a + 32 then raiseAccess im i.x a (chargeIssue i.x m)
    else if i.data = .uncorr then
      raiseData im i.x 0x24 4 a (scratchEcc im i.x a i.data (chargeIssue i.x m))
    else
      let b := memRead m.scratch (t.val * 65536 + a) 24
      let w0 := leAt b 0 8
      let ev := bitsAt w0 12 3
      let own := k.own
      if (sendsOf m t.val).any (fun y => match y.who with | .send _ _ e => e == ev | _ => false) ∨
          queueRoom im m (t.val / 32) own = false then m.passTurn t.val
      else
        let m := scratchEcc im i.x a i.data (chargeIssue i.x m)
        let k := m.cpu (thr t.val)
        let m := m.setCpu (thr t.val) { k with pc := nextPc k.pc, ev := putBit k.ev ev false, ready := m.now + 1 }
        let (ok, m) := sendVote im t.val w0 (leAt b 8 8) (leAt b 16 8) m
        settleQueue im (t.val / 32) own
          (postXfer (t.val / 32) own (sendXfer im m ok t.val own a ev w0 (leAt b 8 8) (leAt b 16 8)) m)

/-- SEND. -/
def opSend (im : Image) (i : Issue) (m : M) : M := issueOp im i (fun p => p == .send) (runSend im i) m

/-- Wakes a WAITEV whose event has come before the cycle of its timeout edge has passed (R201). -/
def wakeEv (t : Nat) (m : M) : M :=
  let k := m.cpu (thr t)
  match k.wait with
  | .ev rd sel d =>
    let hit := k.ev &&& sel
    if hit = 0 ∨ (match d with | some d => decide (d ≤ edgesPast m) | none => false) = true then m
    else m.setCpu (thr t) { k.setG rd (BitVec.ofNat 64 hit) with
      ev := clearBits k.ev hit, wait := .none, ready := m.now + 1 }
  | _ => m

/-- SEND_COMPLETE (R200): word 3 is written, then the event bit sets. -/
def opSendComplete (im : Image) (t ev : Nat) (m : M) : M :=
  let k := m.cpu (thr t)
  let own := k.own
  match (m.queue (t / 32) own).find? (fun x => (match x.who with | .send j _ e => j == t && e == ev | _ => false) &&
      x.finished) with
  | none => m
  | some x =>
    let ra := match x.who with | .send _ r _ => r | _ => 0
    let w3 := (if x.err = 0 then 1 else 2) + 2 ^ 4 * x.err + 2 ^ 32 * x.bytesDone
    let m := putQueue (t / 32) own ((m.queue (t / 32) own).filter (fun y => y != x)) m
    let m := { m with scratch := memWrite m.scratch (t * 65536 + ra + 24) (leBytes 8 w3) }
    tryEnd im t (wakeEv t (m.setCpu (thr t) { m.cpu (thr t) with ev := putBit k.ev ev true }))

/-! ### Other stage operations (R199, R201, R204) -/

/-- POST (R199). -/
def runPost (im : Image) (i : Issue) (m : M) : M :=
  let k := m.cpu i.x.key
  let bits := (k.g (fRa i.word)).toNat
  let b := (k.g (fRb i.word)).toNat
  let m := chargeIssue i.x m
  let go := fun (p : Nat) (m : M) =>
    let m := setEvents im p bits m
    let k := m.cpu i.x.key
    m.setCpu i.x.key { k with pc := nextPc k.pc, ready := m.now + 1 }
  match partRoutine m i.x with
  | some r => if fRb i.word ≠ 0 then raiseIllegal im i.x i.word m else go r.part m
  | none => if 8 ≤ b ∨ im.enabled b = false then raiseAccess im i.x b m else go b m

/-- POST. -/
def opPost (im : Image) (i : Issue) (m : M) : M := issueOp im i (fun p => p == .post) (runPost im i) m

/-- WAITEV (R201). -/
def runWaitev (im : Image) (i : Issue) (m : M) : M :=
  match i.x with
  | .core _ => m
  | .thread t =>
    let k := m.cpu (thr t.val)
    let sel := (k.g (fRa i.word)).toNat
    let n := (k.g (fRb i.word)).toNat
    let m := chargeIssue i.x m
    if 256 ≤ sel ∨ sel = 0 then raiseIllegal im i.x i.word m
    else wakeEv t.val (m.setCpu (thr t.val) { m.cpu (thr t.val) with
      pc := nextPc k.pc, wait := .ev (fRd i.word) sel (if n = 0 then none else some (edgeCount m + n)),
      ready := m.now + 1 })

/-- WAITEV. -/
def opWaitev (im : Image) (i : Issue) (m : M) : M := issueOp im i (fun p => p == .waitev) (runWaitev im i) m

/-- WAITEV_TIMEOUT (R201): an event of the edge's own cycle still wakes the thread, so the timeout comes after it. -/
def opWaitevTimeout (t : Nat) (m : M) : M :=
  let k := m.cpu (thr t)
  match k.wait with
  | .ev rd _ (some d) =>
    if d ≤ edgesPast m then m.setCpu (thr t) { k.setG rd 0 with wait := .none, ready := m.now + 1 } else m
  | _ => m

/-- YIELD (R199). -/
def opYield (im : Image) (i : Issue) (m : M) : M :=
  issueOp im i (fun p => p == .yield) (fun m =>
    let m := chargeIssue i.x m
    let k := m.cpu i.x.key
    m.setCpu i.x.key { k with pc := nextPc k.pc, wait := .edge (edgeCount m), ready := m.now + 1 }) m

/-- RTN (R204). -/
def opRtn (im : Image) (i : Issue) (m : M) : M :=
  issueOp im i (fun p => p == .rtn) (fun m =>
    match i.x with
    | .core _ => m
    | .thread t =>
      let m := chargeIssue i.x m
      tryEnd im t.val (m.setCpu (thr t.val) { m.cpu (thr t.val) with wait := .ret false })) m

/-- The flush read of a routine's end is answered (R204). -/
def rtnAnswer (im : Image) (t : Nat) (r : RdRes) (m : M) : M :=
  let k := m.cpu (thr t)
  if k.wait ≠ .ret true then m
  else match r with
    | .data _ => tryEnd im t (m.setCpu (thr t) { k with wait := .ret false })
    | _ => routineAbort im t 0x25 1 7 m

/-- RDTK (R199). -/
def opRdtk (im : Image) (i : Issue) (m : M) : M :=
  issueOp im i (fun p => p == .rdtk) (fun m =>
    finishRd i.x (fRd i.word) (BitVec.ofNat 64 (m.fld .TCK_COUNT_COUNT 0)) 1 (chargeIssue i.x m)) m

/-- RDCY (R199): cycles since the last edge cycle. -/
def opRdcy (im : Image) (i : Issue) (m : M) : M :=
  issueOp im i (fun p => p == .rdcy) (fun m =>
    finishRd i.x (fRd i.word) (BitVec.ofNat 64 (m.now - edgeCycle m)) 1 (chargeIssue i.x m)) m

/-! ### ROUTINE_OVERRUN (R65) -/

/-- At step 5 of the edge that breaks MAX_TICKS, when TCK_COUNT has counted it, the routine is aborted (R65). -/
def opRoutineOverrun (im : Image) (t : Nat) (m : M) : M :=
  let k := m.cpu (thr t)
  match k.rout with
  | none => m
  | some r =>
    let ending : Bool := match k.wait with | .ending .. => true | _ => false
    match im.routine r.index with
    | none => m
    | some q =>
      if ending ∨ m.fld .TCK_COUNT_COUNT 0 < r.edge + q.maxTicks + 1 then m
      else if r.part = 8 then
        routineAbort im t 0x26 2 2 (fire im 0x058 (Config.infoPack 0x058 r.index r.call) m)
      else routineAbort im t 0x26 2 2 (fireP im (0x050 + r.part) (bitsPut r.index 0 16 + bitsPut t 16 9) r.part m)

/-! ### CALL (R93, R203) -/

/-- A thread at the first instruction of a routine, with g1 to g7; the answers it still owes stay owed. -/
def routineCpu (m : M) (x : Cpu) (r : RoutCtx) (args : List Word) : Cpu :=
  let k := { Cpu.init with
    rout := some r, ready := m.now, loadDrop := x.loadDrop, fetchDrop := x.fetchDrop, listDrop := x.listDrop }
  (args.foldl (fun (a : Nat × Cpu) v => (a.1 + 1, a.2.setG a.1 v)) (1, k)).2

/-- CALL (R93, R203): the routine starts on the cue's thread, once its scratch is zero again; or NOT_CALLABLE. -/
def opCall (im : Image) (t : Nat) (m : M) : M :=
  match readyCue t 11 m with
  | none => m
  | some (s, c) =>
    if s.run.begun then m
    else match im.routine c.cue.arg with
      | none => endScript im s (failEntry s c 0x26 4) (cueStep s m)
      | some q =>
        if bitAt q.callers s.part = false then endScript im s (failEntry s c 0x26 4) (cueStep s m)
        else if m.now < (m.cpu (thr t)).ready then m.passTurn t
        else
          let m := (cueStep s m).bump .SPN_RSTATS_CALLS (pinst s.part 0)
          let r : RoutCtx := ⟨q.index, s.part, s.tag, 0, 0, edgeCount m, none⟩
          let w := fun n => BitVec.ofNat 64 n
          let m := m.setCpu (thr t) (routineCpu m (m.cpu (thr t)) r [w c.cue.w1, w c.cue.slot, w c.cue.param, w c.cue.w3, w s.tag, w s.part,
            w (c.ptr + (if c.inl then 2 ^ 63 else 0))])
          m.setScript { s with run := { s.run with begun := true } }

/-! ### Privileged operations (R208 to R212) -/

/-- Whether a control register number is listed (R208). -/
def crListed (n : Nat) : Bool := decide (n ≤ 0x00A) || (decide (0x010 ≤ n) && decide (n ≤ 0x01F))

/-- Reads a control register (R208). -/
def crRead (c : Nat) (k : Cpu) (n : Nat) : Nat := if n = 9 then c else k.crv n

/-- Clears CALL_DONE bits; their call numbers are free (R212). -/
def clearCallDone (im : Image) (c bits : Nat) (m : M) : M :=
  let k := m.cpu (wng c)
  let hit := k.crv 0x00A &&& bits
  irqSync im 8 (0x804 + c)
    (m.setCpu (wng c) { k.setCr 0x00A (clearBits (k.crv 0x00A) hit) with calls := clearBits k.calls hit })

/-- Writes a control register; read-only registers and fields keep their value (R208). -/
def crWrite (im : Image) (c n v : Nat) (m : M) : M :=
  let k := m.cpu (wng c)
  if n = 0 then m.setCpu (wng c) (k.setCr 0 (k.crv 0 / 4 * 4 + v % 4))
  else if n ≤ 3 then m.setCpu (wng c) (k.setCr n v)
  else if n ≤ 6 then m.setCpu (wng c) (k.setCr n (v / 4 * 4))
  else if n = 0x00A then clearCallDone im c v m
  else m

/-- The operations of the privileged words. -/
inductive Prv where
  | crd | cwr | crs | crc | rte | wfi | callr
  deriving DecidableEq, Repr

/-- Whether the fields a privileged operation does not use are zero, and its control register is listed (R187). -/
def prvLegal (o : Prv) (w : BitVec 32) : Bool :=
  match o with
  | .crd => fRa w == 0 && crListed (fCr w)
  | .cwr => fRd w == 0 && crListed (fCr w)
  | .crs => crListed (fCr w)
  | .crc => crListed (fCr w)
  | .rte => fRd w == 0 && fRa w == 0 && fCr w == 0
  | .wfi => fRd w == 0 && fRa w == 0 && fCr w == 0
  | .callr => fCr w == 0

/-- RTE (R209): leaves the highest active level; with none, ILLEGAL. -/
def runRte (im : Image) (c : Nat) (i : Issue) (m : M) : M :=
  let k := m.cpu (wng c)
  let leave := fun (b : Nat) =>
    let k := { k.setStat b false with pc := k.crv (b - 2), ready := m.now + 2 }
    takeAsync c (m.setCpu (wng c) (if b = 4 then k.setStat 2 false else k))
  if k.inLevel 5 then leave 5
  else if k.inLevel 4 then leave 4
  else if k.inLevel 3 then leave 3
  else raiseIllegal im i.x i.word m

/-- An idle thread of an OWNER spindle (R212). -/
def idleOwnerThread (im : Image) (m : M) : Option Nat :=
  (List.range 512).find? (fun t => im.spindleOwner (t / 4) == 8 && (m.cpu (thr t)).rout.isNone &&
    (m.cpu (thr t)).wait == .none && decide ((m.cpu (thr t)).ready ≤ m.now))

/-- CALLR (R212): starts an owner routine, or gives a refusal code. -/
def runCallr (im : Image) (c : Nat) (i : Issue) (m : M) : M :=
  let k := m.cpu (wng c)
  let ix := (k.g (fRa i.word)).toNat
  let w := fun n => BitVec.ofNat 64 n
  match im.routine ix with
  | none => finishRd i.x (fRd i.word) (BitVec.ofInt 64 (-2)) 1 m
  | some q =>
    if bitAt q.rflags 0 = false then finishRd i.x (fRd i.word) (BitVec.ofInt 64 (-2)) 1 m
    else match idleOwnerThread im m, (List.range 16).find? (fun n => !(bitAt k.calls n)) with
      | some t, some n =>
        let r : RoutCtx := ⟨q.index, 8, 0, c, n, edgeCount m, none⟩
        let m := wakeSpindle im t m
        let m := m.setCpu (thr t) (routineCpu m (m.cpu (thr t)) r [k.g 1, k.g 2, k.g 3, k.g 4, w n, w 8, w c])
        let m := m.setCpu (wng c) { k with calls := putBit k.calls n true }
        finishRd i.x (fRd i.word) (w n) 1 m
      | _, _ => finishRd i.x (fRd i.word) (BitVec.allOnes 64) 1 m

/-- Runs a privileged operation on a core. -/
def runPrv (im : Image) (i : Issue) (o : Prv) (m : M) : M :=
  match i.x with
  | .thread _ => m
  | .core cf =>
    let c := cf.val
    let k := m.cpu (wng c)
    let n := fCr i.word
    let old := crRead c k n
    let a := (k.g (fRa i.word)).toNat
    if prvLegal o i.word = false then raiseIllegal im i.x i.word m
    else match o with
      | .crd => finishRd i.x (fRd i.word) (BitVec.ofNat 64 old) 1 m
      | .cwr => finishRd i.x 0 0 1 (crWrite im c n a m)
      | .crs => finishRd i.x (fRd i.word) (BitVec.ofNat 64 old) 1 (if n = 0x00A then m else crWrite im c n (old ||| a) m)
      | .crc => finishRd i.x (fRd i.word) (BitVec.ofNat 64 old) 1 (crWrite im c n (if n = 0x00A then a else clearBits old a) m)
      | .rte => runRte im c i m
      | .wfi =>
        if !k.pend.isEmpty || canTake im m c then finishRd i.x 0 0 1 m
        else m.setCpu (wng c) { k with pc := nextPc k.pc, wait := .wfi, ready := m.now + 1 }
      | .callr => runCallr im c i m

/-- The privileged operation that a word's POP names, by the numbering of `Config.popCode`; `none` for an undefined value
(R187). -/
def popOf (w : BitVec 32) : Option Prv :=
  match (Config.popCode.symm (Fin.ofNat 16 w.toNat)).val with
  | 0 => some .crd
  | 1 => some .cwr
  | 2 => some .crs
  | 3 => some .crc
  | 4 => some .rte
  | 5 => some .wfi
  | 6 => some .callr
  | _ => none

/-- The command of a privileged operation; an undefined POP is ILLEGAL (R187). -/
def opPrv (im : Image) (o : Prv) (i : Issue) (m : M) : M :=
  issueOp im i (fun p => p == .prv && (popOf i.word == some o || popOf i.word == none))
    (fun m => if popOf i.word = some o then runPrv im i o m else raiseIllegal im i.x i.word m) m

/-! ### Starting cores and interrupts (R209, R213, R340) -/

/-- A core starts at an entry with everything zero (R213). -/
def startCore (c entry : Nat) (m : M) : M :=
  let m := { m.setCpu (wng c) { Cpu.init with pc := entry, running := true, ready := m.now } with
    scratch := memClear m.scratch ((512 + c) * 65536) 65536 }
  (m.setFlag .WNG_CTL_RUNNING c true).setFlag .WNG_CTL_HALTED c false

/-- WINGS_START (R213): a write of WNG_CTL with START 1. -/
def opWingsStart (im : Image) (c entry : Nat) (m : M) : M :=
  let m := m.setFld .WNG_CTL_ENTRY c entry
  if m.flag .WNG_CTL_RUNNING c || m.flag .WNG_CTL_HALTED c then m
  else if entry % 4 ≠ 0 ∨ im.loadArea.length ≤ entry then m.setFlag .WNG_CTL_REFUSED c true
  else startCore c entry m

/-- INTERRUPT_ENTRY (R209, R340): at a boundary the core takes a trap, a fast or a normal interrupt, in that order. -/
def opInterruptEntry (im : Image) (c : Nat) (m : M) : M :=
  if !(atBoundary m.now (m.cpu (wng c))) || m.inReset 22 c then m else (takeAt im c m).getD m


end Sys2Proof
end

