-- ==== Sys2Proof/Machine/RegMap.lean ====
section
/-! DEFINITION. Where each register lies in each view, and which block an offset belongs to (16, R375 to R378;
06, doorbell page; 11, R293; 14, R344). -/

namespace Sys2Proof

/-- A row of the register map: register `reg` at base + stride × n for n below `count`; a read through a `mirror` has
no side effect (R379); `sub` tells apart the registers of an array within an array. -/
structure MapRow where
  base : Nat
  stride : Nat
  count : Nat
  reg : Reg
  mirror : Bool
  sub : Nat
  deriving DecidableEq, Repr

/-- Registers of BAR0 (16), part 0. -/
def mapBar00 : List MapRow :=
  [⟨0x0, 0x0, 1, .IDN_LOT, true, 0⟩,
   ⟨0x8, 0x0, 1, .IDN_POS, true, 0⟩,
   ⟨0x10, 0x0, 1, .IDN_SERIAL_LO, true, 0⟩,
   ⟨0x18, 0x0, 1, .IDN_SERIAL_HI, true, 0⟩,
   ⟨0x20, 0x0, 1, .TCK_COUNT, true, 0⟩,
   ⟨0x100, 0x8, 17, .BSTS, false, 0⟩,
   ⟨0x1000, 0x0, 1, .TCK_LAST_A, false, 0⟩,
   ⟨0x1008, 0x0, 1, .TCK_LAST_B, false, 0⟩,
   ⟨0x1010, 0x0, 1, .TCK_EXHAUST, false, 0⟩,
   ⟨0x2000, 0x0, 1, .CUE_EVENT, false, 0⟩,
   ⟨0x2008, 0x0, 1, .CUE_STATS, false, 0⟩,
   ⟨0x2010, 0x0, 1, .CUE_LAST_ERR, false, 0⟩,
   ⟨0x3000, 0x0, 1, .SPC_CUES, false, 0⟩,
   ⟨0x3008, 0x0, 1, .SPC_SQUASH, false, 0⟩,
   ⟨0x3010, 0x0, 1, .SPC_RHS, false, 0⟩,
   ⟨0x3018, 0x0, 1, .SPC_RHS_MISS, false, 0⟩,
   ⟨0x4000, 0x0, 1, .SPN_RFAULT_A, false, 0⟩,
   ⟨0x4008, 0x0, 1, .SPN_RFAULT_B, false, 0⟩,
   ⟨0x4010, 0x0, 1, .SPN_RSTATS, false, 0⟩,
   ⟨0x5000, 0x0, 1, .HPT_STS, false, 0⟩,
   ⟨0x5008, 0x0, 1, .HPT_CNT, false, 0⟩,
   ⟨0x6000, 0x0, 1, .RNG_ENABLE, false, 0⟩,
   ⟨0x6008, 0x0, 1, .RNG_CNT_A, false, 0⟩,
   ⟨0x6010, 0x0, 1, .RNG_CNT_B, false, 0⟩,
   ⟨0x100000, 0x20, 65536, .RNG_CFG_A, false, 0⟩,
   ⟨0x100008, 0x20, 65536, .RNG_CFG_B, false, 0⟩,
   ⟨0x100010, 0x20, 65536, .RNG_STS, false, 0⟩,
   ⟨0x300000, 0x40, 1024, .MOV_LIST, false, 0⟩,
   ⟨0x300008, 0x40, 1024, .MOV_CFG, false, 0⟩,
   ⟨0x300010, 0x40, 1024, .MOV_CTL, false, 0⟩,
   ⟨0x300018, 0x40, 1024, .MOV_STS, false, 0⟩,
   ⟨0x300020, 0x40, 1024, .MOV_LAST, false, 0⟩]

/-- Registers of BAR0 (16), part 1. -/
def mapBar01 : List MapRow :=
  [⟨0x300028, 0x40, 1024, .MOV_CNT, false, 0⟩,
   ⟨0x400000, 0x0, 1, .IRQ_CFG, false, 0⟩,
   ⟨0x400008, 0x0, 1, .IRQ_STRAY_ACK, false, 0⟩,
   ⟨0x401000, 0x8, 128, .IRQ_PEND_N, false, 0⟩,
   ⟨0x401400, 0x8, 128, .IRQ_PEND_F, false, 0⟩,
   ⟨0x401800, 0x8, 128, .IRQ_MASK_N, false, 0⟩,
   ⟨0x401c00, 0x8, 128, .IRQ_MASK_F, false, 0⟩,
   ⟨0x402000, 0x8, 128, .IRQ_ACT_N, false, 0⟩,
   ⟨0x402400, 0x8, 128, .IRQ_ACT_F, false, 0⟩,
   ⟨0x402800, 0x8, 256, .IRQ_SENSE, false, 0⟩,
   ⟨0x404000, 0x8, 1024, .IRQ_RPEND, false, 0⟩,
   ⟨0x406000, 0x8, 1024, .IRQ_RMASK, false, 0⟩,
   ⟨0x408000, 0x8, 1024, .IRQ_RACT, false, 0⟩]

/-- Registers of BAR0 (16). -/
def mapBar0 : List MapRow := mapBar00 ++ mapBar01

/-- Registers of the owner view (16; R401), part 0. -/
def mapOwner0 : List MapRow :=
  [⟨0x0, 0x0, 1, .IDN_LOT, false, 0⟩,
   ⟨0x8, 0x0, 1, .IDN_POS, false, 0⟩,
   ⟨0x10, 0x0, 1, .IDN_SERIAL_LO, false, 0⟩,
   ⟨0x18, 0x0, 1, .IDN_SERIAL_HI, false, 0⟩,
   ⟨0x100, 0x8, 17, .BSTS, false, 0⟩,
   ⟨0x10000, 0x0, 1, .IMG_BOOT_STS, false, 0⟩,
   ⟨0x10008, 0x0, 1, .IMG_PORT_CTL, false, 0⟩,
   ⟨0x10010, 0x0, 1, .IMG_FLASH_CMD, false, 0⟩,
   ⟨0x10018, 0x0, 1, .IMG_FLASH_STS, false, 0⟩,
   ⟨0x10020, 0x0, 1, .IMG_CHECK, false, 0⟩,
   ⟨0x10028, 0x0, 1, .IMG_SEQ, false, 0⟩,
   ⟨0x10040, 0x8, 6, .IMG_ROOT_HASH, false, 0⟩,
   ⟨0x20000, 0x0, 1, .TCK_STS, false, 0⟩,
   ⟨0x20008, 0x0, 1, .TCK_COUNT, false, 0⟩,
   ⟨0x20010, 0x0, 1, .TCK_SYNC_CNT, false, 0⟩,
   ⟨0x20100, 0x10, 8, .TCK_CAP_A, false, 0⟩,
   ⟨0x20108, 0x10, 8, .TCK_CAP_B, false, 0⟩,
   ⟨0x30000, 0x8, 4, .WNG_CTL, false, 0⟩,
   ⟨0x40000, 0x0, 1, .SPC_CTL, false, 0⟩,
   ⟨0x40100, 0x8, 96, .SPC_LINK, false, 0⟩,
   ⟨0x100000, 0x40, 1024, .MOV_LIST, false, 0⟩,
   ⟨0x100008, 0x40, 1024, .MOV_CFG, false, 0⟩,
   ⟨0x100010, 0x40, 1024, .MOV_CTL, false, 0⟩,
   ⟨0x100018, 0x40, 1024, .MOV_STS, false, 0⟩,
   ⟨0x100020, 0x40, 1024, .MOV_LAST, false, 0⟩,
   ⟨0x100028, 0x40, 1024, .MOV_CNT, false, 0⟩,
   ⟨0x110000, 0x8, 16, .MOV_QSTS, false, 0⟩,
   ⟨0x120000, 0x40, 96, .LNK_CTL, false, 0⟩,
   ⟨0x120008, 0x40, 96, .LNK_STS, false, 0⟩,
   ⟨0x120010, 0x40, 96, .LNK_CNT_A, false, 0⟩,
   ⟨0x120018, 0x40, 96, .LNK_CNT_B, false, 0⟩,
   ⟨0x120020, 0x40, 96, .LNK_OWN_TX, false, 0⟩]

/-- Registers of the owner view (16; R401), part 1. -/
def mapOwner1 : List MapRow :=
  [⟨0x120028, 0x40, 96, .LNK_OWN_RX, false, 0⟩,
   ⟨0x122000, 0x8, 96, .LNK_LANE, false, 0⟩,
   ⟨0x123000, 0x8, 12, .LNK_OCT_CTL, false, 0⟩,
   ⟨0x123100, 0x8, 12, .LNK_OCT_STS, false, 0⟩,
   ⟨0x130000, 0x10, 8, .HPT_STS, true, 0⟩,
   ⟨0x130008, 0x10, 8, .HPT_CNT, true, 0⟩,
   ⟨0x140000, 0x0, 1, .SEC_STS, false, 0⟩,
   ⟨0x140008, 0x0, 1, .SEC_VOTE, false, 0⟩,
   ⟨0x140010, 0x0, 1, .SEC_WCMD, false, 0⟩,
   ⟨0x140018, 0x0, 1, .SEC_WSTS, false, 0⟩,
   ⟨0x140020, 0x8, 4, .SEC_WNONCE, false, 0⟩,
   ⟨0x140040, 0x0, 1, .SEC_FWCMD, false, 0⟩,
   ⟨0x150000, 0x100, 4, .MEM_CH_CTL, false, 0⟩,
   ⟨0x150008, 0x100, 4, .MEM_CH_STS, false, 0⟩,
   ⟨0x150010, 0x100, 4, .MEM_BUCKET, false, 0⟩,
   ⟨0x150018, 0x100, 4, .MEM_ERR_A, false, 0⟩,
   ⟨0x150020, 0x100, 4, .MEM_ERR_B, false, 0⟩,
   ⟨0x150028, 0x100, 4, .MEM_ERR_ADDR, false, 0⟩,
   ⟨0x150030, 0x100, 4, .MEM_SCRUB_CTL, false, 0⟩,
   ⟨0x150038, 0x100, 4, .MEM_SCRUB_RANGE, false, 0⟩,
   ⟨0x150040, 0x100, 4, .MEM_SCRUB_SUM_A, false, 0⟩,
   ⟨0x150048, 0x100, 4, .MEM_SCRUB_SUM_B, false, 0⟩,
   ⟨0x150050, 0x100, 4, .MEM_SCRUB_SUM_C, false, 0⟩,
   ⟨0x160000, 0x0, 1, .IRQ_WCFG, false, 0⟩,
   ⟨0x160008, 0x0, 1, .IRQ_WSTRAY, false, 0⟩,
   ⟨0x160040, 0x8, 4, .IRQ_WCTL, false, 0⟩,
   ⟨0x161000, 0x8, 128, .IRQ_WPEND_N, false, 0⟩,
   ⟨0x161400, 0x8, 128, .IRQ_WPEND_F, false, 0⟩,
   ⟨0x161800, 0x8, 128, .IRQ_WMASK_N, false, 0⟩,
   ⟨0x161c00, 0x8, 128, .IRQ_WMASK_F, false, 0⟩,
   ⟨0x162000, 0x8, 128, .IRQ_WACT_N, false, 0⟩,
   ⟨0x162400, 0x8, 128, .IRQ_WACT_F, false, 0⟩]

/-- Registers of the owner view (16; R401), part 2. -/
def mapOwner2 : List MapRow :=
  [⟨0x162800, 0x8, 256, .IRQ_WSENSE, false, 0⟩,
   ⟨0x170000, 0x40, 8, .MBX_WTX_HEAD, false, 0⟩,
   ⟨0x170008, 0x40, 8, .MBX_WTX_DATA, false, 0⟩,
   ⟨0x170010, 0x40, 8, .MBX_WRX, false, 0⟩,
   ⟨0x170018, 0x40, 8, .MBX_WSTS, false, 0⟩,
   ⟨0x170020, 0x40, 8, .MBX_WCTL, false, 0⟩,
   ⟨0x180000, 0x0, 1, .TRC_PUT, false, 0⟩,
   ⟨0x180008, 0x0, 1, .TRC_GET, false, 0⟩,
   ⟨0x180010, 0x0, 1, .TRC_CTL, false, 0⟩,
   ⟨0x180018, 0x0, 1, .TRC_STS, false, 0⟩,
   ⟨0x180020, 0x0, 1, .TRC_CNT, false, 0⟩,
   ⟨0x181000, 0x8, 96, .TRC_EVT, false, 0⟩,
   ⟨0x181400, 0x8, 96, .TRC_EVT_STS, false, 0⟩,
   ⟨0x190000, 0x40, 45, .FLT_STS, false, 0⟩,
   ⟨0x190008, 0x40, 45, .FLT_FIRST_A, false, 0⟩,
   ⟨0x190010, 0x40, 45, .FLT_FIRST_B, false, 0⟩,
   ⟨0x190018, 0x40, 45, .FLT_CNT, false, 0⟩,
   ⟨0x190020, 0x40, 45, .FLT_INJECT, false, 0⟩,
   ⟨0x191000, 0x8, 304, .FLT_SRC, false, 0⟩,
   ⟨0x1a0000, 0x0, 1, .PWR_CTL, false, 0⟩,
   ⟨0x1a0008, 0x0, 1, .PWR_PIN, false, 0⟩,
   ⟨0x1a0010, 0x0, 1, .PWR_RST_CAUSE, false, 0⟩,
   ⟨0x1a0018, 0x0, 1, .PWR_BRESET, false, 0⟩,
   ⟨0x150058, 0x100, 4, .MEM_SCRUB_HIST, false, 0⟩,
   ⟨0x150060, 0x100, 4, .MEM_SCRUB_HIST, false, 1⟩,
   ⟨0x150068, 0x100, 4, .MEM_SCRUB_HIST, false, 2⟩,
   ⟨0x150070, 0x100, 4, .MEM_SCRUB_HIST, false, 3⟩,
   ⟨0x150078, 0x100, 4, .MEM_SCRUB_HIST, false, 4⟩,
   ⟨0x1a0100, 0x8, 4, .PWR_TEMP, false, 0⟩,
   ⟨0x1a0120, 0x0, 1, .PWR_THERM, false, 0⟩]

/-- Registers of the owner view (16; R401). -/
def mapOwner : List MapRow := mapOwner0 ++ mapOwner1 ++ mapOwner2

/-- Registers of the doorbell page of a ring (06). -/
def mapBar2 : List MapRow := [⟨0x0, 0x1000, 65536, .RNG_DB, false, 0⟩, ⟨0x8, 0x1000, 65536, .RNG_PTR, true, 0⟩]

/-- Registers of BAR4 (R293, R344). -/
def mapBar4 : List MapRow :=
  [⟨0x0, 0x0, 1, .MBX_TX_HEAD, false, 0⟩,
   ⟨0x8, 0x0, 1, .MBX_TX_DATA, false, 0⟩,
   ⟨0x10, 0x0, 1, .MBX_RX, false, 0⟩,
   ⟨0x18, 0x0, 1, .MBX_STS, false, 0⟩,
   ⟨0x20, 0x0, 1, .MBX_CTL, false, 0⟩,
   ⟨0x8000, 0x0, 1, .OCMD_CTL, false, 0⟩,
   ⟨0x8008, 0x0, 1, .OCMD_STS, false, 0⟩,
   ⟨0x8020, 0x8, 4, .OCMD_NONCE, false, 0⟩]

/-- The map of a view. -/
def viewMap : View → List MapRow
  | .bar0 _ => mapBar0
  | .bar2 _ => mapBar2
  | .bar4 _ => mapBar4
  | .owner => mapOwner

/-- Whether a row has a register in the aligned 8 bytes at an offset. -/
def MapRow.at (r : MapRow) (off : Nat) : Bool :=
  decide (r.base ≤ off) &&
  (if r.stride = 0 then off == r.base else (off - r.base) % r.stride == 0 && decide ((off - r.base) / r.stride < r.count))

/-- Index of the register of a row at an offset. -/
def MapRow.idx (r : MapRow) (off : Nat) : Nat := if r.stride = 0 then 0 else (off - r.base) / r.stride

/-- The register at the aligned 8 bytes of an offset of a view, with its row and index. -/
def regAt (v : View) (off : Nat) : Option (MapRow × Nat) :=
  ((viewMap v).find? (fun r => r.at off)).map (fun r => (r, r.idx off))

/-- Offset of register n of an array in a view. -/
def regOff (v : View) (reg : Reg) (n : Nat) : Nat :=
  match (viewMap v).find? (fun r => r.reg == reg) with
  | some r => r.base + r.stride * n
  | none => 0

/-- The partition of a host view, 8 for the owner view. -/
def viewPart : View → Nat
  | .bar0 p => p.val
  | .bar2 p => p.val
  | .bar4 p => p.val
  | .owner => 8

/-- Registers of the owner view that exist once per partition and are one storage with the host's. -/
def perPart (r : Reg) : Bool :=
  r == .HPT_STS || r == .HPT_CNT || r == .MBX_WTX_HEAD || r == .MBX_WTX_DATA || r == .MBX_WRX || r == .MBX_WSTS ||
  r == .MBX_WCTL

/-- Registers of one owner that a BAR4 area shows per host port (R293). -/
def perPort (r : Reg) : Bool := r == .OCMD_CTL || r == .OCMD_STS || r == .OCMD_NONCE

/-- Instance of the fields of a register found in a view. `port` is the host port of the view's partition. -/
def regInst (v : View) (port : Nat) (row : MapRow) (n : Nat) : Nat :=
  match v with
  | .owner =>
    if row.reg = .BSTS then 8 * 65536 + n else if perPart row.reg then pinst n 0
    else if row.reg = .MEM_SCRUB_HIST then pinst n row.sub else n
  | _ =>
    let p := viewPart v
    if perPort row.reg then (if row.reg = .OCMD_NONCE then port * 65536 + n else port)
    else if row.base < 0x100 ∧ row.mirror ∧ row.reg ≠ .RNG_PTR then 0
    else if 0x300000 ≤ row.base ∧ row.base < 0x310000 then n
    else pinst p n

/-- The block whose status register an offset of a view reports to (R376, R378). -/
def blockOf (v : View) (off : Nat) : Nat :=
  match v with
  | .bar2 _ => bkRng
  | .bar4 _ => if off < 0x8000 then bkMbx else bkSec
  | .bar0 _ =>
    if off < 0x1000 then bkIdn else if off < 0x2000 then bkTck else if off < 0x3000 then bkCue
    else if off < 0x4000 then bkSpc else if off < 0x5000 then bkSpn else if off < 0x6000 then bkHpt
    else if off < 0x7000 then bkRng else if 0x100000 ≤ off ∧ off < 0x300000 then bkRng
    else if 0x300000 ≤ off ∧ off < 0x310000 then bkMov else if 0x400000 ≤ off ∧ off < 0x40A000 then bkIrq
    else if 0xF00000 ≤ off ∧ off < 0xF08100 then bkIrq else bkHpt
  | .owner =>
    if off < 0x10000 then bkIdn else if off < 0x20000 then bkImg else if off < 0x30000 then bkTck
    else if off < 0x40000 then bkSpn else if off < 0x50000 then bkSpc
    else if 0x100000 ≤ off ∧ off < 0x120000 then bkMov else if 0x120000 ≤ off ∧ off < 0x130000 then bkLnk
    else if 0x130000 ≤ off ∧ off < 0x140000 then bkHpt else if 0x140000 ≤ off ∧ off < 0x150000 then bkSec
    else if 0x150000 ≤ off ∧ off < 0x160000 then bkMem else if 0x160000 ≤ off ∧ off < 0x170000 then bkIrq
    else if 0x170000 ≤ off ∧ off < 0x180000 then bkMbx else if 0x180000 ≤ off ∧ off < 0x190000 then bkTrc
    else if 0x190000 ≤ off ∧ off < 0x1A0000 then bkFlt else if 0x6000000 ≤ off ∧ off < 0x8000000 then bkImg
    else bkPwr

/-- Bits of a register that belong to a field. -/
def regMask (r : Reg) : Nat := (regFields r).foldl (fun a f => a ||| ((2 ^ (fldSpec f).w - 1) <<< (fldSpec f).lo)) 0

/-- Records a full write of register n that carries a non-zero reserved bit (R6). -/
def noteRsvd (v : View) (reg : Reg) (n value : Nat) (m : M) : M :=
  if value &&& (regMask reg ^^^ (2 ^ 64 - 1)) = 0 then m
  else setRsvd v (blockOf v (regOff v reg n)) (regOff v reg n) m

/-- The host views of a partition number. -/
def bar0Of (p : Nat) : View := .bar0 (Fin.ofNat 8 p)
/-- BAR2. -/
def bar2Of (p : Nat) : View := .bar2 (Fin.ofNat 8 p)
/-- BAR4. -/
def bar4Of (p : Nat) : View := .bar4 (Fin.ofNat 8 p)

end Sys2Proof
end

