-- ==== Sys2Proof/Machine/Mem.lean ====
section
/-! DEFINITION. Local memory (12): the symbol code, encryption and tags, line accesses, training, the
leaky bucket and the scrubber. -/

namespace Sys2Proof

/-! ### The symbol code (R309 to R311) -/

/-- Multiplication by α in GF(2^8). -/
def galpha (x : Nat) : Nat := if 128 ≤ x then (2 * x) ^^^ 0x11D else 2 * x

/-- Product in GF(2^8): y read over its low n bits. -/
def gmul (x y : Nat) : Nat → Nat
  | 0 => 0
  | n + 1 => (gmul x y n) ^^^ (if bitAt y n then (List.range n).foldl (fun a _ => galpha a) x else 0)

/-- Beat b of a burst: 40 bits. -/
def beatOf (v : BitVec 640) (b : Nat) : Nat := bitsAt v.toNat (40 * b) 40

/-- Symbol of chip i in codeword j (R309). -/
def symOf (v : BitVec 640) (j i : Nat) : Nat :=
  bitsAt (beatOf v (2 * j)) (4 * i) 4 + 16 * bitsAt (beatOf v (2 * j + 1)) (4 * i) 4

/-- The symbols of codeword j. -/
def wordOf (v : BitVec 640) (j : Nat) : List Nat := (List.range 10).map (symOf v j)

/-- S0 and S1 of R310. -/
def syndrome (s : List Nat) : Nat × Nat :=
  (s.foldl (fun a x => a ^^^ x) 0, s.foldl (fun a x => (galpha a) ^^^ x) 0)

/-- What R310 says of one codeword: no error, a single error at a chip, or uncorrectable. -/
inductive Sym where
  | clean | single (chip value : Nat) | bad
  deriving DecidableEq, Repr

/-- The decoding of one codeword (R310). -/
def symDecode (s : List Nat) : Sym :=
  let (a, b) := syndrome s
  if a = 0 ∧ b = 0 then .clean
  else if a = 0 ∨ b = 0 then .bad
  else match (List.range 10).find? (fun p => (List.range p).foldl (fun x _ => galpha x) a == b) with
    | some p => .single (9 - p) a
    | none => .bad

/-- A burst from the symbols of its eight codewords. -/
def burstOf (ws : List (List Nat)) : BitVec 640 :=
  BitVec.ofNat 640 (((List.range 8).map (fun j => ((List.range 10).map (fun i =>
    let s := (ws.getD j []).getD i 0
    (s % 16) * 2 ^ (80 * j + 4 * i) + (s / 16) * 2 ^ (80 * j + 40 + 4 * i))).sum)).sum)

/-- The check symbols of eight data symbols: c(1) = c(α) = 0, with 0xF4 the inverse of 1 + α (R309). -/
def withChecks (d : List Nat) : List Nat :=
  let a := d.foldl (fun a x => a ^^^ x) 0
  let b := galpha (galpha (d.foldl (fun a x => (galpha a) ^^^ x) 0))
  let s8 := gmul (a ^^^ b) 0xF4 8
  d ++ [s8, a ^^^ s8]

/-- The 64 data bytes of a burst, as one number of 512 bits: byte k in beat k div 4 (R309). -/
def dataOf (v : BitVec 640) : BitVec 512 :=
  BitVec.ofNat 512 (((List.range 16).map (fun b => bitsAt (beatOf v b) 0 32 * 2 ^ (32 * b))).sum)

/-- Encodes a line (R309). -/
def encodeLine (d : BitVec 512) : BitVec 640 :=
  let raw := BitVec.ofNat 640 (((List.range 16).map (fun b => bitsAt d.toNat (32 * b) 32 * 2 ^ (40 * b))).sum)
  burstOf ((List.range 8).map (fun j => withChecks ((wordOf raw j).take 8)))

/-- The poison pattern (R311). -/
def poison : BitVec 640 := burstOf (List.replicate 8 (List.replicate 8 0 ++ [0xFF, 0xFF]))

/-- What a burst decodes as (R310, R311); `fixed` carries the corrected burst and the chip. -/
inductive Dec where
  | good (d : BitVec 512) | fixed (v : BitVec 640) (chip : Nat) | poison | uncorr
  deriving DecidableEq, Repr

/-- Decodes a burst (R310, R311). -/
def decodeBurst (v : BitVec 640) : Dec :=
  if v = poison then .poison
  else
    let rs := (List.range 8).map (fun j => (wordOf v j, symDecode (wordOf v j)))
    if rs.any (fun r => r.2 == .bad) then .uncorr
    else
      let chips := rs.filterMap (fun r => match r.2 with | .single c _ => some c | _ => none)
      match chips with
      | [] => .good (dataOf v)
      | c :: t =>
        if t.all (fun x => x == c) then
          .fixed (burstOf (rs.map (fun r => match r.2 with
            | .single c x => r.1.set c (r.1.getD c 0 ^^^ x)
            | _ => r.1))) c
        else .uncorr

/-- The data of a decoded burst. -/
def Dec.data? : Dec → Option (BitVec 512)
  | .good d => some d
  | .fixed v _ => some (dataOf v)
  | _ => none

/-- Whether the decoder corrected the burst. -/
def Dec.corrected : Dec → Bool
  | .fixed _ _ => true
  | _ => false

/-! ### Tags and lines (R312 to R315) -/

/-- The draw number of a region's key set (R312). -/
def keyOf (m : M) (r : Nat) : Nat := mapGet 0 m.sec.dkey (r, 0)

/-- A line's tag (R313): 0 becomes 1. -/
def tagFor (key addr : Nat) (c : BitVec 512) : Nat :=
  let t := (Config.cmac key addr c).toNat
  if t = 0 then 1 else t

/-- The latest tag line of line k as the controller finds it, `te` being the cell errors of the DRAM burst: its data,
and whether a correction was made. -/
def tagView (im : Image) (m : M) (c k : Nat) (te : BitVec 640) : Option (BitVec 512) × Bool :=
  match mapFind m.mem.tags (c, tagLine im c k) with
  | some d => (some d, false)
  | none =>
    match mapFind m.mem.lines (c, tagLine im c k) with
    | none => (none, false)
    | some v => ((decodeBurst (v ^^^ te)).data?, (decodeBurst (v ^^^ te)).corrected)

/-- Result of reading a line (R314). -/
inductive LineRes where
  | data (d : BitVec 512) | uncorr | poison | tag
  deriving DecidableEq, Repr

/-- KIND of MEM_ERR_ADDR. -/
def LineRes.kind : LineRes → Nat
  | .data _ => 0
  | .uncorr => 1
  | .poison => 2
  | .tag => 3

/-- The tag check and decryption of a decoded line, its tag found or not (R314 steps 2 to 4). -/
def tagCheck (key a k : Nat) (d : BitVec 512) (tl : Option (BitVec 512)) : LineRes :=
  match tl with
  | none => .tag
  | some t => if bitsAt t.toNat (64 * (k % 8)) 64 = tagFor key a d then .data ((Config.xts key a).symm d) else .tag

/-- A read of line k of channel c at local address a under R314, with the number of corrected bursts; e and te are the
cell errors of the data and tag bursts. A line not written since its keys reads UNCORR, or TAG when its stale content
decodes (R317); the corrections of that read count as any other's do (R320). -/
def readLine (im : Image) (m : M) (c k a r : Nat) (e te : BitVec 640) : LineRes × Nat :=
  match mapFind m.mem.lines (c, k) with
  | none =>
    let dec := decodeBurst (Config.stale c k ^^^ e)
    match dec.data? with
    | some _ => (.tag, (if dec.corrected then 1 else 0) + (if (tagView im m c k te).2 then 1 else 0))
    | none => (.uncorr, 0)
  | some v =>
    let dec := decodeBurst (v ^^^ e)
    let n := if dec.corrected then 1 else 0
    match dec with
    | .poison => (.poison, 0)
    | .uncorr => (.uncorr, 0)
    | _ =>
      match dec.data? with
      | none => (.uncorr, 0)
      | some d =>
        let t := tagView im m c k te
        (tagCheck (keyOf m r) a k d t.1, n + (if t.2 then 1 else 0))

/-- BUCKET_LEAK: at step 3 of every 2^LEAK_LOG2-th edge since step 5, once. TCK_COUNT rises in the cycle after (R57). -/
def opBucketLeak (c : Nat) (m : M) : M :=
  let t := m.fld .TCK_COUNT_COUNT 0 + 1
  if m.tick.on = false ∨ m.now ≠ m.tick.edge + 2 ∨ (m.tick.phase ≠ 2 ∧ m.tick.phase ≠ 3) ∨
      t % 2 ^ m.fld .MEM_BUCKET_LEAK_LOG2 c ≠ 0 ∨ mapGet 0 m.mem.leakAt (c, 0) = t then m
  else
    let m := { m with mem := { m.mem with leakAt := mapPut m.mem.leakAt (c, 0) t } }
    m.setFld .MEM_BUCKET_LEVEL c (m.fld .MEM_BUCKET_LEVEL c - 1)

/-- One corrected line read (R320): LEVEL rises, or overflows at DEPTH; a leak of the same cycle comes first. -/
def bucketEvent (im : Image) (c : Nat) (m : M) : M :=
  let m := opBucketLeak c m
  if m.fld .MEM_BUCKET_LEVEL c = m.fld .MEM_BUCKET_DEPTH c then
    let m := m.bump .MEM_BUCKET_OVERFLOWS c
    fire im (0x0B2 + 8 * c) (m.fld .MEM_BUCKET_OVERFLOWS c) m
  else m.setFld .MEM_BUCKET_LEVEL c (m.fld .MEM_BUCKET_LEVEL c + 1)

/-- The corrections of one access (R320): the bucket, and CORRECTED for demand reads. -/
def noteCorr (im : Image) (c n : Nat) (demand : Bool) (m : M) : M :=
  let m := (List.range n).foldl (fun m _ => bucketEvent im c m) m
  if demand then m.bumpN .MEM_ERR_A_CORRECTED c n else m

/-- Fires a source of channel c about a line of a region (R318, R364). -/
def fireMem (im : Image) (f info r : Nat) (m : M) : M := if r = 8 then fire im f info m else fireP im f info r m

/-- What a failing read does (R318): speculative ones count only in SPEC_ERR. -/
def noteFail (im : Image) (c a r : Nat) (spec : Bool) (x : LineRes) (m : M) : M :=
  if x.kind = 0 then m
  else if spec then m.bump .MEM_ERR_B_SPEC_ERR c
  else
    let m := match x with
      | .uncorr => m.bump .MEM_ERR_A_UNCORR c
      | .poison => m.bump .MEM_ERR_A_POISON_HIT c
      | _ => m.bump .MEM_ERR_B_TAG_FAIL c
    let m := if m.flag .MEM_ERR_ADDR_VALID c then m else
      ((m.setFld .MEM_ERR_ADDR_KIND c x.kind).setFld .MEM_ERR_ADDR_ADDR c (a / 64)).setFlag .MEM_ERR_ADDR_VALID c true
    fireMem im ((if x = .tag then 0x0B1 else 0x0B0) + 8 * c) (a / 64 * 64 + 4 + x.kind) r m

/-- Whether a channel can reach its lines: trained (R304). -/
def trained (m : M) (c : Nat) : Bool := m.flag .MEM_CH_STS_TRAINED c

/-- A checked read with its counts: an untrained channel answers UNCORR (R304). -/
def checkedRead (im : Image) (c k a r : Nat) (spec : Bool) (e te : BitVec 640) (m : M) : LineRes × M :=
  let (x, n) := if trained m c then readLine im m c k a r e te else (.uncorr, 0)
  (x, noteFail im c a r spec x (noteCorr im c n (!spec) m))

/-- A line read that the controller serves (R314, R318): the answer is driven with its KIND. -/
def serveRead (im : Image) (c k : Nat) (rd : LineReq) (e te : BitVec 640) (m : M) : M :=
  match localAddr im c (64 * k) with
    | none => m
    | some a => match regionOf im a with
      | none => m
      | some r =>
        let (x, m) := checkedRead im c k a r rd.spec e te (lineServed c rd.own.val m)
        match x with
        | .data d => m.emit (.line c 0 (leBytes 64 d.toNat))
        | _ => m.emit (.line c x.kind [])

/-- LINE_READ (R314): a controller serves in turn (R62). -/
def opLineRead (im : Image) (c k : Nat) (rd : LineReq) (e te : BitVec 640) (m : M) : M :=
  if lineTurn m c rd.own.val then serveRead im c k rd e te m else m

/-- Holds a tag line on die; at 4,096 the lowest held line of the channel is written back first (R315). -/
def cacheTag (c tl : Nat) (d : BitVec 512) (m : M) : M :=
  let held := m.mem.tags.filter (fun (x : Key × BitVec 512) => x.1.1 == c && x.1.2 != tl)
  let m := match held with
    | (k, v) :: t => if t.length + 1 < 4096 then m else
        { m with mem := { m.mem with lines := mapPut m.mem.lines k (encodeLine v), tags := mapDel m.mem.tags k } }
    | [] => m
  { m with mem := { m.mem with tags := mapPut m.mem.tags (c, tl) d } }

/-- Replaces line k's tag; an unreadable tag line is rebuilt with zero tags (R315). The tag line is read here, so a partial
write that read it before finds its correction twice while it is not held on die (log 110, the model's choice). -/
def putTag (im : Image) (c k tag : Nat) (te : BitVec 640) (m : M) : M :=
  let (t, fixed) := tagView im m c k te
  let m := if fixed then noteCorr im c 1 true m else m
  let i := 64 * (k % 8)
  match t with
  | some d =>
    cacheTag c (tagLine im c k) (BitVec.ofNat 512 (d.toNat - bitsAt d.toNat i 64 * 2 ^ i + tag * 2 ^ i)) m
  | none => cacheTag c (tagLine im c k) (BitVec.ofNat 512 (tag * 2 ^ i)) (m.bump .MEM_ERR_B_TAG_REBUILT c)

/-- Encrypts and writes a whole line with its tag (R312, R313, R315). -/
def storeLine (im : Image) (c k a r : Nat) (d : BitVec 512) (te : BitVec 640) (m : M) : M :=
  let x := Config.xts (keyOf m r) a d
  let m := { m with mem := { m.mem with lines := mapPut m.mem.lines (c, k) (encodeLine x) } }
  putTag im c k (tagFor (keyOf m r) a x) te m

/-- Bytes of a line with some replaced. -/
def mergeLine (d : BitVec 512) (off : Nat) (b : List Byte) : BitVec 512 :=
  let l := leBytes 64 d.toNat
  BitVec.ofNat 512 (leVal (l.take off ++ b ++ l.drop (off + b.length)))

/-- A line write that the controller serves (R315): a whole line is written unread; any other write merges after a checked
read, and is refused when that read fails. The answer is driven: 0 written, 4 the error DST_DATA. -/
def serveWrite (im : Image) (c k off : Nat) (b : List Byte) (q : Fin 9) (e te : BitVec 640) (m : M) : M :=
  if b = [] ∨ 64 < off + b.length then m
  else match localAddr im c (64 * k) with
    | none => m
    | some a => match regionOf im a with
      | none => m
      | some r =>
        let m := lineServed c q.val m
        if b.length = 64 then
          if trained m c then (storeLine im c k a r (BitVec.ofNat 512 (leVal b)) te m).emit (.line c 0 [])
          else m.emit (.line c 4 [])
        else
          let (x, m) := checkedRead im c k a r false e te m
          match x with
          | .data d => (storeLine im c k a r (mergeLine d off b) te m).emit (.line c 0 [])
          | _ => (m.bump .MEM_ERR_B_WRITE_ERR c).emit (.line c 4 [])

/-- LINE_WRITE (R315): a controller serves in turn (R62). -/
def opLineWrite (im : Image) (c k off : Nat) (b : List Byte) (q : Fin 9) (e te : BitVec 640) (m : M) : M :=
  if lineTurn m c q.val then serveWrite im c k off b q e te m else m

/-- TAG_LINE_WRITEBACK (R315): a cached tag line goes back to DRAM. -/
def opTagWriteback (c tl : Nat) (m : M) : M :=
  match mapFind m.mem.tags (c, tl) with
  | none => m
  | some d => { m with mem := { m.mem with
      lines := mapPut m.mem.lines (c, tl) (encodeLine d), tags := mapDel m.mem.tags (c, tl) } }

/-- The devices of channel c enter self-refresh, or leave it (R325). -/
def selfRefresh (c : Nat) (on : Bool) (m : M) : M :=
  let l := m.mem.selfRef.filter (fun x => x != c)
  { m with mem := { m.mem with selfRef := if on then c :: l else l } }

/-- REFRESH (R304): timing only; above 85 °C the channel refreshes at double rate. Devices in self-refresh see to their own. -/
def opRefresh (c : Nat) (hot : Bool) (m : M) : M :=
  if m.mem.selfRef.contains c then m else
  let l := m.mem.double.filter (fun x => x != c)
  { m with mem := { m.mem with double := if hot then c :: l else l } }

/-! ### Training (R304) and the conditions of R46 -/

/-- Every present channel reports training complete. -/
def memReady (im : Image) (m : M) : Bool := (presentChans im).all (fun c => trained m c)

/-- Every octet that holds a link reports calibration complete. -/
def octReady (im : Image) (m : M) : Bool :=
  (List.range 12).all (fun o => !(im.octetUsed o) || m.flag .LNK_OCT_STS_CAL_DONE o)

/-- LAST_STEP while no port is released (IMG_BOOT_STS). -/
def bootStep (n : Nat) (m : M) : M :=
  if m.fld .IMG_BOOT_STS_LAST_STEP 0 < 9 then m.setFld .IMG_BOOT_STS_LAST_STEP 0 n else m

/-- Notes the memory condition of R46; an image without links meets the octet condition with it. -/
def noteMem (im : Image) (m : M) : M :=
  if memReady im m then
    let m := bootStep 7 m
    if im.links.isEmpty then bootStep 8 m else m
  else m

/-- Drops what a channel held under its keys: its lines read as never written (R304, R317). -/
def dropChan (c : Nat) (m : M) : M :=
  { m with mem := { m.mem with
      lines := m.mem.lines.filter (fun (x : Key × BitVec 640) => x.1.1 != c)
      tags := m.mem.tags.filter (fun (x : Key × BitVec 512) => x.1.1 != c) } }

/-- TRAIN (R304). -/
def opTrain (c : Nat) (m : M) : M :=
  if m.flag .MEM_CH_STS_TRAINING c then m.askAgain .MEM_CH_CTL_TRAIN c
  else if m.flag .MEM_CH_STS_PRESENT c = false then m
  else
    let m := (m.setFlag .MEM_CH_CTL_TRAIN c true).setFlag .MEM_CH_STS_TRAINING c true
    let m := (m.setFlag .MEM_CH_STS_TRAINED c false).setFlag .MEM_CH_STS_TRAIN_FAIL c false
    let m := selfRefresh c false (dropChan c (m.setFld .MEM_CH_STS_FAIL_CAUSE c 0))
    { m with pins := { m.pins with memReset := m.pins.memReset ||| 2 ^ c } }

/-- TRAINING_COMPLETE (R304); with CAL_DDR open or shorted training fails with cause MARGIN (R389). -/
def opTrainingComplete (im : Image) (c : Nat) (r : TrainRes) (m : M) : M :=
  if m.flag .MEM_CH_STS_TRAINING c = false then m
  else
    let again := m.askedAgain .MEM_CH_CTL_TRAIN c
    let m := (m.setFlag .MEM_CH_CTL_TRAIN c false).setFlag .MEM_CH_STS_TRAINING c false
    let m := match (if bitAt m.pins.calBad 2 ∧ r = .trained then .fail 2 false false else r) with
    | .trained => noteMem im (m.setFlag .MEM_CH_STS_TRAINED c true)
    | .fail cause sub rank =>
      let m := (m.setFlag .MEM_CH_STS_TRAIN_FAIL c true).setFld .MEM_CH_STS_FAIL_CAUSE c cause.val
      (m.setFlag .MEM_CH_STS_FAIL_SUB c sub).setFlag .MEM_CH_STS_FAIL_RANK c rank
    if again then opTrain c m else m

/-! ### The leaky bucket (R320) -/

/-- MEM_BUCKET_WRITE. -/
def opBucketWrite (c v : Nat) (m : M) : M :=
  let m := m.setFld .MEM_BUCKET_DEPTH c (max 1 (bitsAt v 0 16))
  let m := m.setFld .MEM_BUCKET_LEAK_LOG2 c (min 20 (bitsAt v 16 5))
  m.setFld .MEM_BUCKET_LEVEL c (min (m.fld .MEM_BUCKET_LEVEL c) (m.fld .MEM_BUCKET_DEPTH c))

/-! ### The scrubber (R321 to R324) -/

/-- The summary fields of a channel, cleared by an accepted START. -/
def clearSummary (c : Nat) (m : M) : M :=
  let m := [Fld.MEM_SCRUB_SUM_A_LINES, .MEM_SCRUB_SUM_A_CORRECTED, .MEM_SCRUB_SUM_B_UNCORR, .MEM_SCRUB_SUM_B_POISON_SEEN,
    .MEM_SCRUB_SUM_C_FIRST_FAIL, .MEM_SCRUB_SUM_C_LAST_FAIL, .MEM_SCRUB_SUM_C_FAIL_VALID].foldl
    (fun m F => m.setFld F c 0) m
  (List.range 5).foldl (fun m i => [Fld.MEM_SCRUB_HIST_POS0, .MEM_SCRUB_HIST_POS1, .MEM_SCRUB_HIST_POS2,
    .MEM_SCRUB_HIST_POS3].foldl (fun m F => m.setFld F (pinst c i) 0) m) m

/-- Ends a scrub: BUSY clears, DONE sets, the wings source follows DONE (R324). -/
def endScrub (im : Image) (c : Nat) (stopped : Bool) (m : M) : M :=
  let m := { m with mem := { m.mem with scrub := mapDel m.mem.scrub (c, 0) } }
  let m := (m.setFlag .MEM_SCRUB_CTL_BUSY c false).setFlag .MEM_SCRUB_CTL_DONE c true
  let m := (m.setFlag .MEM_SCRUB_CTL_START c false)
  irqSync im 8 (0x808 + c) (if stopped then m.setFlag .MEM_SCRUB_CTL_STOPPED c true else m)

/-- Capacity of a channel in 64-byte lines. -/
def capLines (im : Image) (c : Nat) : Nat := match im.mem[c]? with | some x => x.cap * 2 ^ 24 | none => 0

/-- SCRUB_START (R321): a write of MEM_SCRUB_CTL with START 1. RATE and the RW1C bits of the same write act first. -/
def opScrubStart (im : Image) (c v : Nat) (m : M) : M :=
  if bitAt v 0 = false then m
  else
    let m := m.setFld .MEM_SCRUB_CTL_RATE c (bitsAt v 8 5)
    let m := if bitAt v 3 then irqSync im 8 (0x808 + c) (m.setFlag .MEM_SCRUB_CTL_DONE c false) else m
    let m := if bitAt v 4 then m.setFlag .MEM_SCRUB_CTL_REFUSED c false else m
    if bitAt v 1 then setRsvd .owner bkMem (regOff .owner .MEM_SCRUB_CTL c) m
    else
      let rate := m.fld .MEM_SCRUB_CTL_RATE c
      let a := m.fld .MEM_SCRUB_RANGE_FIRST c
      let b := m.fld .MEM_SCRUB_RANGE_LAST c
      if m.flag .MEM_SCRUB_CTL_BUSY c ∨ trained m c = false ∨ rate = 0 ∨ 25 < rate ∨ b < a ∨ capLines im c ≤ b then
        m.setFlag .MEM_SCRUB_CTL_REFUSED c true
      else
        let m := clearSummary c ((m.setFlag .MEM_SCRUB_CTL_DONE c false).setFlag .MEM_SCRUB_CTL_STOPPED c false)
        let m := (m.setFlag .MEM_SCRUB_CTL_BUSY c true).setFlag .MEM_SCRUB_CTL_START c true
        irqSync im 8 (0x808 + c) { m with mem := { m.mem with scrub := mapPut m.mem.scrub (c, 0) (a, b) } }

/-- SCRUB_STOP (R324): no effect while BUSY is 0. -/
def opScrubStop (im : Image) (c : Nat) (m : M) : M :=
  if m.flag .MEM_SCRUB_CTL_BUSY c then endScrub im c true m else m

/-- The HIST field of a position. -/
def histFld (pos : Nat) : Fld :=
  if pos % 4 = 0 then .MEM_SCRUB_HIST_POS0 else if pos % 4 = 1 then .MEM_SCRUB_HIST_POS1
  else if pos % 4 = 2 then .MEM_SCRUB_HIST_POS2 else .MEM_SCRUB_HIST_POS3

/-- 1,024 line times of channel c in sc cycles, rounded up: 8 / RATE_MT µs each, of 2,000 cycles a µs (R323, R52). -/
def scrubSpan (m : M) (c : Nat) : Nat := (16384000 + m.fld .MEM_CH_STS_RATE c - 1) / m.fld .MEM_CH_STS_RATE c

/-- The scrub bursts of channel c in the last 1,024 line times, by the cycle each began. -/
def scrubBursts (m : M) (c : Nat) : List Nat :=
  (mapGet [] m.mem.bursts (c, 0)).filter (fun t => decide (m.now < t + scrubSpan m c))

/-- Whether n more scrub bursts of channel c keep its limit (R323). -/
def scrubMay (m : M) (c n : Nat) : Bool :=
  decide ((scrubBursts m c).length + n ≤ m.fld .MEM_SCRUB_CTL_RATE c * 1024 / 100)

/-- What line k decodes as for the scrubber: one never written since its keys is UNCORR (R322), and so is any line of an
untrained channel (R304). -/
def scrubDec (m : M) (c k : Nat) (e : BitVec 640) : Dec :=
  match (if trained m c then mapFind m.mem.lines (c, k) else none) with | some v => decodeBurst (v ^^^ e) | none => .uncorr

/-- The bursts a line takes: its read, and the writeback of a correction or of the poison (R323). -/
def Dec.bursts : Dec → Nat
  | .good _ | .poison => 1
  | .fixed _ _ | .uncorr => 2

/-- What the scrubber does with line k (R322). A TRAIN during the scrub leaves it running: it finds the lines of the untrained
channel UNCORR and can write no poison there (log 109, the model's choice). -/
def scrubOne (im : Image) (c k : Nat) (e : BitVec 640) (m : M) : M :=
  let dec := scrubDec m c k e
  let put := fun (v : BitVec 640) (m : M) =>
    if trained m c then { m with mem := { m.mem with lines := mapPut m.mem.lines (c, k) v } } else m
  let m := m.bump .MEM_SCRUB_SUM_A_LINES c
  match dec with
  | .good _ => m
  | .fixed v chip =>
    let pos := 10 * (k % 2) + chip
    noteCorr im c 1 false ((put v (m.bump .MEM_SCRUB_SUM_A_CORRECTED c)).bump (histFld pos) (pinst c (pos / 4)))
  | .poison => m.bump .MEM_SCRUB_SUM_B_POISON_SEEN c
  | .uncorr =>
    let m := put poison (m.bump .MEM_SCRUB_SUM_B_UNCORR c)
    let m := if m.flag .MEM_SCRUB_SUM_C_FAIL_VALID c then m else m.setFld .MEM_SCRUB_SUM_C_FIRST_FAIL c k
    (m.setFld .MEM_SCRUB_SUM_C_LAST_FAIL c k).setFlag .MEM_SCRUB_SUM_C_FAIL_VALID c true

/-- SCRUB_LINE (R322, R324): the next line, FIRST + LINES, within the scrub's limit and in the owner's turn (R323, R62); the
scrub ends at LAST. A tag line held on die goes back first, so that the cache affects timing only (R315). A line and its
writeback take one turn of the owner (log 111, the model's choice). -/
def opScrubLine (im : Image) (c : Nat) (e : BitVec 640) (m : M) : M :=
  if m.inReset (29 + c) 0 then m
  else match mapFind m.mem.scrub (c, 0) with
    | none => m
    | some (a, b) =>
      let k := a + m.fld .MEM_SCRUB_SUM_A_LINES c
      let n := (scrubDec (opTagWriteback c k m) c k e).bursts
      if scrubMay m c n = false ∨ lineTurn m c 8 = false then m else
      let m := opTagWriteback c k m
      let m := lineServed c 8 { m with mem := { m.mem with
        bursts := mapPut m.mem.bursts (c, 0) (List.replicate n m.now ++ scrubBursts m c) } }
      let m := scrubOne im c k e m
      if b ≤ k then endScrub im c false m else m

/-- A controller's part of its block reset (R325): dirty tag lines go back, a running scrub ends STOPPED, the devices enter
self-refresh. -/
def memBlockReset (im : Image) (c : Nat) (m : M) : M :=
  let tags := m.mem.tags.filter (fun (x : Key × BitVec 512) => x.1.1 == c)
  let m := tags.foldl (fun m x => opTagWriteback c x.1.2 m) m
  selfRefresh c true (opScrubStop im c m)

/-- The lines of a region read as never written (R326). -/
def dropRegion (im : Image) (r : Nat) (m : M) : M :=
  { m with mem := { m.mem with lines := m.mem.lines.filter (fun (x : Key × BitVec 640) =>
      match localAddr im x.1.1 (64 * x.1.2) with
      | some a => regionOf im a != some r
      | none => true) } }

/-- New keys for a region (R288, R326): its lines read as never written. -/
def newKeys (im : Image) (r : Nat) (m : M) : M :=
  let (n, m) := m.draw
  dropRegion im r { m with sec := { m.sec with dkey := mapPut m.sec.dkey (r, 0) n } }

/-- ERASE takes effect (R326). While no key can be produced (R287) the old keys are gone all the same: the region's lines read
as never written, and the writes that need its new key wait for it. -/
def eraseRegion (im : Image) (r : Nat) (m : M) : M :=
  if m.boot.entropy then newKeys im r m
  else
    let l := m.sec.keyOwed.filter (fun q => q != r)
    dropRegion im r { m with sec := { m.sec with keyOwed := l ++ [r] } }

/-- Whether line k of channel c lies in a region whose new key is still owed (R287, R326). -/
def keyWanting (im : Image) (m : M) (c k : Nat) : Bool :=
  match (localAddr im c (64 * k)).bind (regionOf im) with
  | some r => m.sec.keyOwed.contains r
  | none => false

end Sys2Proof
end

