-- ==== Sys2Proof/Machine/Mbx.lean ====
section
/-! DEFINITION. Mailboxes (14, R344 to R352). FIFO 0 of a partition goes to the wings, FIFO 1 comes from them. -/

namespace Sys2Proof

/-- The idle word of an empty FIFO (R347). -/
def idleWord : Nat := 0xE0

/-- The FIFO a side writes. -/
def txFifo : Side → Nat
  | .host => 0
  | .wings => 1

/-- The FIFO a side reads. -/
def rxFifo : Side → Nat
  | .host => 1
  | .wings => 0

/-- Items of a FIFO, the open one included. -/
def Mbx.count (x : Mbx) : Nat := x.items.length + (if x.opened.isSome then 1 else 0)

/-- Words in use: unread words of complete items, and every word reserved by the open item (R346). -/
def Mbx.words (x : Mbx) : Nat := (x.items.map List.length).sum + (match x.opened with | some (t, _) => t | none => 0)

/-- Brings a partition's mailbox status fields and interrupt sources up to date with its FIFOs (MBX_STS, R350). -/
def mbxSync (im : Image) (p : Nat) (m : M) : M :=
  let a := m.mbxOf p 0
  let b := m.mbxOf p 1
  let i := pinst p 0
  let m := (m.setFld .MBX_STS_TX_ITEMS i a.count).setFld .MBX_STS_TX_FREE i (512 - a.words)
  let m := m.setFld .MBX_STS_RX_ITEMS i b.items.length
  let m := (m.setFld .MBX_WSTS_TX_ITEMS i b.count).setFld .MBX_WSTS_TX_FREE i (512 - b.words)
  let m := m.setFld .MBX_WSTS_RX_ITEMS i a.items.length
  irqSync im 8 (0x818 + p) (irqSync im 8 (0x810 + p) (irqSync im p 0x803 (irqSync im p 0x802 m)))

/-- TORN of a side (R346). -/
def tornFld : Side → Fld
  | .host => .MBX_STS_TORN
  | .wings => .MBX_WSTS_TORN

/-- OVERRUN of a side (R346). -/
def overFld : Side → Fld
  | .host => .MBX_STS_OVERRUN
  | .wings => .MBX_WSTS_OVERRUN

/-- MBX_TX_HEAD (R346): opens an item of LEN + 1 words; a refused header leaves no item open. -/
def opTxHead (im : Image) (s : Side) (p : Nat) (w : Nat) (m : M) : M :=
  if im.enabled p = false then m
  else
    let i := pinst p 0
    let d := txFifo s
    let x := m.mbxOf p d
    let m := match x.opened with
      | some (_, l) => m.bumpN (tornFld s) i l.length
      | none => m
    let x : Mbx := { x with opened := none }
    let n := bitsAt w 8 3 + 1
    let h := bitsAt w 0 63 + 2 ^ 63
    let m :=
      if 64 ≤ x.count ∨ 512 - x.words < n then (m.setMbx p d x).setFlag (overFld s) i true
      else if n = 1 then m.setMbx p d { x with items := x.items ++ [[h]] }
      else m.setMbx p d { x with opened := some (n, [h]) }
    mbxSync im p m

/-- MBX_TX_DATA (R346): a word of the open item, which closes when it holds LEN + 1 words. -/
def opTxData (im : Image) (s : Side) (p w : Nat) (m : M) : M :=
  if im.enabled p = false then m
  else
    let d := txFifo s
    let x := m.mbxOf p d
    match x.opened with
    | none => m.bump (tornFld s) (pinst p 0)
    | some (n, l) =>
      let l := l ++ [bitsAt w 0 64]
      let x : Mbx := if l.length = n then { items := x.items ++ [l], opened := none } else { x with opened := some (n, l) }
      mbxSync im p (m.setMbx p d x)

/-- Pops the oldest unread word of the oldest complete item (R347). -/
def Mbx.pop (x : Mbx) : Nat × Mbx :=
  match x.items with
  | [] => (idleWord, x)
  | [] :: t => (idleWord, { x with items := t })
  | [w] :: t => (w, { x with items := t })
  | (w :: v :: l) :: t => (w, { x with items := (v :: l) :: t })

/-- The view and register of a side's read port. -/
def rxPort (s : Side) (p : Nat) : View × Nat :=
  match s with
  | .host => (bar4Of p, 0x10)
  | .wings => (.owner, regOff .owner .MBX_WRX p)

/-- Pops a word of the FIFO a side reads. -/
def mbxPop (im : Image) (s : Side) (p : Nat) (m : M) : Nat × M :=
  let (w, x) := (m.mbxOf p (rxFifo s)).pop
  (w, mbxSync im p (m.setMbx p (rxFifo s) x))

/-- MBX_RX (R347): an aligned 8-byte read pops; any other returns zero and sets RSVD_WR. -/
def opMbxRx (im : Image) (s : Side) (p size off : Nat) (m : M) : M :=
  let (v, a) := rxPort s p
  if im.enabled p = false then m.emit (.regData v (a + off) (List.replicate size 0))
  else if size ≠ 8 ∨ off ≠ 0 then (setRsvd v bkMbx (a + off) m).emit (.regData v (a + off) (List.replicate size 0))
  else
    let (w, m) := mbxPop im s p m
    m.emit (.regData v a (leBytes 8 w))

/-- Empties a FIFO (R348). -/
def mbxEmpty (im : Image) (p d : Nat) (m : M) : M := mbxSync im p (m.setMbx p d Mbx.empty)

/-- FLUSH_TX (R348). -/
def opFlushTx (im : Image) (s : Side) (p : Nat) (m : M) : M := if im.enabled p then mbxEmpty im p (txFifo s) m else m

/-- FLUSH_RX (R348). -/
def opFlushRx (im : Image) (s : Side) (p : Nat) (m : M) : M := if im.enabled p then mbxEmpty im p (rxFifo s) m else m

/-- MAILBOX_POINTER_MISMATCH (R351): the FIFO empties, PTR_ERR sets on both sides, the fault source fires. -/
def opMbxMismatch (im : Image) (p : Nat) (fromWings : Bool) (m : M) : M :=
  if im.enabled p = false then m
  else
    let i := pinst p 0
    let m := mbxEmpty im p (if fromWings then 1 else 0) m
    let m := m.setFlag (if fromWings then .MBX_STS_PTR_ERR_RX else .MBX_STS_PTR_ERR_TX) i true
    let m := m.setFlag (if fromWings then .MBX_WSTS_PTR_ERR_TX else .MBX_WSTS_PTR_ERR_RX) i true
    fireP im (0x090 + p) (if fromWings then 1 else 0) p m

end Sys2Proof
end

