-- ==== Sys2Proof/Machine/Trc.lean ====
section
/-! DEFINITION. Link event FIFOs and the trace FIFO (14, R353 to R358). -/

namespace Sys2Proof

/-- Pops the oldest entry of a link's event FIFO, or returns the idle word; a number that is no link reads zero (R354,
R377). -/
def evtPop (im : Image) (l : Nat) (m : M) : Nat × M :=
  if isLink im l = false then (0, m)
  else match mapGet [] m.evt (l, 0) with
    | [] => (idleWord, m)
    | w :: t => (w.2, { m with evt := mapPut m.evt (l, 0) t }.setFld .TRC_EVT_STS_COUNT l t.length)

/-- TRC_EVT_READ (R354). -/
def opEvtRead (im : Image) (l : Nat) (m : M) : M :=
  let (w, m) := evtPop im l m
  m.emit (.regData .owner (regOff .owner .TRC_EVT l) (leBytes 8 w))

/-- EVENT_FIFO_POINTER_MISMATCH (R354). -/
def opEvtMismatch (im : Image) (l : Nat) (m : M) : M :=
  let m := { m with evt := mapPut m.evt (l, 0) [] }
  fire im 0x0A2 l ((m.setFld .TRC_EVT_STS_COUNT l 0).setFlag .TRC_EVT_STS_PTR_ERR l true)

/-- Words the trace FIFO stores (R355). -/
def trcCap : Nat := 131072

/-- COUNT follows the unread words (TRC_STS). -/
def trcSync (m : M) : M := m.setFld .TRC_STS_COUNT 0 (m.trc.words.length - m.trc.rd)

/-- Drops the stored words that are neither unread nor behind a valid mark (R358). -/
def trcTrim (m : M) : M :=
  if m.flag .TRC_STS_MARK_VALID 0 then m
  else { m with trc := { words := m.trc.words.drop m.trc.rd, rd := 0 } }

/-- The oldest stored word is overwritten (R358): the mark, an already-read word, or an unread one. -/
def trcDrop (m : M) : M :=
  let t := m.trc
  if m.flag .TRC_STS_MARK_VALID 0 then
    let m := { m with trc := { words := t.words.drop 1, rd := t.rd - 1 } }
    if t.rd = 0 then (m.setFlag .TRC_STS_MARK_VALID 0 false).bump .TRC_CNT_LOST 0
    else m.setFlag .TRC_STS_MARK_VALID 0 false
  else if t.rd = 0 then { m with trc := { t with words := t.words.drop 1 } }.bump .TRC_CNT_LOST 0
  else { m with trc := { words := t.words.drop 1, rd := t.rd - 1 } }

/-- TRC_PUT (R355, R358): bits [62:0] as written, bit 63 is 1. -/
def opTrcPut (w : Nat) (m : M) : M :=
  let m := if m.trc.words.length < trcCap then m else trcDrop m
  trcSync { m with trc := { m.trc with words := m.trc.words ++ [bitsAt w 0 63 + 2 ^ 63] } }

/-- Pops a trace word, its cells showing e (R355, R356). -/
def trcPop (im : Image) (e : Ecc) (m : M) : Nat × M :=
  match m.trc.words[m.trc.rd]? with
  | none => (idleWord, m)
  | some w =>
    let pos := m.trc.rd
    let m := trcSync (trcTrim { m with trc := { m.trc with rd := m.trc.rd + 1 } })
    match e with
    | .ok => (w, m)
    | .corrected => (w, m.bump .TRC_CNT_CORR 0)
    | .uncorr => (0xE1, fire im 0x0A0 pos (m.bump .TRC_CNT_UNCORR 0))

/-- TRC_GET. -/
def opTrcGet (im : Image) (e : Ecc) (m : M) : M :=
  let (w, m) := trcPop im e m
  m.emit (.regData .owner (regOff .owner .TRC_GET 0) (leBytes 8 w))

/-- A write of TRC_CTL with both bits performs neither and sets RSVD_WR (R357). -/
def trcBoth (v : Nat) (m : M) : Option M :=
  if bitAt v 0 ∧ bitAt v 1 then some (setRsvd .owner bkTrc (regOff .owner .TRC_CTL 0) m) else none

/-- TRACE_MARK (R357): a write of TRC_CTL with MARK 1. Words read before the mark are no longer stored. -/
def opTraceMark (v : Nat) (m : M) : M :=
  if bitAt v 0 = false then m
  else match trcBoth v m with
    | some m => m
    | none => { m with trc := { words := m.trc.words.drop m.trc.rd, rd := 0 } }.setFlag .TRC_STS_MARK_VALID 0 true

/-- REWIND (R357): a write of TRC_CTL with REWIND 1. -/
def opRewind (v : Nat) (m : M) : M :=
  if bitAt v 1 = false then m
  else match trcBoth v m with
    | some m => m
    | none =>
      if m.flag .TRC_STS_MARK_VALID 0 then trcSync { m with trc := { m.trc with rd := 0 } }
      else m.setFlag .TRC_STS_MARK_LOST 0 true

/-- Empties the trace FIFO and invalidates the mark (R356, R369). -/
def trcEmpty (m : M) : M :=
  trcSync ({ m with trc := { words := [], rd := 0 } }.setFlag .TRC_STS_MARK_VALID 0 false)

/-- TRACE_POINTER_MISMATCH (R356). -/
def opTraceMismatch (im : Image) (m : M) : M :=
  fire im 0x0A1 0 ((trcEmpty m).setFlag .TRC_STS_PTR_ERR 0 true)

end Sys2Proof
end

