-- ==== Sys2Proof/Machine/Hpt.lean ====
section
/-! DEFINITION. Host ports (10, R255 to R272): configuration requests, link-up, partition reset and its drain, tags in
quarantine, power states. -/

namespace Sys2Proof

/-! ### Termination and link state -/

/-- Bit p of IMG_PORT_CTL.RELEASE. -/
def released (m : M) (p : Nat) : Bool := bitAt (m.fld .IMG_PORT_CTL_RELEASE 0) p

/-- Bit p of IMG_PORT_CTL.READY. -/
def isReady (m : M) (p : Nat) : Bool := bitAt (m.fld .IMG_PORT_CTL_READY 0) p

/-- Whether partition p's port presents termination: released, its pin high, its clock present, CAL_HP connected (R29, R47,
R257, R389). -/
def portTerm (im : Image) (m : M) (p : Nat) : Bool :=
  im.enabled p && released m p && !(bitAt m.pins.perst (portOf im p)) && !(bitAt m.pins.hpAbsent (portOf im p)) &&
    !(bitAt m.pins.calBad 3)

/-- Drives the termination of partition p's port to its level. -/
def driveTerm (im : Image) (p : Nat) (m : M) : M := m.emit (.pin (.hpTerm (portOf im p)) (portTerm im m p))

/-- The port has no link: measured fields read none, LINKED clears. -/
def portDown (p : Nat) (m : M) : M :=
  let i := pinst p 0
  let m := ((m.setFld .HPT_STS_RATE i 0).setFlag .HPT_STS_FLIT i false).setFld .HPT_STS_WIDTH i 0
  let m := (m.setFld .HPT_STS_CUR_WIDTH i 0).setFld .HPT_STS_LSTATE i 0
  let m := m.setFld .IMG_PORT_CTL_LINKED 0 (putBit (m.fld .IMG_PORT_CTL_LINKED 0) p false)
  m.setHost p { m.hostOf p with up := false }

/-- A width a port can run at (R255). -/
def widthOk (w : Nat) : Bool := w == 1 || w == 2 || w == 4 || w == 8 || w == 16

/-- HOST_PORT_LINK_UP (R256): the port reaches L0 at the rate both sides can use, at most PORT_MAX_RATE. -/
def opLinkUp (im : Image) (p rate : Nat) (flit : Bool) (width : Nat) (m : M) : M :=
  if portTerm im m p = false ∨ rate = 0 ∨ widthOk width = false then m
  else
    let i := pinst p 0
    let r := min rate (im.partN p (·.maxRate))
    let w := min width (im.partN p (·.maxWidth))
    let m := ((m.setFld .HPT_STS_RATE i r).setFlag .HPT_STS_FLIT i (decide (6 ≤ r) || (r == 5 && flit)))
    let m := ((m.setFld .HPT_STS_WIDTH i w).setFld .HPT_STS_CUR_WIDTH i w).setFld .HPT_STS_LSTATE i 0
    let m := m.setFld .IMG_PORT_CTL_LINKED 0 (putBit (m.fld .IMG_PORT_CTL_LINKED 0) p true)
    let m := m.setHost p { m.hostOf p with up := true, lastTlp := m.now }
    let m := m.setFlag .HPT_STS_BELOW_MIN i (decide (r < 5))
    pumpHost p (if r < 5 then fireP im (0x020 + portOf im p) r p m else m)

/-! ### Configuration requests (R47, R255, R258, R264) -/

/-- Puts fields (lowest bit, width, value) into a dword. -/
def putFields (x : Nat) (l : List (Nat × Nat × Nat)) : Nat :=
  l.foldl (fun x f => x - bitsAt x f.1 f.2.1 * 2 ^ f.1 + f.2.2 % 2 ^ f.2.1 * 2 ^ f.1) x

/-- Size of BAR k's memory and its type bits; an upper half has none of its own (R259). A size is a power of two. -/
def barShape (im : Image) (p k : Nat) : Nat × Nat :=
  if k / 2 = 0 then (0x1000000, 4)
  else if k / 2 = 1 then (2 ^ Nat.clog 2 (im.partN p (·.ringCount) * 0x1000), 12)
  else (0x10000, 4)

/-- What BAR k reads: the address bits written above its size, and in the lower half its type (R259). -/
def barRead (im : Image) (h : HostSt) (p k : Nat) : Nat :=
  let (size, kind) := barShape im p k
  let v := h.bars.getD k 0
  if k % 2 = 0 then v / size * size % 2 ^ 32 + kind else v / max 1 (size / 2 ^ 32) * max 1 (size / 2 ^ 32)

/-- A capability structure of configuration space (R255): where it lies, how many bytes it takes, its ID, and for an extended one
its version. -/
structure CapRow where
  base : Nat
  size : Nat
  id : Nat
  ver : Nat
  deriving DecidableEq, Repr

/-- The capability structures of a function: Power Management, MSI-X, PCI Express; Advanced Error Reporting, Latency Tolerance
Reporting, L1 PM Substates, Secondary PCI Express, Lane Margining, Data Link Feature, Physical Layer 16.0, 32.0 and 64.0 GT/s.
R255 has no other option (their offsets: log entry 9). -/
def capTable : List CapRow :=
  [⟨0x40, 8, 0x01, 0⟩, ⟨0x50, 12, 0x11, 0⟩, ⟨0x70, 0x3C, 0x10, 0⟩, ⟨0x100, 0x48, 0x01, 2⟩, ⟨0x150, 8, 0x18, 1⟩,
   ⟨0x160, 0x10, 0x1E, 1⟩, ⟨0x180, 0x2C, 0x19, 1⟩, ⟨0x1B0, 0x48, 0x27, 1⟩, ⟨0x200, 0xC, 0x25, 1⟩, ⟨0x210, 0x40, 0x26, 1⟩,
   ⟨0x250, 0x40, 0x2A, 1⟩, ⟨0x290, 0x40, 0x31, 1⟩]

/-- The structure that holds a dword. -/
def capAt (off : Nat) : Option CapRow := capTable.find? (fun r => decide (r.base ≤ off ∧ off < r.base + r.size))

/-- Where the next structure of the same list lies, 0 for none. -/
def capNext (r : CapRow) : Nat :=
  match capTable.find? (fun q => decide (r.base < q.base ∧ (r.base < 0x100 ↔ q.base < 0x100))) with
  | some q => q.base
  | none => 0

/-- The ID, version and link of a structure in its first dword. -/
def capHead (r : CapRow) : List (Nat × Nat × Nat) :=
  if r.base < 0x100 then [(0, 8, r.id), (8, 8, capNext r)] else [(0, 16, r.id), (16, 4, r.ver), (20, 12, capNext r)]

/-- Fields of the dwords of the capability structures that the spec defines, by the dword's offset (R255, R259, R262, R264, R269,
R271): from 0x40 Power Management, from 0x50 MSI-X, from 0x70 PCI Express, from 0x100 Advanced Error Reporting, 0x164 L1 PM
Substates. -/
def capFields (im : Image) (m : M) (p off : Nat) : List (Nat × Nat × Nat) :=
  let h := m.hostOf p
  let b := fun (x : Bool) => if x then 1 else 0
  let i := pinst p 0
  match off with
  | 0x40 => [(25, 2, 0), (27, 5, 9)]
  | 0x44 => [(0, 2, if m.flag .HPT_STS_D3HOT i then 3 else 0), (3, 1, 1), (8, 1, b h.pmeEn), (15, 1, b h.pmeStatus)]
  | 0x50 => [(16, 11, im.partN p (·.vectors) - 1), (30, 1, b h.fmask), (31, 1, b h.msixEn)]
  | 0x54 => [(0, 32, 0xF00000)]
  | 0x58 => [(0, 32, 0xF08000)]
  | 0x74 => [(0, 3, 2), (3, 2, 0), (5, 1, 1), (28, 1, 1)]
  | 0x78 => [(4, 1, 0), (5, 3, Nat.log2 (h.mps / 128)), (9, 1, 0), (11, 1, 0), (12, 3, Nat.log2 (h.mrrs / 128)), (15, 1, 0),
      (21, 1, b (!(h.np.isEmpty)))]
  | 0x7C => [(0, 4, im.partN p (·.maxRate)), (4, 6, im.partN p (·.maxWidth)), (10, 2, 2), (15, 3, 2)]
  | 0x80 => [(0, 2, if h.aspmL1 then 2 else 0), (16, 4, m.fld .HPT_STS_RATE i), (20, 6, m.fld .HPT_STS_WIDTH i)]
  | 0x94 => [(0, 4, 3), (4, 1, 0), (6, 4, 0), (11, 1, 1), (12, 2, 0), (17, 1, 1), (18, 2, 0), (24, 2, 0), (28, 1, 0), (31, 1, 0)]
  | 0x98 => [(0, 4, h.cto), (4, 1, 0), (6, 2, 0), (10, 1, b h.ltrEn), (12, 1, b h.tag10), (13, 2, 0)]
  | 0x104 => [(12, 1, b h.poisoned)]
  | 0x118 => [(5, 4, 0)]
  | 0x164 => [(0, 5, 0x1F)]
  | _ => []

/-- A dword of configuration space: the fields that the spec defines, the others as the PCIe standard has them; between the
structures nothing (log entry 9). -/
def cfgDword (im : Image) (m : M) (p off : Nat) : Nat :=
  let h := m.hostOf p
  let x := (Config.pcieCfgRead p off).toNat
  if off = 0 then 0x96241F2C
  else if off = 4 then putFields x [(0, 1, 0), (1, 1, if h.mse then 1 else 0), (2, 1, if h.bme then 1 else 0), (20, 1, 1)]
  else if off = 8 then 0x08800000 + m.fld .IDN_POS_STEPPING 0
  else if off = 0xC then putFields x [(16, 8, 0)]
  else if 0x10 ≤ off ∧ off < 0x28 then barRead im h p ((off - 0x10) / 4)
  else if off = 0x2C then (0x9600 + p) * 2 ^ 16 + 0x1F2C
  else if off = 0x34 then 0x40
  else if off = 0x3C then putFields x [(8, 8, 0)]
  else match capAt off with
    | some r => putFields x ((if off = r.base then capHead r else []) ++ capFields im m p off)
    | none => 0

/-- A configuration write of a dword with no command of its own: a BAR keeps what is written, a 1 clears Poisoned TLP
Received (R259, R261). -/
def cfgWrite (p off v : Nat) (m : M) : M :=
  let h := m.hostOf p
  if 0x10 ≤ off ∧ off < 0x28 then m.setHost p { h with bars := h.bars.set ((off - 0x10) / 4) v }
  else if off = 0x104 ∧ bitAt v 12 then m.setHost p { h with poisoned := false }
  else m

/-- An LTR message: 10 µs for snoop and no-snoop (R271). -/
def sendLtr (p : Nat) (m : M) : M := (m.emit (.ltr p 10000)).setHost p { m.hostOf p with lastTlp := m.now }

/-- A write of the Max_Payload_Size or Max_Read_Request_Size code, at most a limit. -/
def sizeOf (code limit : Nat) : Nat := min (128 * 2 ^ code) limit

/-- What a configuration request does once the function answers it. -/
def cfgAct (im : Image) (p : Nat) (q : CfgReq) (m : M) : M :=
  let h := m.hostOf p
  match q with
  | .read off => m.emit (.cfg p (cfgDword im m p (off.toNat / 4 * 4)))
  | .bme b => let m := m.setHost p { h with bme := b }; if b then pumpHost p m else m
  | .mse b => m.setHost p { h with mse := b }
  | .msix e f =>
    maskWrite (fmaskKey p) (if f then 1 else 0) (maskWrite (msixEnKey p) (if e then 1 else 0)
      (m.setHost p { h with msixEn := e, fmask := f }))
  | .mps c => m.setHost p { h with mps := sizeOf c.val 512 }
  | .mrrs c => m.setHost p { h with mrrs := sizeOf c.val 4096 }
  | .cto c => m.setHost p { h with cto := c.val }
  | .tag10 b => m.setHost p { h with tag10 := b }
  | .pmeEn b => m.setHost p { h with pmeEn := b }
  | .pmeClear => m.setHost p { h with pmeStatus := false }
  | .ltr b => let m := m.setHost p { h with ltrEn := b }; if b && !h.ltrEn then sendLtr p m else m
  | .aspmL1 b => m.setHost p { h with aspmL1 := b }
  | .other off v => cfgWrite p (off.toNat / 4 * 4) v.toNat m

/-- A configuration request to partition p's function (R47, R264): retry status before READY and in a drain, else `act`. -/
def cfgRequest (im : Image) (p : Nat) (act : M → M) (m : M) : M :=
  if im.enabled p = false ∨ (m.hostOf p).up = false then m
  else if isReady m p = false ∨ m.flag .HPT_STS_DRAINING (pinst p 0) then (hostTlp p m).emit (.crs p)
  else act (hostTlp p m)

/-- CONFIGURATION_REQUEST (R47, R264): retry status before READY and in a drain; else the request is answered. -/
def opConfig (im : Image) (p : Nat) (q : CfgReq) (m : M) : M :=
  cfgRequest im p (cfgAct im p q) m

/-- IO_LOCKED_ATOMIC_REQUEST (R261). -/
def opIoLocked (im : Image) (p : Nat) (m : M) : M :=
  if im.enabled p = false ∨ (m.hostOf p).up = false then m else (hostTlp p m).emit (.cplUr p)

/-! ### Quarantine (R266) -/

/-- Brings QUARANTINED up to date. -/
def syncQuar (p : Nat) (m : M) : M := m.setFld .HPT_STS_QUARANTINED (pinst p 0) (m.hostOf p).quar.length

/-- Frees a quarantined tag; waiting requests may take it. -/
def freeQuar (p tag : Nat) (m : M) : M :=
  let h := m.hostOf p
  pumpHost p (syncQuar p (m.setHost p { h with quar := h.quar.filter (fun q => q.1 != tag) }))

/-- QUARANTINE_EXPIRY (R266): the completion timeout in force at the request's issue has elapsed. -/
def opQuarantineExpiry (p tag : Nat) (m : M) : M :=
  match (m.hostOf p).quar.find? (fun q => q.1 == tag) with
  | some q => if q.2 ≤ m.now then freeQuar p tag m else m
  | none => m

/-! ### Partition reset (R264, R265) -/

/-- Whether an element of a transfer waits for local DRAM, and not for the host. -/
def elemLocal (x : Xfer) (e : Elem) : Bool :=
  let host := fun (l : List Range) => match rangeAt l e.off with
    | some (r, _) => (Space.hostPart r.sp).isSome
    | none => false
  (e.st == .reading && !(host x.src)) || (e.st == .writing && !(host x.dst))

/-- A transfer of a partition in a drain: only the answers due from local DRAM are left. -/
def Xfer.drained (x : Xfer) : Xfer :=
  { x with who := .gone, stopped := true, flush := 0, lastHost := none, data := [], elems := x.elems.filter (elemLocal x) }

/-- A drained descriptor; a writeback to local DRAM is still awaited, one to host memory is not (R265). -/
def DescRun.drained (d : DescRun) : DescRun :=
  { d with x := d.x.drained, abort := true, wb := if d.wb = some none then none else d.wb }

/-- A channel of the partition stops at once (R183); a descriptor read from local DRAM is still awaited. -/
def drainChan (p : Nat) (m : M) (c : Nat) : M :=
  let ch := m.chan c
  let ch1 : ChanSt := { ch with
    descs := ch.descs.map DescRun.drained, reread := false
    reading := if hasPurp m p (.desc c) then none else ch.reading }
  (m.setChan c ch1).setFld .MOV_STS_STATE c 3

/-- The channels that hold state or are not idle, of one owner. -/
def chansOf (im : Image) (m : M) (p : Nat) : List Nat :=
  (List.range 1024).filter (fun c => im.chanOwner c == p && ((mapFind m.chans (c, 0)).isSome || m.fld .MOV_STS_STATE c != 0))

/-- A frame of the command lane that a partition reset leaves queued. -/
def frameKept (p : Nat) : QFrame → Bool
  | .cmd q _ _ => q != p
  | .rehearse q _ _ => q != p
  | .go q _ => q != p
  | .clear q _ => q != p
  | _ => true

/-- One rehearsal of the partition at its reset (R128): struck or aborted, its number freed at the 288th edge. -/
def drainRh (l : Nat) (m : M) (e : Nat × Rehearsal) : M :=
  let r := e.2
  let m := m.setRh l e.1 { r with data := [], detached := true, freeAt := some (edgeCount m + 288),
                                  st := if r.st = .committed then .committed else .striking }
  if r.st = .striking then m
  else if r.st = .committed then (if r.detached then m else sendAbort l 8 e.1 m)
  else enqFrame l (.strike 8 (2 ^ e.1)) m

/-- The commands, rehearsals and queued frames of the partition on one link (R128, R252): frames charged to no budget. -/
def drainLink (p : Nat) (m : M) (l : Nat) : M :=
  let k := m.link l
  let live := k.cmds.filter (fun c => c.part == p && !c.clear && c.abortTick.isNone && !(abortWaits m l c.ctag))
  let m := m.setLink l { k with
    cmds := k.cmds.map (fun c => if c.part = p then { c with dead := true } else c)
    cmdq := k.cmdq.filter (frameKept p) }
  let m := ((m.rhsOf l).filter (fun e => e.2.part == p)).foldl (drainRh l) m
  live.foldl (fun m c => sendAbort l 8 c.ctag m) m

/-- Whether a purpose is work of an owner channel or owner queue. -/
def purpOwner (im : Image) : Purp → Bool
  | .elem _ q _ => if 4096 ≤ q then q == 4096 + 8 else im.chanOwner q == 8
  | .flush _ q _ => if 4096 ≤ q then q == 4096 + 8 else im.chanOwner q == 8
  | .desc n => im.chanOwner n == 8
  | _ => false

/-- The immediate error answer an owner access receives from a port in a drain (R265). -/
def ownerRefused (im : Image) (m : M) (u : Purp) : M :=
  match u with
  | .elem e q id => answerCode im e q id (.read [.ur]) m
  | .flush e q id => flushCode im e q id .ur m
  | .desc n => descAnswer im n .ur m
  | _ => m

/-- An owner transfer with a host write among those discarded ends with DST_BUS (R265). -/
def lostWrite (p : Nat) (lost : List Nat) (x : Xfer) : Xfer :=
  let hit := fun (e : Elem) => e.st == .posted && (match rangeAt x.dst e.off with
    | some (r, j) => r.sp == .host p && lost.any (fun a => decide (r.addr + j ≤ a) && decide (a < r.addr + j + e.len))
    | none => false)
  if x.elems.any hit then
    ({ x with elems := x.elems.map (fun e => if hit e then { e with st := .bad } else e) } : Xfer).fail 6 0x25 1
  else x

/-- Applies `lostWrite` to every owner transfer. -/
def loseWrites (im : Image) (p : Nat) (lost : List Nat) (m : M) : M :=
  if lost.isEmpty then m else
  let g := lostWrite p lost
  let m := { m with
    subq := m.subq.map (fun (e : Key × List Xfer) => if e.1.2 = 8 then (e.1, e.2.map g) else e)
    chans := m.chans.map (fun (e : Key × ChanSt) => if im.chanOwner e.1.1 = 8 then
      (e.1, { e.2 with descs := e.2.descs.map (fun d => { d with x := g d.x }) }) else e) }
  let m := (List.range 16).foldl (fun m cl => settleQueue im cl 8 m) m
  ((m.chans.map (·.1.1)).filter (fun c => im.chanOwner c == 8)).foldl (fun m c => settleChan im c m) m

/-- An owner channel's status writeback that waited on a port in a drain receives the error answer (R172, R265). -/
def wbRefused (im : Image) (m : M) (c : Nat) : M :=
  match (m.chan c).descs with
  | d :: _ => if d.wb = some none ∧ im.chanOwner c = 8 then settleChan im c (wbFail im c 6 d m) else m
  | [] => m

/-- The port's part at f + 2: queued TLPs and messages discarded, outstanding requests abandoned and their tags in
quarantine for the timeout in force at their issue (R266); owner accesses are refused. -/
def drainPort (im : Image) (p : Nat) (m : M) : M :=
  let h := m.hostOf p
  let lost := h.waitq.filterMap (fun t => match t.2 with
    | .wr a _ none none => some a
    | _ => none)
  let wbs := h.waitq.filterMap (fun t => match t.2 with
    | .wr _ _ _ w => w
    | _ => none)
  let refused := h.np.map (·.purp) ++ h.waitq.filterMap (fun t => match t.2 with
    | .rd u _ _ _ => some u
    | _ => none)
  let m := m.setHost p { h with np := [], waitq := [], msgq := []
                                quar := h.quar ++ (h.np.filter (fun n => n.res.isNone)).map (fun n => (n.tag, n.issued + n.cto)) }
  let m := { m with irq := { m.irq with prov := m.irq.prov.filter (fun c => c.part != p) } }
  wbs.foldl (wbRefused im) (loseWrites im p lost ((refused.filter (purpOwner im)).foldl (ownerRefused im) (syncQuar p m)))

/-- The threads whose routine works for partition p. -/
def routThreads (m : M) (p : Nat) : List Nat :=
  (m.cpus.filter (fun e => e.1.1 == 0 && (match e.2.rout with
    | some r => r.part == p
    | none => false))).map (·.1.2)

/-- A script of a partition in a drain is squashed and gone (R128, R265): the cues discarded count, and its reads of local
memory are still awaited. -/
def drainScript (m : M) (s : Script) : M :=
  let (s, m) := parkReads s m
  let i := pinst s.part 0
  let n := s.win.length - s.keep
  let m := if n = 0 then m else (m.bumpN .SPC_CUES_DISCARDED i n).bump .SPC_SQUASH_SQUASHES i
  m.delScript s.part s.tag

/-- What a drain does at once to the partition's work (R68, R128, R159, R183, R206, R252, R265). -/
def drainWork (im : Image) (p : Nat) (m : M) : M :=
  let m := { m with
    rings := m.rings.map (fun (e : Key × RingSt) => if e.1.1 = p then
      (e.1, { RingSt.init with used := e.2.used, held := e.2.held, staged := e.2.staged, blocked := true }) else e)
    dispq := mapDel m.dispq (p, 0)
    waits := m.waits.filter (fun w => w.1 != p)
    bud := { m.bud with stageq := m.bud.stageq.filter (fun w => w.part != p) }
    subq := m.subq.map (fun (e : Key × List Xfer) => if e.1.2 = p then (e.1, e.2.map Xfer.drained) else e) }
  let m := (m.scriptsOf p).foldl drainScript (m.budReset p)
  let m := (routThreads m p).foldl (fun m t => freeThread t (dropLoad t m)) m
  let m := (List.range 16).foldl (fun m cl => dropGone cl p m) m
  let m := (chansOf im m p).foldl (drainChan p) m
  drainPort im p ((List.range 96).foldl (drainLink p) m)

/-- PCIe configuration space after FLR, hot reset, DL_Down or PERST, by its LAST_CAUSE; an FLR keeps what PCIe exempts from it,
AER's sticky bits stay but at PERST, and every vector's Mask bit becomes 1 (R264, R334; log entries 9, 55). -/
def resetCfg (p cause : Nat) (m : M) : M :=
  let h := m.hostOf p
  let m := m.setHost p { h with
    bme := false, mse := false, msixEn := false, fmask := false, cto := 0, tag10 := false, mrrs := 512, pmeEn := false
    pmeStatus := false, ltrEn := false, mps := if cause = 1 then h.mps else 128
    aspmL1 := if cause = 1 then h.aspmL1 else false, bars := List.replicate 6 0, poisoned := h.poisoned && cause != 4 }
  { m with irq := { m.irq with
      msix := (m.irq.msix.filter (fun e => !(e.1.1 / 65536 == p && e.1.2 == 3)))
      eff := m.irq.eff.filter (fun e => !((e.1.1 == 1000 && e.1.2 / 65536 == p) || e.1 == msixEnKey p || e.1 == fmaskKey p))
      maskq := m.irq.maskq.filter (fun w => !((w.key.1 == 1000 && w.key.2 / 65536 == p) || w.key == msixEnKey p || w.key == fmaskKey p)) } }

/-- Whether an answer due from local DRAM is still awaited for a partition: of its movers, its routines and its scripts
(R265). -/
def drainBusy (im : Image) (m : M) (p : Nat) : Bool :=
  m.subq.any (fun e => e.1.2 == p && e.2.any (fun x => !x.idle)) ||
  (chansOf im m p).any (fun c => let ch := m.chan c
    ch.reading.isSome || ch.descs.any (fun d => !d.x.idle || d.wb.isSome)) ||
  m.cpus.any (fun e => e.1.1 == 0 && im.spindleOwner (e.1.2 / 4) == p &&
    decide (0 < e.2.loadDrop + e.2.fetchDrop + e.2.listDrop))

/-- Registers that exist once per mover channel. -/
def perChan (r : Reg) : Bool :=
  r == .MOV_LIST || r == .MOV_CFG || r == .MOV_CTL || r == .MOV_STS || r == .MOV_LAST || r == .MOV_CNT

/-- The partition that a field instance with an F reset belongs to. -/
def fldPart (im : Image) (r : Reg) (i : Nat) : Nat := if perChan r then im.chanOwner i else i / 65536

/-- Restores every field of partition p whose Reset cell holds F (R9, R374). An owner reset leaves the power state as it
was (R266). -/
def clearF (im : Image) (p : Nat) (keepD3 : Bool) (m : M) : M :=
  let d := m.flag .HPT_STS_D3HOT (pinst p 0)
  let m := m.clearFlds (fun f i => f.f && fldPart im f.reg i == p)
  if keepD3 then m.setFlag .HPT_STS_D3HOT (pinst p 0) d else m

/-- The interrupt state of partition p beside its registers returns to reset (R343); the masks that are no register field
went with the configuration space. -/
def irqDrain (p : Nat) (m : M) : M :=
  { m with irq := { m.irq with
      sig := m.irq.sig.filter (fun e => e.1.1 != p)
      start := m.irq.start.filter (fun e => e.1.1 != p)
      later := m.irq.later.filter (fun e => e.1 != p)
      eff := m.irq.eff.filter (fun e => !(decide (e.1.1 < 1000) && (fldSpecAt e.1.1).f && e.1.2 / 65536 == p))
      maskq := m.irq.maskq.filter (fun w => !(decide (w.key.1 < 1000) && (fldSpecAt w.key.1).f && w.key.2 / 65536 == p))
      hold := m.irq.hold.filter (fun e => e.1.1 != p)
      last := mapDel m.irq.last (p, 0) } }

/-- Level sources of a partition whose signal follows a mailbox or an owner command. -/
def syncPart (im : Image) (p : Nat) (m : M) : M :=
  irqSync im p 0x803 (irqSync im p 0x802 (irqSync im p 0x800 m))

/-- What the end of a drain discards and restores (R265, R343, R352, R374). -/
def drainFinish (im : Image) (p : Nat) (m : M) : M :=
  let own := (m.hostOf p).drainOwn && !(m.hostOf p).drainCfg
  let m := { m with
    rings := m.rings.filter (fun e => e.1.1 != p)
    lastRing := mapDel m.lastRing (p, 0)
    attn := m.attn.filter (fun a => a.1 != p)
    bud := { m.bud with stage := mapDel m.bud.stage (p, 0) }
    rhs := m.rhs.map (fun (e : Key × Rehearsal) => if e.2.part = p then (e.1, { e.2 with hold := 0 }) else e)
    chans := m.chans.filter (fun e => im.chanOwner e.1.1 != p)
    subq := m.subq.filter (fun e => e.1.2 != p)
    mbx := mapDel (mapDel m.mbx (p, 0)) (p, 1) }
  let m := irqDrain p (clearF im p own m)
  let h := m.hostOf p
  m.setHost p { h with drain := none, drainOwn := false, drainCfg := false, d3q := [], awakeAt := 0 }

/-- What the end of a partition reset leaves: nothing of the partition's work, its registers at reset, its memory erased if
that was asked for (R265, R326, R352). -/
def partDone (im : Image) (p : Nat) (m : M) : M :=
  let m := drainFinish im p (m.setFlag .HPT_STS_DRAINING (pinst p 0) false)
  let m := if m.sec.erase.contains p then
      eraseRegion im p { m with sec := { m.sec with erase := m.sec.erase.filter (fun q => q != p) } }
    else m
  syncPart im p (mbxSync im p m)

/-- A cause of partition reset (R264): 1 FLR, 2 hot reset, 3 DL_Down, 4 PERST, 5 the owner. A cause during a drain merges
into it; before READY a port event needs no drain, and is over at once (R266). -/
def partReset (im : Image) (p cause : Nat) (m : M) : M :=
  if im.enabled p = false then m
  else
    let i := pinst p 0
    let m := m.setFld .HPT_STS_LAST_CAUSE i cause
    let m := if cause = 5 then m else resetCfg p cause m
    let m := if 2 ≤ cause ∧ cause ≤ 4 then portDown p m else m
    if cause ≠ 5 ∧ isReady m p = false ∧ m.flag .HPT_STS_DRAINING i = false then partDone im p m
    else
      let h := m.hostOf p
      let m := m.setHost p { h with drainOwn := h.drainOwn || cause == 5, drainCfg := h.drainCfg || cause != 5 }
      if m.flag .HPT_STS_DRAINING i then m
      else drainWork im p ((m.setFlag .HPT_STS_DRAINING i true).setHost p { m.hostOf p with drain := some m.now })

/-- DRAIN_END (R265, R267): the last internal answer has come, or 1.0 ms has passed; the function is ready, and after an owner
reset the partition's interrupt source has its pulse in the cycle after. -/
def opDrainEnd (im : Image) (p : Nat) (m : M) : M :=
  let i := pinst p 0
  let due := match (m.hostOf p).drain with
    | some f => decide (f + 2000000 ≤ m.now)
    | none => false
  if m.flag .HPT_STS_DRAINING i = false ∨ (drainBusy im m p ∧ due = false) then m
  else
    let own := (m.hostOf p).drainOwn
    let m := partDone im p m
    if own then irqNext p 0x801 true (m.setFlag .HPT_STS_OWNER_RESET i true) else m

/-- FLR (R264): a configuration write, answered with retry status before READY or in a drain. -/
def opFlr (im : Image) (p : Nat) (m : M) : M :=
  cfgRequest im p (partReset im p 1) m

/-- HOT_RESET (R264): received on a port that has its link. -/
def opHotReset (im : Image) (p : Nat) (m : M) : M := if (m.hostOf p).up then partReset im p 2 m else m

/-- DL_DOWN (R264): the link of the port goes down. -/
def opDlDown (im : Image) (p : Nat) (m : M) : M := if (m.hostOf p).up then partReset im p 3 m else m

/-- The level of PERST_N of a host port. -/
def setPerst (n : Nat) (low : Bool) (m : M) : M := { m with pins := { m.pins with perst := putBit m.pins.perst n low } }

/-- PERST_N_ASSERT (R257). A port bound to no enabled partition has only its pin's level kept (R17). -/
def opPerstAssert (im : Image) (n : Nat) (m : M) : M :=
  if bitAt m.pins.perst n then m
  else
    let m := setPerst n true m
    match im.partOfPort n with
    | none => m
    | some p => driveTerm im p (partReset im p 4 m)

/-- PERST_N_RELEASE (R257): no further reset; the port may train. -/
def opPerstRelease (im : Image) (n : Nat) (m : M) : M :=
  if bitAt m.pins.perst n = false then m
  else
    let m := setPerst n false m
    match im.partOfPort n with
    | none => m
    | some p => driveTerm im p m

/-- REFCLK_HP_ABSENT (R29): the port presents no termination. -/
def opHpAbsent (im : Image) (n : Nat) (m : M) : M :=
  let m := { m with pins := { m.pins with hpAbsent := putBit m.pins.hpAbsent n true } }
  match im.partOfPort n with
  | some p => driveTerm im p m
  | none => m

/-- REFCLK_HP_RETURN (R29). -/
def opHpReturn (im : Image) (n : Nat) (m : M) : M :=
  let m := { m with pins := { m.pins with hpAbsent := putBit m.pins.hpAbsent n false } }
  match im.partOfPort n with
  | some p => driveTerm im p m
  | none => m

/-! ### Power states (R268 to R272) -/

/-- D3HOT_ENTRY (R268), a configuration write: from here on requests wait; an interrupt already pending is announced by PME
(R269). -/
def opD3hot (im : Image) (p : Nat) (m : M) : M :=
  cfgRequest im p (fun m => if m.flag .HPT_STS_D3HOT (pinst p 0) then m
    else pmeOnPending im p (m.setFlag .HPT_STS_D3HOT (pinst p 0) true)) m

/-- The function returns to D0 (R270, R271): LTR, waiting requests in order, held status entries in completion order, then
interrupts. -/
def toD0 (im : Image) (p : Nat) (m : M) : M :=
  let m := sendLtr p (m.setFlag .HPT_STS_D3HOT (pinst p 0) false)
  issueMsgs p (writeD3All im p (pumpWaiting p m))

/-- D0_ENTRY (R270), a configuration write. -/
def opD0 (im : Image) (p : Nat) (m : M) : M :=
  cfgRequest im p (fun m => if m.flag .HPT_STS_D3HOT (pinst p 0) then toD0 im p m else m) m

/-- PME_REPEAT (R269): every 100 ms, 5 % less at the earliest. -/
def opPmeRepeat (im : Image) (p : Nat) (m : M) : M :=
  let h := m.hostOf p
  if m.flag .HPT_STS_D3HOT (pinst p 0) && h.pmeStatus && h.pmeEn && decide (h.pmeAt + 190000000 ≤ m.now) then
    drivePme im p (m.setHost p { h with pmeAt := m.now })
  else m

/-- Whether a status entry of the partition is staged: its MemWr waits for the port. -/
def stagedAny (m : M) (p : Nat) : Bool := m.rings.any (fun e => e.1.1 == p && !e.2.staged.isEmpty)

/-- No TLP of the partition waits and none is outstanding (R271). -/
def portQuiet (m : M) (p : Nat) : Bool :=
  let h := m.hostOf p
  h.waitq.isEmpty && h.msgq.isEmpty && h.np.isEmpty && !(stagedAny m p)

/-- L1_ENTRY (R271): 16 µs with no TLP; in a substate the clock request is released. -/
def opL1Entry (im : Image) (p sub : Nat) (m : M) : M :=
  let h := m.hostOf p
  if h.up && h.aspmL1 && m.fld .HPT_STS_LSTATE (pinst p 0) == 0 && portQuiet m p && decide (h.lastTlp + 32000 ≤ m.now) then
    let s := max 1 sub
    let m := m.setFld .HPT_STS_LSTATE (pinst p 0) s
    if 2 ≤ s then m.emit (.pin (.clkreqN (portOf im p)) true) else m
  else m

/-- The port returns to L0 and what waits is issued. -/
def toL0 (im : Image) (p : Nat) (m : M) : M := pumpHost p (leaveL1 im p m)

/-- Whether a TLP of the partition is ready to issue but for the link state: a request, a message, or a staged entry. -/
def tlpWaits (m : M) (p : Nat) : Bool :=
  let h := m.hostOf p
  h.bme && !(m.flag .HPT_STS_D3HOT (pinst p 0)) && !(m.flag .HPT_STS_DRAINING (pinst p 0)) &&
  (!h.waitq.isEmpty || !h.msgq.isEmpty || stagedAny m p)

/-- L1_EXIT (R271): counted in L1_EXITS. -/
def opL1Exit (im : Image) (p : Nat) (m : M) : M :=
  if m.fld .HPT_STS_LSTATE (pinst p 0) != 0 && tlpWaits m p then
    toL0 im p (m.bump .HPT_CNT_L1_EXITS (pinst p 0))
  else m

/-- HOST_L1_EXIT (R271). -/
def opHostL1Exit (im : Image) (p : Nat) (m : M) : M :=
  if m.fld .HPT_STS_LSTATE (pinst p 0) != 0 then toL0 im p m else m

/-- L0P_WIDTH_CHANGE (R272): every change the host requests in FLIT mode is accepted. -/
def opL0pChange (p width : Nat) (m : M) : M :=
  let i := pinst p 0
  if (m.hostOf p).up && m.flag .HPT_STS_FLIT i && widthOk width && decide (width ≤ m.fld .HPT_STS_WIDTH i) then
    m.setFld .HPT_STS_CUR_WIDTH i width
  else m

/-- Whether a request, a message or a status entry of the partition has waited 64 sc to start (R272). -/
def tlpLate (m : M) (p : Nat) : Bool :=
  let h := m.hostOf p
  h.waitq.any (fun w => decide (w.1 + 64 ≤ m.now)) || h.msgq.any (fun w => decide (w.ready + 64 ≤ m.now)) ||
  m.rings.any (fun e => e.1.1 == p && e.2.staged.any (fun x => decide (x.since + 64 ≤ m.now)))

/-- L0P_WIDEN_REQUEST (R272): a TLP that has waited 64 sc makes the loom request the full negotiated width. -/
def opL0pWiden (p : Nat) (m : M) : M :=
  let i := pinst p 0
  if (m.hostOf p).up && decide (m.fld .HPT_STS_CUR_WIDTH i < m.fld .HPT_STS_WIDTH i) && tlpWaits m p && tlpLate m p then
    m.emit (.l0p p (m.fld .HPT_STS_WIDTH i))
  else m

/-! ### RESET_PARTITION (R297) -/

/-- RESET_PARTITION: the result is written, then the owner's partition reset starts; with ERASE new DRAM keys follow at
the end of its drain. -/
def opResetPartition (im : Image) (x : CmdPaths) (votes : List Vote) (m : M) : M :=
  signedCmd im 0x101 x votes (fun _ b => decide (leAt b 0x40 1 < 8) && im.enabled (leAt b 0x40 1) && decide (leAt b 0x41 1 ≤ 1))
    (fun _ b m =>
      let p := leAt b 0x40 1
      let m := endCmd im orOk [] m
      let m := if leAt b 0x41 1 = 1 ∧ m.sec.erase.contains p = false then
          { m with sec := { m.sec with erase := m.sec.erase ++ [p] } }
        else m
      partReset im p 5 m) m

end Sys2Proof
end

