-- ==== Sys2Proof/Machine/ImageCheck.lean ====
section
/-! DEFINITION. Reading a loom image from its bytes and the slot checks of R38 and R39 in their order (02). -/

namespace Sys2Proof

/-- Result codes of a slot (R38). -/
def resNotTried : Nat := 0x00
/-- R38. -/
def resAccepted : Nat := 0x01
/-- R38. -/
def resFlashError : Nat := 0x02
/-- R38. -/
def resBadMagic : Nat := 0x03
/-- R38. -/
def resBadLength : Nat := 0x04
/-- R38. -/
def resKeyMismatch : Nat := 0x05
/-- R38. -/
def resBadSignature : Nat := 0x06
/-- R38. -/
def resWrongPart : Nat := 0x07
/-- R38. -/
def resWrongDie : Nat := 0x08
/-- R38. -/
def resRollback : Nat := 0x09
/-- R38. -/
def resBadLayout : Nat := 0x0A
/-- R38. -/
def resUnknownSection : Nat := 0x0B
/-- R38. -/
def resBadField : Nat := 0x0C
/-- R38. -/
def resBadStructure : Nat := 0x0D
/-- R38. -/
def resNoOwner : Nat := 0x0E
/-- R38. -/
def resPathDisagree : Nat := 0x0F
/-- R38. -/
def resFuseVote : Nat := 0x10

/-- MAGIC, the byte string "THR9624I" (HEADER). -/
def imgMagic : List Byte := [0x54, 0x48, 0x52, 0x39, 0x36, 0x32, 0x34, 0x49]

/-- A section as the walk finds it: type, instance, format, offset and length (R34). -/
structure Sect where
  type : Nat
  inst : Nat
  fmt : Nat
  off : Nat
  len : Nat
  deriving DecidableEq, Repr

/-- Bytes of a section. -/
def sectBytes (b : List Byte) (s : Sect) : List Byte := (b.drop s.off).take s.len

/-- Walks the sections from an offset (R33): each is followed at once by the next. `none` when a LENGTH is zero,
not a multiple of 64, or runs past the end. -/
def sectWalk (b : List Byte) : Nat → Nat → Nat → Option (List Sect)
  | 0, _, _ => none
  | fuel + 1, off, total =>
    if off = total then some []
    else
      let h := bytesAt (b.drop off) 0 32
      let s : Sect := ⟨leAt h 0 2, leAt h 4 2, leAt h 2 2, off, leAt h 8 4⟩
      if s.len = 0 ∨ s.len % 64 ≠ 0 ∨ off + s.len > total then none
      else (sectWalk b fuel (off + s.len) total).map (s :: ·)

/-- IMAGE_LEN of the HEADER. -/
def imgLen (b : List Byte) : Nat := leAt b 0x38 4

/-- BAD_MAGIC and BAD_LENGTH, the checks made during the read (R38, R41 step 1); `none` when both pass. -/
def imgReadCheck (b : List Byte) : Option Nat :=
  if leAt b 0 2 ≠ 1 ∨ bytesAt b 0x20 8 ≠ imgMagic then some resBadMagic
  else if imgLen b > 2 ^ 24 ∨ imgLen b % 64 ≠ 0 ∨ imgLen b < 128 + 1280 + 7296 then some resBadLength
  else none

/-- The signed message of R37. -/
def imgMessage (b : List Byte) : List Byte := b.take (imgLen b - 7296)

/-- OWNER_PUBKEY of the SIGNATURE section, found by IMAGE_LEN (R38). -/
def imgPubkey (b : List Byte) : List Byte := bytesAt (b.drop (imgLen b - 7296)) 0x20 2592

/-- SIG of the SIGNATURE section. -/
def imgSig (b : List Byte) : List Byte := bytesAt (b.drop (imgLen b - 7296)) 0xA40 4627

/-- SVN of the image: SECURITY_VERSION. -/
def imgSvn (b : List Byte) : Nat := leAt b 0x2C 1

/-- Code areas of a ROUTINE section: offset and length. -/
def routAreas (ro : List Byte) : List (Nat × Nat) :=
  (entriesAt ro 0x30 16 (leAt ro 0x20 2)).map (fun e => (leAt e 8 4, leAt e 12 4))

/-- Length rule of each known section type (R33). ROUTINE adds its code areas, each rounded up to 64 B (log entry 12). -/
def sectLenOk (b : List Byte) (s : Sect) : Bool :=
  let c := sectBytes b s
  match s.type with
  | 1 => s.len == 128
  | 2 => s.len == 1280
  | 3 => s.len == roundUp (0x60 + 32 * leAt c 0x48 4) 64
  | 4 => s.len == roundUp (0x30 + 4 * (leAt c 0x20 2 + leAt c 0x22 2)) 64
  | 5 => s.len == roundUp (0x130 + 4 * leAt c 0x120 2) 64
  | 6 => s.len == roundUp (0x1050 + 8 * leAt c 0x28 4) 64
  | 7 => s.len == roundUp (0x30 + 16 * leAt c 0x20 2) 64
  | 8 => s.len == roundUp (0x30 + 16 * leAt c 0x20 2) 64 + ((routAreas c).map (fun a => roundUp a.2 64)).sum
  | 9 => s.len == roundUp (0x80 + leAt c 0x60 4) 64
  | 10 => s.len == roundUp (0x30 + 48 * leAt c 0x21 1 + leAt c 0x24 4) 64
  | 11 => s.len == 7296
  | _ => true

/-- A type code of R33. -/
def sectKnown (s : Sect) : Bool := decide (1 ≤ s.type) && decide (s.type ≤ 11)

/-- R33 and R34 (log entry 12): order, once each, PARTITION one to eight times in ascending partition order, length rules,
all over the sections of known type; over every section FORMAT 1 and INSTANCE zero outside PARTITION; SECTION_COUNT. -/
def imgLayoutOk (b : List Byte) (ss : List Sect) : Bool :=
  let k := ss.filter sectKnown
  let ps := k.filter (fun s => s.type == 3)
  ((k.map (·.type)).filter (fun t => t != 3) == [1, 2, 4, 5, 6, 7, 8, 9, 10, 11]) &&
  decide ((k.map (·.type)).Pairwise (fun a b : Nat => a ≤ b)) &&
  decide (1 ≤ ps.length) && decide (ps.length ≤ 8) &&
  decide ((ps.map (·.inst)).Pairwise (fun a b : Nat => a < b)) && ps.all (fun s => decide (s.inst < 8)) &&
  ss.all (fun s => s.fmt == 1 && (s.type == 3 || s.inst == 0)) && k.all (sectLenOk b) &&
  leAt b 0x2E 2 == ss.length

/-- The bytes of the first section of a type. -/
def imgSect (b : List Byte) (ss : List Sect) (t : Nat) : List Byte :=
  match ss.find? (fun s => s.type == t) with
  | some s => sectBytes b s
  | none => []

/-- Owner code: 0x00–0x07 a partition, 0x80 OWNER, anything else none. -/
def ownerCode (c : Nat) : Nat := if c < 8 then c else if c = 0x80 then 8 else 9

/-- Window entries of a PARTITION section (R84). -/
def parseWindows (c : List Byte) : List Window :=
  (entriesAt c 0x60 32 (leAt c 0x48 4)).map (fun w => ⟨leAt w 0 8, leAt w 8 8, leAt w 0x10 8, leAt w 0x18 1, leAt w 0x19 1⟩)

/-- A PARTITION section. -/
def parsePart (n : Nat) (c : List Byte) : Part :=
  { num := n, hostPort := leAt c 0x20 1, maxWidth := leAt c 0x21 1, maxRate := leAt c 0x22 1,
    dispatchDepth := leAt c 0x24 2, vectors := leAt c 0x26 2, ringBase := leAt c 0x28 4,
    ringCount := leAt c 0x2C 4, dramBase := leAt c 0x30 8, dramSize := leAt c 0x38 8,
    prefill := leAt c 0x40 8, windows := parseWindows c }

/-- Routine entries, with the place step 6 gives each code area: after the load area, in index order, each area
rounded up to 64 B (R39 Routines, R41 step 6; log entry 12). -/
def parseRoutines (c : List Byte) : Nat → Nat → Nat → List Rout
  | 0, _, _ => []
  | n + 1, i, addr =>
    let e := bytesAt (c.drop (0x30 + 16 * i)) 0 16
    let len := leAt e 12 4
    ⟨leAt e 0 2, leAt e 2 1, leAt e 3 1, leAt e 4 2, bytesAt (c.drop (leAt e 8 4)) 0 len, addr⟩ ::
      parseRoutines c n (i + 1) (addr + roundUp len 64)

/-- The decoded image (02, section tables). -/
def imgParse (b : List Byte) (ss : List Sect) : Image :=
  let h := b.take 128
  let st := imgSect b ss 2
  let lk := imgSect b ss 4
  let bu := imgSect b ss 5
  let iq := imgSect b ss 6
  let fa := imgSect b ss 7
  let ro := imgSect b ss 8
  let fw := imgSect b ss 9
  let ky := imgSect b ss 10
  let nl := leAt lk 0x20 2
  let na := leAt ky 0x21 1
  let ll := leAt fw 0x60 4
  { seq := leAt h 0x30 8
    svn := imgSvn b
    tickPeriod := leAt st 0x20 2
    tickSource := leAt st 0x22 1
    tickOut := leAt st 0x23 1
    ownerStage := leAt st 0x24 2
    qdepth := leAt st 0x26 2
    ownerDram := leAt st 0x28 4
    mem := (entriesAt st 0x30 8 4).map (fun e => ⟨leAt e 0 1, leAt e 1 1, leAt e 2 2, leAt e 4 2⟩)
    spindleMap := (bytesAt st 0x80 128).map (fun x => ownerCode x.toNat)
    moverMap := (bytesAt st 0x100 1024).map (fun x => ownerCode x.toNat)
    parts := (ss.filter (fun s => s.type == 3)).map (fun s => parsePart s.inst (sectBytes b s))
    links := (entriesAt lk 0x30 4 nl).map (fun e => ⟨leAt e 0 1, leAt e 1 1⟩)
    rights := (entriesAt lk (0x30 + 4 * nl) 4 (leAt lk 0x22 2)).map (fun e => ⟨leAt e 0 2, leAt e 2 1, leAt e 3 1⟩)
    budget := (entriesAt bu 0x20 32 8).map (fun e => ⟨leAt e 0 4, leAt e 4 4, leAt e 8 4, leAt e 12 4⟩)
    frames := (entriesAt bu 0x130 4 (leAt bu 0x120 2)).map (fun e => ⟨leAt e 0 1, leAt e 1 1, leAt e 2 2⟩)
    policy := (bytesAt iq 0x20 8).map (·.toNat)
    holdoff := (entriesAt iq 0x30 2 2048).map leVal
    whold := (entriesAt iq 0x1030 2 16).map leVal
    maps := (entriesAt iq 0x1050 8 (leAt iq 0x28 4)).map (fun e =>
      ⟨ownerCode (leAt e 0 1), leAt e 1 1, leAt e 2 1 == 1, leAt e 4 2, leAt e 6 2⟩)
    faults := (entriesAt fa 0x30 16 (leAt fa 0x20 2)).map (fun e =>
      ⟨leAt e 0 2, leAt e 2 1, leAt e 3 1, leAt e 4 1, leAt e 8 4⟩)
    routines := parseRoutines ro (leAt ro 0x20 2) 0 (roundUp ll 64)
    cores := (entriesAt fw 0x20 16 4).map (fun e => ⟨leAt e 0 1, leAt e 4 4⟩)
    loadArea := bytesAt fw 0x80 ll
    rekeyLog2 := leAt ky 0x20 1
    anchors := entriesAt ky 0x30 48 na
    cert := bytesAt ky (0x30 + 48 * na) (leAt ky 0x24 4)
    rootHash := leBytes 48 (Config.sha384 (imgMessage b)).toNat }

/-- A power of two in a closed range. -/
def pow2In (x lo hi : Nat) : Bool := decide (lo ≤ x) && decide (x ≤ hi) && decide (x = 2 ^ (Nat.log2 x))

/-- A number in a closed range. -/
def inRange (x lo hi : Nat) : Bool := decide (lo ≤ x) && decide (x ≤ hi)

/-- R84: one window entry, with the one before it. -/
def windowOk (q : Part) (prevEnd : Nat) (w : Window) : Bool :=
  w.wbase % 4096 == 0 && decide (prevEnd ≤ w.wbase) && w.wsize % 4096 == 0 && w.wsize != 0 &&
  decide (w.wbase + w.wsize ≤ 2 ^ 64) && w.target % 4096 == 0 &&
  decide (w.kind ≤ 1) && inRange w.rights 1 15 &&
  (if w.kind = 0 then decide (w.target + w.wsize ≤ 2 ^ 64) else decide (w.target + w.wsize ≤ q.dramSize))

/-- R84 over a window table, from a lower bound for the first WBASE. -/
def windowsOk (q : Part) : Nat → List Window → Bool
  | _, [] => true
  | lo, w :: t => windowOk q lo w && windowsOk q (w.wbase + w.wsize) t

/-- R35, R84, R408: the common header's reserved bytes of a section. -/
def sectHdrZero (c : List Byte) : Bool := zeroAt c 6 2 && zeroAt c 0x0C 20

/-- R35 for HEADER. -/
def fldHeaderOk (h : List Byte) : Bool :=
  decide (leAt h 0x2C 1 ≤ 64) && decide (leAt h 0x2D 1 ≤ 1) && zeroAt h 0x3C 4 && zeroAt h 0x50 48 &&
  (leAt h 0x2D 1 == 1 || zeroAt h 0x40 16)

/-- R35 for STRUCTURE and R408. -/
def fldStructOk (st : List Byte) : Bool :=
  inRange (leAt st 0x20 2) 256 16384 && leAt st 0x20 2 % 16 == 0 && decide (leAt st 0x22 1 ≤ 1) &&
  decide (leAt st 0x23 1 ≤ 1) && inRange (leAt st 0x24 2) 8 32 && pow2In (leAt st 0x26 2) 16 256 &&
  decide (512 ≤ leAt st 0x28 4) && zeroAt st 0x2C 4 && zeroAt st 0x50 48 &&
  (entriesAt st 0x30 8 4).all (fun e =>
    zeroAt e 6 2 &&
    (if leAt e 0 1 = 0 then leAt e 1 1 == 0 && leAt e 2 2 == 0 && leAt e 4 2 == 0
     else leAt e 0 1 == 1 && inRange (leAt e 1 1) 1 2 && [4800, 5600, 6400, 7200, 8000, 8800].contains (leAt e 2 2) &&
       [8, 16, 32, 64].contains (leAt e 4 2))) &&
  (bytesAt st 0x80 (128 + 1024)).all (fun x => decide (x.toNat < 8) || x == 0x80 || x == 0xFF)

/-- R35 and R84 for a PARTITION section. -/
def fldPartOk (n : Nat) (c : List Byte) : Bool :=
  let q := parsePart n c
  sectHdrZero c && decide (q.hostPort ≤ 7) && [1, 2, 4, 8, 16].contains q.maxWidth && inRange q.maxRate 5 7 &&
  zeroAt c 0x23 1 && pow2In q.dispatchDepth 8 1024 && inRange q.vectors 1 2048 && pow2In q.ringCount 1 65536 &&
  q.ringBase % q.ringCount == 0 && q.dramBase % 2 ^ 20 == 0 && q.dramSize % 2 ^ 20 == 0 &&
  q.prefill % 2 ^ 20 == 0 && decide (q.prefill ≤ q.dramSize) && inRange (leAt c 0x48 4) 1 4096 &&
  zeroAt c 0x4C 20 && windowsOk q 0 q.windows &&
  (entriesAt c 0x60 32 (leAt c 0x48 4)).all (fun e => zeroAt e 0x1A 6) &&
  zeroAt c (0x60 + 32 * leAt c 0x48 4) (c.length - (0x60 + 32 * leAt c 0x48 4))

/-- R35 for LINK. -/
def fldLinkOk (im : Image) (lk : List Byte) : Bool :=
  let n := leAt lk 0x20 2
  let r := leAt lk 0x22 2
  decide (n ≤ 96) && decide (r ≤ 24576) && zeroAt lk 0x24 12 &&
  (entriesAt lk 0x30 4 n).all (fun e => zeroAt e 2 2) &&
  im.links.all (fun e => decide (e.link ≤ 95) && [1, 2, 4, 8].contains e.width) &&
  decide ((im.links.map (·.link)).Pairwise (fun a b : Nat => a ≤ b)) &&
  im.rights.all (fun x => decide (x.part ≤ 7) && decide (x.rights < 16)) &&
  decide ((im.rights.map (·.slot)).Pairwise (fun a b : Nat => a < b)) &&
  zeroAt lk (0x30 + 4 * (n + r)) (lk.length - (0x30 + 4 * (n + r)))

/-- R35 for BUDGET. -/
def fldBudgetOk (im : Image) (bu : List Byte) : Bool :=
  let n := leAt bu 0x120 2
  (entriesAt bu 0x20 32 8).zipIdx.all (fun e => zeroAt e.1 16 16 && (im.enabled e.2 || zeroAt e.1 0 16)) &&
  decide (n ≤ 768) && zeroAt bu 0x122 14 &&
  decide ((im.frames.map (fun e => e.link * 256 + e.part)).Pairwise (fun a b : Nat => a ≤ b)) &&
  zeroAt bu (0x130 + 4 * n) (bu.length - (0x130 + 4 * n))

/-- R35 for IRQ. -/
def fldIrqOk (iq : List Byte) : Bool :=
  let n := leAt iq 0x28 4
  (bytesAt iq 0x20 8).all (fun x => decide (x.toNat < 4)) && zeroAt iq 0x2C 4 &&
  (entriesAt iq 0x1050 8 n).all (fun e =>
    (decide (leAt e 0 1 < 8) || leAt e 0 1 == 0x80) && decide (leAt e 2 1 ≤ 1) && zeroAt e 3 1 &&
    (leAt e 0 1 != 0x80 || leAt e 6 2 == 0)) &&
  zeroAt iq (0x1050 + 8 * n) (iq.length - (0x1050 + 8 * n))

/-- R35 for FAULT. -/
def fldFaultOk (im : Image) (fa : List Byte) : Bool :=
  let n := leAt fa 0x20 2
  zeroAt fa 0x22 14 &&
  (entriesAt fa 0x30 16 n).all (fun e => zeroAt e 5 3 && zeroAt e 12 4) &&
  im.faults.all (fun e => inRange e.n 1 255 && decide (e.minor < 32) && decide (e.severe < 32) &&
    inRange e.w 1 (2 ^ 20)) &&
  decide ((im.faults.map (·.src)).Pairwise (fun a b : Nat => a < b)) &&
  zeroAt fa (0x30 + 16 * n) (fa.length - (0x30 + 16 * n))

/-- R35 for ROUTINE: fields, and zero outside the table and the code areas. -/
def fldRoutineOk (im : Image) (ro : List Byte) : Bool :=
  let n := leAt ro 0x20 2
  let areas := routAreas ro
  decide (n ≤ 4096) && zeroAt ro 0x22 14 &&
  (entriesAt ro 0x30 16 n).all (fun e => zeroAt e 6 2) &&
  im.routines.all (fun r => decide (r.rflags ≤ 1) && inRange r.maxTicks 1 65535) &&
  areas.all (fun a => a.1 % 64 == 0 && a.2 % 4 == 0 && a.2 != 0) &&
  decide ((im.routines.map (·.index)).Pairwise (fun a b : Nat => a < b)) &&
  (ro.zipIdx.drop (0x30 + 16 * n)).all (fun x =>
    x.1 == 0 || areas.any (fun a => decide (a.1 ≤ x.2) && decide (x.2 < a.1 + a.2)))

/-- R35 for FIRMWARE. -/
def fldFirmwareOk (im : Image) (fw : List Byte) : Bool :=
  (entriesAt fw 0x20 16 4).all (fun e => zeroAt e 1 3 && zeroAt e 8 8) &&
  im.cores.all (fun c => decide (c.start ≤ 1) && c.entry % 4 == 0) &&
  (im.cores.getD 0 ⟨0, 0⟩).start == 1 && leAt fw 0x60 4 != 0 && zeroAt fw 0x64 28 &&
  zeroAt fw (0x80 + leAt fw 0x60 4) (fw.length - (0x80 + leAt fw 0x60 4))

/-- R35 for KEYS. -/
def fldKeysOk (im : Image) (ky : List Byte) : Bool :=
  let e := 0x30 + 48 * leAt ky 0x21 1 + leAt ky 0x24 4
  inRange im.rekeyLog2 20 32 && decide (leAt ky 0x21 1 ≤ 16) && zeroAt ky 0x22 2 &&
  decide (leAt ky 0x24 4 ≤ 16384) && zeroAt ky 0x28 8 && zeroAt ky e (ky.length - e)

/-- BAD_FIELD: R35, R84 and R408 over the whole image. Entries that break the ascending order their table states get it
too (DESIGN CHOICE: R35 names no order; log entry 12). -/
def imgFieldsOk (b : List Byte) (ss : List Sect) (im : Image) : Bool :=
  let sg := imgSect b ss 11
  ss.all (fun s => sectHdrZero (sectBytes b s)) && fldHeaderOk (b.take 128) && fldStructOk (imgSect b ss 2) &&
  (ss.filter (fun s => s.type == 3)).all (fun s => fldPartOk s.inst (sectBytes b s)) &&
  fldLinkOk im (imgSect b ss 4) && fldBudgetOk im (imgSect b ss 5) && fldIrqOk (imgSect b ss 6) &&
  fldFaultOk im (imgSect b ss 7) && fldRoutineOk im (imgSect b ss 8) && fldFirmwareOk im (imgSect b ss 9) &&
  fldKeysOk im (imgSect b ss 10) && zeroAt sg 0x1C53 45

/-- Two ranges do not overlap. -/
def disjoint (a b : Nat × Nat) : Bool := decide (a.1 + a.2 ≤ b.1) || decide (b.1 + b.2 ≤ a.1) || a.2 == 0 || b.2 == 0

/-- Ranges are pairwise disjoint. -/
def allDisjoint (l : List (Nat × Nat)) : Bool := decide (l.Pairwise (fun a b => disjoint a b = true))

/-- An owner code that names no disabled partition (R39 Codes). -/
def codeOk (im : Image) (c : Nat) : Bool := decide (8 ≤ c) || im.enabled c

/-- Port byte rate H of R69. -/
def rateH (rate : Nat) : Nat := if rate = 7 then 118 else if rate = 6 then 59 else 29

/-- R69: the budget proof. -/
def budgetProof (im : Image) : Bool :=
  let P := im.pEff
  im.links.all (fun e => decide (((im.frames.filter (fun f => f.link == e.link)).map (·.slots)).sum + 1
    ≤ P * e.width * 217 / 4352)) &&
  decide ((im.budget.map (·.mover)).sum + 4096 ≤ 3840 * P) &&
  im.parts.all (fun q => decide ((im.bud q.num).host + 1024 ≤ 2 * (rateH q.maxRate * q.maxWidth * P / 16)) &&
    decide ((im.bud q.num).cycles ≤ (im.spindlesOf q.num).length * (P - 64))) &&
  decide ((im.budget.map (·.stage)).sum * 2 ^ 16 + im.ownerStageBytes ≤ 2 ^ 27)

/-- BAD_STRUCTURE: the cross-section rules of R39, with R16, R24, R36, R69 and R362. A CODE_OFF that names a byte of the
ROUTINE header or entry table gets it too (DESIGN CHOICE: R39 states no result for it; log entry 12). -/
def imgStructureOk (im : Image) (ro : List Byte) (certLen : Nat) : Bool :=
  decide ((im.parts.map (·.hostPort)).Nodup) && im.parts.all (fun q => !(im.spindlesOf q.num).isEmpty) &&
  im.spindleMap.all (codeOk im) && im.moverMap.all (codeOk im) && im.rights.all (fun r => im.enabled r.part) &&
  im.frames.all (fun e => decide (e.part < 8) && im.enabled e.part) && im.maps.all (fun e => codeOk im e.owner) &&
  im.routines.all (fun r => (setBits r.callers 8).all im.enabled) &&
  im.parts.all (fun q => decide (q.ringBase + q.ringCount ≤ 65536)) &&
  allDisjoint (im.parts.map (fun q => (q.ringBase, q.ringCount))) &&
  im.mem.any (fun c => c.present == 1) && decide (im.ownerDramBytes ≤ im.dramData) &&
  im.parts.all (fun q => decide (q.dramBase + q.dramSize ≤ im.dramData)) &&
  allDisjoint ((0, im.ownerDramBytes) :: im.parts.map (fun q => (q.dramBase, q.dramSize))) &&
  im.links.all (fun e => e.link % e.width == 0 && decide (e.link % 8 + e.width ≤ 8)) &&
  allDisjoint (im.links.map (fun e => (e.link, e.width))) &&
  im.rights.all (fun r => decide (r.slot < 2 ^ 15) && im.linkWidth (r.slot / 256) != 0) &&
  im.frames.all (fun e => im.linkWidth e.link != 0) && budgetProof im &&
  im.maps.all (fun e => (e.owner == 8 || decide (e.vector < im.partN e.owner (·.vectors))) &&
    srcExists im e.owner e.source && (e.owner != 8 || decide (e.group < 16))) &&
  decide ((im.maps.map (fun e => (e.owner, e.source))).Nodup) &&
  (routAreas ro).all (fun a => decide (a.1 + a.2 ≤ ro.length) && decide (0x30 + 16 * leAt ro 0x20 2 ≤ a.1)) &&
  allDisjoint (routAreas ro) &&
  decide (im.loadArea.length + ((routAreas ro).map (fun a => roundUp a.2 64)).sum ≤ im.ownerStageBytes) &&
  im.cores.all (fun c => c.start == 0 || decide (c.entry < im.loadArea.length)) &&
  (im.links.isEmpty || (!im.anchors.isEmpty && certLen != 0)) &&
  (im.faults.map (·.src) == faultList) &&
  im.faults.all (fun e => !((bitAt e.minor 2 || bitAt e.severe 2) && noBlockReset ((faultInst e.src).getD 0)))

/-- Step 4 of the boot (R38, R41): the checks from WRONG_PART to BAD_STRUCTURE in table order, against the steps
blown and the die serial. Either the failing code or the decoded image. -/
def imgStep4 (b : List Byte) (steps serial : Nat) : Nat × Image :=
  if leAt b 0x28 2 ≠ 0x9624 ∨ ¬ (leAt b 0x2A 1 ≤ 0x10 ∧ 0x10 ≤ leAt b 0x2B 1) then (resWrongPart, Image.empty)
  else if bitAt (leAt b 0x2D 1) 0 ∧ leAt b 0x40 16 ≠ serial then (resWrongDie, Image.empty)
  else if imgSvn b < steps then (resRollback, Image.empty)
  else
    match sectWalk b (imgLen b / 64 + 1) 0 (imgLen b) with
    | none => (resBadLayout, Image.empty)
    | some ss =>
      if imgLayoutOk b ss = false then (resBadLayout, Image.empty)
      else if ss.any (fun s => !sectKnown s) then (resUnknownSection, Image.empty)
      else
        let im := imgParse b ss
        if imgFieldsOk b ss im = false then (resBadField, Image.empty)
        else if imgStructureOk im (imgSect b ss 8) (leAt (imgSect b ss 10) 0x24 4) = false then
          (resBadStructure, Image.empty)
        else (resAccepted, im)

end Sys2Proof
end

