-- ==== Sys2Proof/Machine/State.lean ====
section
/-! DEFINITION. The state of the loom and its value at power-on reset. -/

namespace Sys2Proof.Machine

/-- Faults: the loom defines no condition under which it stops. An event of chapter 15's fault sources is an effect
on the state, so no constructor is needed; nothing raises one (safe). -/
inductive Fault where
  deriving DecidableEq, Repr

/-- Refusals. -/
inductive Refusal where
  /-- Raised by the dispatcher for a row of the opcode table that has no meaning yet (safe: nothing is claimed). -/
  | notModelled (mnemonic : String)
  deriving DecidableEq, Repr

/-- The loom: the queue of waiting commands, the fuses (R276), the image in force (R43, R44), everything else. -/
structure State where
  pending : List Instr
  fuses : Fuses
  img : Image
  m : M
  deriving DecidableEq, Repr

/-- The block with power-on reset asserted: every register field at its reset value, every memory empty, no image
(R41, R373; log entries 2, 3, 4, 7, 8, 9, 10). -/
def M.reset : M :=
  { f := [], cyc := [], now := 0, fresh := 0, out := [], react := [],
    boot := { phase := .porst, slot := 0, second := false, cold := true, sensed := false, entropy := true, step5At := 0, porAt := 0,
              octal := false, copy := [], releaseAt := [], overdue := 0, flashOp := none,
              chkSlot := none, chkWait := none, relAt := none, step1At := none },
    pins := { faultReact := false, faultBoot := false, faultEntropy := false, thermTrip := false, hpAbsent := 0,
              onAbsent := 0, calBad := 0, perst := 0, warnArmed := true, bscan := [], memReset := 0 },
    tick := { edge := 0, next := 0, taken := false, closed := false, ahead := none, run := 0, due := [], aged := [], phase := 0, on := false },
    bud := { inf := [], nextInf := [], rem := [], charged := [], early := [], last := [], exhausted := [], stopped := [], stage := [], stageq := [] },
    brst := [], quiet := [], held := [], asks := [],
    irq := { sig := [], eff := [], maskq := [], hold := [], last := [], prov := [], msix := [], later := [], start := [], did := [] },
    host := [], rings := [], dispq := [], lastRing := [], scripts := [], waits := [], attn := [], rhs := [],
    chans := [], subq := [], eng := [], cpus := [], served := [], scratch := [], stage := [], div := [], links := [],
    sec := SecSt.init, voteDead := [], upset := [], glitch := [], tagGlitch := [], mem := { lines := [], tags := [], scrub := [], double := [], leakAt := [], pend := [], turn := [], since := [], bursts := [], selfRef := [] }, mbx := [],
    evt := [], trc := { words := [], rd := 0 },
    mgt := { i3cAddr := none, i3cOff := 0, ir := 0xFF, regData := 0, regDone := false, wdbg := 0, fuseBit := false, byp := false } }

/-- The loom right after power-on reset asserts, as shipped: fuses unblown, nothing loaded, no command waiting. -/
def State.reset : State := { pending := [], fuses := Fuses.blank, img := Image.empty, m := M.reset }

end Sys2Proof.Machine
end

