-- ==== Sys2Proof/Machine/Boot.lean ====
section
/-! DEFINITION. Resets of the whole part, the boot sequence, the flash commands and the slot check (02; R289, R366 to
R368, R373, R392, R393). -/

namespace Sys2Proof

/-! ### Power-on and chip reset -/

/-- ALIVE and TICK_OUT are low before step 5 and in the failed-boot state (R56, R366). -/
def aliveLow (m : M) : M := (m.emit (.pin .alive false)).emit (.pin .tickOut false)

/-- A power-on reset (R368, R373): everything returns to reset, keys are gone (R289), FAULT_N and THERMTRIP_N are
released. What stands on the pins from outside is kept. -/
def powerReset (m : M) : M :=
  let r := Machine.M.reset
  let m1 : M := { r with
    now := m.now, fresh := m.fresh, out := m.out
    pins := { r.pins with hpAbsent := m.pins.hpAbsent, onAbsent := m.pins.onAbsent, calBad := m.pins.calBad, perst := m.pins.perst, bscan := m.pins.bscan } }
  let m1 := if m.pins.thermTrip then m1.emit (.pin .thermtripN true) else m1
  aliveLow (driveFault m1)

/-- A chip reset (R368, R373): fields with C return to reset, keys and every queue are gone, the sticky fault logs stay, a
pin reaction keeps FAULT_N low. `kind` and `src` go to PWR_RST_CAUSE. The boot follows in the given phase. -/
def chipReset (phase : BootPhase) (kind src : Nat) (m : M) : M :=
  let r := Machine.M.reset
  let m1 : M := { r with
    f := (m.clearFlds (fun f _ => f.c)).f
    now := m.now, fresh := m.fresh, out := m.out
    boot := { r.boot with phase := phase, entropy := m.boot.entropy, porAt := m.boot.porAt, cold := false }
    pins := { m.pins with faultBoot := false, faultEntropy := false }
    mgt := m.mgt
    mem := { r.mem with selfRef := (List.range 4).filter (fun c => m.flag .MEM_CH_STS_PRESENT c) } }
  let m1 := (m1.setFld .PWR_RST_CAUSE_KIND 0 kind).setFld .PWR_RST_CAUSE_SRC 0 src
  aliveLow (driveFault m1)

/-- Step 0 begins (R41): the stage buffer is clear, W0 runs the boot ROM, W1 to W3 are held; new nonces and a new
challenge (R374). -/
def startBoot (cold : Bool) (m : M) : M :=
  let m := { m with stage := []
                    boot := { m.boot with phase := .pll, relAt := none, cold := cold, porAt := if cold then m.now else m.boot.porAt } }
  let m := (m.setFlag .SEC_STS_ENTROPY_OK 0 m.boot.entropy).setFlag .WNG_CTL_RUNNING 0 true
  renewChallenge ((List.range 9).foldl (fun m s => renewNonce s m) m)

/-- PORST_N_ASSERT (R392): below 10 ns nothing, from 20 ns a power-on reset, between them either. -/
def opPorstAssert (ns : Nat) (m : M) : M :=
  if 20 ≤ ns ∨ (10 ≤ ns ∧ Config.porstGlitch ns = true) then powerReset m else m

/-- PORST_N_RELEASE (R41): PWR_RST_CAUSE names PORST_N. -/
def opPorstRelease (m : M) : M :=
  if m.boot.phase = .porst then
    startBoot true ((m.setFld .PWR_RST_CAUSE_KIND 0 1).setFlag .PWR_THERM_TRIP 0 m.pins.thermTrip)
  else m

/-- RESET_N_ASSERT (R393): four low samples begin a chip reset; the pin is ignored while PORST_N is low. -/
def opResetAssert (samples : Nat) (m : M) : M :=
  if samples < 4 ∨ m.boot.phase = .porst ∨ (m.boot.phase = .rstLow ∧ m.boot.relAt = none) then m else chipReset .rstLow 2 0 m

/-- RESET_N_RELEASE (R393); a chip reset without the pin has a release of its own. -/
def opResetRelease (m : M) : M := if m.boot.phase = .rstLow ∧ m.boot.relAt = none then startBoot false m else m

/-- A chip reset with its own release (R368): a chip-reset reaction or the owner command acts as RESET_N low for 2,000 sc. -/
def chipResetNow (kind src : Nat) (m : M) : M :=
  let m := chipReset .rstLow kind src m
  { m with boot := { m.boot with relAt := some (m.now + 2000) } }

/-- The release of such a chip reset, in its cycle (R368). -/
def bootRelease (m : M) : M :=
  match m.boot.relAt with
  | some t => if t ≤ m.now then startBoot false m else m
  | none => m

/-- CHIP_RESET_DELAY_EXPIRY (R298): 1 ms after the result of CHIP_RESET. -/
def opChipResetDelay (m : M) : M :=
  match m.sec.chipResetAt with
  | some t => if t ≤ m.now then chipResetNow 4 0 m else m
  | none => m

/-- CORE_PLL_LOCK_TIMEOUT (R29): no lock 1 ms after PORST_N release; the loom stays as it is. -/
def opPllTimeout (m : M) : M :=
  if m.boot.phase = .pll ∧ m.boot.cold ∧ m.boot.porAt + msSc ≤ m.now then { m with boot := { m.boot with phase := .stuck } }
  else m

/-- CORE_PLL_LOCK (R41): step 0 ends; the flash is probed and the slot with the higher IMAGE_SEQ is read first, slot 0 on
equal ones. -/
def opPllLock (octal : Bool) (seq0 seq1 : Nat) (m : M) : M :=
  if m.boot.phase ≠ .pll then m
  else { m with boot := { m.boot with phase := .read, octal := octal, slot := if seq0 < seq1 then 1 else 0, second := false
                                      step1At := some m.now } }

/-- CORE_PLL_LOCK_LOST (R29) after start-up. -/
def opPllLost (im : Image) (m : M) : M := if m.boot.phase = .run then fire im 0x000 0 m else m

/-- MEMORY_PLL_LOCK_LOST (R29) after start-up. -/
def opMemPllLost (im : Image) (c : Nat) (m : M) : M := if m.boot.phase = .run then fire im 0x001 c m else m

/-! ### Slots (R38, R41, R42) -/

/-- Writes the result of a slot. -/
def setResult (slot code : Nat) (m : M) : M :=
  m.setFld (if slot = 0 then .IMG_BOOT_STS_RESULT0 else .IMG_BOOT_STS_RESULT1) 0 code

/-- A boot step completed without a failure (IMG_BOOT_STS.LAST_STEP). -/
def stepDone (n : Nat) (m : M) : M := m.setFld .IMG_BOOT_STS_LAST_STEP 0 n

/-- The failed-boot state (R42): FAULT_N and ALIVE low. -/
def failBoot (m : M) : M :=
  let m := m.setFld .IMG_BOOT_STS_SLOT 0 m.boot.slot
  let m := { m with boot := { m.boot with phase := .failed, copy := [] }, pins := { m.pins with faultBoot := true, memReset := 0 } }
  aliveLow (driveFault m)

/-- Codes that end the whole boot (R38). -/
def endsBoot (code : Nat) : Bool := code == resNoOwner || code == resPathDisagree || code == resFuseVote

/-- A slot failed: the other slot is tried when it is NOT_TRIED, else the boot fails (R41, R42). -/
def failSlot (code : Nat) (m : M) : M :=
  let m := setResult m.boot.slot code m
  if endsBoot code || m.boot.second then failBoot m
  else { m.setFlag .IMG_BOOT_STS_FALLBACK 0 true with
    boot := { m.boot with phase := .read, slot := 1 - m.boot.slot, second := true, copy := [] } }

/-- A path disagreement in an image decision (R40, R282). -/
def pathFail (im : Image) (m : M) : M := failSlot resPathDisagree (pathDisagree im 1 m)

/-- What a vote over three words shows (R279). -/
def wordVote (a b c : Nat) : Vote :=
  if a = b ∧ b = c then .agree else if a = b ∨ a = c ∨ b = c then .two else .three

/-- The votes over the nine owner fuse words as the copies stand: OWNER_HASH, OWNER_SET, SVN, DEBUG_DISABLE. -/
def fuseVotes (u : Fuses) : List Vote :=
  (List.range 6).map (fun i => wordVote (bitsAt u.c0.hash.toNat (64 * i) 64) (bitsAt u.c1.hash.toNat (64 * i) 64)
    (bitsAt u.c2.hash.toNat (64 * i) 64)) ++
  [wordVote u.c0.set.toNat u.c1.set.toNat u.c2.set.toNat, wordVote u.c0.svn.toNat u.c1.svn.toNat u.c2.svn.toNat,
   wordVote u.c0.dbg.toNat u.c1.dbg.toNat u.c2.dbg.toNat]

/-- The voted reads of step 2: each fuse word with what its copies show at sense. -/
def senseWords (u : Fuses) (x : FuseSense) : List (VWord × Vote) :=
  (fuseVotes u).zipIdx.map (fun e => (.fuse (Fin.ofNat 16 e.2), worse e.1 (x.votes.getD e.2 .agree)))

/-- The device secret check (R285) on two paths: a disagreement leaves DS_OK at 0 (R282). -/
def senseSecret (im : Image) (v : Verdict) (m : M) : M :=
  let v := pathsOf v secretOk
  let m := if v.a ≠ v.b then pathDisagree im 2 m else m
  let ok := v.a && v.b
  let m := { m.setFlag .SEC_STS_DS_OK 0 ok with sec := { m.sec with dsOk := ok } }
  if ok then m else fire im 0x013 0 m

/-- Step 2 (R41): the fuses are sensed by vote, then the device secret is checked; the code that ends the boot, if
any. -/
def senseFuses (im : Image) (u : Fuses) (x : FuseSense) (m : M) : Option Nat × M :=
  if m.boot.sensed then (none, m)
  else
    let c := votedFuses u
    let m := { m with boot := { m.boot with sensed := true }, sec := { m.sec with sensed := c } }
    let m := (m.setFlag .SEC_STS_OWNER_SET 0 c.set).setFlag .SEC_STS_FACTORY_OPEN 0 (!c.set)
    let m := (m.setFlag .SEC_STS_DEBUG_DISABLE 0 c.dbg).setFld .SEC_STS_SVN_STEPS 0 (svnSteps c)
    let (ok, m) := voteReads im (senseWords u x) m
    let m := senseSecret im x.secret m
    if ok = false then (some resFuseVote, m)
    else if c.set = false then (some resNoOwner, m)
    else (none, stepDone 2 m)

/-- The end of step 1 with a code or none, then step 2 once. -/
def afterRead (im : Image) (u : Fuses) (code : Option Nat) (x : FuseSense) (m : M) : Option Nat × M :=
  let m := if code.isNone then stepDone 1 m else m
  let m := match code with
    | some c => setResult m.boot.slot c m
    | none => m
  let (e, m) := senseFuses im u x m
  match e with
  | some e => (some e, m)
  | none => (code, m)

/-- SLOT_READ_COMPLETE (R38, R40, R41, R274): the slot stands in the stage buffer. -/
def opSlotRead (im : Image) (u : Fuses) (b : List Byte) (hashAgree : Bool) (x : FuseSense) (m : M) : M :=
  if m.boot.phase ≠ .read then m
  else
    let (e, m) := afterRead im u (imgReadCheck b) x { m with boot := { m.boot with copy := b } }
    match e with
    | some c => failSlot c m
    | none => if hashAgree then { m with boot := { m.boot with phase := .verify } } else pathFail im m

/-- FLASH_READ_TIMEOUT (R38): FLASH_ERROR; step 2 still follows the first slot tried. -/
def opFlashTimeout (im : Image) (u : Fuses) (x : FuseSense) (m : M) : M :=
  if m.boot.phase ≠ .read then m
  else
    let (e, m) := afterRead im u (some resFlashError) x m
    failSlot (e.getD resFlashError) m

/-! ### Step 5 and step 6 (R43, R286, R288, R292) -/

/-- Offset of the first field of LOOM_CERT that differs from R292; `none` when all agree. -/
def certDiff (cert : List Byte) (hash : BitVec 384) (key : List Byte) : Option Nat :=
  if leAt cert 6 1 ≠ 1 then some 6
  else if leAt cert 7 1 ≠ 2 then some 7
  else if leAt cert 8 1 ≠ 1 then some 8
  else if bytesAt cert 0x10 16 ≠ leBytes 16 Config.dieSerial.toNat then some 0x10
  else if bytesAt cert 0x20 48 ≠ leBytes 48 hash.toNat then some 0x20
  else if bytesAt cert 0x50 1952 ≠ bytesAt key 0 1952 then some 0x50
  else none

/-- The certificate check of step 5 (R292); an image without a certificate has none to compare. -/
def checkCert (im : Image) (m : M) : M :=
  if im.cert.isEmpty then m
  else
    let h := m.sec.sensed.hash
    match certDiff im.cert h (if m.sec.derived.isSome then linkKey h else []) with
    | some o => fire im 0x015 o (m.setFlag .SEC_STS_CERT_MISMATCH 0 true)
    | none => m

/-- Loads the register fields whose Reset cell names the image, per partition (R43). -/
def loadPart (im : Image) (m : M) (p : Nat) : M :=
  let b := im.bud p
  let m := (m.setFld .TCK_CAP_A_SPINDLE_CYCLES p b.cycles).setFld .TCK_CAP_A_MOVER_BYTES p b.mover
  let m := (m.setFld .TCK_CAP_B_HOSTPORT_BYTES p b.host).setFld .TCK_CAP_B_STAGE_QUOTA p b.stage
  let i := pinst p 0
  (m.setFlag .IRQ_CFG_LATE_MASK i (im.exact p)).setFlag .IRQ_CFG_STRAY_ACK i (im.strayFault p)

/-- The memory channel fields of the image. -/
def loadChan (im : Image) (m : M) (c : Nat) : M :=
  match im.mem[c]? with
  | none => m
  | some x =>
    let m := (m.setFld .MEM_CH_STS_PRESENT c x.present).setFld .MEM_CH_STS_RATE c x.rate
    (m.setFld .MEM_CH_STS_CAPACITY c x.cap).setFld .MEM_CH_STS_RANKS c x.ranks

/-- Every register field that the image gives (R43). -/
def loadRegs (im : Image) (m : M) : M :=
  let m := (m.setFld .TCK_STS_PERIOD 0 im.tickPeriod).setFld .TCK_STS_SOURCE 0 im.tickSource
  let m := (m.setFld .TCK_STS_OUT_EN 0 im.tickOut).setFld .IMG_SEQ_SEQ 0 im.seq
  let m := (List.range 6).foldl (fun m i => m.setFld .IMG_ROOT_HASH_HASH i (leAt im.rootHash (8 * i) 8)) m
  let m := im.enabledParts.foldl (loadPart im) m
  let m := (List.range 4).foldl (loadChan im) m
  (List.range 12).foldl (fun m o => m.setFlag .LNK_OCT_STS_HOLDS_LINK o (im.octetUsed o)) m

/-- Level sources of the wings whose signal follows a mailbox. -/
def syncWings (im : Image) (m : M) : M := (List.range 8).foldl (fun m p => if im.enabled p then mbxSync im p m else m) m

/-- Step 6 (R41): load area and routine code into the owner stage reserve, then the cores with START. -/
def wingsLoad (im : Image) (m : M) : M :=
  let m := { m with stage := memWrite m.stage 0 im.loadArea }
  let m := im.routines.foldl (fun m r => { m with stage := memWrite m.stage r.addr r.code }) m
  (im.cores.zipIdx).foldl (fun m c => if c.1.start = 0 then m else startCore c.2 c.1.entry m) m

/-- Steps 5 and 6 with a decoded image: registers, keys, certificate, tick, pins, then the wings (R43, R366). -/
def applyImage (im : Image) (m : M) : M :=
  let m := loadRegs im m
  let m := { m with sec := { m.sec with derived := if m.sec.sensed.set && m.sec.dsOk then some m.sec.sensed.hash else none } }
  let m := (8 :: im.enabledParts).foldl (fun m r => newKeys im r m) m
  let m := { m with tick := { edge := m.now, next := m.now + im.tickPeriod, taken := false, closed := false, ahead := none, run := 0, due := [], aged := [], phase := 0, on := true } }
  let m := { m with pins := { m.pins with faultReact := false, faultBoot := false, faultEntropy := false } }
  let m := driveFault (m.setFlag .PWR_PIN_ALIVE_FROZEN 0 false)
  let m := checkCert im { m with boot := { m.boot with phase := .run, copy := [] } }
  let m := im.enabledParts.foldl (fun m p => syncPart im p m) (stepDone 5 (startLinks im m))
  stepDone 6 (wingsLoad im (syncWings im m))

/-- The image that step 4 accepted, from the copy in the stage buffer (R274); its security version was compared then. -/
def bootImage (m : M) : Image := (imgStep4 m.boot.copy 0 serialNat).2

/-- Step 4 accepts or refuses the slot; accepted, step 5 runs once entropy is there (R287). The first component is the
image applied. -/
def bootStep4 (im : Image) (svnAgree : Bool) (m : M) : Option Image × M :=
  let (c, new) := imgStep4 m.boot.copy (svnSteps m.sec.sensed) serialNat
  if c = resWrongPart ∨ c = resWrongDie then (none, failSlot c m)
  else if svnAgree = false then (none, pathFail im m)
  else if c ≠ resAccepted then (none, failSlot c m)
  else
    let m := (setResult m.boot.slot resAccepted m).setFld .IMG_BOOT_STS_SLOT 0 m.boot.slot
    let m := stepDone 4 m
    if m.boot.entropy then (some new, applyImage new m)
    else (none, { m with boot := { m.boot with phase := .wait5, step5At := m.now } })

/-- SHA-384 of OWNER_PUBKEY equals the voted owner key hash (R38 KEY_MISMATCH). -/
def imgKeyOk (b : List Byte) (h : BitVec 384) : Bool := decide (Config.sha384 (imgPubkey b) = h)

/-- The signature over the signed message verifies under OWNER_PUBKEY (R37, R38 BAD_SIGNATURE). -/
def imgSigOk (b : List Byte) : Bool := verify87 (imgPubkey b) "THR-9624 image" (imgMessage b) (imgSig b)

/-- SIGNATURE_VERIFY_COMPLETE (R38, R40, R41): the owner key comparison, then the signature, each on two paths. The
owner public key is held from here on (R288). -/
def opSigVerify (im : Image) (key sig : Verdict) (svnAgree entropy : Bool) (m : M) : Option Image × M :=
  if m.boot.phase ≠ .verify then (none, m)
  else
    let m := if entropy then m else
      { m.setFlag .SEC_STS_ENTROPY_OK 0 false with boot := { m.boot with entropy := false } }
    let k := pathsOf key (imgKeyOk m.boot.copy m.sec.sensed.hash)
    let g := pathsOf sig (imgSigOk m.boot.copy)
    if k.a ≠ k.b then (none, pathFail im m)
    else if k.a = false then (none, failSlot resKeyMismatch m)
    else if g.a ≠ g.b then (none, pathFail im m)
    else if g.a = false then (none, failSlot resBadSignature m)
    else bootStep4 im svnAgree (stepDone 3 { m with sec := { m.sec with ownerKey := imgPubkey m.boot.copy } })

/-- STEP5_ENTROPY_TIMEOUT (R287): 100 ms after step 5 began. -/
def opEntropyTimeout (m : M) : M :=
  if m.boot.phase = .wait5 ∧ m.boot.step5At + 100 * msSc ≤ m.now then
    driveFault { m with pins := { m.pins with faultEntropy := true } }
  else m

/-- What waited for entropy goes on (R287): nonces, the challenge, keys after ERASE, link messages. -/
def entropyBack (im : Image) (m : M) : M :=
  let m := { m.setFlag .SEC_STS_ENTROPY_OK 0 true with boot := { m.boot with entropy := true } }
  let owed := m.sec.keyOwed
  let m := owed.foldl (fun m r => newKeys im r m) { m with sec := { m.sec with keyOwed := [] } }
  linkEntropy im (secEntropy m)

/-- ENTROPY_HEALTH_RESTORED (R287): a waiting step 5 proceeds. The first component is the image applied. -/
def opEntropyRestored (im : Image) (m : M) : Option Image × M :=
  if m.boot.entropy then (none, m)
  else
    let m := entropyBack im m
    if m.boot.phase = .wait5 then (some (bootImage m), applyImage (bootImage m) m) else (none, m)

/-! ### Releasing the host ports (R46, R47) -/

/-- The conditions of R46 for a bit of partition p. -/
def mayRelease (im : Image) (m : M) (p : Nat) : Bool := im.enabled p && memReady im m && octReady im m

/-- RELEASE takes effect. -/
def releaseNow (im : Image) (p : Nat) (m : M) : M :=
  if released m p then m
  else
    let m := m.setFld .IMG_PORT_CTL_RELEASE 0 (putBit (m.fld .IMG_PORT_CTL_RELEASE 0) p true)
    let m := m.emit (.pin (.clkreqN (portOf im p)) false)
    driveTerm im p (stepDone 9 { m with boot := { m.boot with releaseAt := mapPut m.boot.releaseAt (p, 0) m.now } })

/-- A refused RELEASE or READY. -/
def releaseRefused (m : M) : M := m.setFlag .IMG_BOOT_STS_RELEASE_REFUSED 0 true

/-- RELEASE (R46). -/
def opRelease (im : Image) (p : Nat) (m : M) : M := if mayRelease im m p then releaseNow im p m else releaseRefused m

/-- READY (R46, R47). -/
def opReady (im : Image) (p : Nat) (m : M) : M :=
  if mayRelease im m p then
    let m := releaseNow im p m
    m.setFld .IMG_PORT_CTL_READY 0 (putBit (m.fld .IMG_PORT_CTL_READY 0) p true)
  else releaseRefused m

/-- PARTITION_READY_OVERDUE (R47): 900 ms after RELEASE, once. -/
def opReadyOverdue (im : Image) (p : Nat) (m : M) : M :=
  match mapFind m.boot.releaseAt (p, 0) with
  | none => m
  | some t =>
    if isReady m p ∨ bitAt m.boot.overdue p ∨ m.now < t + 900 * msSc then m
    else fire im 0x009 p { m with boot := { m.boot with overdue := putBit m.boot.overdue p true } }

/-! ### Flash commands (R49, IMG_FLASH_CMD) -/

/-- The slot an address of the flash belongs to (R31). -/
def flashSlot (a : Nat) : Nat := a / 0x1000000

/-- A refused flash command. -/
def flashRefused (m : M) : M := m.setFlag .IMG_FLASH_STS_REFUSED 0 true

/-- A flash command with its alignment: refused, or sent to the flash with its data. -/
def flashCmd (im : Image) (op addr src align : Nat) (m : M) : M :=
  let loaded := m.boot.phase = .run ∧ flashSlot addr = m.fld .IMG_BOOT_STS_SLOT 0
  let m := if loaded then m.setFlag .IMG_FLASH_STS_PROTECT 0 true else m
  if loaded ∨ m.boot.phase ≠ .run ∨ addr % align ≠ 0 ∨ m.flag .IMG_FLASH_STS_BUSY 0 ∨ m.flag .IMG_CHECK_BUSY 0 ∨
      (op = 2 ∧ im.ownerStageBytes < src * 256 + 256) then flashRefused m
  else
    let d := if op = 2 then memRead m.stage (src * 256) 256 else []
    ({ m.setFlag .IMG_FLASH_STS_BUSY 0 true with boot := { m.boot with flashOp := some (op, addr, d) } }).emit (.flash op addr d)

/-- FLASH_ERASE (R49). -/
def opFlashErase (im : Image) (addr : Nat) (m : M) : M := flashCmd im 1 addr 0 65536 m

/-- FLASH_PROGRAM (R49). -/
def opFlashProgram (im : Image) (addr src : Nat) (m : M) : M := flashCmd im 2 addr src 256 m

/-- FLASH_COMMAND_COMPLETE: BUSY clears; a failure sets ERROR and fires "flash error". -/
def opFlashComplete (im : Image) (failed : Bool) (m : M) : M :=
  match m.boot.flashOp with
  | none => m
  | some (_, a, _) =>
    let m := { m.setFlag .IMG_FLASH_STS_BUSY 0 false with boot := { m.boot with flashOp := none } }
    if failed then fire im 0x00A a (m.setFlag .IMG_FLASH_STS_ERROR 0 true) else m

/-! ### The slot check (R50) -/

/-- A check of a slot begins. -/
def beginCheck (slot : Nat) (m : M) : M :=
  { (m.setFlag .IMG_CHECK_BUSY 0 true).setFlag .IMG_CHECK_START 0 true with
    boot := { m.boot with chkSlot := some slot, chkWait := none } }

/-- IMG_CHECK_START (R50): ignored during a check, deferred while a flash command is busy. -/
def opCheckStart (slot : Nat) (m : M) : M :=
  if m.flag .IMG_CHECK_BUSY 0 then m
  else
    let m := m.setFld .IMG_CHECK_SLOT 0 slot
    if m.flag .IMG_FLASH_STS_BUSY 0 then
      { m.setFlag .IMG_CHECK_START 0 true with boot := { m.boot with chkWait := some slot } }
    else beginCheck slot m

/-- IMG_CHECK_DEFERRED_START (R50). -/
def opCheckDeferred (m : M) : M :=
  match m.boot.chkWait with
  | none => m
  | some s => if m.flag .IMG_FLASH_STS_BUSY 0 then m else beginCheck s m

/-- The checks of R38 and R39 on what was read of a slot, in their order, against the current fuses, which are voted words
(R279): the code, and the state after the reads. No rule gives IMG_CHECK a result for an unset owner key, for two paths that differ
or for a fuse word in three-way disagreement: it reports the codes of R38 for them (log 112, the model's choice). -/
def checkSlot (im : Image) (b : Option (List Byte)) (hashAgree : Bool) (key sig : Verdict) (svnAgree : Bool) (m : M) : Nat × M :=
  match b with
  | none => (resFlashError, m)
  | some b =>
    match imgReadCheck b with
    | some c => (c, m)
    | none =>
      let differ := fun (m : M) => (resPathDisagree, pathDisagree im 1 m)
      let (ok, m) := voteReads im ((.fuse 6, .agree) :: hashWords []) m
      let c := (imgStep4 b (svnSteps m.sec.sensed) serialNat).1
      let k := pathsOf key (imgKeyOk b m.sec.sensed.hash)
      let g := pathsOf sig (imgSigOk b)
      if ok = false then (resFuseVote, m)
      else if m.sec.sensed.set = false then (resNoOwner, m)
      else if hashAgree = false ∨ k.a ≠ k.b then differ m
      else if k.a = false then (resKeyMismatch, m)
      else if g.a ≠ g.b then differ m
      else if g.a = false then (resBadSignature, m)
      else if c = resWrongPart ∨ c = resWrongDie then (c, m)
      else
        let (ok, m) := voteReads im [(.fuse 7, .agree)] m
        if ok = false then (resFuseVote, m) else if svnAgree = false then differ m else (c, m)

/-- IMG_CHECK_DONE (R50): RESULT and DONE; nothing is applied. -/
def opCheckDone (im : Image) (b : Option (List Byte)) (hashAgree : Bool) (key sig : Verdict) (svnAgree : Bool) (m : M) : M :=
  if m.boot.chkSlot.isNone then m
  else
    let (c, m) := checkSlot im b hashAgree key sig svnAgree m
    let m := { (m.setFlag .IMG_CHECK_BUSY 0 false).setFlag .IMG_CHECK_START 0 false with boot := { m.boot with chkSlot := none } }
    irqSync im 8 0x800 ((m.setFld .IMG_CHECK_RESULT 0 c).setFlag .IMG_CHECK_DONE 0 true)

/-- FLASH_WINDOW_READ (R383): the flash as it is now; all ones while the flash or the check is busy or in the failed-boot
state; an access that is neither 4 nor 8 aligned bytes reads zero (R7). -/
def opFlashWindow (a size : Nat) (b : List Byte) (m : M) : M :=
  let off := 0x6000000 + a
  let out := fun (m : M) (d : List Byte) => m.emit (.regData .owner off d)
  if (size ≠ 4 ∧ size ≠ 8) ∨ a % size ≠ 0 then out (setRsvd .owner bkImg off m) (List.replicate size 0)
  else if m.flag .IMG_FLASH_STS_BUSY 0 ∨ m.flag .IMG_CHECK_BUSY 0 then
    out (m.setFlag .BSTS_FLASH_BUSY_RD (bstsInst .owner bkImg) true) (List.replicate size 0xFF)
  else if m.boot.phase = .failed then out m (List.replicate size 0xFF)
  else out m (bytesAt b 0 size)

end Sys2Proof
end

