-- ==== Sys2Proof/Machine/Tick.lean ====
section
/-! DEFINITION. The tick edge, TICK_IN and the fault windows (03, R51 to R68; R360; R372). -/

namespace Sys2Proof

/-! ### The tick edge (R57) -/

/-- Carry of a budget (R64): the costs of the operations of the ending tick that are still in flight. -/
def carryOf (m : M) (busy : List Server) (k : Key) : Nat :=
  (((busy.filter (fun x => x.kind.val == k.1)).map (·.n)).eraseDups.map (fun n =>
    match mapFind m.bud.last (k.1, n) with
    | some e => if e.1 = k.2 then e.2 else 0
    | none => 0)).sum

/-- What a budget was charged in the ending tick, the carry credited back (R57 step 1, R64). -/
def closed (m : M) (busy : List Server) (k : Key) : Nat := mapGet 0 m.bud.charged k - carryOf m busy k

/-- The frame budgets of a partition: one for each link that its FRAME entries name. -/
def frameIdxs (im : Image) (p : Nat) : List Nat :=
  ((im.frames.filter (fun e => e.part == p)).map (fun e => fidx p e.link)).eraseDups

/-- The budgets of a partition that reload, by kind and index. -/
def budKeys (im : Image) (p : Nat) : List Key :=
  [(0, p), (1, p), (2, p)] ++ (frameIdxs im p).map (fun x => (3, x)) ++ (frameIdxs im p).map (fun x => (4, x))

/-- The budgets of every enabled partition that reload. -/
def allBudKeys (im : Image) : List Key := (im.enabledParts.map (budKeys im)).flatten

/-- TCK_LAST and TCK_EXHAUST of partition p (R57 step 1, R409). -/
def closeTick (im : Image) (busy : List Server) (m : M) (p : Nat) : M :=
  let i := pinst p 0
  let fl := ((frameIdxs im p).map (fun x => closed m busy (3, x) + closed m busy (4, x))).sum
  let m := (m.setFld .TCK_LAST_A_CYCLES i (min (closed m busy (0, p)) (2 ^ 32 - 1))).setFld .TCK_LAST_A_MOVER_BYTES i
    (min (closed m busy (1, p)) (2 ^ 32 - 1))
  let m := (m.setFld .TCK_LAST_B_HOSTPORT_BYTES i (min (closed m busy (2, p)) (2 ^ 32 - 1))).setFld .TCK_LAST_B_STAGE_USED i
    (m.stageUsed p)
  let m := m.setFld .TCK_LAST_B_FLITS i (min fl 0xFFFF)
  let out := fun (k : Nat) (F : Fld) (m : M) => if mapGet 0 m.bud.exhausted (k, p) = 1 then m.bump F i else m
  out 3 .TCK_EXHAUST_FRAME_OUT (out 2 .TCK_EXHAUST_HOSTPORT_OUT (out 1 .TCK_EXHAUST_MOVER_OUT
    (out 0 .TCK_EXHAUST_CYCLES_OUT m)))

/-- What the new tick starts with: the carry of every budget, no mark, no operation in flight (R64, R409). -/
def openTick (im : Image) (busy : List Server) (m : M) : M :=
  { m with bud := { m.bud with
      charged := (allBudKeys im).foldl (fun l k => mapPut l k (carryOf m busy k)) []
      last := [], exhausted := [] } }

/-- Reloads one budget (R57 step 2, R64): the in-force value less what already belongs to the new tick; an excess is
dropped. -/
def reload1 (m : M) (k : Key) : M :=
  let v := mapGet 0 m.bud.nextInf k
  let c := mapGet 0 m.bud.charged k + mapGet 0 m.bud.early k
  let b := { m.bud with inf := mapPut m.bud.inf k v, rem := mapPut m.bud.rem k (v - c), charged := mapPut m.bud.charged k (min c v) }
  { m with bud := (b.markOut k.1 k.2).markStop k.1 k.2 }

/-- The values that the caps and the image give every budget and stage quota as the edge cycle begins (R66). -/
def latchCaps (im : Image) (m : M) : M :=
  let keys := allBudKeys im ++ im.enabledParts.map (fun p => (5, p))
  { m with bud := { m.bud with nextInf := keys.foldl (fun l k => mapPut l k (budNew im m k.1 k.2)) [] } }

/-- Step 2; the stage quotas in force change with it (R66, R68). -/
def reload (im : Image) (m : M) : M :=
  let m := (allBudKeys im).foldl reload1 m
  { m with bud := { m.bud with
      early := []
      inf := im.enabledParts.foldl (fun l p => mapPut l (5, p) (mapGet 0 m.bud.nextInf (5, p))) m.bud.inf } }

/-- Instances at which a field differs from its reset value. -/
def setInsts (m : M) (F : Fld) : List Nat := (m.f.filter (fun e => e.1.1 == F.num)).map (fun e => e.1.2)

/-- Step 3 for one source (R360): its window grows by a tick or has run out; an event since the edge has aged it before. -/
def ageSource (im : Image) (m : M) (f : Nat) : M :=
  if m.fld .FLT_SRC_COUNT f = 0 ∨ m.tick.aged.contains f then m
  else if (faultEntry im f).w ≤ m.fld .FLT_SRC_AGE f + 1 then
    { m with tick := { m.tick with due := f :: m.tick.due } }
  else m.setFld .FLT_SRC_AGE f (m.fld .FLT_SRC_AGE f + 1)

/-- A source's window ends (R360): COUNT and AGE return to 0. -/
def endWindow (m : M) (f : Nat) : M :=
  let m := (m.setFld .FLT_SRC_COUNT f 0).setFld .FLT_SRC_AGE f 0
  { m with tick := { m.tick with due := m.tick.due.filter (fun x => x != f) } }

/-- Step 3. A window of the edge before whose end no command has shown ends first; a bucket that has not leaked leaks
(R320). -/
def ageAll (im : Image) (m : M) : M :=
  let m := m.tick.due.foldl endWindow m
  let m := (setInsts m .FLT_SRC_COUNT).foldl (ageSource im) m
  (List.range 4).foldl (fun m c => opBucketLeak c m) { m with tick := { m.tick with aged := [] } }

/-- Drives ALIVE to the other level unless it is frozen (R57, R366). -/
def toggleAlive (m : M) : M :=
  if m.flag .PWR_PIN_ALIVE_FROZEN 0 then m
  else
    let v := !(m.flag .PWR_PIN_ALIVE 0)
    (m.setFlag .PWR_PIN_ALIVE 0 v).emit (.pin .alive v)

/-- Step 4: TCK_COUNT, which the mover tick timers compare with (`opTickTrigger`), ALIVE; the sweep of the voted store and the reseed count the tick (R281, R287). -/
def stepCount (im : Image) (m : M) : M :=
  let n := (m.fld .TCK_COUNT_COUNT 0 + 1) % 2 ^ 64
  let m := secEdge im (m.setFld .TCK_COUNT_COUNT 0 n)
  if n % 128 = 1 then toggleAlive m else m

/-- A thread whose YIELD issued before this edge may issue from e + 5 (R199). -/
def wakeEdge (m : M) (e : Key × Cpu) : M :=
  match e.2.wait with
  | .edge n => if n < m.fld .TCK_COUNT_COUNT 0 then
      m.setCpu e.1 { e.2 with wait := .none, ready := max e.2.ready (m.tick.edge + 5) } else m
  | _ => m

/-- Work of a partition that waited for its allowances goes on once they are reloaded. -/
def refill (im : Image) (m : M) (p : Nat) : M :=
  if m.flag .HPT_STS_DRAINING (pinst p 0) then m else serve im p (pumpHost p m)

/-- Step 5: the threads that may issue from e + 5 on are picked (R57, R59, R67). -/
def schedule (m : M) : M :=
  let m := m.cpus.foldl wakeEdge m
  { m with bud := { m.bud with stopped := m.bud.stopped.filter (fun p => m.left 0 p == 0) } }

/-- Steps 2 to 5 of R57. -/
def edgeStep (im : Image) (k : Nat) (m : M) : M :=
  if k = 2 then im.enabledParts.foldl (refill im) (reload im m)
  else if k = 3 then ageAll im m
  else if k = 4 then stepCount im m
  else schedule m

/-! ### Locking to TICK_IN (R54, R55) -/

/-- The move and the error left of an error d (R54). -/
def moveOf (d : Int) : Int := max (-64) (min 64 d)

/-- Records a valid edge with error d (R54): OFFSET, MISS_RUN, and how many in a row left OFFSET 0. -/
def validEdge (d : Int) (m : M) : M :=
  let r := d - moveOf d
  let m := (m.setFld .TCK_STS_OFFSET 0 (r.emod (2 ^ 16)).toNat).setFld .TCK_STS_MISS_RUN 0 0
  { m with tick := { m.tick with run := if r = 0 then m.tick.run + 1 else 0 } }

/-- The capture span of the latest edge closes without a valid edge (R54). -/
def closeSpan (m : M) : M :=
  if m.tick.taken ∨ m.tick.closed then m
  else
    let m := m.bump .TCK_SYNC_CNT_MISSED 0
    let m := m.setFld .TCK_STS_MISS_RUN 0 (min 8 (m.fld .TCK_STS_MISS_RUN 0 + 1))
    { m with tick := { m.tick with closed := true, run := 0 } }

/-- Closes the span when its last cycle has passed. -/
def spanDue (im : Image) (m : M) : M := if m.tick.edge + im.tickPeriod / 2 < m.now then closeSpan m else m

/-- The next edge after edge e, with the sampled edge already taken for it. -/
def placeEdge (e P : Nat) (s : Option Nat) : Nat :=
  match s with
  | some s => ((e : Int) + P + moveOf ((s : Int) - e)).toNat
  | none => e + P

/-- TICK_IN_EDGE (R51, R54): a sampled edge in this cycle. -/
def opTickIn (im : Image) (m : M) : M :=
  if m.tick.on = false ∨ im.tickSource = 0 then m
  else
    let m := spanDue im m
    let t := m.tick
    let h := im.tickPeriod / 2
    if m.now ≤ t.edge + h ∧ t.edge < m.now + h ∧ t.taken = false then
      validEdge ((m.now : Int) - t.edge) { m with tick := { t with
        taken := true, next := placeEdge t.edge im.tickPeriod (some m.now) } }
    else if t.next < m.now + h ∧ m.now ≤ t.next + h ∧ t.ahead = none then
      validEdge ((m.now : Int) - t.next) { m with tick := { t with ahead := some m.now } }
    else m.bump .TCK_SYNC_CNT_STRAY 0

/-- TICK_REFERENCE_LOST (R55): MISS_RUN reached 8 while locked. -/
def opTickLost (im : Image) (m : M) : M :=
  if m.tick.on = false ∨ im.tickSource = 0 then m
  else
    let m := spanDue im m
    if m.flag .TCK_STS_LOCKED 0 ∧ 8 ≤ m.fld .TCK_STS_MISS_RUN 0 then
      fire im 0x008 (m.fld .TCK_SYNC_CNT_MISSED 0)
        ((m.setFlag .TCK_STS_LOCKED 0 false).setFlag .TCK_STS_LOST 0 true)
    else m

/-- A disturbance of a voted word (R279, R282). -/
def strikeWord (m : M) (x : Strike) : M :=
  match x with
  | .upset w v => { m with upset := m.upset ++ [(w, v)] }
  | .glitch w => { m with glitch := w :: m.glitch.filter (fun y => y != w) }
  | .tag k => { m with tagGlitch := k.val :: m.tagGlitch.filter (fun y => y != k.val) }

/-- The edge comes: the span of the latest edge closes, the next edge becomes the latest one, LOCKED follows (R54, R55). -/
def takeEdge (im : Image) (m : M) : M :=
  let m := if im.tickSource = 1 then closeSpan m else m
  let t := m.tick
  let m := { m with tick := { t with
      edge := t.next, next := placeEdge t.next im.tickPeriod t.ahead, taken := t.ahead.isSome, closed := false, ahead := none,
      phase := 1 } }
  if im.tickSource = 1 ∧ 4 ≤ m.tick.run then m.setFlag .TCK_STS_LOCKED 0 true else m

/-- The tick edge in its cycle (R57 step 1): accounting closes, with the servers that are still busy; a requested hush begins
(R372), and disturbances of the voted store show from now on (R279, R282). -/
def doEdge (im : Image) (busy : List Server) (strikes : List Strike) (m : M) : M :=
  let m := takeEdge im m
  let m := openTick im busy (im.enabledParts.foldl (closeTick im busy) m)
  strikes.foldl strikeWord (m.setFlag .PWR_CTL_HUSH_ACTIVE 0 (m.flag .PWR_CTL_HUSH 0))

/-- TICK_EDGE (R57): the edge, in the cycle in which it is due. -/
def opTickEdge (im : Image) (busy : List Server) (strikes : List Strike) (m : M) : M :=
  if m.tick.on = false ∨ m.now ≠ m.tick.next then m else doEdge im busy strikes m

/-- FAULT_WINDOW_EXPIRY (R360): the window of source f has run out at the latest edge. -/
def opWindowExpiry (f : Nat) (m : M) : M := if m.tick.due.contains f then endWindow m f else m

/-- Cycles until lanes whose PMA was powered down are ready: the 10 µs of R372. -/
def pmaSc : Nat := 20000

/-- Leaving hush, the lanes of the links that are not up and in no attempt power up (R372). -/
def lanesWake (m : M) : M :=
  (List.range 96).foldl (fun m l =>
    if m.linkLive l ∨ m.linkState l = lsTrain ∨ m.linkState l = lsHand then m
    else m.setLink l { m.link l with lanesAt := m.now + pmaSc }) m

/-- HUSH (R372): a 1 asks for hush at the next edge, a 0 leaves it at once. -/
def opHush (b : Bool) (m : M) : M :=
  if b then m.setFlag .PWR_CTL_HUSH 0 true
  else
    let m := if m.flag .PWR_CTL_HUSH_ACTIVE 0 then lanesWake m else m
    (m.setFlag .PWR_CTL_HUSH 0 false).setFlag .PWR_CTL_HUSH_ACTIVE 0 false

end Sys2Proof
end

