-- ==== Sys2Proof/Machine/Reset.lean ====
section
/-! DEFINITION. Block resets, the reactions that act after an event, fault injection, interface timeouts and the
temperature sensors (15, R361 to R371; R183, R288, R325, R343, R352; R404). -/

namespace Sys2Proof

/-! ### Which registers a block reset concerns (R380) -/

/-- Registers of the link unit. -/
def isLnkReg (r : Reg) : Bool :=
  [Reg.LNK_CTL, .LNK_STS, .LNK_CNT_A, .LNK_CNT_B, .LNK_OWN_TX, .LNK_OWN_RX].contains r

/-- Registers of the interrupt controller. -/
def isIrqReg (r : Reg) : Bool :=
  [Reg.IRQ_CFG, .IRQ_PEND_N, .IRQ_PEND_F, .IRQ_RPEND, .IRQ_MASK_N, .IRQ_MASK_F, .IRQ_RMASK, .IRQ_ACT_N, .IRQ_ACT_F,
   .IRQ_RACT, .IRQ_SENSE, .IRQ_STRAY_ACK, .IRQ_WCFG, .IRQ_WCTL, .IRQ_WPEND_N, .IRQ_WPEND_F, .IRQ_WMASK_N, .IRQ_WMASK_F,
   .IRQ_WACT_N, .IRQ_WACT_F, .IRQ_WSENSE, .IRQ_WSTRAY].contains r

/-- Registers of the mailbox block. -/
def isMbxReg (r : Reg) : Bool :=
  [Reg.MBX_TX_HEAD, .MBX_TX_DATA, .MBX_WTX_HEAD, .MBX_WTX_DATA, .MBX_RX, .MBX_WRX, .MBX_STS, .MBX_WSTS, .MBX_CTL,
   .MBX_WCTL].contains r

/-- Registers of the trace block that a reset of it holds. -/
def isTrcReg (r : Reg) : Bool := [Reg.TRC_PUT, .TRC_GET, .TRC_CTL, .TRC_STS, .TRC_CNT].contains r

/-- Registers of the movers. -/
def isMovReg (r : Reg) : Bool :=
  [Reg.MOV_LIST, .MOV_CFG, .MOV_CTL, .MOV_STS, .MOV_LAST, .MOV_CNT, .MOV_QSTS].contains r

/-- Registers of the security block. -/
def isSecReg (r : Reg) : Bool :=
  [Reg.SEC_STS, .SEC_VOTE, .OCMD_CTL, .SEC_WCMD, .OCMD_STS, .SEC_WSTS, .OCMD_NONCE, .SEC_WNONCE, .SEC_FWCMD].contains r

/-- Registers of a memory controller. -/
def isMemReg (r : Reg) : Bool :=
  [Reg.MEM_CH_CTL, .MEM_CH_STS, .MEM_BUCKET, .MEM_ERR_A, .MEM_ERR_B, .MEM_ERR_ADDR, .MEM_SCRUB_CTL, .MEM_SCRUB_RANGE,
   .MEM_SCRUB_SUM_A, .MEM_SCRUB_SUM_B, .MEM_SCRUB_SUM_C, .MEM_SCRUB_HIST].contains r

/-- The fault instance, and the core, whose block reset holds accesses to register r at instance i (R380). -/
def holdKey (r : Reg) (i : Nat) : Option Key :=
  if isLnkReg r then some (33 + octetOf i, 0)
  else if r = .LNK_LANE then some (33 + i / 8, 0)
  else if r = .LNK_OCT_CTL ∨ r = .LNK_OCT_STS then some (33 + i, 0)
  else if r = .MEM_SCRUB_HIST then some (29 + i / 65536, 0)
  else if isMemReg r then some (29 + i, 0)
  else if r = .WNG_CTL then some (22, i)
  else if isTrcReg r then some (28, 0)
  else if isMovReg r then some (24, 0)
  else if isIrqReg r then some (26, 0)
  else if isMbxReg r then some (27, 0)
  else if isSecReg r then some (3, 0)
  else none

/-- Whether an access to register r at instance i is held now (R380). -/
def accessHeld (m : M) (r : Reg) (i : Nat) : Bool :=
  match holdKey r i with
  | some k => m.inReset k.1 k.2
  | none => false

/-- Returns the fields of a block reset's instance whose Reset cell holds B (R9). -/
def clearB (b c : Nat) (m : M) : M := m.clearFlds (fun f i => f.b && holdKey f.reg i == some (b, c))

/-! ### What each block reset does (R369) -/

/-- Cycles a block reset takes (R369). -/
def resetTime (b : Nat) : Nat :=
  if b = 3 then 4000 else if b = 22 then 64 else if b = 24 then 4096 else if b = 26 then 256 else if b = 27 then 64
  else if b = 28 then 64 else if 29 ≤ b ∧ b ≤ 32 then 40000 else 20000

/-- Whether the timer of a request has counted 131,072 sc, and the block it addresses asserts no QUIET (R365, R370). -/
def overdue (m : M) (k : Key) : Bool :=
  match mapFind m.asks k with
  | some (t, b) => decide (t + 131072 ≤ m.now) && decide (mapGet 0 m.quiet (b, 0) < m.now)
  | none => false

/-- Instances of the octets, the host ports and the memory controllers. -/
def octetInsts : List Nat := (List.range 12).map (33 + ·)
/-- Host ports. -/
def portInsts : List Nat := (List.range 8).map (5 + ·)
/-- Memory controllers. -/
def memInsts : List Nat := (List.range 4).map (29 + ·)

/-- Whether an OWNER thread runs a call of core c. -/
def runsCallOf (m : M) (c : Nat) : Bool :=
  m.cpus.any (fun e => e.1.1 == 0 && (match e.2.rout with | some r => r.part == 8 && r.core == c | none => false))

/-- Neighbours that receive QUIET (R369, R370). -/
def neighbours (m : M) (b c : Nat) : List Nat :=
  if b = 3 then octetInsts ++ [22, 4]
  else if b = 22 then [26, 4] ++ (if runsCallOf m c then [21] else [])
  else if b = 24 then portInsts ++ [23] ++ memInsts ++ octetInsts ++ [21]
  else if b = 26 then portInsts ++ [22]
  else if b = 27 then portInsts ++ [22]
  else if b = 28 then 22 :: octetInsts
  else if 29 ≤ b ∧ b ≤ 32 then [24, 21, 4]
  else [24, 21, 23, 25, 3]

/-- A work item that a mover block reset ends (R181, R183): it errs, and nothing of it is outstanding. -/
def Xfer.blockReset (x : Xfer) : Xfer :=
  let y := { x with elems := [], flush := 3, stopped := true }
  match x.who with
  | .send _ _ _ => y.fail (1 + Config.resetSendErr.val) 0x25 4
  | _ => y.fail 6 0x25 4

/-- A channel in a mover block reset (R183): RUNNING or STOPPING ends STOPPED with CH_ERR BLOCK_RESET. -/
def resetChan (im : Image) (m : M) (c : Nat) : M :=
  let st := m.fld .MOV_STS_STATE c
  if st = 1 ∨ st = 2 then
    setChState im c 3 ((m.setFld .MOV_STS_CH_ERR c 7).setChan c
      { m.chan c with descs := [], reading := none, reread := false })
  else m

/-- Reads and status writebacks of the movers that stand at a host port lose their work: what waits is never issued, what is
outstanding has no work to answer (R183). -/
def HostSt.moverLost (h : HostSt) : HostSt :=
  let mine := fun (u : Purp) => match u with | .elem .. | .flush .. | .desc _ => true | _ => false
  { h with
    np := (h.np.filter (fun n => !(mine n.purp && n.res.isSome))).map (fun n => if mine n.purp then { n with purp := .lost } else n)
    waitq := h.waitq.filter (fun t => match t.2 with
      | .rd u _ _ _ => !(mine u)
      | .wr _ _ _ w => w.isNone) }

/-- The movers' block reset (R183). -/
def resetMov (im : Image) (m : M) : M :=
  let m := { m with host := m.host.map (fun (e : Key × HostSt) => (e.1, e.2.moverLost)) }
  let m := (setInsts m .MOV_STS_STATE).foldl (resetChan im) m
  let qs := m.subq
  let m := qs.foldl (fun m e => updQueue e.1.1 e.1.2 Xfer.blockReset m) m
  settleQueues im (qs.map (·.1)) m

/-- The security block's block reset (R288): the command in progress ends REFUSED, handshakes fail. -/
def resetSec (im : Image) (m : M) : M :=
  let m := secAbandon im m
  (List.range 96).foldl (fun m l => if m.linkState l = lsHand then authFail im l m else m) m

/-- Links in their octet's block reset (R218): WAIT with cause BLOCK_RESET, consequential. -/
def resetLinks (im : Image) (ls : List Nat) (m : M) : M :=
  let ls := ls.filter (fun l => !(m.linkState l == lsOff || m.linkState l == lsDisabled))
  ls.foldl (fun m l => m.setLink l { m.link l with retryAt := m.now + resetTime 33, backoff := 1 })
    (leaveAll im ls lsWait lcBlock true m)

/-- What stands in the link registers after the reset of an octet: the state, the cause and the down it recorded. -/
def afterReset (m0 : M) (m : M) (l : Nat) : M :=
  let st := m0.linkState l
  if st = lsOff then m
  else if st = lsDisabled then m.setFld .LNK_STS_STATE l lsDisabled
  else
    let m := (m.setFld .LNK_STS_STATE l lsWait).setFld .LNK_STS_LAST_CAUSE l lcBlock
    if m0.linkLive l then (m.setFlag .LNK_STS_CONSEQ l true).setFld .LNK_CNT_B_DOWNS l 1 else m

/-- An octet's block reset (R218, R369). -/
def resetOctet (im : Image) (o : Nat) (m : M) : M :=
  let ls := im.linksOfOctet o
  let m1 := clearB (33 + o) 0 (resetLinks im ls m)
  ls.foldl (afterReset m) m1

/-- The interrupt controller's block reset (R343). -/
def resetIrq (im : Image) (m : M) : M :=
  let m := clearB 26 0 m
  let m := { m with irq := { m.irq with hold := [], prov := [], later := [], start := [], did := [] }
                    host := m.host.map (fun (e : Key × HostSt) => (e.1, { e.2 with msgq := [] })) }
  im.enabledParts.foldl (fun m p => m.setFlag .IRQ_CFG_LOST (pinst p 0) true) (m.setFlag .IRQ_WCFG_LOST 0 true)

/-- The mailbox block's block reset (R352). -/
def resetMbx (im : Image) (m : M) : M :=
  let m := { clearB 27 0 m with mbx := [] }
  im.enabledParts.foldl (fun m p => mbxSync im p m) m

/-- A core's block reset (R374, WNG_CTL): held, registers and both banks clear. -/
def resetCore (c : Nat) (m : M) : M := (clearB 22 c m).setCpu (wng c) Cpu.init

/-- The effect of a block reset on its instance. -/
def resetEffect (im : Image) (b c : Nat) (m : M) : M :=
  if b = 3 then resetSec im m
  else if b = 22 then resetCore c m
  else if b = 24 then resetMov im m
  else if b = 26 then resetIrq im m
  else if b = 27 then resetMbx im m
  else if b = 28 then trcEmpty (clearB 28 0 m)
  else if 29 ≤ b ∧ b ≤ 32 then memBlockReset im (b - 29) m
  else resetOctet im (b - 33) m

/-- The timers of the requests outstanding at block b stand still for n cycles more (R370). -/
def standStill (b n : Nat) (m : M) : M :=
  { m with asks := m.asks.map (fun (e : Key × Nat × Nat) => if e.2.2 = b then (e.1, e.2.1 + n, e.2.2) else e) }

/-- A block reset begins (R368 to R370); one of an instance already in reset is absorbed. -/
def blockReset (im : Image) (b core : Nat) (m : M) : M :=
  let c := if b = 22 then core else 0
  if m.inReset b c then m
  else
    let m := standStill b (m.now + resetTime b + 64 - max m.now (mapGet 0 m.quiet (b, c))) m
    let m := { m with brst := mapPut m.brst (b, c) m.now, quiet := mapPut m.quiet (b, c) (m.now + resetTime b + 64) }
    let m := (neighbours m b c).foldl (fun m n => m.bump .FLT_STS_NEIGHBOUR n) m
    resetEffect im b c m

/-- What happens as a block reset ends (R343, R325; WNG_CTL): level sources have events again, a core starts, the devices of a
controller leave self-refresh. -/
def resetOver (im : Image) (b c : Nat) (m : M) : M :=
  if b = 26 then (8 :: im.enabledParts).foldl (fun m o => irqRelevel im o m) m
  else if b = 22 then
    match im.cores[c]? with
    | some x => if x.start = 1 ∨ c = 0 then startCore c x.entry m else m
    | none => m
  else if 29 ≤ b ∧ b ≤ 32 then selfRefresh (b - 29) false m
  else m

/-- Whether a block reset may end now: after its time; a memory controller may end before (R325). -/
def resetDone (m : M) (b c : Nat) : Bool :=
  match mapFind m.brst (b, c) with
  | some s => decide (29 ≤ b ∧ b ≤ 32) || decide (s + resetTime b ≤ m.now)
  | none => false

/-- PWR_BRESET (R368, R369): a GO write starts a block reset, or is refused. -/
def opPwrBreset (im : Image) (v : Nat) (m : M) : M :=
  let m := noteRsvd .owner .PWR_BRESET 0 v m
  let b := bitsAt v 0 8
  if bitAt v 8 = false then m
  else if 44 < b ∨ noBlockReset b then m.setFlag .PWR_CTL_BRESET_REFUSED 0 true
  else blockReset im b (bitsAt v 9 2) m

/-! ### Reactions after an event (R361, R368) -/

/-- One reaction. -/
def react1 (im : Image) (m : M) (r : React) : M :=
  match r with
  | .blockReset b c => blockReset im b c m
  | .chipReset f => chipResetNow 3 f m
  | .wbIssued c => wbIssued im c m
  | .serve p => serveFrom im p m

/-- The reactions that events asked for act one by one, and those that they cause after them. A chip reset absorbs what stands
behind it (R368). -/
def settle (im : Image) : Nat → M → M
  | 0, m => m
  | k + 1, m => match m.react with
    | [] => m
    | r :: t => settle im k (react1 im { m with react := t } r)

/-! ### Fault injection and interface timeouts -/

/-- FAULT_INJECT (R277): in factory test mode one event of a source, with INFO 0. -/
def opFaultInject (im : Image) (b v : Nat) (m : M) : M :=
  if m.flag .SEC_STS_FACTORY_OPEN 0 = false then m
  else
    let m := noteRsvd .owner .FLT_INJECT b v m
    match faultList.find? (fun f => faultInst f == some b && faultLocal f == bitsAt v 0 5) with
    | some f =>
      if bitAt v 8 then
        faultEvent im f 0 (faultParts im f (if f = 0x016 then im.partOfPort 0 else some 0) (some 0)) 0 false m
      else m
    | none => m

/-- The datapath error source of an instance (R364, R365). -/
def dataPathSource (b : Nat) : Option Nat :=
  if b = 4 then some 0x018
  else if 5 ≤ b ∧ b ≤ 12 then some (0x028 + (b - 5))
  else if b = 21 then some 0x05B
  else if b = 24 then some 0x073
  else if b = 26 then some 0x080
  else if 29 ≤ b ∧ b ≤ 32 then some (0x0B4 + 8 * (b - 29))
  else if 33 ≤ b ∧ b ≤ 44 then some (0x0D4 + 8 * (b - 33))
  else none

/-- Raises the datapath error of an instance for an interface timeout. INFO of 0x018 is the port and the tag of the request,
those of the management complex; of 0x073 the engine (R364). -/
def ifaceFault (im : Image) (b a : Nat) (m : M) : M :=
  match dataPathSource b with
  | some f => fire im f (if b = 24 then a else if b = 4 then 72 + 2 ^ 8 * 8 else Config.infoPack f a 0) m
  | none => m

/-- Whether an element works for a cue that is not confirmed, or was squashed: its errors are no fault event (R115). -/
def Xfer.speculative (x : Xfer) (m : M) : Bool := x.early m || x.who == .gone

/-- The bus error that an element or a status writeback receives for its unanswered request; the engine's fault source fires
unless the work is speculative (R365, R115). -/
def elemTimeout (im : Image) (e : Nat) (q : Req) (off : Nat) (m : M) : M :=
  let look := fun (x : Xfer) => (x.elems.find? (fun y => y.id == off)).map (fun (y : Elem) => (x, y.st))
  let found : Option (Xfer × ElSt) := match q with
    | .chan c => (m.chan c.val).descs.findSome? (fun (d : DescRun) => look d.x)
    | .queue o => (m.queue e o.val).findSome? look
  let wb := match q with
    | .chan c => (match (m.chan c.val).descs with | d :: _ => d.wb == some (some off) | [] => false)
    | .queue _ => false
  if overdue m (4 + e, off) && wb then opElementAnswer im e q off (.wrote .fabric) (ifaceFault im 24 e m) else
  match (if overdue m (4 + e, off) then found else none) with
  | some (x, st) =>
    let note := fun (m1 : M) => if x.speculative m then m1 else ifaceFault im 24 e m1
    match st with
    | .reading => note (opElementAnswer im e q off (.read [.fabric]) m)
    | .writing => note (opElementAnswer im e q off (.wrote .fabric) m)
    | _ => m
  | none => m

/-- Temperature sensor registers (R401). -/
def tempFld (s : Nat) : Fld :=
  if s % 4 = 0 then .PWR_TEMP_T0 else if s % 4 = 1 then .PWR_TEMP_T1 else if s % 4 = 2 then .PWR_TEMP_T2 else .PWR_TEMP_T3

/-- A sensor's reading, signed. -/
def tempOf (m : M) (s : Nat) : Int := sval 16 (m.fld (tempFld s) (s / 4))

/-- The sensor with the highest reading, the lowest-numbered of equal ones. -/
def hottest (m : M) : Nat := (List.range 16).foldl (fun b s => if tempOf m b < tempOf m s then s else b) 0

/-- MAX, MAX_SENSOR and PEAK follow the readings (R401). -/
def syncTherm (m : M) : M :=
  let s := hottest m
  let t := m.fld (tempFld s) (s / 4)
  let m := (m.setFld .PWR_THERM_MAX 0 t).setFld .PWR_THERM_MAX_SENSOR 0 s
  if sval 16 (m.fld .PWR_THERM_PEAK 0) < sval 16 t then m.setFld .PWR_THERM_PEAK 0 t else m

/-- A sensor shows a reading; it reaches the registers once they are valid. -/
def noteTemp (s : Nat) (t : Nat) (m : M) : M :=
  if m.flag .PWR_THERM_VALID 0 then syncTherm (m.setFld (tempFld s) (s / 4) t) else m

/-- INFO of the thermal sources: [7:0] sensor, [15:8] °C (R364). -/
def tempInfo (s t : Nat) : Nat := s + 2 ^ 8 * (((sval 16 t) / 16).emod 256).toNat

/-- THERMAL_WARNING (R364, R404): at 105 °C, once per rise. -/
def opThermalWarning (im : Image) (s t : Nat) (m : M) : M :=
  if sval 16 t < 1680 ∨ m.boot.phase = .porst then m
  else
    let m := noteTemp s t m
    if m.pins.warnArmed then
      fire im 0x002 (tempInfo s t) { m.setFlag .PWR_THERM_WARN 0 true with pins := { m.pins with warnArmed := false } }
    else m

/-- THERMAL_TRIP (R367, R395, R404): a comparator trips at 120 °C ± 3 °C and latches THERMTRIP_N low, also while PORST_N is
low; the registers and the fault source are in reset then. -/
def opThermalTrip (im : Image) (s t : Nat) (m : M) : M :=
  if sval 16 t < 1872 ∨ m.pins.thermTrip then m
  else
    let m := { m with pins := { m.pins with thermTrip := true } }.emit (.pin .thermtripN false)
    if m.boot.phase = .porst then m else fire im 0x003 (tempInfo s t) ((noteTemp s t m).setFlag .PWR_THERM_TRIP 0 true)

/-- THERMAL_WARNING_REARM (R364, R404): below 100 °C. -/
def opThermalRearm (t : Nat) (m : M) : M :=
  if sval 16 t < 1600 then { m.setFlag .PWR_THERM_WARN 0 false with pins := { m.pins with warnArmed := true } } else m

/-- SENSOR_READINGS_VALID (R401): from 1 ms after PORST_N release. -/
def opSensorsValid (ts : List (BitVec 16)) (m : M) : M :=
  if m.boot.phase = .porst ∨ m.now < m.boot.porAt + msSc then m
  else
    let m := (ts.take 16).zipIdx.foldl (fun m e => m.setFld (tempFld e.2) (e.2 / 4) e.1.toNat) m
    syncTherm (m.setFlag .PWR_THERM_VALID 0 true)

end Sys2Proof
end

