-- ==== Sys2Proof/Machine/Regs.lean ====
section
/-! DEFINITION. Accesses to the register views: which fields a write touches, what each access code does, the action
fields, the MSI-X table, the owner-command buffers, holes and unused instances (R4 to R7, R261, R375 to R383). -/

namespace Sys2Proof

/-! ### Which registers exist -/

/-- Whether the function of partition p answers memory requests (R261). -/
def barOpen (im : Image) (m : M) (p : Nat) : Bool :=
  im.enabled p && (m.hostOf p).up && (m.hostOf p).mse && !(m.flag .HPT_STS_D3HOT (pinst p 0))

/-- Whether instance n of a register array is in use (R377). -/
def regLive (im : Image) (v : View) (r : Reg) (n : Nat) : Bool :=
  match r with
  | .RNG_CFG_A | .RNG_CFG_B | .RNG_STS | .RNG_DB | .RNG_PTR => decide (n < im.partN (viewPart v) (·.ringCount))
  | .MOV_LIST | .MOV_CFG | .MOV_CTL | .MOV_STS | .MOV_LAST | .MOV_CNT => chanSeen im v n
  | .LNK_CTL | .LNK_STS | .LNK_CNT_A | .LNK_CNT_B | .LNK_OWN_TX | .LNK_OWN_RX | .SPC_LINK | .TRC_EVT | .TRC_EVT_STS =>
    isLink im n
  | .TCK_CAP_A | .TCK_CAP_B | .MBX_WTX_HEAD | .MBX_WTX_DATA | .MBX_WRX | .MBX_WSTS | .MBX_WCTL => im.enabled n
  | .HPT_STS | .HPT_CNT => v != .owner || im.enabled n
  | .FLT_SRC => (faultInst n).isSome
  | _ => true

/-- A register that holds a WO field, or that its chapter marks so, needs 8-byte writes (R7). -/
def needs8 (r : Reg) : Bool := (regFields r).any (fun f => (fldSpec f).acc == .wo)

/-- Registers whose reads pop a FIFO and need 8 bytes (R347, R354, R355). -/
def popReg (r : Reg) : Bool := r == .MBX_RX || r == .MBX_WRX || r == .TRC_EVT || r == .TRC_GET

/-! ### Reading a register -/

/-- The value of a field as a read shows it: WO reads zero (R4). -/
def readFld (m : M) (i : Nat) (f : Fld) : Nat := if (fldSpec f).acc = .wo then 0 else m.fld f i

/-- The 64-bit value of a register; RNG_PTR shows the pointers of RNG_STS, FLT_INJECT and every WO field zero. -/
def regVal (m : M) (r : Reg) (i : Nat) : Nat :=
  if r = .RNG_PTR then
    m.fld .RNG_STS_HEAD i + (m.fld .RNG_STS_TAIL i) <<< (fldSpec .RNG_PTR_TAIL).lo +
    (m.fld .RNG_STS_LAP i) <<< (fldSpec .RNG_PTR_LAP).lo + (m.fld .RNG_STS_BACKED_UP i) <<< (fldSpec .RNG_PTR_BACKED_UP).lo
  else ((regFields r).map (fun f => (readFld m i f) <<< (fldSpec f).lo)).sum

/-- MOV_CFG of a channel: AS_PART of a partition channel reads the partition number (07, MOV_CFG). -/
def chanCfgVal (im : Image) (m : M) (c : Nat) : Nat :=
  regVal (if im.chanOwner c < 8 then m.setFld .MOV_CFG_AS_PART c (im.chanOwner c) else m) .MOV_CFG c

/-- Whether a field has a bit in [lo, lo + w). -/
def fldIn (f : Fld) (lo w : Nat) : Bool := decide ((fldSpec f).lo < lo + w) && decide (lo < (fldSpec f).lo + (fldSpec f).w)

/-- Shows the RC fields of a register as they stood before this cycle's events (R5). -/
def beforeEvents (r : Reg) (i : Nat) (m : M) : M :=
  (regFields r).foldl (fun m f => if (fldSpec f).acc = .rc then m.setFld f i (m.cycOf f i).1 else m) m

/-- A read clears an RC field (R4), but for what this cycle's events recorded (R5). -/
def M.readClear (m : M) (F : Fld) (i : Nat) : M :=
  match mapFind m.cyc (F.num, i) with
  | none => m.rstFld F i
  | some (_, ev) => { m.setFld F i ev with cyc := mapPut m.cyc (F.num, i) (rstVal F, ev) }

/-- Clears the RC fields of a register that lie in the bits read (R4, R7). -/
def clearRc (r : Reg) (i lo w : Nat) (m : M) : M :=
  (regFields r).foldl (fun m f => if (fldSpec f).acc = .rc ∧ fldIn f lo w then m.readClear f i else m) m

/-- The bank that a register of the interrupt controller holds. -/
def regBank : Reg → Option Bank
  | .IRQ_PEND_N | .IRQ_MASK_N | .IRQ_ACT_N | .IRQ_WPEND_N | .IRQ_WMASK_N | .IRQ_WACT_N => some .n
  | .IRQ_PEND_F | .IRQ_MASK_F | .IRQ_ACT_F | .IRQ_WPEND_F | .IRQ_WMASK_F | .IRQ_WACT_F => some .f
  | .IRQ_RPEND | .IRQ_RMASK | .IRQ_RACT => some .r
  | _ => none

/-- The source that bit n of bank register i stands for. -/
def bankSrc (b : Bank) (i n : Nat) : Nat := (if b = .r then 0x10000 else 0) + 64 * i + n

/-- The bits of a bank register that stand for sources of that bank: the others read zero and ignore writes (R327, R328,
R331; log entry 106). -/
def bankSeen (im : Image) (m : M) (v : View) (r : Reg) (n : Nat) : Nat :=
  match regBank r with
  | none => 2 ^ 64 - 1
  | some b =>
    let o := viewPart v
    ((List.range 64).filter (fun k => sourceExists im m o (bankSrc b n k) && srcBank im o (bankSrc b n k) == b)).map
      (2 ^ ·) |>.sum

/-- IMG_ROOT_HASH_READ (R382): the word is voted; three-way disagreement reads zero. -/
def rootHashRead (im : Image) (v : Vote) (i : Fin 6) (m : M) : Nat × M :=
  let (ok, m) := voteRead im (.rootHash i) v m
  (if ok then m.fld .IMG_ROOT_HASH_HASH i.val else 0, m)

/-- The root-hash word of a register index. -/
def rootWord (n : Nat) : Fin 6 := Fin.ofNat 6 n

/-- What a register read returns, 64 bits, with its side effects; the bits read are [lo, lo + w). -/
def readReg (im : Image) (v : View) (row : MapRow) (n i lo w : Nat) (e : Ecc) (m : M) : Nat × M :=
  match row.reg with
  | .MBX_RX => mbxPop im .host (viewPart v) m
  | .MBX_WRX => mbxPop im .wings n m
  | .TRC_GET => trcPop im e m
  | .TRC_EVT => evtPop im n m
  | .IMG_ROOT_HASH => rootHashRead im .agree (rootWord n) m
  | .MOV_CFG => (chanCfgVal im m i, m)
  | r =>
    if row.mirror then (regVal m r i, m)
    else (regVal (beforeEvents r i m) r i &&& bankSeen im m v r n, clearRc r i lo w m)

/-- The MSI-X table and PBA of partition p (R334, R381): one dword. -/
def msixRead (im : Image) (m : M) (p off : Nat) : Nat :=
  let vs := im.partN p (·.vectors)
  if off < 0x8000 then (if off / 16 < vs then msixDword m p (off / 16) (off / 4 % 4) else 0)
  else
    let b := (off - 0x8000) * 8
    ((List.range 32).map (fun k => if b + k < vs ∧ pbaBit im m p (b + k) then 2 ^ k else 0)).sum

/-- A dword written to the MSI-X table: the Mask bit is the only bit of Vector Control (R338, R381). -/
def msixWrite (im : Image) (p off x : Nat) (m : M) : M :=
  let v := off / 16
  let d := off / 4 % 4
  if 0x8000 ≤ off ∨ im.partN p (·.vectors) ≤ v then m
  else
    let x := if d = 3 then x % 2 else if d = 0 then x / 4 * 4 else x
    let m := { m with irq := { m.irq with msix := mapPut m.irq.msix (pinst p v, d) x } }
    if d = 3 then maskWrite (vecKey p v) x m else m

/-- The host port of a view's partition. -/
def viewPort (im : Image) (v : View) : Nat := if v = .owner then 0 else portOf im (viewPart v)

/-- Whether an offset of BAR0 lies in the MSI-X table or the PBA (R259). -/
def inMsix (v : View) (off : Nat) : Bool :=
  match v with
  | .bar0 _ => decide (0xF00000 ≤ off) && decide (off < 0xF08100)
  | _ => false

/-- Whether an offset lies in the flash window (R383). -/
def inFlash (v : View) (off : Nat) : Bool := v == .owner && decide (0x6000000 ≤ off) && decide (off < 0x8000000)

/-- Whether an offset of BAR4 lies in the response area or the message buffer (R293). -/
def inCmdBuf (v : View) (off : Nat) : Bool :=
  match v with
  | .bar4 _ => (decide (0x8100 ≤ off) && decide (off < 0x9000)) || (decide (0x9000 ≤ off) && decide (off < 0x10000))
  | _ => false

/-- The size of a view. -/
def viewSize (im : Image) (v : View) : Nat :=
  match v with
  | .owner => 0x8000000
  | .bar0 _ => 0x1000000
  | .bar2 p => im.partN p.val (·.ringCount) * 0x1000
  | .bar4 _ => 0x10000

/-- The register an access of one 8-byte location reaches, with its index and field instance. -/
def accReg (im : Image) (v : View) (off : Nat) : Option (MapRow × Nat × Nat) :=
  (regAt v (off / 8 * 8)).map (fun x => (x.1, x.2, regInst v (viewPort im v) x.1 x.2))

/-- Whether an access is held by a block reset (R380). The command area and the MSI-X table are no registers. -/
def offHeld (im : Image) (m : M) (v : View) (off : Nat) : Bool :=
  match accReg im v off with
  | some (row, _, i) => accessHeld m row.reg i
  | none => false

/-- An access that R7 accepts: 4 or 8 bytes, naturally aligned. -/
def sizeOk (off n : Nat) : Bool := (n == 4 || n == 8) && off % n == 0

/-- A read of the flash window that brings no bytes with it (R383): all ones while busy or in the failed-boot state, else
a free value. -/
def flashPeek (off n : Nat) (m : M) : List Byte × M :=
  if m.flag .IMG_FLASH_STS_BUSY 0 ∨ m.flag .IMG_CHECK_BUSY 0 then
    (List.replicate n 0xFF, m.setFlag .BSTS_FLASH_BUSY_RD (bstsInst .owner bkImg) true)
  else if m.boot.phase = .failed then (List.replicate n 0xFF, m)
  else
    let (k, m) := m.draw
    (bytesAt (leBytes 8 (Config.flashRead k off).toNat) 0 n, m)

/-- One read access of at most 8 bytes: its data and side effects. -/
def readPiece (im : Image) (v : View) (off n : Nat) (e : Ecc) (m : M) : List Byte × M :=
  let zero := List.replicate n (0 : Byte)
  if sizeOk off n = false then (zero, setRsvd v (blockOf v off) off m)
  else if inFlash v off then flashPeek off n m
  else if inMsix v off then
    let p := viewPart v
    let a := off - 0xF00000
    (bytesAt (leBytes 4 (msixRead im m p a) ++ leBytes 4 (msixRead im m p (a + 4))) 0 n, m)
  else if inCmdBuf v off then
    let s := viewPort im v
    if off < 0x9000 then (bytesAt (mapGet [] m.sec.resp (s, 0)) (off - 0x8100) n, m)
    else (memRead (mapGet [] m.sec.mbuf (s, 0)) (off - 0x9000) n, m)
  else match accReg im v off with
    | none => (zero, m)
    | some (row, k, i) =>
      if regLive im v row.reg k = false then (zero, m)
      else if popReg row.reg ∧ n ≠ 8 then (zero, setRsvd v (blockOf v off) off m)
      else
        let (x, m) := readReg im v row k i (8 * (off % 8)) (8 * n) e m
        (bytesAt (leBytes 8 x) (off % 8) n, m)

/-! ### Writing a register -/

/-- Bits [lo, lo + w) of a 64-bit mask. -/
def lanes (lo w : Nat) : Nat := (2 ^ w - 1) <<< lo

/-- A written value made whole: in the half that is not written, RW and RWL fields keep their value and every other bit is
0, which does nothing (R7). -/
def wholeVal (m : M) (r : Reg) (i lo w x : Nat) : Nat :=
  let keep := ((regFields r).map (fun f =>
    if (fldSpec f).acc = .rw ∨ (fldSpec f).acc = .rwl then (m.fld f i) <<< (fldSpec f).lo else 0)).sum
  (keep &&& (lanes lo w ^^^ (2 ^ 64 - 1))) ||| (x <<< lo)

/-- The image value a TCK_CAP field may not exceed (R66). -/
def capLimit (im : Image) (p : Nat) : Fld → Nat
  | .TCK_CAP_A_SPINDLE_CYCLES => (im.bud p).cycles
  | .TCK_CAP_A_MOVER_BYTES => (im.bud p).mover
  | .TCK_CAP_B_HOSTPORT_BYTES => (im.bud p).host
  | .TCK_CAP_B_STAGE_QUOTA => (im.bud p).stage
  | .TCK_CAP_B_FRAME_SCALE => 128
  | _ => 2 ^ 64

/-- Fields that mask interrupt delivery: a write takes effect later (R338). -/
def maskFld (f : Fld) : Bool :=
  [Fld.IRQ_MASK_N_MASK, .IRQ_MASK_F_MASK, .IRQ_RMASK_MASK, .IRQ_WMASK_N_MASK, .IRQ_WMASK_F_MASK, .IRQ_CFG_GLOBAL_HOLD,
   .IRQ_WCTL_GLOBAL_HOLD].contains f

/-- A write of a plain field by its access code (R4). A RW1C bit that hardware set in this cycle stays set (R5). -/
def writeFld (im : Image) (v : View) (off i x : Nat) (m : M) (f : Fld) : M :=
  let s := fldSpec f
  let y := bitsAt x s.lo s.w
  if s.own then m
  else match s.acc with
    | .rw =>
      let m := m.setFld f i (min y (capLimit im i f))
      if maskFld f then maskWrite (f.num, i) y m else m
    | .rw1c => m.setFld f i (clearBits (m.fld f i) (clearBits y (m.cycSet f i)))
    | .rw1s => m.setFld f i (m.fld f i ||| y)
    | .rwl => if m.flag .RNG_ENABLE_ENABLED (pinst (viewPart v) 0) then setLocked v off m else m.setFld f i y
    | _ => m

/-- ACKNOWLEDGE (R331, R339): a write of 1 to ACT bits. A bit that a commit of this cycle set is not active yet, and its
acknowledgement is stray. -/
def opAcknowledge (im : Image) (o : Nat) (b : Bank) (i bits : Nat) (m : M) : M :=
  if (o ≠ 8 ∧ im.enabled o = false) ∨ (o = 8 ∧ b = .r) ∨ (b ≠ .r ∧ 128 ≤ i) then m
  else
    let F := bankFld .act o b
    let k := bankInst o i
    let cur := m.fld F k
    let live := ((setBits cur 64).filter (fun n => bitAt (startBits im m o (bankSrc b i n)) 1)).map (2 ^ ·) |>.sum
    let stray := clearBits bits live
    let m := (setBits (bits &&& live) 64).foldl (fun m n => setSrcBit im .act o (bankSrc b i n) false m) m
    let m := if o = 8 then m.bumpN .IRQ_WSTRAY_COUNT 0 (popCount stray 64)
      else m.bumpN .IRQ_STRAY_ACK_COUNT (pinst o 0) (popCount stray 64)
    if o ≠ 8 ∧ stray ≠ 0 ∧ m.flag .IRQ_CFG_STRAY_ACK (pinst o 0) then fireP im (0x078 + o) i o m else m

/-- PEND_CLEAR (R331): a write of 1 to PEND bits; an event of the same cycle keeps PEND 1. -/
def opPendClear (im : Image) (o : Nat) (b : Bank) (i bits : Nat) (m : M) : M :=
  if (o ≠ 8 ∧ im.enabled o = false) ∨ (o = 8 ∧ b = .r) ∨ (b ≠ .r ∧ 128 ≤ i) then m
  else
    let F := bankFld .pend o b
    irqRelevel im o ((setBits (bits &&& m.fld F (bankInst o i)) 64).foldl (fun m n =>
      let src := bankSrc b i n
      setSrcBit im .pend o src (bitAt (startBits im m o src) 2) m) m)

/-- Bank register index of a field instance. -/
def bankIdx (v : View) (i : Nat) : Nat := if v = .owner then i else i % 65536

/-- A flash command by its OP (R49). -/
def flashOpWrite (im : Image) (x : Nat) (m : M) : M :=
  let a := bitsAt x 8 25
  if bitsAt x 0 2 = 1 then opFlashErase im a m
  else if bitsAt x 0 2 = 2 then opFlashProgram im a (bitsAt x 48 16) m
  else flashRefused m

/-- A MOV_CTL write: one of START, STOP and CLEAR, or none. -/
def movCtl (im : Image) (v : View) (c x : Nat) (m : M) : M :=
  if bitAt x 0 then opMovStart im v c x m
  else if bitAt x 1 then opMovStop im v c x m
  else if bitAt x 2 then opMovClear im v c x m
  else (ctlWrite im v c x m).2

/-- LNK_CTL: DISABLE first, then the requests. -/
def lnkCtl (im : Image) (l x : Nat) (m : M) : M :=
  let m := opDisable im l (bitAt x 0) m
  let m := if bitAt x 1 then opRewiden im l m else m
  let m := if bitAt x 2 then opRetryNow im l m else m
  if bitAt x 3 then opRekeyNow l m else m

/-- What a write of register `r`, index n and field instance i, starts beside its plain fields; x is the whole value. -/
def writeAct (im : Image) (v : View) (r : Reg) (n i x : Nat) (m : M) : M :=
  let p := viewPart v
  match r with
  | .IMG_PORT_CTL =>
    let m := (setBits (bitsAt x 0 8) 8).foldl (fun m q => opRelease im q m) m
    (setBits (bitsAt x 8 8) 8).foldl (fun m q => opReady im q m) m
  | .IMG_FLASH_CMD => flashOpWrite im x m
  | .IMG_CHECK =>
    let m := irqSync im 8 0x800 m
    if bitAt x 0 then opCheckStart (bitsAt x 1 1) m else m
  | .CUE_EVENT => opCueEvent im p x m
  | .RNG_ENABLE => if bitAt x 0 then opRingEnable im p m else m
  | .RNG_DB => opRngDb im p n x m
  | .MOV_LIST => opMovCfgWrite im v n true x m
  | .MOV_CFG => opMovCfgWrite im v n false x m
  | .MOV_CTL => movCtl im v n x m
  | .WNG_CTL => if bitAt x 0 then opWingsStart im n (bitsAt x 32 32) m else m
  | .LNK_CTL => lnkCtl im n x m
  | .LNK_OWN_TX => if bitAt x 48 then opOwnerSend im n m else m
  | .LNK_OWN_RX => if bitAt x 26 then opRxAck im n m else m
  | .LNK_OCT_CTL => if bitAt x 0 then opCal n m else m
  | .OCMD_CTL => opSubmit im (.port (Fin.ofNat 8 i)) x m
  | .OCMD_STS => irqSync im p 0x800 m
  | .SEC_WCMD => opSubmit im .wings x m
  | .SEC_WSTS => irqSync im 8 0x801 m
  | .SEC_FWCMD => opFinishFw im x m
  | .MEM_CH_CTL => if bitAt x 0 then opTrain n m else m
  | .MEM_BUCKET => opBucketWrite n x m
  | .MEM_SCRUB_CTL =>
    let m := irqSync im 8 (0x808 + n) m
    if bitAt x 0 then opScrubStart im n x m else if bitAt x 1 then opScrubStop im n m else m
  | .IRQ_PEND_N => opPendClear im p .n n x m
  | .IRQ_PEND_F => opPendClear im p .f n x m
  | .IRQ_RPEND => opPendClear im p .r n x m
  | .IRQ_ACT_N => opAcknowledge im p .n n x m
  | .IRQ_ACT_F => opAcknowledge im p .f n x m
  | .IRQ_RACT => opAcknowledge im p .r n x m
  | .IRQ_WPEND_N => opPendClear im 8 .n n x m
  | .IRQ_WPEND_F => opPendClear im 8 .f n x m
  | .IRQ_WACT_N => opAcknowledge im 8 .n n x m
  | .IRQ_WACT_F => opAcknowledge im 8 .f n x m
  | .MBX_TX_HEAD => opTxHead im .host p x m
  | .MBX_TX_DATA => opTxData im .host p x m
  | .MBX_WTX_HEAD => opTxHead im .wings n x m
  | .MBX_WTX_DATA => opTxData im .wings n x m
  | .MBX_CTL =>
    let m := if bitAt x 0 then opFlushTx im .host p m else m
    if bitAt x 1 then opFlushRx im .host p m else m
  | .MBX_WCTL =>
    let m := if bitAt x 0 then opFlushTx im .wings n m else m
    if bitAt x 1 then opFlushRx im .wings n m else m
  | .TRC_PUT => opTrcPut x m
  | .TRC_CTL => if bitAt x 0 then opTraceMark x m else opRewind x m
  | .FLT_INJECT => opFaultInject im n x m
  | .PWR_CTL => opHush (bitAt x 0) m
  | .PWR_BRESET => opPwrBreset im x m
  | _ => m

/-- The mask registers of the interrupt banks, whose bits of no source take no write (R327, R328). -/
def maskReg (r : Reg) : Bool :=
  r == .IRQ_MASK_N || r == .IRQ_MASK_F || r == .IRQ_RMASK || r == .IRQ_WMASK_N || r == .IRQ_WMASK_F

/-- Registers whose action notes its reserved bits itself, or that ignore writes without status. -/
def ownRsvd (r : Reg) : Bool :=
  r == .MOV_LIST || r == .MOV_CFG || r == .MOV_CTL || r == .RNG_DB || r == .FLT_INJECT || r == .PWR_BRESET

/-- A write of bits [lo, lo + w) of a register (R4, R6, R7). RSVD_WR is set after the fields are written, so that a write
of a status register which clears it and carries a reserved bit leaves it set (R5). -/
def writeReg (im : Image) (v : View) (row : MapRow) (n i off lo w x : Nat) (m : M) : M :=
  if row.mirror then m
  else
    let r := row.reg
    let bad := (x <<< lo) &&& (regMask r ^^^ (2 ^ 64 - 1)) != 0
    let y := wholeVal m r i lo w x &&& (if maskReg r then bankSeen im m v r n else 2 ^ 64 - 1)
    let m := ((regFields r).filter (fun f => fldIn f lo w)).foldl (writeFld im v off i y) m
    let m := if bad && !(ownRsvd r) then setRsvd v (blockOf v off) off m else m
    writeAct im v r n i y m

/-- Whether a write goes to the inline window of a doorbell page, which has a rule of its own (R145). -/
def inWindow (v : View) (off n : Nat) : Bool :=
  match v with
  | .bar2 _ => decide (0x40 ≤ off % 0x1000) && decide (off % 0x1000 + n ≤ 0x80)
  | _ => false

/-- Whether some bit of a written value is 1. -/
def anyOne (d : List Byte) : Bool := d.any (fun b => b != 0)

/-- One write access of at most 8 bytes. -/
def writePiece (im : Image) (v : View) (off : Nat) (d : List Byte) (m : M) : M :=
  let n := d.length
  let bad := fun (m : M) => setRsvd v (blockOf v off) off m
  if sizeOk off n = false then bad m
  else if inWindow v off n then opWindowWrite im (viewPart v) (off / 0x1000) (off % 0x1000 - 0x40) d m
  else if inFlash v off then bad m
  else if inMsix v off then
    let p := viewPart v
    let a := off - 0xF00000
    let m := msixWrite im p a (leAt d 0 4) m
    if n = 8 then msixWrite im p (a + 4) (leAt d 4 4) m else m
  else if inCmdBuf v off then
    if off < 0x9000 then m
    else
      let s := viewPort im v
      { m with sec := { m.sec with mbuf := mapPut m.sec.mbuf (s, 0) (memWrite (mapGet [] m.sec.mbuf (s, 0)) (off - 0x9000) d) } }
  else match accReg im v off with
    | none => if anyOne d then bad m else m
    | some (row, k, i) =>
      if regLive im v row.reg k = false then m
      else if needs8 row.reg ∧ n ≠ 8 then bad m
      else writeReg im v row k i off (8 * (off % 8)) (8 * n) (leVal d) m

/-! ### Whole accesses -/

/-- A list of bytes in pieces of 8 (R7). -/
def chunks8 : Nat → List Byte → List (List Byte)
  | 0, _ => []
  | k + 1, l => if l.isEmpty then [] else l.take 8 :: chunks8 k (l.drop 8)

/-- A write to the inline window: naturally aligned, 4 to 64 bytes (R145). -/
def winWriteOk (off n : Nat) : Bool := (n == 4 || n == 8 || n == 16 || n == 32 || n == 64) && off % n == 0

/-- A piece of a write, held while the block it reaches resets (R380). -/
def writeOrHold (im : Image) (v : View) (off : Nat) (d : List Byte) (m : M) : M :=
  if offHeld im m v off then { m with held := m.held ++ [.registerWrite v off d] } else writePiece im v off d m

/-- A write of any size (R7, R145, R376). -/
def accWrite (im : Image) (v : View) (off : Nat) (d : List Byte) (m : M) : M :=
  if d.isEmpty ∨ viewSize im v < off + d.length then m
  else if inWindow v off d.length then
    if winWriteOk off d.length then
      opWindowWrite im (viewPart v) (off / 0x1000) (off % 0x1000 - 0x40) d m
    else setRsvd v bkRng off m
  else ((chunks8 d.length d).zipIdx).foldl (fun m c => writeOrHold im v (off + 8 * c.2) c.1 m) m

/-- The sizes of the pieces of a read of n bytes. -/
def readSizes : Nat → Nat → List Nat
  | 0, _ => []
  | k + 1, n => if n = 0 then [] else min n 8 :: readSizes k (n - 8)

/-- A read of any size (R7): its bytes. -/
def accRead (im : Image) (v : View) (off n : Nat) (e : Ecc) (m : M) : List Byte × M :=
  if viewSize im v < off + n then (List.replicate n 0, m)
  else ((readSizes n n).zipIdx).foldl (fun (acc : List Byte × M) c =>
    let (d, m) := readPiece im v (off + 8 * c.2) c.1 e acc.2
    (acc.1 ++ d, m)) ([], m)

/-- Whether some piece of a read is held. -/
def readHeld (im : Image) (m : M) (v : View) (off n : Nat) : Bool :=
  ((readSizes n n).zipIdx).any (fun c => offHeld im m v (off + 8 * c.2))

/-- Whether an access through a view reaches its registers (R261, R375). -/
def viewOpen (im : Image) (m : M) (v : View) : Bool := v == .owner || barOpen im m (viewPart v)

/-- An access through a BAR is a TLP of the host. -/
def touchView (v : View) (m : M) : M := if v = .owner then m else hostTlp (viewPart v) m

/-- REGISTER_WRITE (R4): a write through a view; one the function does not take is discarded (R261). -/
def opRegWrite (im : Image) (v : View) (off : Nat) (d : List Byte) (m : M) : M :=
  if viewOpen im m v then accWrite im v off d (touchView v m) else touchView v m

/-- A poisoned MemWr to a BAR (R261): discarded with no effect; AER records Poisoned TLP Received. -/
def opPoisoned (im : Image) (v : View) (m : M) : M :=
  if v = .owner ∨ viewOpen im m v = false then touchView v m
  else
    let m := touchView v m
    m.setHost (viewPart v) { m.hostOf (viewPart v) with poisoned := true }

/-- A read that reaches its registers drives its data. -/
def readOut (im : Image) (v : View) (off n : Nat) (m : M) : M :=
  let (d, m) := accRead im v off n .ok m
  m.emit (.regData v off d)

/-- RC_FIELD_READ (R4): a read through a view is answered with its data, or with UR (R261). -/
def opRegRead (im : Image) (v : View) (off n : Nat) (m : M) : M :=
  if n = 0 ∨ viewSize im v < off + n then m
  else if viewOpen im m v = false then (touchView v m).emit (.regUr v off)
  else if readHeld im m v off n then { touchView v m with held := m.held ++ [.rcFieldRead v off n] }
  else readOut im v off n (touchView v m)

end Sys2Proof
end

