-- ==== Sys2Proof/Machine/IsaMem.lean ====
section
/-! DEFINITION. LD, LDU, ST and the answer of a load (08, R193 to R196). -/

namespace Sys2Proof

/-- The value a load leaves in its register: LD sign-extends, LDU zero-extends. -/
def loadVal (n : Nat) (signed : Bool) (b : List Byte) : Word :=
  let x := leAt b 0 n
  if signed then BitVec.ofInt 64 (sval (8 * n) x) else BitVec.ofNat 64 x

/-- A processor waits for the answer of a load; its PC stays at the load until then. -/
def waitLoad (x : Proc) (l : LoadWait) (m : M) : M := m.setCpu x.key { m.cpu x.key with wait := .load l }

/-- Whether an owner-view read goes to the flash (R383). -/
def flashRead (m : M) (a n : Nat) : Bool :=
  inFlash .owner a && sizeOk a n && !(m.flag .IMG_FLASH_STS_BUSY 0) && !(m.flag .IMG_CHECK_BUSY 0) &&
  m.boot.phase != .failed

/-- A load in REG space of a core (R193, R194): the register answers, or the flash will; one that a block reset holds is
answered when the reset is over (R380). -/
def loadReg (im : Image) (i : Issue) (signed : Bool) (a n : Nat) (m : M) : M :=
  if 0x8000000 < a + n then raiseAccess im i.x a m
  else if readHeld im m .owner a n then
    waitLoad i.x ⟨fRd i.word, n, signed, 3, a⟩
      { m with held := m.held ++ (match i.x with | .core c => [.coreLoad c (fRd i.word) n a signed i.data] | _ => []) }
  else if flashRead m a n then waitLoad i.x ⟨fRd i.word, n, signed, 3, a⟩ (noteAsk (0, i.x.num) 0 m)
  else
    let (d, m) := accRead im .owner a n i.data m
    finishRd i.x (fRd i.word) (loadVal n signed d) 1 m

/-- A load from a place (R185, R194, R196). A stage slice that refuses its tag answers with a bus error (R12). -/
def loadPlace (im : Image) (i : Issue) (signed : Bool) (n : Nat) (r : Range) (m : M) : M :=
  let l : LoadWait := ⟨fRd i.word, n, signed, fSpace i.word, r.addr⟩
  match r.sp with
  | .host p => reqTlp p (.rd (.load i.x.num) r.addr n (if (m.cpu i.x.key).own = 8 then none else some n)) (waitLoad i.x l m)
  | .dram => dramRead im (0, i.x.num) (procPort i.x) (m.cpu i.x.key).own (m.cpu i.x.key).own r.addr n (waitLoad i.x l m)
  | _ =>
    let (ok, m) := sliceTag im i.x r m
    if ok = false then raiseData im i.x 0x25 2 r.addr m else
    let m := placeEcc im i.x r i.data m
    if i.data = .uncorr then raiseData im i.x 0x24 (placeDetail r) r.addr m
    else finishRd i.x (fRd i.word) (loadVal n signed (readSp m r)) (if fSpace i.word = 0 then 2 else 8) m

/-- LD and LDU (R193 to R196). -/
def runLoad (im : Image) (signed : Bool) (i : Issue) (m : M) : M :=
  let k := m.cpu i.x.key
  let ra := k.g (fRa i.word)
  let a := addOff ra.toNat (fOff i.word)
  let n := fSize i.word
  let m := chargeIssue i.x m
  if fSpace i.word = 3 then
    match i.x with
    | .thread _ => raiseIllegal im i.x i.word m
    | .core _ => loadReg im i signed a n m
  else
    let (ok, m) := accessVote im i.x (fSpace i.word) a m
    match (if ok then resolve im m i.x (fSpace i.word) ra (fOff i.word) n false else none) with
    | none => raiseAccess im i.x a m
    | some r => loadPlace im i signed n r m

/-- The command LD. -/
def opLd (im : Image) (i : Issue) (m : M) : M := issueOp im i (fun p => p == .ld) (runLoad im true i) m

/-- The command LDU. -/
def opLdu (im : Image) (i : Issue) (m : M) : M := issueOp im i (fun p => p == .ldu) (runLoad im false i) m

/-- Moves a processor past a store: the store completes in the background (R185). -/
def passStore (x : Proc) (m : M) : M :=
  let k := m.cpu x.key
  m.setCpu x.key { k with pc := nextPc k.pc, ready := m.now + 1 }

/-- ST (R193 to R195). -/
def runStore (im : Image) (i : Issue) (m : M) : M :=
  let k := m.cpu i.x.key
  let ra := k.g (fRa i.word)
  let a := addOff ra.toNat (fOff i.word)
  let n := fSize i.word
  let d := leBytes n (k.g (fRd i.word)).toNat
  let m := chargeIssue i.x m
  if fSpace i.word = 3 then
    match i.x with
    | .thread _ => raiseIllegal im i.x i.word m
    | .core _ =>
      if 0x8000000 < a + n then raiseAccess im i.x a m
      else accWrite im .owner a d (passStore i.x m)
  else
    let (ok, m) := accessVote im i.x (fSpace i.word) a m
    match (if ok then resolve im m i.x (fSpace i.word) ra (fOff i.word) n true else none) with
    | none => raiseAccess im i.x a m
    | some r =>
      let (ok, m) := sliceTag im i.x r m
      if ok then writeSp im i.x r d (passStore i.x m) else passStore i.x m

/-- The command ST. -/
def opSt (im : Image) (i : Issue) (m : M) : M := issueOp im i (fun p => p == .st) (runStore im i) m

/-- A load's answer (R196): the register is written, or the error ends the routine or traps. -/
def loadAns (im : Image) (x : Proc) (r : RdRes) (m : M) : M :=
  let k := m.cpu x.key
  match k.wait with
  | .load l =>
    let m := m.setCpu x.key { k with wait := .none }
    match r with
    | .data b => finishRd x l.rd (loadVal l.size l.signed b) 1 m
    | e => raiseData im x (readFail e).1 (readFail e).2 l.addr m
  | _ => m

/-- Whether a processor's load went to a host port. -/
def loadAtHost (m : M) (x : Proc) : Bool := (List.range 8).any (fun p => hasPurp m p (.load x.num))

/-- Whether a core's load waits for the end of a block reset (R380). -/
def loadHeld (m : M) (x : Proc) : Bool :=
  m.held.any (fun h => match h with | .coreLoad c .. => x == .core c | _ => false)

/-- LOAD_ANSWER (R196): the answer of local memory or the flash; a host port answers by HOST_COMPLETION. Answers come in the
order of the loads (R13), those of an aborted routine first (R206). -/
def opLoadAnswer (im : Image) (x : Proc) (r : RdRes) (m : M) : M :=
  let k := m.cpu x.key
  if 0 < k.loadDrop then m.setCpu x.key { k with loadDrop := k.loadDrop - 1 }
  else if loadAtHost m x || loadHeld m x then m else loadAns im x r m

/-! ### Answers of a host port by purpose (R262) -/

/-- The answer of a host read goes to the work it serves. -/
def hostAnswer (im : Image) (p : Nat) (u : Purp) (r : RdRes) (m : M) : M :=
  match u with
  | .cues tag => match m.script p tag with
    | some s => fetchAnswer im s r m
    | none => m
  | .ilist tag => match m.script p tag with
    | some s => listAnswer im s r m
    | none => m
  | .ring n => ringAnswer im p n r m
  | .elem e q id => answerCode im e q id (.read [r]) m
  | .flush e q id => flushCode im e q id r m
  | .desc c => descAnswer im c r m
  | .load x => loadAns im (procOf x) r m
  | .dead _ => deadAnswer p r m
  | .lost => m
  | .rtn t => rtnAnswer im t r m

/-- A completion or a timeout of an outstanding request: its work is answered, and what waits may issue. -/
def cplAnswer (im : Image) (p : Nat) (n : NP) (r : RdRes) (m : M) : M :=
  match takeCpl p n r m with
  | (some (u, r), m) => pumpHost p (hostAnswer im p u r m)
  | (none, m) => pumpHost p m

/-- HOST_COMPLETION (R262, R266): it answers the request of its tag, or is late; one for no request is only a TLP. -/
def opHostCompletion (im : Image) (p tag : Nat) (r : RdRes) (m : M) : M :=
  let m := hostTlp p m
  if (m.hostOf p).quar.any (fun q => q.1 == tag) then freeQuar p tag (m.bump .HPT_CNT_LATE_CPL (pinst p 0))
  else match npOf m p tag with
    | some n => cplAnswer im p n r m
    | none => pumpHost p m

/-- Whether a read serves work that no longer exists: a discarded cue (R126). -/
def Purp.isDead (m : M) : Purp → Bool
  | .dead _ => true
  | .elem e q id => decide (4096 ≤ q) && (m.queue e (q - 4096)).any (fun x => x.who == .gone && x.elems.any (fun y => y.id == id))
  | _ => false

/-- COMPLETION_TIMEOUT (R262): an unanswered request is answered as a host completion error. Squashed work shows only in
the speculation counters (R116). -/
def opCplTimeout (im : Image) (p tag : Nat) (m : M) : M :=
  match npOf m p tag with
  | none => m
  | some n =>
    if m.now < n.issued + n.cto then m
    else cplAnswer im p n .timeout (if Purp.isDead m n.purp then m else m.bump .HPT_CNT_CPL_TIMEOUT (pinst p 0))

end Sys2Proof
end

