-- ==== Sys2Proof/Machine/Pins.lean ====
section
/-! DEFINITION. The balls of the package (17, R384 to R388), what the loom does at each low-speed, sideband and memory
pin (R395), and the boundary register over them (R402). -/

namespace Sys2Proof

/-- Supply rails (R388, R390). -/
inductive Rail where
  | core | sram | ln075 | ln090 | ln120 | hp075 | hp120 | ddr | io
  deriving DecidableEq, Repr

/-- The signal balls of row AW, in column order from 13 (R388). -/
inductive LowPin where
  | refclkCore | porstN | resetN | alive | faultN | thermtripN | tickIn | tickOut
  | xspiClk | xspiCsN | xspiDqs | xspiDq (i : Nat) | xspiRstN
  | i3cScl | i3cSda | jtagTck | jtagTms | jtagTdi | jtagTdo | jtagTrstN
  | calLaneTop | calLaneBot | calHp | calDdr | vsenseP | vsenseN
  deriving DecidableEq, Repr

/-- A ball (R386 to R388). `rx` tells receive from transmit, `neg` the second ball of a pair, `b` subchannel B. -/
inductive Ball where
  | vss
  | rail (r : Rail)
  | lane (rx : Bool) (l : Nat) (neg : Bool)
  | refOctet (o : Nat) (neg : Bool)
  | host (rx : Bool) (n l : Nat) (neg : Bool)
  | refHost (n : Nat) (neg : Bool)
  | perstN (n : Nat)
  | clkreqN (n : Nat)
  | dq (m : Nat) (b : Bool) (i : Nat)
  | cb (m : Nat) (b : Bool) (i : Nat)
  | dqs (m : Nat) (b : Bool) (i : Nat) (neg : Bool)
  | ca (m : Nat) (b : Bool) (i : Nat)
  | csN (m : Nat) (b : Bool) (i : Nat)
  | ck (m : Nat) (b : Bool) (neg : Bool)
  | memResetN (m : Nat)
  | memAlertN (m : Nat)
  | low (p : LowPin)
  deriving DecidableEq, Repr

/-! ### The ball array; rows and columns are numbered from 1 (R384, R385) -/

/-- The letters of a row's place in its block of 19 (R384). -/
def rowAlphabet : List Char :=
  ['A', 'B', 'C', 'D', 'E', 'F', 'G', 'H', 'J', 'K', 'L', 'M', 'N', 'P', 'T', 'U', 'V', 'W', 'Y']

/-- The letters of row 1 to 72. -/
def rowLetters (row : Nat) : List Char :=
  let last := rowAlphabet.getD ((row - 1) % 19) 'A'
  match (row - 1) / 19 with
  | 0 => [last]
  | k + 1 => [rowAlphabet.getD k 'A', last]

/-- A ball of octet o at band row k, tile column j (R386). -/
def octetBall (o k j : Nat) : Ball :=
  let i := (j - 1) / 3
  let pair := fun (rx : Bool) (l : Nat) => if (j - 1) % 3 = 2 then Ball.vss else .lane rx l ((j - 1) % 3 == 1)
  match k with
  | 2 => pair false (8 * o + i)
  | 4 => pair false (8 * o + 4 + i)
  | 7 => pair true (8 * o + i)
  | 9 => pair true (8 * o + 4 + i)
  | 11 => if j ≤ 2 then .refOctet o (j == 2) else if j = 3 then .vss else .rail .ln075
  | 12 => if j ≤ 8 then .rail .ln090 else .rail .ln120
  | _ => .vss

/-- A ball of host port n at band column k, tile row t (R386). -/
def hostBall (n k t : Nat) : Ball :=
  let i := (t - 1) / 3
  let pair := fun (rx : Bool) (g : Nat) => if (t - 1) % 3 = 2 then Ball.vss else .host rx n (4 * g + i) ((t - 1) % 3 == 1)
  if 2 ≤ k ∧ k ≤ 5 then pair false (k - 2)
  else if 7 ≤ k ∧ k ≤ 10 then pair true (k - 7)
  else if k = 11 then .rail .hp075
  else if k = 12 then
    match t with
    | 1 => .refHost n false
    | 2 => .refHost n true
    | 3 => .vss
    | 4 => .perstN n
    | 5 => .clkreqN n
    | _ => .rail .hp120
  else .vss

/-- The ball of slot s of a subchannel of channel m (R387). -/
def slotBall (m : Nat) (b : Bool) (s : Nat) : Ball :=
  if s < 32 then .dq m b s
  else if s < 40 then .cb m b (s - 32)
  else if s < 60 then .dqs m b ((s - 40) / 2) (s % 2 == 1)
  else if s < 74 then .ca m b (s - 60)
  else if s < 76 then .csN m b (s - 74)
  else if s < 78 then .ck m b (s == 77)
  else if b then .rail .ddr
  else if s = 78 then .memResetN m
  else .memAlertN m

/-- A ball of memory channel m at tile row h, tile column c (R387). -/
def memBall (m h c : Nat) : Ball :=
  let q := 24 * ((h - 1) % 5) + (c - 1)
  if q % 3 = 2 then .vss else slotBall m (decide (6 ≤ h)) (2 * (q / 3) + q % 3)

/-- A ball of row AW at column 13 to 60 (R388). -/
def lowBall (col : Nat) : Ball :=
  let ps : List LowPin := [.refclkCore, .porstN, .resetN, .alive, .faultN, .thermtripN, .tickIn, .tickOut, .xspiClk,
    .xspiCsN, .xspiDqs, .xspiDq 0, .xspiDq 1, .xspiDq 2, .xspiDq 3, .xspiDq 4, .xspiDq 5, .xspiDq 6, .xspiDq 7, .xspiRstN,
    .i3cScl, .i3cSda, .jtagTck, .jtagTms, .jtagTdi, .jtagTdo, .jtagTrstN, .calLaneTop, .calLaneBot, .calHp, .calDdr,
    .vsenseP, .vsenseN]
  match ps[col - 13]? with
  | some p => .low p
  | none => if col ≤ 53 then .rail .io else .vss

/-- A ball of the core power rows (R388). -/
def coreBall (row col : Nat) : Ball :=
  if (row + col) % 2 = 0 then .vss
  else if row = 23 ∨ row = 50 then .rail .ddr
  else if row ≤ 28 ∨ 45 ≤ row then .rail .sram
  else .rail .core

/-- The ball at a row and column, each 1 to 72 (R385). -/
def ballAt (row col : Nat) : Ball :=
  if row ≤ 12 then octetBall ((col - 1) / 12) row ((col - 1) % 12 + 1)
  else if 61 ≤ row then octetBall ((col - 1) / 12 + 6) (73 - row) ((col - 1) % 12 + 1)
  else if col ≤ 12 then hostBall ((row - 13) / 12) col ((row - 13) % 12 + 1)
  else if 61 ≤ col then hostBall ((row - 13) / 12 + 4) (73 - col) ((row - 13) % 12 + 1)
  else if row ≤ 22 then memBall ((col - 13) / 24) (row - 12) ((col - 13) % 24 + 1)
  else if 51 ≤ row then memBall ((col - 13) / 24 + 2) (61 - row) ((col - 13) % 24 + 1)
  else if row = 37 then lowBall col
  else coreBall row col

/-! ### What the loom does at a pin (R395) -/

/-- What the loom does at a pin: takes nothing from it and drives nothing, reads it, lets it float, leaves an open drain
off, drives a level, or drives it as its interface moves. -/
inductive Drive where
  | ignored | input | highZ | released | low | high | moving
  deriving DecidableEq, Repr

/-- The columns of R395: PORST_N low, boot, running, failed boot. -/
inductive PinPhase where
  | porst | boot | run | failed
  deriving DecidableEq, Repr

/-- Where the loom stands in the columns of R395. -/
def pinPhase (m : M) : PinPhase :=
  match m.boot.phase with
  | .porst => .porst
  | .run => .run
  | .failed => .failed
  | .rstLow | .pll | .stuck | .read | .verify | .wait5 => .boot

/-- A level as a drive. -/
def driveOf (b : Bool) : Drive := if b then .high else .low

/-- The I3C target answers from 1 ms after the release of PORST_N (R395, R400). -/
def i3cLive (m : M) : Bool := decide (m.boot.phase ≠ .porst ∧ m.boot.porAt + msSc ≤ m.now)

/-- TICK_OUT is high for 32 sc from 2 sc after an edge (R56). -/
def tickOutHigh (im : Image) (m : M) : Bool :=
  im.tickOut == 1 && m.tick.on && m.tick.phase != 0 && decide (m.tick.edge + 2 ≤ m.now ∧ m.now < m.tick.edge + 34)

/-- XSPI_RST_N is low for 10 µs at step 1 (R395). -/
def flashRst (m : M) : Bool :=
  match m.boot.step1At with
  | some t => decide (t ≤ m.now ∧ m.now < t + 20000)
  | none => false

/-- The low-speed pins of R395. -/
def lowDrive (im : Image) (m : M) (p : LowPin) : Drive :=
  let ph := pinPhase m
  match p with
  | .alive => if ph = .run then driveOf (m.flag .PWR_PIN_ALIVE 0) else .low
  | .faultN => if ph ≠ .porst ∧ faultLow m then .low else .released
  | .thermtripN => driveOf (!(m.pins.thermTrip))
  | .tickOut => if ph = .run then driveOf (tickOutHigh im m) else .low
  | .tickIn => if ph = .run then .input else .ignored
  | .resetN | .jtagTms | .jtagTdi | .jtagTck | .jtagTrstN => if ph = .porst then .ignored else .input
  | .xspiRstN => if ph = .porst ∨ ph = .failed then .highZ else if flashRst m then .low else .moving
  | .xspiClk | .xspiCsN | .xspiDqs | .xspiDq _ => if ph = .porst ∨ ph = .failed then .highZ else .moving
  | .i3cScl | .i3cSda => if i3cLive m then .moving else .highZ
  | .jtagTdo => if ph = .porst then .highZ else .moving
  | .refclkCore | .porstN => .input
  | .calLaneTop | .calLaneBot | .calHp | .calDdr | .vsenseP | .vsenseN => .highZ

/-- CLKREQ_N_HPn: released until RELEASE and in an L1 substate, low otherwise (R47, R271). -/
def clkreqDrive (im : Image) (m : M) (n : Nat) : Drive :=
  match pinPhase m, im.partOfPort n with
  | .run, some p => if released m p ∧ m.fld .HPT_STS_LSTATE (pinst p 0) < 2 then .low else .released
  | _, _ => .released

/-- Mm_RESET_N: low until training, then high, through chip resets too; low again in failed boot and at PORST_N. -/
def memResetDrive (m : M) (c : Nat) : Drive :=
  match pinPhase m with
  | .porst | .failed => .low
  | .boot | .run => driveOf (bitAt m.pins.memReset c)

/-- What the loom does at a ball of the boundary register. -/
def ballDrive (im : Image) (m : M) (b : Ball) : Drive :=
  match b with
  | .low p => lowDrive im m p
  | .perstN _ => if pinPhase m = .porst ∨ pinPhase m = .failed then .ignored else .input
  | .clkreqN n => clkreqDrive im m n
  | .memResetN c => memResetDrive m c
  | .memAlertN _ => .input
  | .dq .. | .cb .. | .dqs .. | .ca .. | .csN .. | .ck .. => .moving
  | .vss | .rail _ | .lane .. | .refOctet .. | .host .. | .refHost .. => .ignored

/-! ### The boundary register (R402) -/

/-- The pins of the chain: every memory ball, every PERST_N and CLKREQ_N, and AW13 to AW34. -/
def inChain : Ball → Bool
  | .dq .. | .cb .. | .dqs .. | .ca .. | .csN .. | .ck .. | .memResetN _ | .memAlertN _ | .perstN _ | .clkreqN _ => true
  | .low p =>
    match p with
    | .jtagTck | .jtagTms | .jtagTdi | .jtagTdo | .jtagTrstN | .calLaneTop | .calLaneBot | .calHp | .calDdr | .vsenseP
    | .vsenseN => false
    | _ => true
  | _ => false

/-- The pins of the boundary register, in ascending row and then column order. -/
def chain : List Ball :=
  (List.range 72).flatMap (fun r => ((List.range 72).map (fun c => ballAt (r + 1) (c + 1))).filter inChain)

/-- Pins that only take a level in: their output and enable cells drive nothing. -/
def inputOnly : Ball → Bool
  | .perstN _ | .memAlertN _ => true
  | .low p => [LowPin.refclkCore, .porstN, .resetN, .tickIn].contains p
  | _ => false

/-- What the pin of index k does under EXTEST: its enable cell lets its output cell drive. -/
def scanDrive (cells : List Bool) (k : Nat) (b : Ball) : Drive :=
  if inputOnly b then .input else if cells.getD (3 * k + 2) false then driveOf (cells.getD (3 * k + 1) false) else .highZ

/-- The three cells of a pin as Capture-DR finds them: the level at the ball, the level driven and whether it drives.
What the two latter hold where nothing drives, or a pin has no driver, the spec does not say: `n` names the capture. -/
def pinCells (n k : Nat) (level : Bool) (b : Ball) (d : Drive) : List Bool :=
  let free := Config.scanCell n
  let dr := match d with
    | .low => [false, true]
    | .high => [true, true]
    | .moving => [level, free (3 * k + 2)]
    | .ignored | .input | .highZ | .released => [free (3 * k + 1), if inputOnly b then free (3 * k + 2) else false]
  level :: dr

/-- The 2,010 cells Capture-DR takes; `levels` are the levels at the pins. -/
def captureCells (n : Nat) (levels : List Bool) (drive : Nat → Ball → Drive) : List Bool :=
  (chain.zipIdx).flatMap (fun x => pinCells n x.2 (levels.getD x.2 false) x.1 (drive x.2 x.1))

end Sys2Proof
end

