-- ==== Sys2Proof/Machine/Mgt.lean ====
section
/-! DEFINITION. The end of a block reset with the accesses it held, and the management ports: the I3C target and the
JTAG TAP (R275, R277, R278, R300, R370, R380, R400, R402). -/

namespace Sys2Proof

/-! ### Register rows that a block reset holds (R380) -/

/-- The bank of a wings or partition register for a held write. -/
def bankReg (k : BankReg) (o : Nat) (b : Bank) : Reg := (fldSpec (bankFld k o b)).reg

/-- The register, with its field instance, that the row of a command reaches. -/
def rowReg (im : Image) (i : Access) : Option (Reg × Nat) :=
  match i with
  | .movStart _ c _ | .movStop _ c _ | .movClear _ c _ => some (.MOV_CTL, c.val)
  | .movCfgWrite _ c isList _ => some (if isList then .MOV_LIST else .MOV_CFG, c.val)
  | .wingsStart c _ => some (.WNG_CTL, c.val)
  | .disable l _ | .rewiden l | .retryNow l | .rekeyNow l => some (.LNK_CTL, l.val)
  | .ownerMessageSend l => some (.LNK_OWN_TX, l.val)
  | .rxAck l => some (.LNK_OWN_RX, l.val)
  | .cal o => some (.LNK_OCT_CTL, o.val)
  | .submit s _ => match s with
    | .port p => some (.OCMD_CTL, p.val)
    | .wings => some (.SEC_WCMD, 0)
  | .finishFirmwareCommand _ => some (.SEC_FWCMD, 0)
  | .train c => some (.MEM_CH_CTL, c.val)
  | .memBucketWrite c _ => some (.MEM_BUCKET, c.val)
  | .scrubStart c _ | .scrubStop c => some (.MEM_SCRUB_CTL, c.val)
  | .acknowledge o b k _ => some (bankReg .act o.val b, bankInst o.val k.val)
  | .pendClear o b k _ => some (bankReg .pend o.val b, bankInst o.val k.val)
  | .mbxTxHead _ p _ | .mbxTxData _ p _ | .mbxRx _ p _ _ | .flushTx _ p | .flushRx _ p => some (.MBX_CTL, pinst p.val 0)
  | .trcPut _ => some (.TRC_PUT, 0)
  | .trcGet _ | .trace _ => some (.TRC_GET, 0)
  | .traceMark _ | .rewind _ => some (.TRC_CTL, 0)
  | .reg dr => (accReg im .owner (bitsAt dr.toNat 64 27)).map (fun x => (x.1.reg, x.2.2))
  | _ => none

/-- Whether an access waits: for the block reset of the block it reaches (R325, R380), or for a key (R287). -/
def rowHeld (im : Image) (m : M) (i : Access) : Bool :=
  match i with
  | .lineRead c .. => m.inReset (29 + c.val) 0
  | .lineWrite c k _ b .. => m.inReset (29 + c.val) 0 || (b.length == 64 && keyWanting im m c.val k)
  | .rcFieldRead v off n => readHeld im m v off n
  | .coreLoad _ _ n a .. => readHeld im m .owner a n
  | _ => match rowReg im i with
    | some (r, k) => accessHeld m r k
    | none => false

/-- An access acts, or waits. -/
def holdRow (im : Image) (i : Access) (run : M → M) (m : M) : M :=
  if rowHeld im m i then { m with held := m.held ++ [i] } else run m

/-! ### JTAG (R402) -/

/-- Factory test mode (R277), once the fuses are sensed. -/
def factoryMode (m : M) : Bool := m.flag .SEC_STS_FACTORY_OPEN 0

/-- Condition Sn: factory test mode, or an accepted token with SCOPE bit n. -/
def scopeOk (m : M) (n : Nat) : Bool :=
  factoryMode m || (m.flag .SEC_STS_DEBUG_ACTIVE 0 && bitAt (m.fld .SEC_STS_DEBUG_SCOPE 0) n)

/-- The instruction that a code selects: every code R402 does not list selects bypass. -/
def irSelect (code : Nat) : Nat :=
  if [0x02, 0x03, 0x10, 0x20, 0x21, 0x30, 0x40, 0x41, 0x50].contains code then code else 0xFF

/-- What the instruction register captures, before a code is shifted in (R402). -/
def irCapture : Nat := 1

/-- Selects an instruction and drives what the instruction register, then the data register capture. -/
def jtagOut (code : Nat) (d : List Byte) (m : M) : M :=
  let ir := irSelect code
  (({ m with mgt := { m.mgt with ir := ir } } : M).emit (.jtagIr irCapture)).emit (.jtag ir d)

/-- The TAP takes nothing in while PORST_N is low (R395). -/
def tap (run : M → M) (m : M) : M := if m.boot.phase = .porst then m else run m

/-- BYPASS: what code 0xFF, every code without an instruction, and an instruction whose condition does not hold select. The 1-bit
register captures 0, as IEEE 1149.1 has it. -/
def opBypass (m : M) : M := tap (fun m => jtagOut 0xFF [0] { m with mgt := { m.mgt with byp := false } }) m

/-- An instruction under its condition. -/
def jtagIf (ok : Bool) (run : M → M) (m : M) : M := if ok then tap run m else opBypass m

/-- Packs bits, least significant first. -/
def packBits (b : List Bool) : Nat := b.foldr (fun x a => (if x then 1 else 0) + 2 * a) 0

/-- What shifts in fills the boundary register. -/
def loadCells (bits : List Bool) (m : M) : M :=
  { m with pins := { m.pins with bscan := (bits.take 2010) ++ List.replicate (2010 - bits.length) false } }

/-- SAMPLE/PRELOAD: the cells capture the pins as the loom works them, and what shifts in waits for EXTEST. -/
def opSample (im : Image) (levels bits : List Bool) (m : M) : M :=
  jtagIf (scopeOk m 0) (fun m =>
    let (n, m) := m.draw
    jtagOut 0x02 (leBytes 252 (packBits (captureCells n levels (fun _ b => ballDrive im m b)))) (loadCells bits m)) m

/-- EXTEST: the cells loaded before drive the pins and are captured with them; then those shifted in drive. -/
def opExtest (im : Image) (levels bits : List Bool) (m : M) : M :=
  jtagIf (scopeOk m 0) (fun m =>
    let (n, m) := m.draw
    jtagOut 0x03 (leBytes 252 (packBits (captureCells n levels (scanDrive m.pins.bscan)))) (loadCells bits m)) m

/-- What the loom does at the pin of index k of the chain: under EXTEST what its cells say (R402). -/
def pinDrive (im : Image) (m : M) (k : Nat) (b : Ball) : Drive :=
  if m.mgt.ir = 0x03 then scanDrive m.pins.bscan k b else ballDrive im m b

/-- IDENT: the four identity registers. -/
def opIdent (m : M) : M :=
  tap (jtagOut 0x10 (leBytes 8 (regVal m .IDN_LOT 0) ++ leBytes 8 (regVal m .IDN_POS 0) ++
    leBytes 8 (regVal m .IDN_SERIAL_LO 0) ++ leBytes 8 (regVal m .IDN_SERIAL_HI 0))) m

/-- The current challenge; 0 while one waits for entropy. -/
def challengeVal (m : M) : Nat := if m.sec.chalOwed then 0 else (Config.draw m.sec.challenge).toNat

/-- CHALLENGE. -/
def opChallenge (m : M) : M := tap (jtagOut 0x20 (leBytes 32 (challengeVal m))) m

/-- The form of a token (R300): its length, MAGIC and VERSION, the reserved bits of SCOPE, and DEBUG_DISABLE 0. -/
def tokenForm (m : M) (b : List Byte) : Bool :=
  b.length == 7275 && leAt b 0 4 == 0x47424454 && leAt b 4 2 == 1 && !(m.flag .SEC_STS_DEBUG_DISABLE 0) && leAt b 6 2 < 16

/-- DIE_SERIAL of a token is the die's and not zero. -/
def tokenDie (b : List Byte) : Bool := leAt b 8 16 != 0 && leAt b 8 16 == serialNat

/-- NONCE of a token is the current challenge. -/
def tokenNonce (m : M) (b : List Byte) : Bool := !m.sec.chalOwed && leAt b 0x18 32 == challengeVal m

/-- SHA-384 of a token's OWNER_PUBKEY is OWNER_HASH. -/
def tokenKey (m : M) (b : List Byte) : Bool := decide (Config.sha384 (bytesAt b 0x38 2592) = m.sec.sensed.hash)

/-- SIG of a token verifies under its own key. -/
def tokenSig (b : List Byte) : Bool := verify87 (bytesAt b 0x38 2592) "THR-9624 debug" (bytesAt b 0 0xA58) (bytesAt b 0xA58 4627)

/-- The two results of every check of a token (R282, R300), in the order of R300. -/
def tokenPaths (m : M) (b : List Byte) (form : Verdict) (x : CmdPaths) : List Verdict :=
  [pathsOf form (tokenForm m b), pathsOf x.die (tokenDie b), pathsOf x.nonce (tokenNonce m b), pathsOf x.key (tokenKey m b),
   pathsOf x.sig (tokenSig b)]

/-- The first of a list of decisions that does not hold on both paths: false when its paths differ. -/
def firstBad : List Verdict → Option Bool
  | [] => none
  | v :: t => if v.a ≠ v.b then some false else if v.a = false then some true else firstBad t

/-- The voted words a token's checks read: the six of OWNER_HASH, then DEBUG_DISABLE. -/
def tokenWords (votes : List Vote) : List (VWord × Vote) := hashWords votes ++ [(.fuse 8, votes.getD 6 .agree)]

/-- The state a token leaves in TOKEN's Capture-DR, and what it grants (R280, R282, R300). -/
def tokenResult (im : Image) (b : List Byte) (form : Verdict) (x : CmdPaths) (votes : List Vote) (m : M) : Nat × M :=
  let (ok, m) := voteReads im (tokenWords votes) m
  if ok = false then (3, m)
  else match firstBad (tokenPaths m b form x) with
    | some false => (3, pathDisagree im 4 m)
    | some true => (2, m)
    | none =>
      let m := (m.setFlag .SEC_STS_DEBUG_ACTIVE 0 true).setFld .SEC_STS_DEBUG_SCOPE 0 (leAt b 6 2)
      (1, fire im 0x017 (leAt b 6 2) { m with sec := { m.sec with debugSeen := true } })

/-- TOKEN (R300): the register captures the outcome before, 0 when none was submitted; Update-DR submits the token, which is
checked on two paths, and the challenge is renewed after every attempt. What the next capture gives is driven too. -/
def opToken (im : Image) (b : List Byte) (form : Verdict) (x : CmdPaths) (votes : List Vote) (m : M) : M :=
  tap (fun m =>
    let m := jtagOut 0x21 [BitVec.ofNat 8 m.sec.tokSts] m
    if m.inReset 3 0 then jtagOut 0x21 [4] { m with sec := { m.sec with tokSts := 4 } }
    else
      let (r, m) := tokenResult im b form x votes m
      let m := renewChallenge { m with sec := { m.sec with tokSts := r } }
      jtagOut 0x21 [BitVec.ofNat 8 r] m) m

/-- REG: an owner-view access under scope S2; Capture-DR gives the data and DONE. -/
def opJtagReg (im : Image) (dr : Nat) (m : M) : M :=
  jtagIf (scopeOk m 2) (fun m =>
    let a := bitsAt dr 64 27
    let m :=
      if bitAt dr 91 then accWrite im .owner a (leBytes 8 (bitsAt dr 0 64)) m
      else
        let (d, m) := accRead im .owner a 8 .ok m
        { m with mgt := { m.mgt with regData := leVal d } }
    let m := { m with mgt := { m.mgt with regDone := true } }
    jtagOut 0x30 (leBytes 8 m.mgt.regData ++ leBytes 4 (2 ^ 28)) m) m

/-- What WDBG captures: HALTED and the read data. -/
def wdbgOut (c d : Nat) (m : M) : M :=
  jtagOut 0x40 (leBytes 8 (if (m.cpu (wng c)).dbgHalt then 1 else 0) ++ leBytes 8 d) m

/-- WDBG HALT. -/
def opWdbgHalt (c : Nat) (m : M) : M :=
  jtagIf (scopeOk m 1) (fun m =>
    let k := m.cpu (wng c)
    wdbgOut c 0 (if k.running then m.setCpu (wng c) { k with dbgHalt := true } else m)) m

/-- WDBG RESUME. -/
def opWdbgResume (c : Nat) (m : M) : M :=
  jtagIf (scopeOk m 1) (fun m => wdbgOut c 0 (m.setCpu (wng c) { m.cpu (wng c) with dbgHalt := false })) m

/-- WDBG STEP: a halted core may issue one instruction. -/
def opWdbgStep (c : Nat) (m : M) : M :=
  jtagIf (scopeOk m 1) (fun m =>
    wdbgOut c 0 (if (m.cpu (wng c)).dbgHalt then { m with mgt := { m.mgt with wdbg := c + 1 } } else m)) m

/-- A register of bank 0, or PC at number 32. -/
def dbgReg (k : Cpu) (r : Nat) : Nat :=
  if r = 32 then k.pc else if r = 0 ∨ 32 < r then 0 else (mapGet 0 k.regs (0, r)).toNat

/-- WDBG REG_RD. -/
def opRegRd (c r : Nat) (m : M) : M := jtagIf (scopeOk m 1) (fun m => wdbgOut c (dbgReg (m.cpu (wng c)) r) m) m

/-- WDBG REG_WR. -/
def opRegWr (c r : Nat) (d : Word) (m : M) : M :=
  jtagIf (scopeOk m 1) (fun m =>
    let k := m.cpu (wng c)
    let k := if r = 32 then { k with pc := d.toNat } else if r = 0 ∨ 32 < r then k
      else { k with regs := mapPut k.regs (0, r) d }
    wdbgOut c 0 (m.setCpu (wng c) k)) m

/-- TRACE: Capture-DR pops TRC_GET under scope S3. -/
def opJtagTrace (im : Image) (e : Ecc) (m : M) : M :=
  jtagIf (scopeOk m 3) (fun m => let (w, m) := trcPop im e m; jtagOut 0x41 (leBytes 8 w) m) m

/-- The fuse field and bit a FUSE data register names (R402). -/
def fuseField (n : Nat) : FuseField := if n = 0 then .hash else if n = 1 then .set else if n = 2 then .svn else .dbg

/-- Bits of a fuse field (R276). -/
def fuseBits : FuseField → Nat
  | .hash => 384
  | .set => 1
  | .svn => 64
  | .dbg => 1

/-- The conditions of R278 on blowing OWNER_SET. -/
def mayOwn (u : Fuses) (m : M) : Bool :=
  decide (u.c0.hash = u.c1.hash) && decide (u.c1.hash = u.c2.hash) && decide (u.c0.hash ≠ 0) &&
  m.flag .SEC_STS_DS_OK 0

/-- FUSE (R276 to R278, R402): the fuses after it, and the rest of the state. `stuck` names the bits that cannot be
blown. -/
def opFuse (dr : Nat) (stuck : List (Nat × Nat)) (u : Fuses) (m : M) : Fuses × M :=
  if factoryMode m = false then (u, opBypass m)
  else
    let n := bitsAt dr 0 2
    let k := fuseField (bitsAt dr 2 2)
    let b := bitsAt dr 4 9
    let valid := n < 3 ∧ b < fuseBits k
    let u1 := if bitAt dr 13 ∧ valid ∧ (k ≠ .set ∨ mayOwn u m) ∧ stuck.contains (n, b) = false then u.blow n k b else u
    let r := decide valid && (u1.copy n).bit k b
    (u1, jtagOut 0x50 [if r then 1 else 0] { m with mgt := { m.mgt with fuseBit := r } })

/-! ### I3C (R275, R400) -/

/-- The static address of the target. -/
def i3cStatic : Nat := 0x34

/-- Drives bytes on the I3C bus. -/
def i3cOut (d : List Byte) (m : M) : M := m.emit (.i3c d)

/-- The target takes part in nothing before 1 ms after the release of PORST_N (R395). -/
def i3cOn (run : M → M) (m : M) : M := if i3cLive m then run m else m

/-- A directed CCC is answered only by a target with a dynamic address. -/
def i3cCcc (d : List Byte) (m : M) : M := i3cOn (fun m => if m.mgt.i3cAddr.isSome then i3cOut d m else m) m

/-- ENTDAA: a target without a dynamic address takes the one assigned. -/
def opEntdaa (a : Nat) (m : M) : M :=
  i3cOn (fun m => if m.mgt.i3cAddr.isSome then m else { m with mgt := { m.mgt with i3cAddr := some a } }) m

/-- SETDASA to the static address gives a target without a dynamic address the one it carries. -/
def opSetdasa (static a : Nat) (m : M) : M := if static = i3cStatic then opEntdaa a m else m

/-- RSTDAA. -/
def opRstdaa (m : M) : M := i3cOn (fun m => { m with mgt := { m.mgt with i3cAddr := none } }) m

/-- The 48-bit PID: bit 32 is 1, bits [31:0] are die serial bytes 0 to 3. -/
def i3cPid : Nat := 2 ^ 32 + bitsAt serialNat 0 32

/-- GETPID: six bytes, the most significant first. -/
def opGetpid (m : M) : M := i3cCcc (leBytes 6 i3cPid).reverse m

/-- GETBCR and GETDCR read 0x00. -/
def opGetZero (m : M) : M := i3cCcc [0] m

/-- GETSTATUS: two bytes that the spec does not give. -/
def opGetstatus (m : M) : M :=
  i3cOn (fun m => let (n, m) := m.draw; i3cCcc (leBytes 2 (Config.i3cStatus n).toNat) m) m

/-- I3C_OFFSET_WRITE: exactly four bytes, a multiple of 8. -/
def opI3cOffset (b : List Byte) (m : M) : M :=
  i3cOn (fun m => if b.length = 4 ∧ leVal b % 8 = 0 then { m with mgt := { m.mgt with i3cOff := leVal b } } else m) m

/-- The telemetry set (R400). -/
def telemetry (r : Reg) : Bool :=
  [Reg.IDN_LOT, .IDN_POS, .IDN_SERIAL_LO, .IDN_SERIAL_HI, .IMG_BOOT_STS, .PWR_PIN, .PWR_RST_CAUSE, .PWR_TEMP,
   .PWR_THERM].contains r

/-- The register at an offset as the target reads it: outside the telemetry set, zero. -/
def i3cReg (m : M) (off : Nat) : Nat :=
  match regAt .owner off with
  | some (row, n) => if telemetry row.reg then regVal m row.reg n else 0
  | none => 0

/-- I3C_PRIVATE_READ: n bytes from the register at the offset onward; the offset keeps its advance. -/
def opI3cRead (n : Nat) (m : M) : M :=
  i3cOn (fun m =>
    let o := m.mgt.i3cOff
    let d := ((List.range ((n + 7) / 8)).map (fun k => leBytes 8 (i3cReg m ((o + 8 * k) % 2 ^ 32)))).flatten
    i3cOut (d.take n) { m with mgt := { m.mgt with i3cOff := (o + 8 * (n / 8)) % 2 ^ 32 } }) m

/-! ### The end of a block reset (R370, R380) -/

/-- Reserved bits of a command write (R6). -/
def noteSubmit (im : Image) (s : CmdSrc) (x : Nat) (m : M) : M :=
  match s with
  | .port p => match im.partOfPort p.val with
    | some q => noteRsvd (bar4Of q) .OCMD_CTL 0 x m
    | none => m
  | .wings => noteRsvd .owner .SEC_WCMD 0 x m

/-- Performs a wings load that a block reset held: the register answers, and the core that still waits for it goes on (R380). -/
def heldLoad (im : Image) (c : Fin 4) (rd n a : Nat) (signed : Bool) (e : Ecc) (m : M) : M :=
  let (d, m) := accRead im .owner a n e m
  let k := m.cpu (wng c.val)
  match k.wait with
  | .load l =>
    if l.space = 3 ∧ l.addr = a then
      finishRd (.core c) rd (loadVal n signed d) 1 (m.setCpu (wng c.val) { k with wait := .none })
    else m
  | _ => m

/-- Performs an access against the state a block reset leaves. -/
def runRow (im : Image) (i : Access) (m : M) : M :=
  match i with
  | .registerWrite v off d => accWrite im v off d m
  | .rcFieldRead v off n => readOut im v off n m
  | .movStart v c x => opMovStart im v c.val x.toNat m
  | .movStop v c x => opMovStop im v c.val x.toNat m
  | .movClear v c x => opMovClear im v c.val x.toNat m
  | .movCfgWrite v c isList x => opMovCfgWrite im v c.val isList x.toNat m
  | .wingsStart c e => opWingsStart im c.val e.toNat m
  | .disable l b => opDisable im l.val b m
  | .rewiden l => opRewiden im l.val m
  | .retryNow l => opRetryNow im l.val m
  | .rekeyNow l => opRekeyNow l.val m
  | .ownerMessageSend l => opOwnerSend im l.val m
  | .rxAck l => opRxAck im l.val m
  | .cal o => opCal o.val m
  | .submit s x => opSubmit im s x.toNat (noteSubmit im s x.toNat m)
  | .finishFirmwareCommand x => opFinishFw im x.toNat (noteRsvd .owner .SEC_FWCMD 0 x.toNat m)
  | .train c => opTrain c.val m
  | .memBucketWrite c x => opBucketWrite c.val x.toNat (noteRsvd .owner .MEM_BUCKET c.val x.toNat m)
  | .scrubStart c x => opScrubStart im c.val x.toNat (noteRsvd .owner .MEM_SCRUB_CTL c.val x.toNat m)
  | .scrubStop c => opScrubStop im c.val m
  | .acknowledge o b k x => opAcknowledge im o.val b k.val x.toNat m
  | .pendClear o b k x => opPendClear im o.val b k.val x.toNat m
  | .mbxTxHead s p w => opTxHead im s p.val w.toNat m
  | .mbxTxData s p w => opTxData im s p.val w.toNat m
  | .mbxRx s p n off => opMbxRx im s p.val n off m
  | .flushTx s p => opFlushTx im s p.val m
  | .flushRx s p => opFlushRx im s p.val m
  | .trcPut w => opTrcPut w.toNat (noteRsvd .owner .TRC_PUT 0 w.toNat m)
  | .trcGet e => opTrcGet im e m
  | .traceMark x => opTraceMark x.toNat (noteRsvd .owner .TRC_CTL 0 x.toNat m)
  | .rewind x => opRewind x.toNat (noteRsvd .owner .TRC_CTL 0 x.toNat m)
  | .trace e => opJtagTrace im e m
  | .reg dr => opJtagReg im dr.toNat m
  | .lineRead c k rd e te => serveRead im c.val k rd e te m
  | .lineWrite c k off b q e te => serveWrite im c.val k off b q.own e te m
  | .coreLoad c rd n a signed e => heldLoad im c rd n a signed e m

/-- Performs the held accesses in order; those that still wait stay held. An access through a BAR was taken when it arrived. Line
accesses that waited are served as they came, not by turns (log 43). -/
def releaseHeldRows (im : Image) (m : M) : M :=
  let hs := m.held
  hs.foldl (fun m i => holdRow im i (runRow im i) m) { m with held := [] }

/-- ENTROPY_HEALTH_RESTORED (R287): a waiting step 5 proceeds; without one, writes that waited for a key are performed. The first
component is the image applied. -/
def opEntropyHealthy (im : Image) (m : M) : Option Image × M :=
  if m.boot.entropy then (none, m)
  else
    let (new, m) := opEntropyRestored im m
    (new, if new.isSome then m else releaseHeldRows im m)

/-- BLOCK_RESET_END (R369, R370, R380). -/
def opBlockResetEnd (im : Image) (b c : Nat) (m : M) : M :=
  let k := if b = 22 then c else 0
  if resetDone m b k = false then m
  else releaseHeldRows im (resetOver im b k { m with brst := mapDel m.brst (b, k) })

end Sys2Proof
end

