-- ==== Sys2Proof/Machine/Iface.lean ====
section
/-! DEFINITION. What stands between the blocks: the fabric's owner tags (R11, R12), interface timeouts (R365), and which
register rows a view lets through (R261, R380). -/

namespace Sys2Proof

/-! ### Interface timeouts (R365) -/

/-- The datapath error of a spindle cluster for thread t. -/
def spnTimeout (im : Image) (t : Nat) (m : M) : M := ifaceFault im 21 (t / 32) m

/-- Whether a local load of a processor is unanswered: one its routine left behind, or the one it waits for. -/
def loadOut (m : M) (x : Proc) : Bool :=
  let k := m.cpu x.key
  decide (0 < k.loadDrop) || ((match k.wait with | .load _ => true | _ => false) && !(loadAtHost m x) && !(loadHeld m x))

/-- Whether thread t has no cue read out that is not speculative: one that goes on with the group that is confirmed next is
none (R110, R114); one left behind is discarded work. -/
def fetchSpec (m : M) (t : Nat) : Bool :=
  decide (0 < (m.cpu (thr t)).fetchDrop) || (match m.scriptOn t with
    | some s => !s.fetching || (groupBefore s.win).length != s.win.length
    | none => true)

/-- The same of its list reads: the list of a cue of the first group is not speculative. -/
def listSpec (m : M) (t : Nat) : Bool :=
  decide (0 < (m.cpu (thr t)).listDrop) || (match m.scriptOn t with
    | some s =>
      let pre := s.win.takeWhile (fun c => !c.listOut)
      pre.length == s.win.length || (groupBefore pre).length != pre.length
    | none => true)

/-- The datapath error of a thread's cluster, for work that is not speculative (R115). -/
def spnNote (im : Image) (t : Nat) (spec : Bool) (m : M) : M := if spec then m else spnTimeout im t m

/-- INTERFACE_TIMEOUT (R365): a request outstanding raises the requester's datapath error and is answered as a bus
error; speculative work raises none (R115); a request that is not outstanding, or whose timer has not counted 131,072 sc, is
none. -/
def opInterfaceTimeout (im : Image) (t : Iface) (m : M) : M :=
  match t with
  | .load x =>
    if loadOut m x && overdue m (0, x.num) then
      opLoadAnswer im x .fabric (match x with | .thread k => spnTimeout im k.val m | .core _ => ifaceFault im 4 72 m)
    else m
  | .elem e q off => elemTimeout im e.val q off m
  | .desc c =>
    if (m.chan c.val).reading.isSome && overdue m (1, c.val) then opDescriptorRead im c.val .fabric (ifaceFault im 24 (c.val / 64) m) else m
  | .fetch k =>
    if fetchAtHost m k.val || !(overdue m (2, k.val)) then m
    else opCueFetchComplete im k.val .fabric .agree (spnNote im k.val (fetchSpec m k.val) m)
  | .ilist k =>
    if listAtHost m k.val || !(overdue m (3, k.val)) then m else opListComplete im k.val .fabric (spnNote im k.val (listSpec m k.val) m)

/-! ### The fabric (R11, R12) -/

/-- A port of the stage buffer. -/
def stagePort (d : Nat) : Bool := decide (20 ≤ d) && decide (d < 52)

/-- The fabric port of the slice that holds a stage address: bits [12:8] select the slice (R15). -/
def slicePort (a : Nat) : Nat := 20 + bitsAt a 8 5

/-- Bytes of a transfer. -/
def Fabric.size (t : Fabric) : Nat := if t.write then t.data.length else t.len

/-- A transfer the fabric can carry: 1 to 256 bytes, inside one 256-byte-aligned block of the destination, a stage address at
the slice that holds it and a local address at its channel (R11, R15, R306). -/
def fabricOk (im : Image) (t : Fabric) : Bool :=
  let d := t.dst.val
  let a := t.addr.toNat
  decide (1 ≤ t.size) && decide (a % 256 + t.size ≤ 256) &&
  (!(stagePort d) || d == slicePort a) &&
  (!(decide (68 ≤ d) && decide (d < 72)) || (match chanAddr im a with | some x => 68 + x.1 == d | none => true))

/-- The owner of the resource a transfer addresses: a host port's partition (R16), a slot's partition at its octet (R20), the
owner stage reserve or the holder of a stage block (R15, R43), a spindle's partition (R19), the region of a local address
(R312), the holder within the management complex (log entry 98). None owns a resource that is allotted to nobody. -/
def fabricOwner (im : Image) (t : Fabric) : Option Nat :=
  let d := t.dst.val
  let a := t.addr.toNat
  if d < 8 then im.partOfPort d
  else if d < 20 then (im.right a).map (·.part)
  else if d < 52 then some (if a < im.ownerStageBytes then 8 else t.holder.val)
  else if d < 68 then (if im.spindleOwner (a / 4) ≤ 8 then some (im.spindleOwner (a / 4)) else none)
  else if d < 72 then regionOf im a
  else some t.holder.val

/-- INFO of a fabric tag fault at port d, of a transfer from port src with an owner tag (R364): the source port and the tag at
the management complex, the slice and the source port at the stage buffer, a kind in [3:0] and a detail in [63:8] at a host port,
the cluster first at a spindle. How the rest is laid out, and the kinds, the spec does not say. -/
def tagInfo (f d src tag : Nat) : Nat :=
  if d < 8 then Config.infoPack f src tag % 16 + 2 ^ 8 * (Config.infoPack (2 ^ 16 + f) src tag % 2 ^ 56)
  else if 20 ≤ d ∧ d < 52 then Config.infoPack f (d - 20) src
  else if 52 ≤ d ∧ d < 68 then Config.infoPack f (d - 52) src
  else if d = 72 then src + 2 ^ 8 * tag
  else Config.infoPack f src tag

/-- The datapath error source of the destination of a transfer, with INFO (R12, R364). -/
def tagFault (im : Image) (t : Fabric) (m : M) : M :=
  let d := t.dst.val
  let f := if d < 8 then 0x028 + d else if d < 20 then 0x0D4 + 8 * (d - 8) else if d < 52 then 0x072
    else if d < 68 then 0x05B else if d < 72 then 0x0B4 + 8 * (d - 68) else 0x018
  fire im f (tagInfo f d t.src.val t.tag.val) m

/-- A transfer that is refused: a write is discarded, a read gets an error response and no data, and the destination records
a fabric tag fault (R12). -/
def refuseFabric (im : Image) (t : Fabric) (m : M) : M :=
  let m := tagFault im t m
  if t.write then m else m.emit (.fabric true t.dst.val [])

/-- FABRIC_TRANSFER (R12, R282): the tag is compared with the owner of the resource on two paths; a difference of the paths is
a refusal that counts and fires as well. A stage slice stores what is written to it and answers a read; the other
blocks pass the transfer on to commands of their own (log entry 98). -/
def opFabric (im : Image) (t : Fabric) (m : M) : M :=
  if fabricOk im t = false then m
  else
    let v := pathsOf t.paths (fabricOwner im t == some t.tag.val)
    if v.a ≠ v.b then refuseFabric im t (pathDisagree im 7 m)
    else if v.a = false then refuseFabric im t m
    else if stagePort t.dst.val = false then (if t.write then m else m.emit (.fabric false t.dst.val []))
    else if t.write then { m with stage := memWrite m.stage t.addr.toNat t.data }
    else m.emit (.fabric false t.dst.val (memRead m.stage t.addr.toNat t.len))

/-! ### Register rows through a function (R261) -/

/-- The partition whose function a register row goes through. -/
def rowPart (im : Image) (i : Access) : Option Nat :=
  match i with
  | .movStart v _ _ | .movStop v _ _ | .movClear v _ _ | .movCfgWrite v _ _ _ =>
    if v = .owner then none else some (viewPart v)
  | .submit s _ => match s with
    | .port p => im.partOfPort p.val
    | .wings => none
  | .acknowledge o _ _ _ | .pendClear o _ _ _ => if o.val < 8 then some o.val else none
  | .mbxTxHead s p _ | .mbxTxData s p _ | .mbxRx s p _ _ | .flushTx s p | .flushRx s p =>
    if s = .host then some p.val else none
  | _ => none

/-- Whether the function a register row goes through takes it. -/
def rowOpen (im : Image) (m : M) (i : Access) : Bool :=
  match rowPart im i with
  | some p => barOpen im m p
  | none => true

/-- The host's TLP of a register row that goes through a function (R271). -/
def touchRow (im : Image) (i : Access) (m : M) : M :=
  match rowPart im i with
  | some p => hostTlp p m
  | none => m

/-- A register row: not taken by a closed function, held while the block it reaches resets, else performed. -/
def opRow (im : Image) (i : Access) (m : M) : M :=
  if rowOpen im m i then holdRow im i (runRow im i) (touchRow im i m) else touchRow im i m

/-- MBX_RX as a read: a closed function answers UR. -/
def opRowRead (im : Image) (i : Access) (v : View) (off : Nat) (m : M) : M :=
  if rowOpen im m i then holdRow im i (runRow im i) (touchRow im i m) else (touchRow im i m).emit (.regUr v off)

/-- INLINE_WINDOW_WRITE (R145): a write that stays inside the 64 bytes of the window. -/
def opInline (im : Image) (p r off : Nat) (d : List Byte) (m : M) : M :=
  if h : p < 8 then
    if off + d.length ≤ 64 ∧ barOpen im m p then accWrite im (.bar2 ⟨p, h⟩) (r * 0x1000 + 0x40 + off) d (hostTlp p m) else m
  else m

/-- Runs an effect unless instance b is in a block reset. -/
def unlessIn (b : Nat) (run : M → M) (m : M) : M := if m.inReset b 0 then m else run m

/-- Runs an effect of the host side of partition p, which needs an open function. -/
def whenOpen (im : Image) (p : Nat) (run : M → M) (m : M) : M := if barOpen im m p then run (hostTlp p m) else m

end Sys2Proof
end

