-- ==== Sys2Proof/Machine/Advance.lean ====
section
/-! DEFINITION. What one sc cycle does when no command waits: the tick unit's step of the cycle (R57), the cue-engine steps
of the spindles (R184), the interrupt controller's work of a cycle (R330, R338), and the signals that change as the next
cycle begins (R56, R66). -/

namespace Sys2Proof

/-- The tick unit's step of this cycle: the edge when it is due and no command has made it, else one of steps 2 to 5 in
their cycles (R57). -/
def tickStep (im : Image) (m : M) : M :=
  if m.tick.on = false then m
  else if m.now = m.tick.next then doEdge im [] [] m
  else if 1 ≤ m.tick.phase ∧ m.tick.phase < 5 ∧ m.now = m.tick.edge + m.tick.phase then
    edgeStep im (m.tick.phase + 1) { m with tick := { m.tick with phase := m.tick.phase + 1 } }
  else m

/-- The spindles decode cues that have arrived, one step of one thread each (R184). -/
def decodeSteps (im : Image) (m : M) : M :=
  m.scripts.foldl (fun m e => if e.2.decoding ∧ e.2.thread.isSome then goOn im e.1.1 e.1.2 m else m) m

/-- TICK_OUT: high from e + 2 for 32 sc (R56). -/
def tickOut (im : Image) (m : M) : M :=
  if im.tickOut ≠ 1 ∨ m.tick.on = false ∨ m.tick.phase = 0 then m
  else if m.now = m.tick.edge + 2 then m.emit (.pin .tickOut true)
  else if m.now = m.tick.edge + 34 then m.emit (.pin .tickOut false)
  else m

/-- The next cycle begins, with no event of its own yet (R5); an edge cycle takes the values of the caps (R66). -/
def enterCycle (im : Image) (m : M) : M :=
  let m := { m with now := m.now + 1, cyc := [] }
  tickOut im (if m.tick.on ∧ m.now = m.tick.next then latchCaps im m else m)

/-- The host ports at the end of a cycle: a partition in D3hot with a source that became pending in it sends PM_PME (R269). -/
def portsLeave (im : Image) (m : M) : M := im.enabledParts.foldl (fun m p => pmeOnNew im p m) m

/-- The host ports at the start of a cycle: the messages whose cycle has come start (R333, R335). -/
def portsEnter (im : Image) (m : M) : M :=
  im.enabledParts.foldl (fun m p => if (m.hostOf p).msgq.isEmpty then m else issueMsgs p m) m

/-- One cycle passes (log entries 2, 30). -/
def passCycle (im : Image) (m : M) : M :=
  bootRelease (portsEnter im (irqEnter im (enterCycle im (portsLeave im (irqLeave im (tickStep im (decodeSteps im m)))))))

end Sys2Proof
end

