-- ==== Sys2Proof/Machine/Exec.lean ====
section
/-! DEFINITION. What every meaning does around its operation: the image in force, and the reactions that the operation
asked for. -/

namespace Sys2Proof

/-- IMG_ROOT_HASH_READ (R382): the answer of the read of IMG_ROOT_HASH[i]. -/
def opRootRead (im : Image) (v : Vote) (i : Fin 6) (m : M) : M :=
  let (x, m) := rootHashRead im v i m
  m.emit (.regData .owner (regOff .owner .IMG_ROOT_HASH i.val) (leBytes 8 x))

namespace Machine

/-- The image in force: none before step 5 of the boot (R41, R43). -/
def State.inForce (s : State) : Image := if s.m.boot.phase = .run then s.img else Image.empty

/-- A bound on the reactions that can follow one command (R361). -/
def reactRounds : Nat := 1024

/-- An operation on everything but fuses, image and queue, then the reactions it asked for. -/
def State.upd (s : State) (f : Image → M → M) : State :=
  { s with m := settle s.inForce reactRounds (f s.inForce s.m) }

/-- An operation of the boot that may apply an image (R43, R44). -/
def State.updImg (s : State) (f : Image → M → Option Image × M) : State :=
  match f s.inForce s.m with
  | (some new, m) => { s with img := new, m := settle new reactRounds m }
  | (none, m) => { s with m := settle s.inForce reactRounds m }

/-- An operation that may blow fuses (R276). -/
def State.updFuses (s : State) (f : Image → M → Fuses × M) : State :=
  let (u, m) := f s.inForce s.m
  { s with fuses := u, m := settle s.inForce reactRounds m }

end Machine

end Sys2Proof
end

