-- ==== Sys2Proof/Machine/ExecAlu.lean ====
section
/-! DEFINITION. Meanings of the integer instructions (08, R189 to R191). -/

namespace Sys2Proof.Machine

/-- ADD (R189). -/
def execAdd (i : Issue) (s : State) : Host.Outcome State Fault Refusal :=
  .next (s.upd fun im m => opAlu im .add i m)

/-- ADDW (R189). -/
def execAddw (i : Issue) (s : State) : Host.Outcome State Fault Refusal :=
  .next (s.upd fun im m => opAlu im .addw i m)

/-- SUB (R189). -/
def execSub (i : Issue) (s : State) : Host.Outcome State Fault Refusal :=
  .next (s.upd fun im m => opAlu im .sub i m)

/-- SUBW (R189). -/
def execSubw (i : Issue) (s : State) : Host.Outcome State Fault Refusal :=
  .next (s.upd fun im m => opAlu im .subw i m)

/-- AND (R189). -/
def execOpAnd (i : Issue) (s : State) : Host.Outcome State Fault Refusal :=
  .next (s.upd fun im m => opAlu im .and i m)

/-- OR (R189). -/
def execOpOr (i : Issue) (s : State) : Host.Outcome State Fault Refusal :=
  .next (s.upd fun im m => opAlu im .or i m)

/-- XOR (R189). -/
def execOpXor (i : Issue) (s : State) : Host.Outcome State Fault Refusal :=
  .next (s.upd fun im m => opAlu im .xor i m)

/-- ANDN (R189). -/
def execAndn (i : Issue) (s : State) : Host.Outcome State Fault Refusal :=
  .next (s.upd fun im m => opAlu im .andn i m)

/-- NEG (R189). -/
def execNeg (i : Issue) (s : State) : Host.Outcome State Fault Refusal :=
  .next (s.upd fun im m => opAlu im .neg i m)

/-- NEGW (R191). -/
def execNegw (i : Issue) (s : State) : Host.Outcome State Fault Refusal :=
  .next (s.upd fun im m => opAlu im .negw i m)

/-- SLL (R189). -/
def execSll (i : Issue) (s : State) : Host.Outcome State Fault Refusal :=
  .next (s.upd fun im m => opAlu im .sll i m)

/-- SLLW (R191). -/
def execSllw (i : Issue) (s : State) : Host.Outcome State Fault Refusal :=
  .next (s.upd fun im m => opAlu im .sllw i m)

/-- SRL (R189). -/
def execSrl (i : Issue) (s : State) : Host.Outcome State Fault Refusal :=
  .next (s.upd fun im m => opAlu im .srl i m)

/-- SRLW (R191). -/
def execSrlw (i : Issue) (s : State) : Host.Outcome State Fault Refusal :=
  .next (s.upd fun im m => opAlu im .srlw i m)

/-- SRA (R189). -/
def execSra (i : Issue) (s : State) : Host.Outcome State Fault Refusal :=
  .next (s.upd fun im m => opAlu im .sra i m)

/-- SRAW (R191). -/
def execSraw (i : Issue) (s : State) : Host.Outcome State Fault Refusal :=
  .next (s.upd fun im m => opAlu im .sraw i m)

/-- ROL (R189). -/
def execRol (i : Issue) (s : State) : Host.Outcome State Fault Refusal :=
  .next (s.upd fun im m => opAlu im .rol i m)

/-- ROLW (R191). -/
def execRolw (i : Issue) (s : State) : Host.Outcome State Fault Refusal :=
  .next (s.upd fun im m => opAlu im .rolw i m)

/-- ROR (R189). -/
def execRor (i : Issue) (s : State) : Host.Outcome State Fault Refusal :=
  .next (s.upd fun im m => opAlu im .ror i m)

/-- RORW (R191). -/
def execRorw (i : Issue) (s : State) : Host.Outcome State Fault Refusal :=
  .next (s.upd fun im m => opAlu im .rorw i m)

/-- MUL (R189). -/
def execMul (i : Issue) (s : State) : Host.Outcome State Fault Refusal :=
  .next (s.upd fun im m => opAlu im .mul i m)

/-- MULW (R189). -/
def execMulw (i : Issue) (s : State) : Host.Outcome State Fault Refusal :=
  .next (s.upd fun im m => opAlu im .mulw i m)

/-- MULH (R189). -/
def execMulh (i : Issue) (s : State) : Host.Outcome State Fault Refusal :=
  .next (s.upd fun im m => opAlu im .mulh i m)

/-- MULHU (R189). -/
def execMulhu (i : Issue) (s : State) : Host.Outcome State Fault Refusal :=
  .next (s.upd fun im m => opAlu im .mulhu i m)

/-- DIV (R191). -/
def execDiv (i : Issue) (s : State) : Host.Outcome State Fault Refusal :=
  .next (s.upd fun im m => opAlu im .div i m)

/-- DIVW (R191). -/
def execDivw (i : Issue) (s : State) : Host.Outcome State Fault Refusal :=
  .next (s.upd fun im m => opAlu im .divw i m)

/-- DIVU (R191). -/
def execDivu (i : Issue) (s : State) : Host.Outcome State Fault Refusal :=
  .next (s.upd fun im m => opAlu im .divu i m)

/-- DIVUW (R191). -/
def execDivuw (i : Issue) (s : State) : Host.Outcome State Fault Refusal :=
  .next (s.upd fun im m => opAlu im .divuw i m)

/-- REM (R191). -/
def execRem (i : Issue) (s : State) : Host.Outcome State Fault Refusal :=
  .next (s.upd fun im m => opAlu im .rem i m)

/-- REMW (R191). -/
def execRemw (i : Issue) (s : State) : Host.Outcome State Fault Refusal :=
  .next (s.upd fun im m => opAlu im .remw i m)

/-- REMU (R191). -/
def execRemu (i : Issue) (s : State) : Host.Outcome State Fault Refusal :=
  .next (s.upd fun im m => opAlu im .remu i m)

/-- REMUW (R191). -/
def execRemuw (i : Issue) (s : State) : Host.Outcome State Fault Refusal :=
  .next (s.upd fun im m => opAlu im .remuw i m)

/-- SEQ (R189). -/
def execSeq (i : Issue) (s : State) : Host.Outcome State Fault Refusal :=
  .next (s.upd fun im m => opAlu im .seq i m)

/-- SNE (R189). -/
def execSne (i : Issue) (s : State) : Host.Outcome State Fault Refusal :=
  .next (s.upd fun im m => opAlu im .sne i m)

/-- SLT (R189). -/
def execSlt (i : Issue) (s : State) : Host.Outcome State Fault Refusal :=
  .next (s.upd fun im m => opAlu im .slt i m)

/-- SLTU (R189). -/
def execSltu (i : Issue) (s : State) : Host.Outcome State Fault Refusal :=
  .next (s.upd fun im m => opAlu im .sltu i m)

/-- SGE (R189). -/
def execSge (i : Issue) (s : State) : Host.Outcome State Fault Refusal :=
  .next (s.upd fun im m => opAlu im .sge i m)

/-- SGEU (R189). -/
def execSgeu (i : Issue) (s : State) : Host.Outcome State Fault Refusal :=
  .next (s.upd fun im m => opAlu im .sgeu i m)

/-- ADDI (R190). -/
def execAddi (i : Issue) (s : State) : Host.Outcome State Fault Refusal :=
  .next (s.upd fun im m => opAlu im .addi i m)

/-- ADDIW (R190). -/
def execAddiw (i : Issue) (s : State) : Host.Outcome State Fault Refusal :=
  .next (s.upd fun im m => opAlu im .addiw i m)

/-- ANDI (R190). -/
def execAndi (i : Issue) (s : State) : Host.Outcome State Fault Refusal :=
  .next (s.upd fun im m => opAlu im .andi i m)

/-- ORI (R190). -/
def execOri (i : Issue) (s : State) : Host.Outcome State Fault Refusal :=
  .next (s.upd fun im m => opAlu im .ori i m)

/-- XORI (R190). -/
def execXori (i : Issue) (s : State) : Host.Outcome State Fault Refusal :=
  .next (s.upd fun im m => opAlu im .xori i m)

/-- LUI (R190). -/
def execLui (i : Issue) (s : State) : Host.Outcome State Fault Refusal :=
  .next (s.upd fun im m => opAlu im .lui i m)

/-- SLLI (R190). -/
def execSlli (i : Issue) (s : State) : Host.Outcome State Fault Refusal :=
  .next (s.upd fun im m => opAlu im .slli i m)

/-- SRLI (R190). -/
def execSrli (i : Issue) (s : State) : Host.Outcome State Fault Refusal :=
  .next (s.upd fun im m => opAlu im .srli i m)

/-- SRAI (R190). -/
def execSrai (i : Issue) (s : State) : Host.Outcome State Fault Refusal :=
  .next (s.upd fun im m => opAlu im .srai i m)

/-- ROLI (R190). -/
def execRoli (i : Issue) (s : State) : Host.Outcome State Fault Refusal :=
  .next (s.upd fun im m => opAlu im .roli i m)

/-- SLLIW (R190). -/
def execSlliw (i : Issue) (s : State) : Host.Outcome State Fault Refusal :=
  .next (s.upd fun im m => opAlu im .slliw i m)

/-- SRLIW (R190). -/
def execSrliw (i : Issue) (s : State) : Host.Outcome State Fault Refusal :=
  .next (s.upd fun im m => opAlu im .srliw i m)

/-- SRAIW (R190). -/
def execSraiw (i : Issue) (s : State) : Host.Outcome State Fault Refusal :=
  .next (s.upd fun im m => opAlu im .sraiw i m)

/-- ROLIW (R190). -/
def execRoliw (i : Issue) (s : State) : Host.Outcome State Fault Refusal :=
  .next (s.upd fun im m => opAlu im .roliw i m)

/-- SEQI (R190). -/
def execSeqi (i : Issue) (s : State) : Host.Outcome State Fault Refusal :=
  .next (s.upd fun im m => opAlu im .seqi i m)

/-- SNEI (R190). -/
def execSnei (i : Issue) (s : State) : Host.Outcome State Fault Refusal :=
  .next (s.upd fun im m => opAlu im .snei i m)

/-- SLTI (R190). -/
def execSlti (i : Issue) (s : State) : Host.Outcome State Fault Refusal :=
  .next (s.upd fun im m => opAlu im .slti i m)

/-- SLTIU (R190). -/
def execSltiu (i : Issue) (s : State) : Host.Outcome State Fault Refusal :=
  .next (s.upd fun im m => opAlu im .sltiu i m)

/-- SGEI (R190). -/
def execSgei (i : Issue) (s : State) : Host.Outcome State Fault Refusal :=
  .next (s.upd fun im m => opAlu im .sgei i m)

/-- SGEIU (R190). -/
def execSgeiu (i : Issue) (s : State) : Host.Outcome State Fault Refusal :=
  .next (s.upd fun im m => opAlu im .sgeiu i m)

end Sys2Proof.Machine
end

