-- ==== Sys2Proof/Machine/ExecBoot.lean ====
section
/-! DEFINITION. Meanings of the start-up and register-access commands (00 to 02, 11, 16). -/

namespace Sys2Proof.Machine

/-- REGISTER_WRITE (R4); a poisoned one is discarded (R261). -/
def execRegisterWrite (v : View) (off : Nat) (data : Payload) (s : State) : Host.Outcome State Fault Refusal :=
  .next (s.upd fun im m => if data.ep then opPoisoned im v m else opRegWrite im v off data.bytes m)

/-- RC_FIELD_READ (R4). -/
def execRcFieldRead (v : View) (off size : Nat) (s : State) : Host.Outcome State Fault Refusal :=
  .next (s.upd fun im m => opRegRead im v off size m)

/-- FABRIC_TRANSFER (R12). -/
def execFabricTransfer (t : Fabric) (s : State) : Host.Outcome State Fault Refusal :=
  .next (s.upd fun im m => opFabric im t m)

/-- PORST_N_ASSERT (R392). -/
def execPorstNAssert (ns : Nat) (s : State) : Host.Outcome State Fault Refusal :=
  .next (s.upd fun _ m => opPorstAssert ns m)

/-- PORST_N_RELEASE (R41). -/
def execPorstNRelease (s : State) : Host.Outcome State Fault Refusal :=
  .next (s.upd fun _ m => opPorstRelease m)

/-- RESET_N_ASSERT (R393). -/
def execResetNAssert (samples : Nat) (s : State) : Host.Outcome State Fault Refusal :=
  .next (s.upd fun _ m => opResetAssert samples m)

/-- RESET_N_RELEASE (R41). -/
def execResetNRelease (s : State) : Host.Outcome State Fault Refusal :=
  .next (s.upd fun _ m => opResetRelease m)

/-- CORE_PLL_LOCK_TIMEOUT (R29). -/
def execCorePllLockTimeout (s : State) : Host.Outcome State Fault Refusal :=
  .next (s.upd fun _ m => opPllTimeout m)

/-- CORE_PLL_LOCK_LOST (R29). -/
def execCorePllLockLost (s : State) : Host.Outcome State Fault Refusal :=
  .next (s.upd fun im m => opPllLost im m)

/-- MEMORY_PLL_LOCK_LOST (R29). -/
def execMemoryPllLockLost (ch : Fin 4) (s : State) : Host.Outcome State Fault Refusal :=
  .next (s.upd fun im m => opMemPllLost im ch.val m)

/-- REFCLK_HP_ABSENT (R29). -/
def execRefclkHpAbsent (n : Fin 8) (s : State) : Host.Outcome State Fault Refusal :=
  .next (s.upd fun im m => opHpAbsent im n.val m)

/-- REFCLK_ON_ABSENT (R218). -/
def execRefclkOnAbsent (o : Fin 12) (s : State) : Host.Outcome State Fault Refusal :=
  .next (s.upd fun im m => opRefclkOnAbsent im o.val m)

/-- REFCLK_ON_RETURN (R254). -/
def execRefclkOnReturn (o : Fin 12) (s : State) : Host.Outcome State Fault Refusal :=
  .next (s.upd fun _ m => opRefclkOnReturn o.val m)

/-- SLOT_READ_COMPLETE (R41). -/
def execSlotReadComplete (bytes : List Byte) (hashAgree : Bool) (sense : FuseSense) (s : State) :
    Host.Outcome State Fault Refusal :=
  .next (s.upd fun im m => opSlotRead im s.fuses bytes hashAgree sense m)

/-- FLASH_READ_TIMEOUT (R38). -/
def execFlashReadTimeout (sense : FuseSense) (s : State) : Host.Outcome State Fault Refusal :=
  .next (s.upd fun im m => opFlashTimeout im s.fuses sense m)

/-- SIGNATURE_VERIFY_COMPLETE (R40). -/
def execSignatureVerifyComplete (key sig : Verdict) (svnAgree entropy : Bool) (s : State) : Host.Outcome State Fault Refusal :=
  .next (s.updImg fun im m => opSigVerify im key sig svnAgree entropy m)

/-- STEP5_ENTROPY_TIMEOUT (R287). -/
def execStep5EntropyTimeout (s : State) : Host.Outcome State Fault Refusal :=
  .next (s.upd fun _ m => opEntropyTimeout m)

/-- RELEASE (R46). -/
def execRelease (p : Fin 8) (s : State) : Host.Outcome State Fault Refusal :=
  .next (s.upd fun im m => opRelease im p.val m)

/-- READY (R47). -/
def execReady (p : Fin 8) (s : State) : Host.Outcome State Fault Refusal :=
  .next (s.upd fun im m => opReady im p.val m)

/-- PARTITION_READY_OVERDUE (R47). -/
def execPartitionReadyOverdue (p : Fin 8) (s : State) : Host.Outcome State Fault Refusal :=
  .next (s.upd fun im m => opReadyOverdue im p.val m)

/-- FLASH_ERASE (R49). -/
def execFlashErase (addr : BitVec 25) (s : State) : Host.Outcome State Fault Refusal :=
  .next (s.upd fun im m => opFlashErase im addr.toNat m)

/-- FLASH_PROGRAM (R49). -/
def execFlashProgram (addr : BitVec 25) (src : BitVec 16) (s : State) : Host.Outcome State Fault Refusal :=
  .next (s.upd fun im m => opFlashProgram im addr.toNat src.toNat m)

/-- FLASH_CMD_RESERVED_OP (R49). -/
def execFlashCmdReservedOp (_op : Bool) (s : State) : Host.Outcome State Fault Refusal :=
  .next (s.upd fun _ m => flashRefused m)

/-- FLASH_COMMAND_COMPLETE (R49). -/
def execFlashCommandComplete (failed : Bool) (s : State) : Host.Outcome State Fault Refusal :=
  .next (s.upd fun im m => opFlashComplete im failed m)

/-- IMG_CHECK_START (R50). -/
def execImgCheckStart (slot : Fin 2) (s : State) : Host.Outcome State Fault Refusal :=
  .next (s.upd fun _ m => opCheckStart slot.val m)

/-- IMG_CHECK_DEFERRED_START (R50). -/
def execImgCheckDeferredStart (s : State) : Host.Outcome State Fault Refusal :=
  .next (s.upd fun _ m => opCheckDeferred m)

/-- IMG_CHECK_DONE (R50). -/
def execImgCheckDone (bytes : Option (List Byte)) (hashAgree : Bool) (key sig : Verdict) (svnAgree : Bool) (s : State) :
    Host.Outcome State Fault Refusal :=
  .next (s.upd fun im m => opCheckDone im bytes hashAgree key sig svnAgree m)

/-- FLASH_WINDOW_READ (R383). -/
def execFlashWindowRead (a : BitVec 25) (size : Nat) (bytes : List Byte) (s : State) : Host.Outcome State Fault Refusal :=
  .next (s.upd fun _ m => opFlashWindow a.toNat size bytes m)

/-- CORE_PLL_LOCK (R41). -/
def execCorePllLock (octal : Bool) (seq0 seq1 : BitVec 64) (s : State) : Host.Outcome State Fault Refusal :=
  .next (s.upd fun _ m => opPllLock octal seq0.toNat seq1.toNat m)

/-- ENTROPY_HEALTH_RESTORED (R287). -/
def execEntropyHealthRestored (s : State) : Host.Outcome State Fault Refusal :=
  .next (s.updImg fun im m => opEntropyHealthy im m)

/-- REFCLK_HP_RETURN (R29). -/
def execRefclkHpReturn (n : Fin 8) (s : State) : Host.Outcome State Fault Refusal :=
  .next (s.upd fun im m => opHpReturn im n.val m)

/-- IMG_ROOT_HASH_READ (R382). -/
def execImgRootHashRead (v : Vote) (i : Fin 6) (s : State) : Host.Outcome State Fault Refusal :=
  .next (s.upd fun im m => opRootRead im v i m)

end Sys2Proof.Machine
end

