-- ==== Sys2Proof/Machine/ExecCue.lean ====
section
/-! DEFINITION. Meanings of the script and cue commands (04, 05). -/

namespace Sys2Proof

/-- A device cue: it begins, the data its committed rehearsal holds passes on, and its transfer is seen to (R89, R122). -/
def opDevCue (im : Image) (op t : Nat) (m : M) : M :=
  let m := opDeviceCue im op t m
  match m.scriptOn t with
  | none => m
  | some s =>
    let m := match s.win with
      | c :: _ => match c.rhs with
        | some n => feedRh im (slotLink c.cue.slot) n m
        | none => m
      | [] => m
    settleQueue im s.cluster s.part m

end Sys2Proof

namespace Sys2Proof.Machine

/-- SCRIPT_DISPATCH (R143). -/
def execScriptDispatch (p : Fin 8) (tag : BitVec 32) (t : Fin 512) (s : State) : Host.Outcome State Fault Refusal :=
  .next (s.upd fun im m => opScriptDispatch im p.val tag.toNat t.val m)

/-- SCRIPT_PARK (R76). -/
def execScriptPark (p : Fin 8) (tag : BitVec 32) (ctx : Fin 65536) (s : State) : Host.Outcome State Fault Refusal :=
  .next (s.upd fun _ m => opScriptPark p.val tag.toNat ctx.val m)

/-- CONTEXT_RESTORE (R319). -/
def execContextRestore (p : Fin 8) (tag : BitVec 32) (t : Fin 512) (ch : Fin 4) (bad : Bool) (s : State) :
    Host.Outcome State Fault Refusal :=
  .next (s.upd fun im m => opContextRestore im p.val tag.toNat t.val ch.val bad m)

/-- CUE_FETCH (R113). -/
def execCueFetch (t : Fin 512) (s : State) : Host.Outcome State Fault Refusal :=
  .next (s.upd fun im m => opCueFetch im t.val m)

/-- CUE_FETCH_COMPLETE (R82). -/
def execCueFetchComplete (t : Fin 512) (r : RdRes) (v : Vote) (s : State) : Host.Outcome State Fault Refusal :=
  .next (s.upd fun im m => opCueFetchComplete im t.val r v m)

/-- INDIRECT_LIST_READ_COMPLETE (R99). -/
def execIndirectListReadComplete (t : Fin 512) (r : RdRes) (s : State) : Host.Outcome State Fault Refusal :=
  .next (s.upd fun im m => opListComplete im t.val r m)

/-- WRITE (R89). -/
def execWrite (t : Fin 512) (s : State) : Host.Outcome State Fault Refusal :=
  .next (s.upd fun im m => opDevCue im 1 t.val m)

/-- READ (R89). -/
def execRead (t : Fin 512) (s : State) : Host.Outcome State Fault Refusal :=
  .next (s.upd fun im m => opDevCue im 2 t.val m)

/-- CONTROL (R89). -/
def execControl (t : Fin 512) (s : State) : Host.Outcome State Fault Refusal :=
  .next (s.upd fun im m => opDevCue im 3 t.val m)

/-- SENSE (R89). -/
def execSense (t : Fin 512) (s : State) : Host.Outcome State Fault Refusal :=
  .next (s.upd fun im m => opDevCue im 4 t.val m)

/-- RELAY (R90). -/
def execRelay (t : Fin 512) (s : State) : Host.Outcome State Fault Refusal :=
  .next (s.upd fun im m => opDevCue im 5 t.val m)

/-- JUMP (R72). -/
def execJump (t : Fin 512) (s : State) : Host.Outcome State Fault Refusal :=
  .next (s.upd fun im m => opSimpleCue im 8 t.val m)

/-- NOP (R89). -/
def execNop (t : Fin 512) (s : State) : Host.Outcome State Fault Refusal :=
  .next (s.upd fun im m => opSimpleCue im 9 t.val m)

/-- WAIT (R91). -/
def execWait (t : Fin 512) (s : State) : Host.Outcome State Fault Refusal :=
  .next (s.upd fun im m => opWait im t.val m)

/-- CALL (R93). -/
def execCall (t : Fin 512) (s : State) : Host.Outcome State Fault Refusal :=
  .next (s.upd fun im m => opCall im t.val m)

/-- MARK (R94). -/
def execMark (t : Fin 512) (s : State) : Host.Outcome State Fault Refusal :=
  .next (s.upd fun im m => opSimpleCue im 12 t.val m)

/-- FENCE (R81). -/
def execFence (t : Fin 512) (s : State) : Host.Outcome State Fault Refusal :=
  .next (s.upd fun im m => opSimpleCue im 13 t.val m)

/-- WAIT_TICKS_EXPIRE (R91). -/
def execWaitTicksExpire (t : Fin 512) (s : State) : Host.Outcome State Fault Refusal :=
  .next (s.upd fun im m => opWaitOver im t.val false m)

/-- WAIT_TIMEOUT (R91). -/
def execWaitTimeout (t : Fin 512) (s : State) : Host.Outcome State Fault Refusal :=
  .next (s.upd fun im m => opWaitOver im t.val true m)

/-- STAGE_GRANT (R68). -/
def execStageGrant (p : Fin 8) (s : State) : Host.Outcome State Fault Refusal :=
  .next (s.upd fun _ m => opStageGrant p.val m)

/-- CUE_EVENT (R91). -/
def execCueEvent (p : Fin 8) (bits : BitVec 64) (s : State) : Host.Outcome State Fault Refusal :=
  .next (s.upd fun im m => whenOpen im p.val (opCueEvent im p.val bits.toNat) m)

end Sys2Proof.Machine
end

