-- ==== Sys2Proof/Machine/ExecFault.lean ====
section
/-! DEFINITION. Meanings of the fault, reset and thermal commands (15). -/

namespace Sys2Proof.Machine

/-- FAULT_WINDOW_EXPIRY (R360). -/
def execFaultWindowExpiry (f : Fin 304) (s : State) : Host.Outcome State Fault Refusal :=
  .next (s.upd fun _ m => opWindowExpiry f.val m)

/-- BLOCK_RESET_END (R370). -/
def execBlockResetEnd (b : Fin 45) (c : Fin 4) (s : State) : Host.Outcome State Fault Refusal :=
  .next (s.upd fun im m => opBlockResetEnd im b.val c.val m)

/-- PWR_BRESET (R368). -/
def execPwrBreset (value : BitVec 64) (s : State) : Host.Outcome State Fault Refusal :=
  .next (s.upd fun im m => opPwrBreset im value.toNat m)

/-- FAULT_INJECT (R277). -/
def execFaultInject (b : Fin 45) (value : BitVec 64) (s : State) : Host.Outcome State Fault Refusal :=
  .next (s.upd fun im m => opFaultInject im b.val value.toNat m)

/-- INTERFACE_TIMEOUT (R365). -/
def execInterfaceTimeout (t : Iface) (s : State) : Host.Outcome State Fault Refusal :=
  .next (s.upd fun im m => opInterfaceTimeout im t m)

/-- THERMAL_WARNING (R404). -/
def execThermalWarning (sensor : Fin 16) (temp : BitVec 16) (s : State) : Host.Outcome State Fault Refusal :=
  .next (s.upd fun im m => opThermalWarning im sensor.val temp.toNat m)

/-- THERMAL_TRIP (R367). -/
def execThermalTrip (sensor : Fin 16) (temp : BitVec 16) (s : State) : Host.Outcome State Fault Refusal :=
  .next (s.upd fun im m => opThermalTrip im sensor.val temp.toNat m)

/-- THERMAL_WARNING_REARM (R364). -/
def execThermalWarningRearm (temp : BitVec 16) (s : State) : Host.Outcome State Fault Refusal :=
  .next (s.upd fun _ m => opThermalRearm temp.toNat m)

/-- SENSOR_READINGS_VALID (R401). -/
def execSensorReadingsValid (temps : List (BitVec 16)) (s : State) : Host.Outcome State Fault Refusal :=
  .next (s.upd fun _ m => opSensorsValid temps m)

end Sys2Proof.Machine
end

