-- ==== Sys2Proof/Machine/ExecHost.lean ====
section
/-! DEFINITION. Meanings of the host-port commands (10). -/

namespace Sys2Proof.Machine

/-- CONFIGURATION_REQUEST (R47). -/
def execConfigurationRequest (p : Fin 8) (q : CfgReq) (s : State) : Host.Outcome State Fault Refusal :=
  .next (s.upd fun im m => opConfig im p.val q m)

/-- HOST_PORT_LINK_UP (R256). -/
def execHostPortLinkUp (p : Fin 8) (rate : Fin 8) (flit : Bool) (width : Fin 17) (s : State) : Host.Outcome State Fault Refusal :=
  .next (s.upd fun im m => opLinkUp im p.val rate.val flit width.val m)

/-- FLR (R264). -/
def execFlr (p : Fin 8) (s : State) : Host.Outcome State Fault Refusal :=
  .next (s.upd fun im m => opFlr im p.val m)

/-- HOT_RESET (R264). -/
def execHotReset (p : Fin 8) (s : State) : Host.Outcome State Fault Refusal :=
  .next (s.upd fun im m => opHotReset im p.val m)

/-- DL_DOWN (R264). -/
def execDlDown (p : Fin 8) (s : State) : Host.Outcome State Fault Refusal :=
  .next (s.upd fun im m => opDlDown im p.val m)

/-- PERST_N_ASSERT (R257). -/
def execPerstNAssert (n : Fin 8) (s : State) : Host.Outcome State Fault Refusal :=
  .next (s.upd fun im m => opPerstAssert im n.val m)

/-- PERST_N_RELEASE (R257). -/
def execPerstNRelease (n : Fin 8) (s : State) : Host.Outcome State Fault Refusal :=
  .next (s.upd fun im m => opPerstRelease im n.val m)

/-- DRAIN_END (R265). -/
def execDrainEnd (p : Fin 8) (s : State) : Host.Outcome State Fault Refusal :=
  .next (s.upd fun im m => opDrainEnd im p.val m)

/-- HOST_COMPLETION (R262). -/
def execHostCompletion (p : Fin 8) (tag : BitVec 10) (r : RdRes) (s : State) : Host.Outcome State Fault Refusal :=
  .next (s.upd fun im m => opHostCompletion im p.val tag.toNat r m)

/-- COMPLETION_TIMEOUT (R262). -/
def execCompletionTimeout (p : Fin 8) (tag : BitVec 10) (s : State) : Host.Outcome State Fault Refusal :=
  .next (s.upd fun im m => opCplTimeout im p.val tag.toNat m)

/-- QUARANTINE_EXPIRY (R266). -/
def execQuarantineExpiry (p : Fin 8) (tag : BitVec 10) (s : State) : Host.Outcome State Fault Refusal :=
  .next (s.upd fun _ m => opQuarantineExpiry p.val tag.toNat m)

/-- D3HOT_ENTRY (R268). -/
def execD3hotEntry (p : Fin 8) (s : State) : Host.Outcome State Fault Refusal :=
  .next (s.upd fun im m => opD3hot im p.val m)

/-- D0_ENTRY (R270). -/
def execD0Entry (p : Fin 8) (s : State) : Host.Outcome State Fault Refusal :=
  .next (s.upd fun im m => opD0 im p.val m)

/-- PME_REPEAT (R269). -/
def execPmeRepeat (p : Fin 8) (s : State) : Host.Outcome State Fault Refusal :=
  .next (s.upd fun im m => opPmeRepeat im p.val m)

/-- L1_ENTRY (R271). -/
def execL1Entry (p : Fin 8) (sub : Fin 4) (s : State) : Host.Outcome State Fault Refusal :=
  .next (s.upd fun im m => opL1Entry im p.val sub.val m)

/-- L1_EXIT (R271). -/
def execL1Exit (p : Fin 8) (s : State) : Host.Outcome State Fault Refusal :=
  .next (s.upd fun im m => opL1Exit im p.val m)

/-- L0P_WIDTH_CHANGE (R272). -/
def execL0pWidthChange (p : Fin 8) (width : Fin 17) (s : State) : Host.Outcome State Fault Refusal :=
  .next (s.upd fun _ m => opL0pChange p.val width.val m)

/-- L0P_WIDEN_REQUEST (R272). -/
def execL0pWidenRequest (p : Fin 8) (s : State) : Host.Outcome State Fault Refusal :=
  .next (s.upd fun _ m => opL0pWiden p.val m)

/-- HOST_L1_EXIT (R271). -/
def execHostL1Exit (p : Fin 8) (s : State) : Host.Outcome State Fault Refusal :=
  .next (s.upd fun im m => opHostL1Exit im p.val m)

/-- IO_LOCKED_ATOMIC_REQUEST (R261). -/
def execIoLockedAtomicRequest (p : Fin 8) (_kind : Fin 3) (s : State) : Host.Outcome State Fault Refusal :=
  .next (s.upd fun im m => opIoLocked im p.val m)

end Sys2Proof.Machine
end

