-- ==== Sys2Proof/Machine/ExecIrq.lean ====
section
/-! DEFINITION. Meanings of the interrupt commands (13). -/

namespace Sys2Proof.Machine

/-- COMMIT (R333). -/
def execCommit (p : Fin 8) (s : State) : Host.Outcome State Fault Refusal :=
  .next (s.upd fun im m => opCommit im p.val m)

/-- COMMIT_RECHECK (R338). -/
def execCommitRecheck (p : Fin 8) (s : State) : Host.Outcome State Fault Refusal :=
  .next (s.upd fun im m => opCommitRecheck im p.val m)

/-- MASK_EFFECT (R338). -/
def execMaskEffect (s : State) : Host.Outcome State Fault Refusal :=
  .next (s.upd fun _ m => opMaskEffect m)

/-- HOLDOFF_EXPIRY (R336). -/
def execHoldoffExpiry (own : Fin 9) (group : Fin 256) (s : State) : Host.Outcome State Fault Refusal :=
  .next (s.upd fun _ m => opHoldoffExpiry own.val group.val m)

/-- ACKNOWLEDGE (R339). -/
def execAcknowledge (own : Fin 9) (bank : Bank) (i : Fin 1024) (bits : BitVec 64) (s : State) :
    Host.Outcome State Fault Refusal :=
  .next (s.upd fun im m => opRow im (.acknowledge own bank i bits) m)

/-- PEND_CLEAR (R331). -/
def execPendClear (own : Fin 9) (bank : Bank) (i : Fin 1024) (bits : BitVec 64) (s : State) : Host.Outcome State Fault Refusal :=
  .next (s.upd fun im m => opRow im (.pendClear own bank i bits) m)

end Sys2Proof.Machine
end

