-- ==== Sys2Proof/Machine/ExecIsa.lean ====
section
/-! DEFINITION. Meanings of the memory, control, thread and privileged instructions (08). -/

namespace Sys2Proof.Machine

/-- BZ (R192). -/
def execBz (i : Issue) (s : State) : Host.Outcome State Fault Refusal :=
  .next (s.upd fun im m => opJump im .bz i m)

/-- BNZ (R192). -/
def execBnz (i : Issue) (s : State) : Host.Outcome State Fault Refusal :=
  .next (s.upd fun im m => opJump im .bnz i m)

/-- J (R192). -/
def execJ (i : Issue) (s : State) : Host.Outcome State Fault Refusal :=
  .next (s.upd fun im m => opJump im .j i m)

/-- JAL (R192). -/
def execJal (i : Issue) (s : State) : Host.Outcome State Fault Refusal :=
  .next (s.upd fun im m => opJump im .jal i m)

/-- JR (R192). -/
def execJr (i : Issue) (s : State) : Host.Outcome State Fault Refusal :=
  .next (s.upd fun im m => opJump im .jr i m)

/-- MOVB (R197). -/
def execMovb (i : Issue) (s : State) : Host.Outcome State Fault Refusal :=
  .next (s.upd fun im m => opBlock im .movb i m)

/-- FILB (R197). -/
def execFilb (i : Issue) (s : State) : Host.Outcome State Fault Refusal :=
  .next (s.upd fun im m => opBlock im .filb i m)

/-- CMPB (R197). -/
def execCmpb (i : Issue) (s : State) : Host.Outcome State Fault Refusal :=
  .next (s.upd fun im m => opBlock im .cmpb i m)

/-- SCNB (R197). -/
def execScnb (i : Issue) (s : State) : Host.Outcome State Fault Refusal :=
  .next (s.upd fun im m => opBlock im .scnb i m)

/-- LD (R194). -/
def execLd (i : Issue) (s : State) : Host.Outcome State Fault Refusal :=
  .next (s.upd fun im m => opLd im i m)

/-- LDU (R194). -/
def execLdu (i : Issue) (s : State) : Host.Outcome State Fault Refusal :=
  .next (s.upd fun im m => opLdu im i m)

/-- ST (R194). -/
def execSt (i : Issue) (s : State) : Host.Outcome State Fault Refusal :=
  .next (s.upd fun im m => opSt im i m)

/-- LOAD_ANSWER (R196). -/
def execLoadAnswer (x : Proc) (r : RdRes) (s : State) : Host.Outcome State Fault Refusal :=
  .next (s.upd fun im m => opLoadAnswer im x r m)

/-- SEND (R200). -/
def execSend (i : Issue) (s : State) : Host.Outcome State Fault Refusal :=
  .next (s.upd fun im m => opSend im i m)

/-- SEND_COMPLETE (R200). -/
def execSendComplete (t : Fin 512) (ev : Fin 8) (s : State) : Host.Outcome State Fault Refusal :=
  .next (s.upd fun im m => opSendComplete im t.val ev.val m)

/-- POST (R199). -/
def execPost (i : Issue) (s : State) : Host.Outcome State Fault Refusal :=
  .next (s.upd fun im m => opPost im i m)

/-- WAITEV (R201). -/
def execWaitev (i : Issue) (s : State) : Host.Outcome State Fault Refusal :=
  .next (s.upd fun im m => opWaitev im i m)

/-- WAITEV_TIMEOUT (R201). -/
def execWaitevTimeout (t : Fin 512) (s : State) : Host.Outcome State Fault Refusal :=
  .next (s.upd fun _ m => opWaitevTimeout t.val m)

/-- YIELD (R199). -/
def execYield (i : Issue) (s : State) : Host.Outcome State Fault Refusal :=
  .next (s.upd fun im m => opYield im i m)

/-- RTN (R204). -/
def execRtn (i : Issue) (s : State) : Host.Outcome State Fault Refusal :=
  .next (s.upd fun im m => opRtn im i m)

/-- RDTK (R199). -/
def execRdtk (i : Issue) (s : State) : Host.Outcome State Fault Refusal :=
  .next (s.upd fun im m => opRdtk im i m)

/-- RDCY (R199). -/
def execRdcy (i : Issue) (s : State) : Host.Outcome State Fault Refusal :=
  .next (s.upd fun im m => opRdcy im i m)

/-- WINGS_START (R213). -/
def execWingsStart (c : Fin 4) (entry : BitVec 32) (s : State) : Host.Outcome State Fault Refusal :=
  .next (s.upd fun im m => opRow im (.wingsStart c entry) m)

/-- INTERRUPT_ENTRY (R340). -/
def execInterruptEntry (c : Fin 4) (s : State) : Host.Outcome State Fault Refusal :=
  .next (s.upd fun im m => opInterruptEntry im c.val m)

/-- CRD (R208). -/
def execCrd (i : Issue) (s : State) : Host.Outcome State Fault Refusal :=
  .next (s.upd fun im m => opPrv im .crd i m)

/-- CWR (R208). -/
def execCwr (i : Issue) (s : State) : Host.Outcome State Fault Refusal :=
  .next (s.upd fun im m => opPrv im .cwr i m)

/-- CRS (R208). -/
def execCrs (i : Issue) (s : State) : Host.Outcome State Fault Refusal :=
  .next (s.upd fun im m => opPrv im .crs i m)

/-- CRC (R208). -/
def execCrc (i : Issue) (s : State) : Host.Outcome State Fault Refusal :=
  .next (s.upd fun im m => opPrv im .crc i m)

/-- RTE (R209). -/
def execRte (i : Issue) (s : State) : Host.Outcome State Fault Refusal :=
  .next (s.upd fun im m => opPrv im .rte i m)

/-- WFI (R211). -/
def execWfi (i : Issue) (s : State) : Host.Outcome State Fault Refusal :=
  .next (s.upd fun im m => opPrv im .wfi i m)

/-- CALLR (R212). -/
def execCallr (i : Issue) (s : State) : Host.Outcome State Fault Refusal :=
  .next (s.upd fun im m => opPrv im .callr i m)

end Sys2Proof.Machine
end

