-- ==== Sys2Proof/Machine/ExecLink.lean ====
section
/-! DEFINITION. Meanings of the link commands (09). -/

namespace Sys2Proof

/-- CAL_COMPLETE: LAST_STEP becomes 8 when every octet with a link is now calibrated (IMG_BOOT_STS, R46). -/
def opCalDone (im : Image) (o cause : Nat) (m : M) : M :=
  let before := octReady im m
  let m := opCalComplete im o cause m
  if octReady im m && !before then bootStep 8 m else m

/-- REHEARSE (R118, R119): queued speculative work is looked at again, then a REHEARSE flit starts. -/
def opRehearseRow (im : Image) (l : Nat) (more : Bool) (m : M) : M :=
  opRehearse im l more (m.scripts.foldl (fun m e => specWork im e.1.1 e.1.2 m) m)

end Sys2Proof

namespace Sys2Proof.Machine

/-- DISABLE (R218). -/
def execDisable (l : Fin 96) (b : Bool) (s : State) : Host.Outcome State Fault Refusal :=
  .next (s.upd fun im m => opRow im (.disable l b) m)

/-- REWIDEN (R222). -/
def execRewiden (l : Fin 96) (s : State) : Host.Outcome State Fault Refusal :=
  .next (s.upd fun im m => opRow im (.rewiden l) m)

/-- RETRY_NOW (R218). -/
def execRetryNow (l : Fin 96) (s : State) : Host.Outcome State Fault Refusal :=
  .next (s.upd fun im m => opRow im (.retryNow l) m)

/-- REKEY_NOW (R240). -/
def execRekeyNow (l : Fin 96) (s : State) : Host.Outcome State Fault Refusal :=
  .next (s.upd fun im m => opRow im (.rekeyNow l) m)

/-- BACKOFF_EXPIRE (R219). -/
def execBackoffExpire (l : Fin 96) (s : State) : Host.Outcome State Fault Refusal :=
  .next (s.upd fun im m => opBackoffExpire im l.val m)

/-- RECEIVER_DETECT (R217). -/
def execReceiverDetect (l : Fin 96) (term : BitVec 8) (s : State) : Host.Outcome State Fault Refusal :=
  .next (s.upd fun im m => opReceiverDetect im l.val term m)

/-- TRAINING_BLOCK (R221). -/
def execTrainingBlock (l : Fin 96) (lane : Fin 8) (payload : BitVec 256) (s : State) : Host.Outcome State Fault Refusal :=
  .next (s.upd fun im m => opTrainingBlock im l.val lane.val payload m)

/-- TRAIN_TIMEOUT (R218). -/
def execTrainTimeout (l : Fin 96) (s : State) : Host.Outcome State Fault Refusal :=
  .next (s.upd fun im m => opTrainTimeout im l.val m)

/-- CROSSED (R223). -/
def execCrossed (l : Fin 96) (s : State) : Host.Outcome State Fault Refusal :=
  .next (s.upd fun im m => opCrossed im l.val m)

/-- RETRAIN_TIMEOUT (R218). -/
def execRetrainTimeout (l : Fin 96) (s : State) : Host.Outcome State Fault Refusal :=
  .next (s.upd fun im m => opRetrainTimeout im l.val m)

/-- AUTH_TIMEOUT (R218). -/
def execAuthTimeout (l : Fin 96) (s : State) : Host.Outcome State Fault Refusal :=
  .next (s.upd fun im m => opAuthTimeout im l.val m)

/-- NO_SIGNAL (R223). -/
def execNoSignal (lane : Fin 96) (s : State) : Host.Outcome State Fault Refusal :=
  .next (s.upd fun im m => laneFault im lane.val 3 m)

/-- SHORT (R223). -/
def execShort (lane : Fin 96) (s : State) : Host.Outcome State Fault Refusal :=
  .next (s.upd fun im m => laneFault im lane.val 5 m)

/-- NOISY (R223). -/
def execNoisy (lane : Fin 96) (s : State) : Host.Outcome State Fault Refusal :=
  .next (s.upd fun im m => laneFault im lane.val 6 m)

/-- FLIT_RECEIVE (R227). -/
def execFlitReceive (l : Fin 96) (f : RxFlit) (s : State) : Host.Outcome State Fault Refusal :=
  .next (s.upd fun im m => opFlitReceive im l.val f m)

/-- CMD (R230). -/
def execCmd (l : Fin 96) (more : Bool) (s : State) : Host.Outcome State Fault Refusal :=
  .next (s.upd fun im m => opCmd im l.val more m)

/-- DATA_TRANSMIT (R245). -/
def execDataTransmit (l : Fin 96) (ctag : BitVec 12) (more : Bool) (s : State) : Host.Outcome State Fault Refusal :=
  .next (s.upd fun im m => opDataTransmit im l.val ctag.toNat more m)

/-- REHEARSE (R119). -/
def execRehearse (l : Fin 96) (more : Bool) (s : State) : Host.Outcome State Fault Refusal :=
  .next (s.upd fun im m => opRehearseRow im l.val more m)

/-- GO (R122). -/
def execGo (l : Fin 96) (more : Bool) (s : State) : Host.Outcome State Fault Refusal :=
  .next (s.upd fun im m => opGo im l.val more m)

/-- STRIKE (R122). -/
def execStrike (l : Fin 96) (more : Bool) (s : State) : Host.Outcome State Fault Refusal :=
  .next (s.upd fun _ m => opStrike l.val more m)

/-- REHEARSAL_WITHDRAWAL (R124). -/
def execRehearsalWithdrawal (l : Fin 96) (n : Fin 64) (s : State) : Host.Outcome State Fault Refusal :=
  .next (s.upd fun im m => opWithdraw im l.val n.val m)

/-- REHEARSAL_NUMBER_RELEASE (R128). -/
def execRehearsalNumberRelease (l : Fin 96) (n : Fin 64) (s : State) : Host.Outcome State Fault Refusal :=
  .next (s.upd fun _ m => opNumberRelease l.val n.val m)

/-- CREDIT_SEND (R227). -/
def execCreditSend (l : Fin 96) (grants : List (Nat × Nat)) (more : Bool) (s : State) : Host.Outcome State Fault Refusal :=
  .next (s.upd fun _ m => opCreditSend l.val grants more m)

/-- KEEPALIVE (R228). -/
def execKeepalive (l : Fin 96) (s : State) : Host.Outcome State Fault Refusal :=
  .next (s.upd fun _ m => opKeepalive l.val m)

/-- KEEPALIVE_LOST (R228). -/
def execKeepaliveLost (l : Fin 96) (s : State) : Host.Outcome State Fault Refusal :=
  .next (s.upd fun im m => opKeepaliveLost im l.val m)

/-- HELLO_R (R239). -/
def execHelloR (l : Fin 96) (sig : Verdict) (s : State) : Host.Outcome State Fault Refusal :=
  .next (s.upd fun im m => opHelloR im l.val sig m)

/-- FINISH (R239). -/
def execFinish (l : Fin 96) (mac : Verdict) (s : State) : Host.Outcome State Fault Refusal :=
  .next (s.upd fun im m => opFinish im l.val mac m)

/-- REKEY_THRESHOLD (R240). -/
def execRekeyThreshold (l : Fin 96) (s : State) : Host.Outcome State Fault Refusal :=
  .next (s.upd fun im m => opRekeyThreshold im l.val m)

/-- REKEY_OVERDUE (R240). -/
def execRekeyOverdue (l : Fin 96) (s : State) : Host.Outcome State Fault Refusal :=
  .next (s.upd fun im m => opRekeyOverdue im l.val m)

/-- OWNER_MESSAGE_SEND (R250). -/
def execOwnerMessageSend (l : Fin 96) (s : State) : Host.Outcome State Fault Refusal :=
  .next (s.upd fun im m => opRow im (.ownerMessageSend l) m)

/-- OWNER_MESSAGE_SENT (R250). -/
def execOwnerMessageSent (l : Fin 96) (s : State) : Host.Outcome State Fault Refusal :=
  .next (s.upd fun im m => opOwnerSent im l.val m)

/-- RX_ACK (R250). -/
def execRxAck (l : Fin 96) (s : State) : Host.Outcome State Fault Refusal :=
  .next (s.upd fun im m => opRow im (.rxAck l) m)

/-- RESPONSE_TIMEOUT (R247). -/
def execResponseTimeout (l : Fin 96) (ctag : BitVec 12) (s : State) : Host.Outcome State Fault Refusal :=
  .next (s.upd fun im m => opResponseTimeout im l.val ctag.toNat m)

/-- ABORT_UNANSWERED (R247). -/
def execAbortUnanswered (l : Fin 96) (ctag : BitVec 12) (s : State) : Host.Outcome State Fault Refusal :=
  .next (s.upd fun im m => opAbortUnanswered im l.val ctag.toNat m)

/-- CAL (R254). -/
def execCal (o : Fin 12) (s : State) : Host.Outcome State Fault Refusal :=
  .next (s.upd fun im m => opRow im (.cal o) m)

/-- CAL_COMPLETE (R254). -/
def execCalComplete (o : Fin 12) (cause : Fin 4) (s : State) : Host.Outcome State Fault Refusal :=
  .next (s.upd fun im m => opCalDone im o.val cause.val m)

/-- BLOCK_LOCK_LOST (R218). -/
def execBlockLockLost (lane : Fin 96) (s : State) : Host.Outcome State Fault Refusal :=
  .next (s.upd fun im m => opBlockLockLost im lane.val m)

end Sys2Proof.Machine
end

