-- ==== Sys2Proof/Machine/ExecMbx.lean ====
section
/-! DEFINITION. Meanings of the mailbox and trace commands (14). -/

namespace Sys2Proof.Machine

/-- MBX_TX_HEAD (R346). -/
def execMbxTxHead (side : Side) (p : Fin 8) (w : BitVec 64) (s : State) : Host.Outcome State Fault Refusal :=
  .next (s.upd fun im m => opRow im (.mbxTxHead side p w) m)

/-- MBX_TX_DATA (R346). -/
def execMbxTxData (side : Side) (p : Fin 8) (w : BitVec 64) (s : State) : Host.Outcome State Fault Refusal :=
  .next (s.upd fun im m => opRow im (.mbxTxData side p w) m)

/-- MBX_RX (R347). -/
def execMbxRx (side : Side) (p : Fin 8) (size off : Nat) (s : State) : Host.Outcome State Fault Refusal :=
  .next (s.upd fun im m => opRowRead im (.mbxRx side p size off) (rxPort side p.val).1 ((rxPort side p.val).2 + off) m)

/-- FLUSH_TX (R348). -/
def execFlushTx (side : Side) (p : Fin 8) (s : State) : Host.Outcome State Fault Refusal :=
  .next (s.upd fun im m => opRow im (.flushTx side p) m)

/-- FLUSH_RX (R348). -/
def execFlushRx (side : Side) (p : Fin 8) (s : State) : Host.Outcome State Fault Refusal :=
  .next (s.upd fun im m => opRow im (.flushRx side p) m)

/-- MAILBOX_POINTER_MISMATCH (R351). -/
def execMailboxPointerMismatch (p : Fin 8) (fromWings : Bool) (s : State) : Host.Outcome State Fault Refusal :=
  .next (s.upd fun im m => opMbxMismatch im p.val fromWings m)

/-- TRC_EVT_READ (R354). -/
def execTrcEvtRead (l : Fin 96) (s : State) : Host.Outcome State Fault Refusal :=
  .next (s.upd fun im m => opEvtRead im l.val m)

/-- EVENT_FIFO_POINTER_MISMATCH (R354). -/
def execEventFifoPointerMismatch (l : Fin 96) (s : State) : Host.Outcome State Fault Refusal :=
  .next (s.upd fun im m => opEvtMismatch im l.val m)

/-- TRC_PUT (R358). -/
def execTrcPut (w : BitVec 64) (s : State) : Host.Outcome State Fault Refusal :=
  .next (s.upd fun im m => opRow im (.trcPut w) m)

/-- TRC_GET (R356). -/
def execTrcGet (e : Ecc) (s : State) : Host.Outcome State Fault Refusal :=
  .next (s.upd fun im m => opRow im (.trcGet e) m)

/-- TRACE_MARK (R357). -/
def execTraceMark (value : BitVec 64) (s : State) : Host.Outcome State Fault Refusal :=
  .next (s.upd fun im m => opRow im (.traceMark value) m)

/-- REWIND (R357). -/
def execRewind (value : BitVec 64) (s : State) : Host.Outcome State Fault Refusal :=
  .next (s.upd fun im m => opRow im (.rewind value) m)

/-- TRACE_POINTER_MISMATCH (R356). -/
def execTracePointerMismatch (s : State) : Host.Outcome State Fault Refusal :=
  .next (s.upd fun im m => opTraceMismatch im m)

end Sys2Proof.Machine
end

