-- ==== Sys2Proof/Machine/ExecMem.lean ====
section
/-! DEFINITION. Meanings of the local-memory commands (12). -/

namespace Sys2Proof.Machine

/-- TRAIN (R304). -/
def execTrain (ch : Fin 4) (s : State) : Host.Outcome State Fault Refusal :=
  .next (s.upd fun im m => opRow im (.train ch) m)

/-- TRAINING_COMPLETE (R304). -/
def execTrainingComplete (ch : Fin 4) (r : TrainRes) (s : State) : Host.Outcome State Fault Refusal :=
  .next (s.upd fun im m => opTrainingComplete im ch.val r m)

/-- LINE_READ (R314). -/
def execLineRead (ch : Fin 4) (line : Nat) (rd : LineReq) (e te : BitVec 640) (s : State) : Host.Outcome State Fault Refusal :=
  .next (s.upd fun im m => holdRow im (.lineRead ch line rd e te) (opLineRead im ch.val line rd e te) m)

/-- LINE_WRITE (R315). -/
def execLineWrite (ch : Fin 4) (line off : Nat) (bytes : List Byte) (wr : LineReq) (e te : BitVec 640) (s : State) :
    Host.Outcome State Fault Refusal :=
  .next (s.upd fun im m =>
    holdRow im (.lineWrite ch line off bytes wr e te) (opLineWrite im ch.val line off bytes wr.own e te) m)

/-- TAG_LINE_WRITEBACK (R315). -/
def execTagLineWriteback (ch : Fin 4) (tl : Nat) (s : State) : Host.Outcome State Fault Refusal :=
  .next (s.upd fun _ m => opTagWriteback ch.val tl m)

/-- REFRESH (R304). -/
def execRefresh (ch : Fin 4) (hot : Bool) (s : State) : Host.Outcome State Fault Refusal :=
  .next (s.upd fun _ m => opRefresh ch.val hot m)

/-- BUCKET_LEAK (R320). -/
def execBucketLeak (ch : Fin 4) (s : State) : Host.Outcome State Fault Refusal :=
  .next (s.upd fun _ m => opBucketLeak ch.val m)

/-- MEM_BUCKET_WRITE (R320). -/
def execMemBucketWrite (ch : Fin 4) (value : BitVec 64) (s : State) : Host.Outcome State Fault Refusal :=
  .next (s.upd fun im m => opRow im (.memBucketWrite ch value) m)

/-- SCRUB_START (R321). -/
def execScrubStart (ch : Fin 4) (value : BitVec 64) (s : State) : Host.Outcome State Fault Refusal :=
  .next (s.upd fun im m => opRow im (.scrubStart ch value) m)

/-- SCRUB_STOP (R324). -/
def execScrubStop (ch : Fin 4) (s : State) : Host.Outcome State Fault Refusal :=
  .next (s.upd fun im m => opRow im (.scrubStop ch) m)

/-- SCRUB_LINE (R322). -/
def execScrubLine (ch : Fin 4) (e : BitVec 640) (s : State) : Host.Outcome State Fault Refusal :=
  .next (s.upd fun im m => opScrubLine im ch.val e m)

end Sys2Proof.Machine
end

