-- ==== Sys2Proof/Machine/ExecMgt.lean ====
section
/-! DEFINITION. Meanings of the I3C and JTAG commands (17). -/

namespace Sys2Proof.Machine

/-- ENTDAA (R400). -/
def execEntdaa (a : BitVec 7) (s : State) : Host.Outcome State Fault Refusal :=
  .next (s.upd fun _ m => opEntdaa a.toNat m)

/-- SETDASA (R400). -/
def execSetdasa (static a : BitVec 7) (s : State) : Host.Outcome State Fault Refusal :=
  .next (s.upd fun _ m => opSetdasa static.toNat a.toNat m)

/-- RSTDAA (R400). -/
def execRstdaa (s : State) : Host.Outcome State Fault Refusal :=
  .next (s.upd fun _ m => opRstdaa m)

/-- GETPID (R400). -/
def execGetpid (s : State) : Host.Outcome State Fault Refusal :=
  .next (s.upd fun _ m => opGetpid m)

/-- GETBCR (R400). -/
def execGetbcr (s : State) : Host.Outcome State Fault Refusal :=
  .next (s.upd fun _ m => opGetZero m)

/-- GETDCR (R400). -/
def execGetdcr (s : State) : Host.Outcome State Fault Refusal :=
  .next (s.upd fun _ m => opGetZero m)

/-- GETSTATUS (R400). -/
def execGetstatus (s : State) : Host.Outcome State Fault Refusal :=
  .next (s.upd fun _ m => opGetstatus m)

/-- I3C_OFFSET_WRITE (R400). -/
def execI3cOffsetWrite (bytes : List Byte) (s : State) : Host.Outcome State Fault Refusal :=
  .next (s.upd fun _ m => opI3cOffset bytes m)

/-- I3C_PRIVATE_READ (R400). -/
def execI3cPrivateRead (n : Nat) (s : State) : Host.Outcome State Fault Refusal :=
  .next (s.upd fun _ m => opI3cRead n m)

/-- SAMPLE_PRELOAD (R402). -/
def execSamplePreload (levels bits : List Bool) (s : State) : Host.Outcome State Fault Refusal :=
  .next (s.upd fun im m => opSample im levels bits m)

/-- EXTEST (R402). -/
def execExtest (levels bits : List Bool) (s : State) : Host.Outcome State Fault Refusal :=
  .next (s.upd fun im m => opExtest im levels bits m)

/-- IDENT (R402). -/
def execIdent (s : State) : Host.Outcome State Fault Refusal :=
  .next (s.upd fun _ m => opIdent m)

/-- CHALLENGE (R402). -/
def execChallenge (s : State) : Host.Outcome State Fault Refusal :=
  .next (s.upd fun _ m => opChallenge m)

/-- TOKEN (R300). -/
def execToken (bytes : List Byte) (v : TokenPaths) (s : State) : Host.Outcome State Fault Refusal :=
  .next (s.upd fun im m => opToken im bytes v.form v.checks v.votes m)

/-- REG (R402). -/
def execReg (dr : BitVec 96) (s : State) : Host.Outcome State Fault Refusal :=
  .next (s.upd fun im m => opRow im (.reg dr) m)

/-- WDBG_HALT (R402). -/
def execWdbgHalt (c : Fin 4) (s : State) : Host.Outcome State Fault Refusal :=
  .next (s.upd fun _ m => opWdbgHalt c.val m)

/-- WDBG_RESUME (R402). -/
def execWdbgResume (c : Fin 4) (s : State) : Host.Outcome State Fault Refusal :=
  .next (s.upd fun _ m => opWdbgResume c.val m)

/-- WDBG_STEP (R402). -/
def execWdbgStep (c : Fin 4) (s : State) : Host.Outcome State Fault Refusal :=
  .next (s.upd fun _ m => opWdbgStep c.val m)

/-- REG_RD (R402). -/
def execRegRd (c : Fin 4) (r : BitVec 6) (s : State) : Host.Outcome State Fault Refusal :=
  .next (s.upd fun _ m => opRegRd c.val r.toNat m)

/-- REG_WR (R402). -/
def execRegWr (c : Fin 4) (r : BitVec 6) (d : BitVec 64) (s : State) : Host.Outcome State Fault Refusal :=
  .next (s.upd fun _ m => opRegWr c.val r.toNat d m)

/-- TRACE (R402). -/
def execTrace (e : Ecc) (s : State) : Host.Outcome State Fault Refusal :=
  .next (s.upd fun im m => opRow im (.trace e) m)

/-- FUSE (R402). -/
def execFuse (dr : BitVec 24) (stuck : List (Nat × Nat)) (s : State) : Host.Outcome State Fault Refusal :=
  .next (s.updFuses fun _ m => opFuse dr.toNat stuck s.fuses m)

/-- BYPASS (R402). -/
def execBypass (s : State) : Host.Outcome State Fault Refusal :=
  .next (s.upd fun _ m => opBypass m)

end Sys2Proof.Machine
end

