-- ==== Sys2Proof/Machine/ExecMov.lean ====
section
/-! DEFINITION. Meanings of the mover commands (07). -/

namespace Sys2Proof.Machine

/-- MOV_START (R170). -/
def execMovStart (v : View) (c : Fin 1024) (value : BitVec 64) (s : State) : Host.Outcome State Fault Refusal :=
  .next (s.upd fun im m => opRow im (.movStart v c value) m)

/-- MOV_STOP (R171). -/
def execMovStop (v : View) (c : Fin 1024) (value : BitVec 64) (s : State) : Host.Outcome State Fault Refusal :=
  .next (s.upd fun im m => opRow im (.movStop v c value) m)

/-- MOV_CLEAR (R170). -/
def execMovClear (v : View) (c : Fin 1024) (value : BitVec 64) (s : State) : Host.Outcome State Fault Refusal :=
  .next (s.upd fun im m => opRow im (.movClear v c value) m)

/-- MOV_CFG_WRITE (R175). -/
def execMovCfgWrite (v : View) (c : Fin 1024) (isList : Bool) (value : BitVec 64) (s : State) :
    Host.Outcome State Fault Refusal :=
  .next (s.upd fun im m => opRow im (.movCfgWrite v c isList value) m)

/-- TICK_TRIGGER (R174). -/
def execTickTrigger (c : Fin 1024) (s : State) : Host.Outcome State Fault Refusal :=
  .next (s.upd fun im m => opTickTrigger im c.val m)

/-- TIMER_TRIGGER (R174). -/
def execTimerTrigger (c : Fin 1024) (s : State) : Host.Outcome State Fault Refusal :=
  .next (s.upd fun im m => opTimerTrigger im c.val m)

/-- DESCRIPTOR_READ (R168). -/
def execDescriptorRead (c : Fin 1024) (r : RdRes) (s : State) : Host.Outcome State Fault Refusal :=
  .next (s.upd fun im m => opDescriptorRead im c.val r m)

/-- MOVER_ELEMENT (R176). -/
def execMoverElement (e : Fin 16) (el : ElemStart) (s : State) : Host.Outcome State Fault Refusal :=
  .next (s.upd fun im m => unlessIn 24 (opMoverElement im e.val el.req el.ends) m)

/-- ELEMENT_ANSWER (R177). -/
def execElementAnswer (e : Fin 16) (q : Req) (off : Nat) (ans : Ans) (s : State) : Host.Outcome State Fault Refusal :=
  .next (s.upd fun im m => opElementAnswer im e.val q off ans m)

/-- FLUSH_READ_COMPLETE (R177). -/
def execFlushReadComplete (e : Fin 16) (q : Req) (r : FlushAns) (s : State) : Host.Outcome State Fault Refusal :=
  .next (s.upd fun im m => opFlushReadComplete im e.val q r.id r.res m)

end Sys2Proof.Machine
end

