-- ==== Sys2Proof/Machine/ExecRing.lean ====
section
/-! DEFINITION. Meanings of the ring commands (06). -/

namespace Sys2Proof.Machine

/-- DOORBELL (R144). -/
def execDoorbell (p : Fin 8) (r : BitVec 16) (value : BitVec 64) (s : State) : Host.Outcome State Fault Refusal :=
  .next (s.upd fun im m => whenOpen im p.val (opRngDb im p.val r.toNat value.toNat) m)

/-- STATUS_HEAD_DOORBELL (R154). -/
def execStatusHeadDoorbell (p : Fin 8) (r : BitVec 16) (value : BitVec 64) (s : State) : Host.Outcome State Fault Refusal :=
  .next (s.upd fun im m => whenOpen im p.val (opRngDb im p.val r.toNat value.toNat) m)

/-- INLINE_WINDOW_WRITE (R145). -/
def execInlineWindowWrite (p : Fin 8) (r : BitVec 16) (off : Nat) (data : List Byte) (s : State) :
    Host.Outcome State Fault Refusal :=
  .next (s.upd fun im m => opInline im p.val r.toNat off data m)

/-- REQUEST_FETCH_COMPLETE (R142). -/
def execRequestFetchComplete (p : Fin 8) (r : BitVec 16) (unit : BitVec 16) (res : RdRes) (s : State) :
    Host.Outcome State Fault Refusal :=
  .next (s.upd fun im m => opRequestFetchComplete im p.val r.toNat unit.toNat res m)

/-- RING_ENABLE (R137). -/
def execRingEnable (p : Fin 8) (s : State) : Host.Outcome State Fault Refusal :=
  .next (s.upd fun im m => whenOpen im p.val (opRingEnable im p.val) m)

/-- STATUS_ENTRY_WRITE (R153). -/
def execStatusEntryWrite (p : Fin 8) (r : BitVec 16) (s : State) : Host.Outcome State Fault Refusal :=
  .next (s.upd fun im m => opStatusEntryWrite im p.val r.toNat m)

end Sys2Proof.Machine
end

