-- ==== Sys2Proof/Machine/ExecSec.lean ====
section
/-! DEFINITION. Meanings of the security commands (11). -/

namespace Sys2Proof.Machine

/-- SUBMIT (R294). -/
def execSubmit (side : CmdSrc) (value : BitVec 64) (s : State) : Host.Outcome State Fault Refusal :=
  .next (s.upd fun im m => opRow im (.submit side value) m)

/-- ATTEST (R299). -/
def execAttest (paths : Bool) (votes : List Vote) (s : State) : Host.Outcome State Fault Refusal :=
  .next (s.upd fun im m => unlessIn 3 (opAttest im paths votes) m)

/-- GET_KEYS (R297). -/
def execGetKeys (paths : Bool) (s : State) : Host.Outcome State Fault Refusal :=
  .next (s.upd fun im m => unlessIn 3 (opGetKeys im paths) m)

/-- RESET_PARTITION (R297). -/
def execResetPartition (i : IdPaths) (k : KeyPaths) (votes : List Vote) (s : State) : Host.Outcome State Fault Refusal :=
  .next (s.upd fun im m => unlessIn 3 (opResetPartition im ⟨i, k⟩ votes) m)

/-- CHIP_RESET (R297). -/
def execChipReset (i : IdPaths) (k : KeyPaths) (votes : List Vote) (s : State) : Host.Outcome State Fault Refusal :=
  .next (s.upd fun im m => unlessIn 3 (opChipResetCmd im ⟨i, k⟩ votes) m)

/-- CHIP_RESET_DELAY_EXPIRY (R298). -/
def execChipResetDelayExpiry (s : State) : Host.Outcome State Fault Refusal :=
  .next (s.upd fun _ m => opChipResetDelay m)

/-- ADVANCE_SVN (R297). -/
def execAdvanceSvn (i : IdPaths) (k : KeyPaths) (votes : List Vote) (stuck : List (Nat × Nat)) (s : State) :
    Host.Outcome State Fault Refusal :=
  .next (s.updFuses fun im m => if m.inReset 3 0 then (s.fuses, m) else opAdvanceSvn im ⟨i, k⟩ votes stuck s.fuses m)

/-- DISABLE_DEBUG (R297). -/
def execDisableDebug (i : IdPaths) (k : KeyPaths) (votes : List Vote) (stuck : List (Nat × Nat)) (s : State) :
    Host.Outcome State Fault Refusal :=
  .next (s.updFuses fun im m => if m.inReset 3 0 then (s.fuses, m) else opDisableDebug im ⟨i, k⟩ votes stuck s.fuses m)

/-- FIRMWARE (R298). -/
def execFirmware (i : IdPaths) (k : KeyPaths) (votes : List Vote) (s : State) : Host.Outcome State Fault Refusal :=
  .next (s.upd fun im m => unlessIn 3 (opFirmware im ⟨i, k⟩ votes) m)

/-- FINISH_FIRMWARE_COMMAND (R298). -/
def execFinishFirmwareCommand (value : BitVec 64) (s : State) : Host.Outcome State Fault Refusal :=
  .next (s.upd fun im m => opRow im (.finishFirmwareCommand value) m)

/-- FW_TIMEOUT (R298). -/
def execFwTimeout (s : State) : Host.Outcome State Fault Refusal :=
  .next (s.upd fun im m => opFwTimeout im m)

/-- VOTED_SWEEP (R281). -/
def execVotedSweep (votes : List (VWord × Vote)) (s : State) : Host.Outcome State Fault Refusal :=
  .next (s.upd fun im m => opVotedSweep im votes m)

/-- DRBG_RESEED (R287). -/
def execDrbgReseed (s : State) : Host.Outcome State Fault Refusal :=
  .next (s.upd fun _ m => opDrbgReseed m)

/-- ENTROPY_FAILURE (R287). -/
def execEntropyFailure (proportion : Bool) (s : State) : Host.Outcome State Fault Refusal :=
  .next (s.upd fun im m => opEntropyFailure im proportion m)

end Sys2Proof.Machine
end

