-- ==== Sys2Proof/Machine/ExecTick.lean ====
section
/-! DEFINITION. Meanings of the tick commands (03). -/

namespace Sys2Proof.Machine

/-- TICK_EDGE (R57). -/
def execTickEdge (busy : List Server) (strikes : List Strike) (s : State) : Host.Outcome State Fault Refusal :=
  .next (s.upd fun im m => opTickEdge im busy strikes m)

/-- TICK_IN_EDGE (R54). -/
def execTickInEdge (s : State) : Host.Outcome State Fault Refusal :=
  .next (s.upd fun im m => opTickIn im m)

/-- TICK_REFERENCE_LOST (R55). -/
def execTickReferenceLost (s : State) : Host.Outcome State Fault Refusal :=
  .next (s.upd fun im m => opTickLost im m)

/-- ROUTINE_OVERRUN (R65). -/
def execRoutineOverrun (t : Fin 512) (s : State) : Host.Outcome State Fault Refusal :=
  .next (s.upd fun im m => opRoutineOverrun im t.val m)

/-- HUSH (R372). -/
def execHush (b : Bool) (s : State) : Host.Outcome State Fault Refusal :=
  .next (s.upd fun _ m => opHush b m)

end Sys2Proof.Machine
end

