-- ==== Sys2Proof/Machine/Dispatch.lean ====
section
/-! DEFINITION. One arm per command: the meaning it calls. -/

namespace Sys2Proof.Machine

/-- The effect of a command on everything but the queue. -/
def exec (i : Instr) (s : State) : Host.Outcome State Fault Refusal :=
  match i with
  | .registerWrite v off data => Sys2Proof.Machine.execRegisterWrite v off data s
  | .rcFieldRead v off size => Sys2Proof.Machine.execRcFieldRead v off size s
  | .fabricTransfer t => Sys2Proof.Machine.execFabricTransfer t s
  | .porstNAssert ns => Sys2Proof.Machine.execPorstNAssert ns s
  | .porstNRelease => Sys2Proof.Machine.execPorstNRelease s
  | .resetNAssert samples => Sys2Proof.Machine.execResetNAssert samples s
  | .resetNRelease => Sys2Proof.Machine.execResetNRelease s
  | .corePllLockTimeout => Sys2Proof.Machine.execCorePllLockTimeout s
  | .corePllLockLost => Sys2Proof.Machine.execCorePllLockLost s
  | .memoryPllLockLost m => Sys2Proof.Machine.execMemoryPllLockLost m s
  | .refclkHpAbsent n => Sys2Proof.Machine.execRefclkHpAbsent n s
  | .refclkOnAbsent o => Sys2Proof.Machine.execRefclkOnAbsent o s
  | .refclkOnReturn o => Sys2Proof.Machine.execRefclkOnReturn o s
  | .slotReadComplete bytes hashAgree sense => Sys2Proof.Machine.execSlotReadComplete bytes hashAgree sense s
  | .flashReadTimeout sense => Sys2Proof.Machine.execFlashReadTimeout sense s
  | .signatureVerifyComplete key sig svnAgree entropy => Sys2Proof.Machine.execSignatureVerifyComplete key sig svnAgree entropy s
  | .step5EntropyTimeout => Sys2Proof.Machine.execStep5EntropyTimeout s
  | .release p => Sys2Proof.Machine.execRelease p s
  | .ready p => Sys2Proof.Machine.execReady p s
  | .partitionReadyOverdue p => Sys2Proof.Machine.execPartitionReadyOverdue p s
  | .flashErase addr => Sys2Proof.Machine.execFlashErase addr s
  | .flashProgram addr src => Sys2Proof.Machine.execFlashProgram addr src s
  | .flashCmdReservedOp op => Sys2Proof.Machine.execFlashCmdReservedOp op s
  | .flashCommandComplete failed => Sys2Proof.Machine.execFlashCommandComplete failed s
  | .imgCheckStart slot => Sys2Proof.Machine.execImgCheckStart slot s
  | .imgCheckDeferredStart => Sys2Proof.Machine.execImgCheckDeferredStart s
  | .imgCheckDone bytes hashAgree key sig svnAgree => Sys2Proof.Machine.execImgCheckDone bytes hashAgree key sig svnAgree s
  | .flashWindowRead a size bytes => Sys2Proof.Machine.execFlashWindowRead a size bytes s
  | .tickEdge busy strikes => Sys2Proof.Machine.execTickEdge busy strikes s
  | .tickInEdge => Sys2Proof.Machine.execTickInEdge s
  | .tickReferenceLost => Sys2Proof.Machine.execTickReferenceLost s
  | .routineOverrun t => Sys2Proof.Machine.execRoutineOverrun t s
  | .scriptDispatch p tag t => Sys2Proof.Machine.execScriptDispatch p tag t s
  | .scriptPark p tag ctx => Sys2Proof.Machine.execScriptPark p tag ctx s
  | .contextRestore p tag t m bad => Sys2Proof.Machine.execContextRestore p tag t m bad s
  | .cueFetch t => Sys2Proof.Machine.execCueFetch t s
  | .cueFetchComplete t r v => Sys2Proof.Machine.execCueFetchComplete t r v s
  | .indirectListReadComplete t r => Sys2Proof.Machine.execIndirectListReadComplete t r s
  | .write t => Sys2Proof.Machine.execWrite t s
  | .read t => Sys2Proof.Machine.execRead t s
  | .control t => Sys2Proof.Machine.execControl t s
  | .sense t => Sys2Proof.Machine.execSense t s
  | .relay t => Sys2Proof.Machine.execRelay t s
  | .jump t => Sys2Proof.Machine.execJump t s
  | .nop t => Sys2Proof.Machine.execNop t s
  | .wait t => Sys2Proof.Machine.execWait t s
  | .call t => Sys2Proof.Machine.execCall t s
  | .mark t => Sys2Proof.Machine.execMark t s
  | .fence t => Sys2Proof.Machine.execFence t s
  | .waitTicksExpire t => Sys2Proof.Machine.execWaitTicksExpire t s
  | .waitTimeout t => Sys2Proof.Machine.execWaitTimeout t s
  | .stageGrant p => Sys2Proof.Machine.execStageGrant p s
  | .cueEvent p bits => Sys2Proof.Machine.execCueEvent p bits s
  | .doorbell p r value => Sys2Proof.Machine.execDoorbell p r value s
  | .statusHeadDoorbell p r value => Sys2Proof.Machine.execStatusHeadDoorbell p r value s
  | .inlineWindowWrite p r off data => Sys2Proof.Machine.execInlineWindowWrite p r off data s
  | .requestFetchComplete p r unit res => Sys2Proof.Machine.execRequestFetchComplete p r unit res s
  | .ringEnable p => Sys2Proof.Machine.execRingEnable p s
  | .statusEntryWrite p r => Sys2Proof.Machine.execStatusEntryWrite p r s
  | .movStart v c value => Sys2Proof.Machine.execMovStart v c value s
  | .movStop v c value => Sys2Proof.Machine.execMovStop v c value s
  | .movClear v c value => Sys2Proof.Machine.execMovClear v c value s
  | .movCfgWrite v c isList value => Sys2Proof.Machine.execMovCfgWrite v c isList value s
  | .tickTrigger c => Sys2Proof.Machine.execTickTrigger c s
  | .timerTrigger c => Sys2Proof.Machine.execTimerTrigger c s
  | .descriptorRead c r => Sys2Proof.Machine.execDescriptorRead c r s
  | .moverElement e el => Sys2Proof.Machine.execMoverElement e el s
  | .elementAnswer e q off ans => Sys2Proof.Machine.execElementAnswer e q off ans s
  | .flushReadComplete e q r => Sys2Proof.Machine.execFlushReadComplete e q r s
  | .add w => Sys2Proof.Machine.execAdd w s
  | .addw w => Sys2Proof.Machine.execAddw w s
  | .sub w => Sys2Proof.Machine.execSub w s
  | .subw w => Sys2Proof.Machine.execSubw w s
  | .opAnd w => Sys2Proof.Machine.execOpAnd w s
  | .opOr w => Sys2Proof.Machine.execOpOr w s
  | .opXor w => Sys2Proof.Machine.execOpXor w s
  | .andn w => Sys2Proof.Machine.execAndn w s
  | .neg w => Sys2Proof.Machine.execNeg w s
  | .negw w => Sys2Proof.Machine.execNegw w s
  | .sll w => Sys2Proof.Machine.execSll w s
  | .sllw w => Sys2Proof.Machine.execSllw w s
  | .srl w => Sys2Proof.Machine.execSrl w s
  | .srlw w => Sys2Proof.Machine.execSrlw w s
  | .sra w => Sys2Proof.Machine.execSra w s
  | .sraw w => Sys2Proof.Machine.execSraw w s
  | .rol w => Sys2Proof.Machine.execRol w s
  | .rolw w => Sys2Proof.Machine.execRolw w s
  | .ror w => Sys2Proof.Machine.execRor w s
  | .rorw w => Sys2Proof.Machine.execRorw w s
  | .mul w => Sys2Proof.Machine.execMul w s
  | .mulw w => Sys2Proof.Machine.execMulw w s
  | .mulh w => Sys2Proof.Machine.execMulh w s
  | .mulhu w => Sys2Proof.Machine.execMulhu w s
  | .div w => Sys2Proof.Machine.execDiv w s
  | .divw w => Sys2Proof.Machine.execDivw w s
  | .divu w => Sys2Proof.Machine.execDivu w s
  | .divuw w => Sys2Proof.Machine.execDivuw w s
  | .rem w => Sys2Proof.Machine.execRem w s
  | .remw w => Sys2Proof.Machine.execRemw w s
  | .remu w => Sys2Proof.Machine.execRemu w s
  | .remuw w => Sys2Proof.Machine.execRemuw w s
  | .seq w => Sys2Proof.Machine.execSeq w s
  | .sne w => Sys2Proof.Machine.execSne w s
  | .slt w => Sys2Proof.Machine.execSlt w s
  | .sltu w => Sys2Proof.Machine.execSltu w s
  | .sge w => Sys2Proof.Machine.execSge w s
  | .sgeu w => Sys2Proof.Machine.execSgeu w s
  | .addi w => Sys2Proof.Machine.execAddi w s
  | .addiw w => Sys2Proof.Machine.execAddiw w s
  | .andi w => Sys2Proof.Machine.execAndi w s
  | .ori w => Sys2Proof.Machine.execOri w s
  | .xori w => Sys2Proof.Machine.execXori w s
  | .lui w => Sys2Proof.Machine.execLui w s
  | .slli w => Sys2Proof.Machine.execSlli w s
  | .srli w => Sys2Proof.Machine.execSrli w s
  | .srai w => Sys2Proof.Machine.execSrai w s
  | .roli w => Sys2Proof.Machine.execRoli w s
  | .slliw w => Sys2Proof.Machine.execSlliw w s
  | .srliw w => Sys2Proof.Machine.execSrliw w s
  | .sraiw w => Sys2Proof.Machine.execSraiw w s
  | .roliw w => Sys2Proof.Machine.execRoliw w s
  | .seqi w => Sys2Proof.Machine.execSeqi w s
  | .snei w => Sys2Proof.Machine.execSnei w s
  | .slti w => Sys2Proof.Machine.execSlti w s
  | .sltiu w => Sys2Proof.Machine.execSltiu w s
  | .sgei w => Sys2Proof.Machine.execSgei w s
  | .sgeiu w => Sys2Proof.Machine.execSgeiu w s
  | .ld w => Sys2Proof.Machine.execLd w s
  | .ldu w => Sys2Proof.Machine.execLdu w s
  | .st w => Sys2Proof.Machine.execSt w s
  | .loadAnswer x r => Sys2Proof.Machine.execLoadAnswer x r s
  | .bz w => Sys2Proof.Machine.execBz w s
  | .bnz w => Sys2Proof.Machine.execBnz w s
  | .j w => Sys2Proof.Machine.execJ w s
  | .jal w => Sys2Proof.Machine.execJal w s
  | .jr w => Sys2Proof.Machine.execJr w s
  | .movb w => Sys2Proof.Machine.execMovb w s
  | .filb w => Sys2Proof.Machine.execFilb w s
  | .cmpb w => Sys2Proof.Machine.execCmpb w s
  | .scnb w => Sys2Proof.Machine.execScnb w s
  | .send w => Sys2Proof.Machine.execSend w s
  | .sendComplete t ev => Sys2Proof.Machine.execSendComplete t ev s
  | .post w => Sys2Proof.Machine.execPost w s
  | .waitev w => Sys2Proof.Machine.execWaitev w s
  | .waitevTimeout t => Sys2Proof.Machine.execWaitevTimeout t s
  | .yield w => Sys2Proof.Machine.execYield w s
  | .rtn w => Sys2Proof.Machine.execRtn w s
  | .rdtk w => Sys2Proof.Machine.execRdtk w s
  | .rdcy w => Sys2Proof.Machine.execRdcy w s
  | .crd w => Sys2Proof.Machine.execCrd w s
  | .cwr w => Sys2Proof.Machine.execCwr w s
  | .crs w => Sys2Proof.Machine.execCrs w s
  | .crc w => Sys2Proof.Machine.execCrc w s
  | .rte w => Sys2Proof.Machine.execRte w s
  | .wfi w => Sys2Proof.Machine.execWfi w s
  | .callr w => Sys2Proof.Machine.execCallr w s
  | .wingsStart c entry => Sys2Proof.Machine.execWingsStart c entry s
  | .disable l b => Sys2Proof.Machine.execDisable l b s
  | .rewiden l => Sys2Proof.Machine.execRewiden l s
  | .retryNow l => Sys2Proof.Machine.execRetryNow l s
  | .rekeyNow l => Sys2Proof.Machine.execRekeyNow l s
  | .backoffExpire l => Sys2Proof.Machine.execBackoffExpire l s
  | .receiverDetect l term => Sys2Proof.Machine.execReceiverDetect l term s
  | .trainingBlock l lane payload => Sys2Proof.Machine.execTrainingBlock l lane payload s
  | .trainTimeout l => Sys2Proof.Machine.execTrainTimeout l s
  | .crossed l => Sys2Proof.Machine.execCrossed l s
  | .retrainTimeout l => Sys2Proof.Machine.execRetrainTimeout l s
  | .authTimeout l => Sys2Proof.Machine.execAuthTimeout l s
  | .noSignal lane => Sys2Proof.Machine.execNoSignal lane s
  | .short lane => Sys2Proof.Machine.execShort lane s
  | .noisy lane => Sys2Proof.Machine.execNoisy lane s
  | .flitReceive l f => Sys2Proof.Machine.execFlitReceive l f s
  | .cmd l more => Sys2Proof.Machine.execCmd l more s
  | .dataTransmit l ctag more => Sys2Proof.Machine.execDataTransmit l ctag more s
  | .rehearse l more => Sys2Proof.Machine.execRehearse l more s
  | .go l more => Sys2Proof.Machine.execGo l more s
  | .strike l more => Sys2Proof.Machine.execStrike l more s
  | .rehearsalWithdrawal l n => Sys2Proof.Machine.execRehearsalWithdrawal l n s
  | .rehearsalNumberRelease l n => Sys2Proof.Machine.execRehearsalNumberRelease l n s
  | .creditSend l grants more => Sys2Proof.Machine.execCreditSend l grants more s
  | .keepalive l => Sys2Proof.Machine.execKeepalive l s
  | .keepaliveLost l => Sys2Proof.Machine.execKeepaliveLost l s
  | .helloR l sig => Sys2Proof.Machine.execHelloR l sig s
  | .finish l mac => Sys2Proof.Machine.execFinish l mac s
  | .rekeyThreshold l => Sys2Proof.Machine.execRekeyThreshold l s
  | .rekeyOverdue l => Sys2Proof.Machine.execRekeyOverdue l s
  | .ownerMessageSend l => Sys2Proof.Machine.execOwnerMessageSend l s
  | .ownerMessageSent l => Sys2Proof.Machine.execOwnerMessageSent l s
  | .rxAck l => Sys2Proof.Machine.execRxAck l s
  | .responseTimeout l ctag => Sys2Proof.Machine.execResponseTimeout l ctag s
  | .abortUnanswered l ctag => Sys2Proof.Machine.execAbortUnanswered l ctag s
  | .cal o => Sys2Proof.Machine.execCal o s
  | .calComplete o cause => Sys2Proof.Machine.execCalComplete o cause s
  | .configurationRequest p q => Sys2Proof.Machine.execConfigurationRequest p q s
  | .hostPortLinkUp p rate flit width => Sys2Proof.Machine.execHostPortLinkUp p rate flit width s
  | .flr p => Sys2Proof.Machine.execFlr p s
  | .hotReset p => Sys2Proof.Machine.execHotReset p s
  | .dlDown p => Sys2Proof.Machine.execDlDown p s
  | .perstNAssert n => Sys2Proof.Machine.execPerstNAssert n s
  | .perstNRelease n => Sys2Proof.Machine.execPerstNRelease n s
  | .drainEnd p => Sys2Proof.Machine.execDrainEnd p s
  | .hostCompletion p tag r => Sys2Proof.Machine.execHostCompletion p tag r s
  | .completionTimeout p tag => Sys2Proof.Machine.execCompletionTimeout p tag s
  | .quarantineExpiry p tag => Sys2Proof.Machine.execQuarantineExpiry p tag s
  | .d3hotEntry p => Sys2Proof.Machine.execD3hotEntry p s
  | .d0Entry p => Sys2Proof.Machine.execD0Entry p s
  | .pmeRepeat p => Sys2Proof.Machine.execPmeRepeat p s
  | .l1Entry p sub => Sys2Proof.Machine.execL1Entry p sub s
  | .l1Exit p => Sys2Proof.Machine.execL1Exit p s
  | .l0pWidthChange p width => Sys2Proof.Machine.execL0pWidthChange p width s
  | .l0pWidenRequest p => Sys2Proof.Machine.execL0pWidenRequest p s
  | .submit side value => Sys2Proof.Machine.execSubmit side value s
  | .attest paths votes => Sys2Proof.Machine.execAttest paths votes s
  | .getKeys paths => Sys2Proof.Machine.execGetKeys paths s
  | .resetPartition ids keys votes => Sys2Proof.Machine.execResetPartition ids keys votes s
  | .chipReset ids keys votes => Sys2Proof.Machine.execChipReset ids keys votes s
  | .chipResetDelayExpiry => Sys2Proof.Machine.execChipResetDelayExpiry s
  | .advanceSvn ids keys votes stuck => Sys2Proof.Machine.execAdvanceSvn ids keys votes stuck s
  | .disableDebug ids keys votes stuck => Sys2Proof.Machine.execDisableDebug ids keys votes stuck s
  | .firmware ids keys votes => Sys2Proof.Machine.execFirmware ids keys votes s
  | .finishFirmwareCommand value => Sys2Proof.Machine.execFinishFirmwareCommand value s
  | .fwTimeout => Sys2Proof.Machine.execFwTimeout s
  | .votedSweep votes => Sys2Proof.Machine.execVotedSweep votes s
  | .drbgReseed => Sys2Proof.Machine.execDrbgReseed s
  | .entropyFailure proportion => Sys2Proof.Machine.execEntropyFailure proportion s
  | .train m => Sys2Proof.Machine.execTrain m s
  | .trainingComplete m r => Sys2Proof.Machine.execTrainingComplete m r s
  | .lineRead m line rd e te => Sys2Proof.Machine.execLineRead m line rd e te s
  | .lineWrite m line off bytes wr e te => Sys2Proof.Machine.execLineWrite m line off bytes wr e te s
  | .tagLineWriteback m tl => Sys2Proof.Machine.execTagLineWriteback m tl s
  | .refresh m hot => Sys2Proof.Machine.execRefresh m hot s
  | .bucketLeak m => Sys2Proof.Machine.execBucketLeak m s
  | .memBucketWrite m value => Sys2Proof.Machine.execMemBucketWrite m value s
  | .scrubStart m value => Sys2Proof.Machine.execScrubStart m value s
  | .scrubStop m => Sys2Proof.Machine.execScrubStop m s
  | .scrubLine m e => Sys2Proof.Machine.execScrubLine m e s
  | .commit p => Sys2Proof.Machine.execCommit p s
  | .commitRecheck p => Sys2Proof.Machine.execCommitRecheck p s
  | .maskEffect => Sys2Proof.Machine.execMaskEffect s
  | .holdoffExpiry own group => Sys2Proof.Machine.execHoldoffExpiry own group s
  | .acknowledge own bank w bits => Sys2Proof.Machine.execAcknowledge own bank w bits s
  | .pendClear own bank w bits => Sys2Proof.Machine.execPendClear own bank w bits s
  | .interruptEntry c => Sys2Proof.Machine.execInterruptEntry c s
  | .mbxTxHead side p w => Sys2Proof.Machine.execMbxTxHead side p w s
  | .mbxTxData side p w => Sys2Proof.Machine.execMbxTxData side p w s
  | .mbxRx side p size off => Sys2Proof.Machine.execMbxRx side p size off s
  | .flushTx side p => Sys2Proof.Machine.execFlushTx side p s
  | .flushRx side p => Sys2Proof.Machine.execFlushRx side p s
  | .mailboxPointerMismatch p fromWings => Sys2Proof.Machine.execMailboxPointerMismatch p fromWings s
  | .trcEvtRead l => Sys2Proof.Machine.execTrcEvtRead l s
  | .eventFifoPointerMismatch l => Sys2Proof.Machine.execEventFifoPointerMismatch l s
  | .trcPut w => Sys2Proof.Machine.execTrcPut w s
  | .trcGet e => Sys2Proof.Machine.execTrcGet e s
  | .traceMark value => Sys2Proof.Machine.execTraceMark value s
  | .rewind value => Sys2Proof.Machine.execRewind value s
  | .tracePointerMismatch => Sys2Proof.Machine.execTracePointerMismatch s
  | .faultWindowExpiry f => Sys2Proof.Machine.execFaultWindowExpiry f s
  | .blockResetEnd b c => Sys2Proof.Machine.execBlockResetEnd b c s
  | .pwrBreset value => Sys2Proof.Machine.execPwrBreset value s
  | .faultInject b value => Sys2Proof.Machine.execFaultInject b value s
  | .interfaceTimeout t => Sys2Proof.Machine.execInterfaceTimeout t s
  | .thermalWarning sensor temp => Sys2Proof.Machine.execThermalWarning sensor temp s
  | .thermalTrip sensor temp => Sys2Proof.Machine.execThermalTrip sensor temp s
  | .hush b => Sys2Proof.Machine.execHush b s
  | .entdaa a => Sys2Proof.Machine.execEntdaa a s
  | .setdasa static a => Sys2Proof.Machine.execSetdasa static a s
  | .rstdaa => Sys2Proof.Machine.execRstdaa s
  | .getpid => Sys2Proof.Machine.execGetpid s
  | .getbcr => Sys2Proof.Machine.execGetbcr s
  | .getdcr => Sys2Proof.Machine.execGetdcr s
  | .getstatus => Sys2Proof.Machine.execGetstatus s
  | .i3cOffsetWrite bytes => Sys2Proof.Machine.execI3cOffsetWrite bytes s
  | .i3cPrivateRead n => Sys2Proof.Machine.execI3cPrivateRead n s
  | .samplePreload levels bits => Sys2Proof.Machine.execSamplePreload levels bits s
  | .extest levels bits => Sys2Proof.Machine.execExtest levels bits s
  | .ident => Sys2Proof.Machine.execIdent s
  | .challenge => Sys2Proof.Machine.execChallenge s
  | .token bytes v => Sys2Proof.Machine.execToken bytes v s
  | .reg dr => Sys2Proof.Machine.execReg dr s
  | .wdbgHalt c => Sys2Proof.Machine.execWdbgHalt c s
  | .wdbgResume c => Sys2Proof.Machine.execWdbgResume c s
  | .wdbgStep c => Sys2Proof.Machine.execWdbgStep c s
  | .regRd c r => Sys2Proof.Machine.execRegRd c r s
  | .regWr c r d => Sys2Proof.Machine.execRegWr c r d s
  | .trace e => Sys2Proof.Machine.execTrace e s
  | .fuse dr stuck => Sys2Proof.Machine.execFuse dr stuck s
  | .bypass => Sys2Proof.Machine.execBypass s
  | .corePllLock octal seq0 seq1 => Sys2Proof.Machine.execCorePllLock octal seq0 seq1 s
  | .entropyHealthRestored => Sys2Proof.Machine.execEntropyHealthRestored s
  | .thermalWarningRearm temp => Sys2Proof.Machine.execThermalWarningRearm temp s
  | .refclkHpReturn n => Sys2Proof.Machine.execRefclkHpReturn n s
  | .blockLockLost lane => Sys2Proof.Machine.execBlockLockLost lane s
  | .hostL1Exit p => Sys2Proof.Machine.execHostL1Exit p s
  | .ioLockedAtomicRequest p kind => Sys2Proof.Machine.execIoLockedAtomicRequest p kind s
  | .imgRootHashRead v w => Sys2Proof.Machine.execImgRootHashRead v w s
  | .sensorReadingsValid temps => Sys2Proof.Machine.execSensorReadingsValid temps s

end Sys2Proof.Machine
end

