-- ==== Sys2Proof/Safety.lean ====
section
/-! DEFINITION. What a safe run of the loom is, and the terms in which the statements say what a command did and what
it left alone. -/

namespace Sys2Proof.Machine

/-- A run of n steps that neither faults nor refuses. -/
def SafeRun : Nat → State → Prop
  | 0, _ => True
  | n + 1, s => ∃ t, step s = .next t ∧ SafeRun n t

/-! ### Frames -/

/-- Every register field but the listed ones reads as before. -/
def FldsKept (a b : M) (l : List (Fld × Nat)) : Prop := ∀ F i, (F, i) ∉ l → b.fld F i = a.fld F i

/-- Every thread and core but one is as before. -/
def CpusKept (a b : M) (k : Key) : Prop := ∀ j, j ≠ k → b.cpu j = a.cpu j

/-- Every link but one is as before. -/
def LinksKept (a b : M) (l : Nat) : Prop := ∀ k, k ≠ l → b.link k = a.link k

/-- Every channel but one is as before. -/
def ChansKept (a b : M) (n : Nat) : Prop := ∀ k, k ≠ n → b.chan k = a.chan k

/-- Every port but one is as before. -/
def HostsKept (a b : M) (p : Nat) : Prop := ∀ q, q ≠ p → b.hostOf q = a.hostOf q

/-- The command completes with its own effect m' on everything but queue, fuses and image; the reactions that m' asks for act
before the next command (R361). -/
def Completes (c : Instr) (s : State) (m' : M) : Prop :=
  exec c s = .next { s with m := settle s.inForce reactRounds m' }

/-- A register row reaches its register: the function it goes through is open, and no block reset holds the access (R261, R380). -/
def RowTaken (s : State) (a : Access) : Prop :=
  rowOpen s.inForce s.m a = true ∧ rowHeld s.inForce s.m a = false

/-- Nothing disturbs the voted words: no copy upset that a read has not met, no comparator about to differ, no word in three-way
disagreement (R279, R280, R282). -/
def Undisturbed (m : M) : Prop := m.upset = [] ∧ m.glitch = [] ∧ m.voteDead = [] ∧ m.tagGlitch = []

/-- A mailbox FIFO within the bounds of R344 and R346. -/
def MbxOk (x : Mbx) : Prop :=
  x.count ≤ 64 ∧ x.words ≤ 512 ∧ (∀ l ∈ x.items, 1 ≤ l.length ∧ l.length ≤ 8) ∧
  ∀ n l, x.opened = some (n, l) → 2 ≤ n ∧ n ≤ 8 ∧ 1 ≤ l.length ∧ l.length < n

/-! ### Processors (08) -/

/-- Processor `i.x` issues the word of `i`, which spells operation o: it may issue now, a core has no trap or interrupt to take first,
the word stands at PC in the code it may run and reads without error, and the processor runs the operation (R184, R186,
R187, R192, R207, R209). -/
def MayIssue (s : State) (i : Issue) (o : Op) : Prop :=
  s.m.react = [] ∧ canIssue s.m i.x = true ∧ fetchOk s.inForce s.m i.x = true ∧
  fetchWord s.inForce s.m i.x = i.word.toNat ∧ i.fetch = .ok ∧ decodeOp i.word = some o ∧
  match i.x with
  | .core c => takenFirst s.inForce i.x s.m = none ∧ wingsIllegal o = false
  | .thread _ => o ≠ .prv

/-- The divider an operation would use is free (R185). -/
def DividerFree (m : M) (x : Proc) (o : Op) : Prop := usesDivider o = true → mapGet 0 m.div (dividerKey x) ≤ m.now

/-- What an issued instruction leaves alone whatever it computes: every other processor and everything that is not a processor,
a budget, an issue slot or a divider; its charge, one spindle cycle for a partition's thread and none else; and the issue slot of
its spindle, taken for this cycle with the thread as the one served last (R59, R60, R184, R185). -/
def Issued (a b : M) (x : Proc) : Prop :=
  CpusKept a b x.key ∧
  b = { a with cpus := b.cpus, bud := b.bud, served := b.served, div := b.div, mgt := { a.mgt with wdbg := b.mgt.wdbg } } ∧
  match x with
  | .core _ => b.bud = a.bud ∧ b.served = a.served
  | .thread t =>
    b.mgt = a.mgt ∧ b.served = mapPut a.served (t.val / 4, 0) (a.now + 1, t.val % 4) ∧
    b.bud = (if (a.cpu (thr t.val)).own = 8 then { a.bud with last := mapDel a.bud.last (0, t.val / 4) }
      else (a.charge 0 (a.cpu (thr t.val)).own (t.val / 4) 1).bud)

/-- A processor after an instruction in sequence: the result in rd, g0 and every other register of both banks as before, PC at
the next word, the next issue after the latency, and nothing else of the processor changed (R185, R186). -/
def Wrote (now : Nat) (k j : Cpu) (rd : Nat) (v : Word) (lat : Nat) : Prop :=
  (∀ n, j.g n = if n = rd ∧ n ≠ 0 then v else k.g n) ∧
  (∀ b n, b ≠ k.bank → mapGet 0 j.regs (b, n) = mapGet 0 k.regs (b, n)) ∧
  j = { k with regs := j.regs, pc := (k.pc + 4) % 2 ^ 64, ready := now + lat }

/-- The state in which an issued instruction acts: the debug port's step used up, the issue charged (R185, R402). -/
def afterIssue (s : State) (i : Issue) : M := chargeIssue i.x (endStep i.x s.m)

/-- A processor after a branch or jump: PC + 4 in the link register when there is one, the target in PC, two cycles when it is
taken and one when not, nothing else changed (R185, R192). -/
def Jumped (now : Nat) (k j : Cpu) (link : Nat) (taken : Bool) (target : Nat) : Prop :=
  (∀ n, j.g n = if n = link ∧ n ≠ 0 then BitVec.ofNat 64 (k.pc + 4) else k.g n) ∧
  (∀ b n, b ≠ k.bank → mapGet 0 j.regs (b, n) = mapGet 0 k.regs (b, n)) ∧
  j = { k with
    regs := j.regs
    pc := if taken then target else (k.pc + 4) % 2 ^ 64
    ready := now + if taken then 2 else 1 }

/-- PC plus a signed distance, modulo 2^64. -/
def pcPlus (k : Cpu) (d : Int) : Nat := ((k.pc + d) % (2 ^ 64 : Nat)).toNat

/-- What a load leaves in its register: the little-endian value of its bytes, sign-extended by LD, zero-extended by LDU (R3,
R194). -/
def loaded (signed : Bool) (b : List Byte) : Word :=
  if signed ∧ 2 ^ (8 * b.length) ≤ 2 * leVal b then BitVec.ofInt 64 ((leVal b : Int) - (2 ^ (8 * b.length) : Nat))
  else BitVec.ofNat 64 (leVal b)

/-- Whether a place is on the die: scratch, the owner stage reserve, a stage buffer. -/
def onDie : Space → Bool
  | .scratch _ => true
  | .ownerStage => true
  | .buf _ _ _ => true
  | _ => false

/-- The place an M word addresses (R193, R194). -/
def placeOf (s : State) (i : Issue) (store : Bool) : Option Range :=
  resolve s.inForce s.m i.x (fSpace i.word) ((s.m.cpu i.x.key).g (fRa i.word)) (fOff i.word) (fSize i.word) store

/-- The address an M word spells: ra + sext(OFF) modulo 2^64 (R194). -/
def addrOf (s : State) (i : Issue) : Nat :=
  ((((s.m.cpu i.x.key).g (fRa i.word)).toNat + (i.word.extractLsb' 0 12).toInt) % (2 ^ 64 : Nat)).toNat

/-! ### What the integer instructions compute, in integer arithmetic (R189 to R191) -/

/-- sext of the low 32 bits of an integer. -/
def w32 (z : Int) : Word := (BitVec.ofInt 32 z).signExtend 64

/-- The signed value of the low 32 bits. -/
def lo32 (a : Word) : Int := (a.truncate 32 : BitVec 32).toInt

/-- The unsigned value of the low 32 bits. -/
def un32 (a : Word) : Nat := a.toNat % 2 ^ 32

/-- 1 or 0. -/
def oneIf (p : Prop) [Decidable p] : Word := if p then 1 else 0

/-- sext(IMM16) as an integer. -/
def imS (w : BitVec 32) : Int := (w.extractLsb' 0 16).toInt

/-- zext(IMM16). -/
def imZ (w : BitVec 32) : Nat := w.toNat % 2 ^ 16

/-- The count of an immediate shift. -/
def imC (w : BitVec 32) : Nat := w.toNat % 2 ^ 6

/-- An integer instruction: its operation, its command, and its result from ra, rb and the word. -/
structure AluRow where
  op : Op
  cmd : Issue → Instr
  val : Word → Word → BitVec 32 → Word

/-- Sums, differences and bitwise operations. -/
def aluBasic : List AluRow :=
  [ ⟨.add, .add, fun a b _ => BitVec.ofInt 64 (a.toInt + b.toInt)⟩,
    ⟨.addw, .addw, fun a b _ => w32 (lo32 a + lo32 b)⟩,
    ⟨.sub, .sub, fun a b _ => BitVec.ofInt 64 (a.toInt - b.toInt)⟩,
    ⟨.subw, .subw, fun a b _ => w32 (lo32 a - lo32 b)⟩,
    ⟨.and, .opAnd, fun a b _ => BitVec.ofNat 64 (a.toNat &&& b.toNat)⟩,
    ⟨.or, .opOr, fun a b _ => BitVec.ofNat 64 (a.toNat ||| b.toNat)⟩,
    ⟨.xor, .opXor, fun a b _ => BitVec.ofNat 64 (a.toNat ^^^ b.toNat)⟩,
    ⟨.andn, .andn, fun a b _ => BitVec.ofNat 64 (a.toNat &&& (2 ^ 64 - 1 - b.toNat))⟩,
    ⟨.neg, .neg, fun a _ _ => BitVec.ofInt 64 (-a.toInt)⟩,
    ⟨.negw, .negw, fun a _ _ => w32 (-lo32 a)⟩ ]

/-- Shifts and rotates by a register. -/
def aluShifts : List AluRow :=
  [ ⟨.sll, .sll, fun a b _ => if 64 ≤ b.toNat then 0 else BitVec.ofNat 64 (a.toNat * 2 ^ b.toNat)⟩,
    ⟨.sllw, .sllw, fun a b _ => if 32 ≤ un32 b then 0 else w32 (a.toNat * 2 ^ un32 b : Nat)⟩,
    ⟨.srl, .srl, fun a b _ => if 64 ≤ b.toNat then 0 else BitVec.ofNat 64 (a.toNat / 2 ^ b.toNat)⟩,
    ⟨.srlw, .srlw, fun a b _ => if 32 ≤ un32 b then 0 else w32 (un32 a / 2 ^ un32 b : Nat)⟩,
    ⟨.sra, .sra, fun a b _ => BitVec.ofInt 64 (a.toInt / (2 ^ min b.toNat 63 : Nat))⟩,
    ⟨.sraw, .sraw, fun a b _ => w32 (lo32 a / (2 ^ min (un32 b) 31 : Nat))⟩,
    ⟨.rol, .rol, fun a b _ => BitVec.ofNat 64 (a.toNat * 2 ^ (b.toNat % 64) + a.toNat / 2 ^ (64 - b.toNat % 64))⟩,
    ⟨.rolw, .rolw, fun a b _ => w32 (un32 a * 2 ^ (b.toNat % 32) + un32 a / 2 ^ (32 - b.toNat % 32) : Nat)⟩,
    ⟨.ror, .ror, fun a b _ => BitVec.ofNat 64 (a.toNat / 2 ^ (b.toNat % 64) + a.toNat * 2 ^ (64 - b.toNat % 64))⟩,
    ⟨.rorw, .rorw, fun a b _ => w32 (un32 a / 2 ^ (b.toNat % 32) + un32 a * 2 ^ (32 - b.toNat % 32) : Nat)⟩ ]

/-- Products, quotients and remainders. -/
def aluProducts : List AluRow :=
  [ ⟨.mul, .mul, fun a b _ => BitVec.ofInt 64 (a.toInt * b.toInt)⟩,
    ⟨.mulw, .mulw, fun a b _ => w32 (lo32 a * lo32 b)⟩,
    ⟨.mulh, .mulh, fun a b _ => BitVec.ofInt 64 (a.toInt * b.toInt / (2 ^ 64 : Nat))⟩,
    ⟨.mulhu, .mulhu, fun a b _ => BitVec.ofNat 64 (a.toNat * b.toNat / 2 ^ 64)⟩,
    ⟨.div, .div, fun a b _ => if b = 0 then BitVec.ofInt 64 (-1) else BitVec.ofInt 64 (a.toInt.tdiv b.toInt)⟩,
    ⟨.divw, .divw, fun a b _ => if lo32 b = 0 then BitVec.ofInt 64 (-1) else w32 ((lo32 a).tdiv (lo32 b))⟩,
    ⟨.divu, .divu, fun a b _ => if b = 0 then BitVec.ofInt 64 (-1) else BitVec.ofNat 64 (a.toNat / b.toNat)⟩,
    ⟨.divuw, .divuw, fun a b _ => if un32 b = 0 then BitVec.ofInt 64 (-1) else w32 (un32 a / un32 b : Nat)⟩,
    ⟨.rem, .rem, fun a b _ => if b = 0 then a else BitVec.ofInt 64 (a.toInt.tmod b.toInt)⟩,
    ⟨.remw, .remw, fun a b _ => if lo32 b = 0 then w32 (lo32 a) else w32 ((lo32 a).tmod (lo32 b))⟩,
    ⟨.remu, .remu, fun a b _ => if b = 0 then a else BitVec.ofNat 64 (a.toNat % b.toNat)⟩,
    ⟨.remuw, .remuw, fun a b _ => if un32 b = 0 then w32 (lo32 a) else w32 (un32 a % un32 b : Nat)⟩ ]

/-- Compares. -/
def aluCompares : List AluRow :=
  [ ⟨.seq, .seq, fun a b _ => oneIf (a.toNat = b.toNat)⟩,
    ⟨.sne, .sne, fun a b _ => oneIf (a.toNat ≠ b.toNat)⟩,
    ⟨.slt, .slt, fun a b _ => oneIf (a.toInt < b.toInt)⟩,
    ⟨.sltu, .sltu, fun a b _ => oneIf (a.toNat < b.toNat)⟩,
    ⟨.sge, .sge, fun a b _ => oneIf (b.toInt ≤ a.toInt)⟩,
    ⟨.sgeu, .sgeu, fun a b _ => oneIf (b.toNat ≤ a.toNat)⟩,
    ⟨.seqi, .seqi, fun a _ w => oneIf (a.toInt = imS w)⟩,
    ⟨.snei, .snei, fun a _ w => oneIf (a.toInt ≠ imS w)⟩,
    ⟨.slti, .slti, fun a _ w => oneIf (a.toInt < imS w)⟩,
    ⟨.sltiu, .sltiu, fun a _ w => oneIf (a.toNat < (BitVec.ofInt 64 (imS w)).toNat)⟩,
    ⟨.sgei, .sgei, fun a _ w => oneIf (imS w ≤ a.toInt)⟩,
    ⟨.sgeiu, .sgeiu, fun a _ w => oneIf ((BitVec.ofInt 64 (imS w)).toNat ≤ a.toNat)⟩ ]

/-- Immediate forms. -/
def aluImmediates : List AluRow :=
  [ ⟨.addi, .addi, fun a _ w => BitVec.ofInt 64 (a.toInt + imS w)⟩,
    ⟨.addiw, .addiw, fun a _ w => w32 (a.toInt + imS w)⟩,
    ⟨.andi, .andi, fun a _ w => BitVec.ofNat 64 (a.toNat &&& imZ w)⟩,
    ⟨.ori, .ori, fun a _ w => BitVec.ofNat 64 (a.toNat ||| imZ w)⟩,
    ⟨.xori, .xori, fun a _ w => BitVec.ofNat 64 (a.toNat ^^^ imZ w)⟩,
    ⟨.lui, .lui, fun _ _ w => w32 (imZ w * 2 ^ 16 : Nat)⟩,
    ⟨.slli, .slli, fun a _ w => BitVec.ofNat 64 (a.toNat * 2 ^ imC w)⟩,
    ⟨.srli, .srli, fun a _ w => BitVec.ofNat 64 (a.toNat / 2 ^ imC w)⟩,
    ⟨.srai, .srai, fun a _ w => BitVec.ofInt 64 (a.toInt / (2 ^ imC w : Nat))⟩,
    ⟨.roli, .roli, fun a _ w => BitVec.ofNat 64 (a.toNat * 2 ^ imC w + a.toNat / 2 ^ (64 - imC w))⟩,
    ⟨.slliw, .slliw, fun a _ w => w32 (a.toNat * 2 ^ imC w : Nat)⟩,
    ⟨.srliw, .srliw, fun a _ w => w32 (un32 a / 2 ^ imC w : Nat)⟩,
    ⟨.sraiw, .sraiw, fun a _ w => w32 (lo32 a / (2 ^ imC w : Nat))⟩,
    ⟨.roliw, .roliw, fun a _ w => w32 (un32 a * 2 ^ imC w + un32 a / 2 ^ (32 - imC w) : Nat)⟩ ]

/-- Every row of a list completes: on any operands the processor is left with the row's result. -/
def AluRuns (l : List AluRow) : Prop :=
  ∀ r ∈ l, ∀ (s : State) (i : Issue), MayIssue s i r.op → DividerFree s.m i.x r.op →
    ∃ t, exec (r.cmd i) s = .next t ∧ t = { s with m := t.m } ∧ Issued s.m t.m i.x ∧
      Wrote s.m.now (s.m.cpu i.x.key) (t.m.cpu i.x.key) (fRd i.word)
        (r.val ((s.m.cpu i.x.key).g (fRa i.word)) ((s.m.cpu i.x.key).g (fRb i.word)) i.word) (aluLatency r.op) ∧
      (usesDivider r.op = false → t.m.div = s.m.div) ∧
      (usesDivider r.op = true → t.m.div = mapPut s.m.div (dividerKey i.x) (s.m.now + 18))

end Sys2Proof.Machine
end

