-- ==== Sys2Proof/Certificates/Slice0/Obligations.lean ====
section
/-! DEFINITION. The statements for the provers, family by family, each from the rules its docstring names. -/

open Sys2Proof Sys2Proof.Machine

/-! ### Processors (08) -/

/-- Every integer instruction (R185, R186, R189 to R191): the result, division by zero and the signed overflow among them,
the latency, the divider busy for 18 cycles, and everything left alone; a divide that finds its divider busy does not
issue, and nothing changes but a step owed to the debug port. Log entry 24, on which a clause rests, is the model's
choice. -/
def Obligations.IntegerRuns : Prop :=
  AluRuns (aluBasic ++ aluShifts ++ aluProducts ++ aluCompares ++ aluImmediates) ∧
  (∀ r ∈ aluProducts, usesDivider r.op = true → ∀ (s : State) (i : Issue), MayIssue s i r.op →
     s.m.now < mapGet 0 s.m.div (dividerKey i.x) →
     ∃ t, exec (r.cmd i) s = .next t ∧
       t = { s with m := { s.m with served := t.m.served, mgt := { s.m.mgt with wdbg := t.m.mgt.wdbg } } } ∧
       match i.x with
       | .thread k => t.m.served = (s.m.passTurn k.val).served
       | .core _ => t.m.served = s.m.served)

/-- Branches and jumps (R192): BZ, BNZ, J, JAL, JR take PC, and the link register, to the values of the table; the target
is not looked at until it is fetched, when an address that is not a multiple of 4 or lies outside the code fails as
ACCESS. -/
def Obligations.JumpsRun : Prop :=
  ∀ (s : State) (i : Issue),
    (MayIssue s i .bz → ∃ t, exec (.bz i) s = .next t ∧ t = { s with m := t.m } ∧ Issued s.m t.m i.x ∧ t.m.div = s.m.div ∧
      Jumped s.m.now (s.m.cpu i.x.key) (t.m.cpu i.x.key) 0 ((s.m.cpu i.x.key).g (fRd i.word) = 0)
        (pcPlus (s.m.cpu i.x.key) (4 * (i.word.extractLsb' 0 21).toInt))) ∧
    (MayIssue s i .bnz → ∃ t, exec (.bnz i) s = .next t ∧ t = { s with m := t.m } ∧ Issued s.m t.m i.x ∧ t.m.div = s.m.div ∧
      Jumped s.m.now (s.m.cpu i.x.key) (t.m.cpu i.x.key) 0 ((s.m.cpu i.x.key).g (fRd i.word) ≠ 0)
        (pcPlus (s.m.cpu i.x.key) (4 * (i.word.extractLsb' 0 21).toInt))) ∧
    (MayIssue s i .j → ∃ t, exec (.j i) s = .next t ∧ t = { s with m := t.m } ∧ Issued s.m t.m i.x ∧ t.m.div = s.m.div ∧
      Jumped s.m.now (s.m.cpu i.x.key) (t.m.cpu i.x.key) 0 true
        (pcPlus (s.m.cpu i.x.key) (4 * (i.word.extractLsb' 0 26).toInt))) ∧
    (MayIssue s i .jal → ∃ t, exec (.jal i) s = .next t ∧ t = { s with m := t.m } ∧ Issued s.m t.m i.x ∧ t.m.div = s.m.div ∧
      Jumped s.m.now (s.m.cpu i.x.key) (t.m.cpu i.x.key) 31 true
        (pcPlus (s.m.cpu i.x.key) (4 * (i.word.extractLsb' 0 26).toInt))) ∧
    (MayIssue s i .jr → ∃ t, exec (.jr i) s = .next t ∧ t = { s with m := t.m } ∧ Issued s.m t.m i.x ∧ t.m.div = s.m.div ∧
      Jumped s.m.now (s.m.cpu i.x.key) (t.m.cpu i.x.key) (fRd i.word) true
        ((s.m.cpu i.x.key).g (fRa i.word)).toNat) ∧
    (∀ c ∈ ([.bz, .bnz, .j, .jal, .jr] : List (Issue → Instr)), canIssue s.m i.x = true →
      takenFirst s.inForce i.x s.m = none →
      ((s.m.cpu i.x.key).pc % 4 ≠ 0 ∨ (codeArea s.inForce s.m i.x).2 ≤ (s.m.cpu i.x.key).pc) →
      Completes (c i) s (raiseAccess s.inForce i.x (s.m.cpu i.x.key).pc (afterIssue s i)))

/-- Where the spaces of an M word lie (R193, R194): SCRATCH below 0x4000 and aligned; STAGE of owner code inside
OWNER_STAGE, a store outside every routine's code; STAGE of a partition's routine by its handle; LOCAL inside the
owner region; WINDOW by the window check and the window it falls in. What breaks a rule of R194 is not made (R194,
R205, R209): a load or store without a place raises ACCESS with its address. -/
def Obligations.PlacesOfSpaces : Prop :=
  (∀ (s : State) (i : Issue) (store : Bool),
     (fSpace i.word = 0 → placeOf s i store =
       if addrOf s i % fSize i.word = 0 ∧ addrOf s i + fSize i.word ≤ 0x4000 then
         some ⟨.scratch i.x.num, addrOf s i, fSize i.word⟩ else none) ∧
     (fSpace i.word = 2 → partRoutine s.m i.x = none → placeOf s i store =
       if addrOf s i % fSize i.word = 0 ∧ addrOf s i + fSize i.word ≤ s.inForce.ownerStageBytes ∧
           ¬ (store = true ∧ ∃ r ∈ s.inForce.routines, addrOf s i < r.addr + r.code.length ∧
               r.addr < addrOf s i + fSize i.word) then
         some ⟨.ownerStage, addrOf s i, fSize i.word⟩ else none) ∧
     (fSpace i.word = 1 → partRoutine s.m i.x = none → placeOf s i store =
       if addrOf s i % fSize i.word = 0 ∧ addrOf s i + fSize i.word ≤ s.inForce.ownerDramBytes then
         some ⟨.dram, addrOf s i, fSize i.word⟩ else none) ∧
     (∀ r b o, fSpace i.word = 2 → partRoutine s.m i.x = some r → b < 16 → o < 2 ^ 32 →
       ((s.m.cpu i.x.key).g (fRa i.word)).toNat = b + 256 * o → placeOf s i store =
         if ((o : Int) + (i.word.extractLsb' 0 12).toInt) % (fSize i.word : Nat) = 0 then
           bufRange s.m r.part r.tag b (o + (i.word.extractLsb' 0 12).toInt) (fSize i.word) else none) ∧
     (∀ r, fSpace i.word = 1 → partRoutine s.m i.x = some r → placeOf s i store =
       if addrOf s i % fSize i.word = 0 ∧
           winCheck s.inForce s.m r.part (addrOf s i) (fSize i.word) (if store then rStore else rLoad) = 0 then
         (winMap s.inForce s.m r.part (addrOf s i)).map (fun y => ⟨y.1, y.2, fSize i.word⟩) else none)) ∧
  (∀ (s : State) (i : Issue), fSpace i.word ≠ 3 → Undisturbed s.m →
     (placeOf s i false = none → MayIssue s i .ld → Completes (.ld i) s (raiseAccess s.inForce i.x (addrOf s i) (afterIssue s i))) ∧
     (placeOf s i false = none → MayIssue s i .ldu → Completes (.ldu i) s (raiseAccess s.inForce i.x (addrOf s i) (afterIssue s i))) ∧
     (placeOf s i true = none → MayIssue s i .st → Completes (.st i) s (raiseAccess s.inForce i.x (addrOf s i) (afterIssue s i))))

/-- A load from a place on the die (R185, R186, R194): the register receives the bytes there, sign-extended by LD and
zero-extended by LDU; nothing else changes. -/
def Obligations.LoadsOnDie : Prop :=
  ∀ (s : State) (i : Issue) (r : Range), Undisturbed s.m → placeOf s i false = some r → fSpace i.word ≠ 3 → onDie r.sp = true → i.data = .ok →
    (MayIssue s i .ld → ∃ t, exec (.ld i) s = .next t ∧ t = { s with m := t.m } ∧ Issued s.m t.m i.x ∧ t.m.div = s.m.div ∧
      Wrote s.m.now (s.m.cpu i.x.key) (t.m.cpu i.x.key) (fRd i.word) (loaded true (readSp s.m r))
        (if fSpace i.word = 0 then 2 else 8)) ∧
    (MayIssue s i .ldu → ∃ t, exec (.ldu i) s = .next t ∧ t = { s with m := t.m } ∧ Issued s.m t.m i.x ∧ t.m.div = s.m.div ∧
      Wrote s.m.now (s.m.cpu i.x.key) (t.m.cpu i.x.key) (fRd i.word) (loaded false (readSp s.m r))
        (if fSpace i.word = 0 then 2 else 8))

/-- A load from local memory or a host waits at its own PC until the answer (R185, R194), and a wings core's REG load is a
register read of the owner view (R193). LOAD_ANSWER (R185, R194): the answer of local memory ends the wait; the
register receives the bytes and PC moves on. Log entry 29, on which a clause rests, is the model's choice. -/
def Obligations.LoadsElsewhere : Prop :=
  (∀ (s : State) (i : Issue) (signed : Bool), MayIssue s i (if signed then .ld else .ldu) →
     (∀ r, Undisturbed s.m → fSpace i.word ≠ 3 → placeOf s i false = some r → r.sp = .dram →
       Completes (if signed then .ld i else .ldu i) s
         (dramRead s.inForce (0, i.x.num) (procPort i.x) (s.m.cpu i.x.key).own (s.m.cpu i.x.key).own r.addr (fSize i.word)
           (waitLoad i.x ⟨fRd i.word, fSize i.word, signed, fSpace i.word, r.addr⟩ (afterIssue s i)))) ∧
     (∀ r p, Undisturbed s.m → fSpace i.word ≠ 3 → placeOf s i false = some r → r.sp = .host p →
       Completes (if signed then .ld i else .ldu i) s
         (reqTlp p (.rd (.load i.x.num) r.addr (fSize i.word) (if (s.m.cpu i.x.key).own = 8 then none else some (fSize i.word)))
           (waitLoad i.x ⟨fRd i.word, fSize i.word, signed, fSpace i.word, r.addr⟩ (afterIssue s i)))) ∧
     (∀ c, fSpace i.word = 3 → i.x = .core c → addrOf s i + fSize i.word ≤ 0x8000000 →
       readHeld s.inForce (afterIssue s i) .owner (addrOf s i) (fSize i.word) = false →
       flashRead (afterIssue s i) (addrOf s i) (fSize i.word) = false →
       Completes (if signed then .ld i else .ldu i) s
         (finishRd i.x (fRd i.word)
           (loadVal (fSize i.word) signed (accRead s.inForce .owner (addrOf s i) (fSize i.word) i.data (afterIssue s i)).1) 1
           (accRead s.inForce .owner (addrOf s i) (fSize i.word) i.data (afterIssue s i)).2)) ∧
     (∀ c, fSpace i.word = 3 → i.x = .core c → addrOf s i + fSize i.word ≤ 0x8000000 →
       readHeld s.inForce (afterIssue s i) .owner (addrOf s i) (fSize i.word) = true →
       Completes (if signed then .ld i else .ldu i) s
         (waitLoad i.x ⟨fRd i.word, fSize i.word, signed, 3, addrOf s i⟩
           { afterIssue s i with
             held := s.m.held ++ [.coreLoad c (fRd i.word) (fSize i.word) (addrOf s i) signed i.data] }))) ∧
  (∀ (s : State) (x : Proc) (l : LoadWait) (b : List Byte),
     s.m.react = [] → (s.m.cpu x.key).wait = .load l → (s.m.cpu x.key).loadDrop = 0 → loadAtHost s.m x = false →
     loadHeld s.m x = false → b.length = l.size →
     ∃ t, exec (.loadAnswer x (.data b)) s = .next t ∧ t = { s with m := { s.m with cpus := t.m.cpus } } ∧
       CpusKept s.m t.m x.key ∧
       Wrote s.m.now { s.m.cpu x.key with wait := .none } (t.m.cpu x.key) l.rd (loaded l.signed b) 1)

/-- ST (R185, R193 to R195): the bytes of rt stand at the place; every other byte of every memory is as before; PC moves
on. A store to local memory or a host goes out; a wings core's REG store is a register write. Log entry 29, on which a
clause rests, is the model's choice. -/
def Obligations.StoresRun : Prop :=
  ∀ (s : State) (i : Issue), MayIssue s i .st → Undisturbed s.m →
    (∀ k a n, placeOf s i true = some ⟨.scratch k, a, n⟩ → fSpace i.word ≠ 3 →
      ∃ t, exec (.st i) s = .next t ∧
        t = { s with m := { s.m with cpus := t.m.cpus, bud := t.m.bud, served := t.m.served, mgt := t.m.mgt, scratch := t.m.scratch } } ∧
        (∀ j, j < n → memGet t.m.scratch (k * 65536 + a + j) =
          BitVec.ofNat 8 (((s.m.cpu i.x.key).g (fRd i.word)).toNat / 256 ^ j)) ∧
        (∀ x, x < k * 65536 + a ∨ k * 65536 + a + n ≤ x → memGet t.m.scratch x = memGet s.m.scratch x) ∧
        CpusKept s.m t.m i.x.key ∧ Wrote s.m.now (s.m.cpu i.x.key) (t.m.cpu i.x.key) 0 0 1) ∧
    (∀ a n, placeOf s i true = some ⟨.ownerStage, a, n⟩ → fSpace i.word ≠ 3 →
      ∃ t, exec (.st i) s = .next t ∧
        t = { s with m := { s.m with cpus := t.m.cpus, bud := t.m.bud, served := t.m.served, mgt := t.m.mgt, stage := t.m.stage } } ∧
        (∀ j, j < n → memGet t.m.stage (a + j) =
          BitVec.ofNat 8 (((s.m.cpu i.x.key).g (fRd i.word)).toNat / 256 ^ j)) ∧
        (∀ x, x < a ∨ a + n ≤ x → memGet t.m.stage x = memGet s.m.stage x) ∧
        CpusKept s.m t.m i.x.key ∧ Wrote s.m.now (s.m.cpu i.x.key) (t.m.cpu i.x.key) 0 0 1) ∧
    (∀ r, placeOf s i true = some r → fSpace i.word ≠ 3 →
      Completes (.st i) s (writeSp s.inForce i.x r (leBytes (fSize i.word) ((s.m.cpu i.x.key).g (fRd i.word)).toNat)
        (passStore i.x (afterIssue s i)))) ∧
    (∀ c, fSpace i.word = 3 → i.x = .core c → addrOf s i + fSize i.word ≤ 0x8000000 →
      Completes (.st i) s (accWrite s.inForce .owner (addrOf s i)
        (leBytes (fSize i.word) ((s.m.cpu i.x.key).g (fRd i.word)).toNat) (passStore i.x (afterIssue s i))))

/-- Trap entry (R209): the PC of the trapping instruction is saved, IN_T set, CAUSE and TVAL written, PC at VEC_T after 3
cycles; nothing else of the core changes, and no other processor. -/
def Obligations.TrapEntry : Prop :=
  ∀ (m : M) (c cause tval : Nat), cause < 2 ^ 64 → tval < 2 ^ 64 →
    let k := m.cpu (wng c)
    let t := trapEntry c cause tval m
    let j := t.cpu (wng c)
    k.pc < 2 ^ 64 →
    j.crv 3 = k.pc ∧ j.inLevel 5 = true ∧ j.crv 7 = cause ∧ j.crv 8 = tval ∧ j.pc = k.crv 6 ∧ j.ready = m.now + 3 ∧
    (∀ b, b ≠ 5 → bitAt (j.crv 0) b = bitAt (k.crv 0) b) ∧
    (∀ n, n ∉ [0, 3, 7, 8] → j.crv n = k.crv n) ∧
    j = { k with pc := j.pc, cr := j.cr, wait := .none, ready := j.ready } ∧
    CpusKept m t (wng c) ∧ t = { m with cpus := t.cpus }

/-- The block-repeat instructions in SCRATCH (R197, R198): one cycle moves, fills, compares or scans up to 32 bytes one
after the other, with registers at the element reached, PC at the instruction until the count is used up, and no byte
written but the destination's. Log entry 21, on which a clause rests, is the model's choice. -/
def Obligations.BlockRepeatRuns : Prop :=
  ∀ (s : State) (i : Issue) (n : Nat), fDsp i.word = false → fSsp i.word = false →
    let k := s.m.cpu i.x.key
    let d := (k.g (fRd i.word)).toNat
    let a := (k.g (fRa i.word)).toNat
    let c := (k.g (fRb i.word)).toNat
    let base := i.x.num * 65536
    n = min c 32 → i.data = .ok → (∀ e ∈ i.more, e = .ok) →
    (MayIssue s i .movb → d + n ≤ 0x4000 → a + n ≤ 0x4000 → ∃ t, exec (.movb i) s = .next t ∧
      t = { s with m := { s.m with cpus := t.m.cpus, bud := t.m.bud, served := t.m.served, mgt := t.m.mgt, scratch := t.m.scratch } } ∧
      CpusKept s.m t.m i.x.key ∧
      (∀ r, r ∉ [fRd i.word, fRa i.word, fRb i.word] → (t.m.cpu i.x.key).g r = k.g r) ∧
      (t.m.cpu i.x.key).g (fRd i.word) = BitVec.ofNat 64 (d + n) ∧ (t.m.cpu i.x.key).g (fRa i.word) = BitVec.ofNat 64 (a + n) ∧
      (t.m.cpu i.x.key).g (fRb i.word) = BitVec.ofNat 64 (c - n) ∧
      (t.m.cpu i.x.key).pc = (if c ≤ 32 then (k.pc + 4) % 2 ^ 64 else k.pc) ∧
      (∀ x, x < base + d ∨ base + d + n ≤ x → memGet t.m.scratch x = memGet s.m.scratch x) ∧
      ((a + n ≤ d ∨ d ≤ a) → ∀ j, j < n → memGet t.m.scratch (base + d + j) = memGet s.m.scratch (base + a + j))) ∧
    (MayIssue s i .filb → d + n ≤ 0x4000 → ∃ t, exec (.filb i) s = .next t ∧
      t = { s with m := { s.m with cpus := t.m.cpus, bud := t.m.bud, served := t.m.served, mgt := t.m.mgt, scratch := t.m.scratch } } ∧
      CpusKept s.m t.m i.x.key ∧
      (∀ r, r ∉ [fRd i.word, fRb i.word] → (t.m.cpu i.x.key).g r = k.g r) ∧
      (t.m.cpu i.x.key).g (fRd i.word) = BitVec.ofNat 64 (d + n) ∧ (t.m.cpu i.x.key).g (fRb i.word) = BitVec.ofNat 64 (c - n) ∧
      (t.m.cpu i.x.key).pc = (if c ≤ 32 then (k.pc + 4) % 2 ^ 64 else k.pc) ∧
      (∀ x, x < base + d ∨ base + d + n ≤ x → memGet t.m.scratch x = memGet s.m.scratch x) ∧
      (∀ j, j < n → memGet t.m.scratch (base + d + j) = BitVec.ofNat 8 (a / 256 ^ ((d + j) % 8)))) ∧
    (MayIssue s i .cmpb → d + n ≤ 0x4000 → a + n ≤ 0x4000 →
      let e := ((List.range n).find? (fun j =>
        memGet s.m.scratch (base + d + j) != memGet s.m.scratch (base + a + j))).getD n
      ∃ t, exec (.cmpb i) s = .next t ∧
      t = { s with m := { s.m with cpus := t.m.cpus, bud := t.m.bud, served := t.m.served, mgt := t.m.mgt } } ∧ CpusKept s.m t.m i.x.key ∧
      (∀ r, r ∉ [fRd i.word, fRa i.word, fRb i.word] → (t.m.cpu i.x.key).g r = k.g r) ∧
      (t.m.cpu i.x.key).g (fRd i.word) = BitVec.ofNat 64 (d + e) ∧ (t.m.cpu i.x.key).g (fRa i.word) = BitVec.ofNat 64 (a + e) ∧
      (t.m.cpu i.x.key).g (fRb i.word) = BitVec.ofNat 64 (c - e) ∧
      (t.m.cpu i.x.key).pc = (if e < n ∨ c ≤ 32 then (k.pc + 4) % 2 ^ 64 else k.pc)) ∧
    (MayIssue s i .scnb → a + n ≤ 0x4000 →
      let e := ((List.range n).find? (fun j => memGet s.m.scratch (base + a + j) == BitVec.ofNat 8 d)).getD n
      ∃ t, exec (.scnb i) s = .next t ∧
      t = { s with m := { s.m with cpus := t.m.cpus, bud := t.m.bud, served := t.m.served, mgt := t.m.mgt } } ∧ CpusKept s.m t.m i.x.key ∧
      (∀ r, r ∉ [fRa i.word, fRb i.word] → (t.m.cpu i.x.key).g r = k.g r) ∧
      (t.m.cpu i.x.key).g (fRa i.word) = BitVec.ofNat 64 (a + e) ∧ (t.m.cpu i.x.key).g (fRb i.word) = BitVec.ofNat 64 (c - e) ∧
      (t.m.cpu i.x.key).pc = (if e < n ∨ c ≤ 32 then (k.pc + 4) % 2 ^ 64 else k.pc))

/-- Stage operations of a thread (R199 to R201, R204): SEND with room in its sub-queue posts its transfer and clears its
event bit, and without room lets its turn pass; WAITEV waits for its bits; YIELD waits for the edge; RTN waits for its
transfers; a wait's timeout gives 0. The events a thread waits for (R200, R201): a completed SEND writes word 3 of its
record and sets its event bit; WAITEV's timeout edge gives 0. -/
def Obligations.ThreadOpsRun : Prop :=
  (∀ (s : State) (i : Issue) (t : Fin 512), i.x = .thread t →
     let k := s.m.cpu (thr t.val)
     let a := (k.g (fRa i.word)).toNat
     let m := afterIssue s i
     (MayIssue s i .send → Undisturbed s.m → a % 32 = 0 → a + 32 ≤ 0x4000 → i.data = .ok →
       let b := memRead s.m.scratch (t.val * 65536 + a) 24
       let ev := leAt b 0 8 / 2 ^ 12 % 8
       (sendsOf s.m t.val).all (fun y => match y.who with | .send _ _ e => e != ev | _ => true) = true →
       queueRoom s.inForce s.m (t.val / 32) k.own = true →
       let m1 := m.setCpu (thr t.val) { k with pc := (k.pc + 4) % 2 ^ 64, ev := putBit k.ev ev false, ready := s.m.now + 1 }
       Completes (.send i) s (settleQueue s.inForce (t.val / 32) k.own
         (postXfer (t.val / 32) k.own
           (sendXfer s.inForce m1 true t.val k.own a ev (leAt b 0 8) (leAt b 8 8) (leAt b 16 8)) m1))) ∧
     (MayIssue s i .send → a % 32 = 0 → a + 32 ≤ 0x4000 → i.data = .ok → queueRoom s.inForce s.m (t.val / 32) k.own = false →
       Completes (.send i) s (s.m.passTurn t.val)) ∧
     (MayIssue s i .waitev → 1 ≤ a → a < 256 → k.ev &&& a = 0 →
       Completes (.waitev i) s (m.setCpu (thr t.val)
         { k with
           pc := (k.pc + 4) % 2 ^ 64
           wait := .ev (fRd i.word) a
             (if k.g (fRb i.word) = 0 then none else some (edgeCount s.m + (k.g (fRb i.word)).toNat))
           ready := s.m.now + 1 })) ∧
     (MayIssue s i .waitev → 1 ≤ a → a < 256 → k.ev &&& a ≠ 0 →
       ∃ u, exec (.waitev i) s = .next u ∧ (∀ n, (u.m.cpu (thr t.val)).g n =
         if n = fRd i.word ∧ n ≠ 0 then BitVec.ofNat 64 (k.ev &&& a) else k.g n) ∧
         (u.m.cpu (thr t.val)).wait = .none ∧ (u.m.cpu (thr t.val)).ev = clearBits k.ev (k.ev &&& a)) ∧
     (MayIssue s i .yield → Completes (.yield i) s (m.setCpu (thr t.val)
       { k with pc := (k.pc + 4) % 2 ^ 64, wait := .edge (edgeCount s.m), ready := s.m.now + 1 })) ∧
     (MayIssue s i .rtn → Completes (.rtn i) s (tryEnd s.inForce t.val (m.setCpu (thr t.val) { k with wait := .ret false })))) ∧
  (∀ (s : State) (t : Fin 512),
     let k := s.m.cpu (thr t.val)
     (∀ (ev : Fin 8) (x : Xfer) (ra : Nat), s.m.react = [] → k.wait = .none →
       (s.m.queue (t.val / 32) k.own).find? (fun x => (match x.who with
         | .send j _ e => j == t.val && e == ev.val
         | _ => false) && x.finished) = some x → x.who = .send t.val ra ev.val →
       ∃ u, exec (.sendComplete t ev) s = .next u ∧
         u = { s with m := { s.m with subq := u.m.subq, scratch := u.m.scratch, cpus := u.m.cpus } } ∧
         (∀ j, j < 8 → memGet u.m.scratch (t.val * 65536 + ra + 24 + j) = BitVec.ofNat 8
           (((if x.err = 0 then 1 else 2) + 16 * x.err + 2 ^ 32 * x.bytesDone) / 256 ^ j)) ∧
         (∀ y, y < t.val * 65536 + ra + 24 ∨ t.val * 65536 + ra + 32 ≤ y → memGet u.m.scratch y = memGet s.m.scratch y) ∧
         u.m.cpu (thr t.val) = { k with ev := putBit k.ev ev.val true } ∧ CpusKept s.m u.m (thr t.val)) ∧
     (∀ rd sel d, k.wait = .ev rd sel (some d) → d ≤ edgesPast s.m →
       Completes (.waitevTimeout t) s (s.m.setCpu (thr t.val) { k.setG rd 0 with wait := .none, ready := s.m.now + 1 })))

/-- POST, RDTK and RDCY (R199). -/
def Obligations.StageOpsRun : Prop :=
  ∀ (s : State) (i : Issue),
    let k := s.m.cpu i.x.key
    let bits := (k.g (fRa i.word)).toNat
    let post := fun (p : Nat) =>
      let m := setEvents s.inForce p bits (afterIssue s i)
      Completes (.post i) s (m.setCpu i.x.key { m.cpu i.x.key with pc := ((m.cpu i.x.key).pc + 4) % 2 ^ 64, ready := m.now + 1 })
    (∀ r, MayIssue s i .post → partRoutine s.m i.x = some r → fRb i.word = 0 → post r.part) ∧
    (MayIssue s i .post → partRoutine s.m i.x = none → (k.g (fRb i.word)).toNat < 8 →
      s.inForce.enabled (k.g (fRb i.word)).toNat = true → post (k.g (fRb i.word)).toNat) ∧
    (MayIssue s i .rdtk → ∃ t, exec (.rdtk i) s = .next t ∧ t = { s with m := t.m } ∧ Issued s.m t.m i.x ∧ t.m.div = s.m.div ∧
      Wrote s.m.now k (t.m.cpu i.x.key) (fRd i.word) (BitVec.ofNat 64 (s.m.fld .TCK_COUNT_COUNT 0)) 1) ∧
    (MayIssue s i .rdcy → ∃ t, exec (.rdcy i) s = .next t ∧ t = { s with m := t.m } ∧ Issued s.m t.m i.x ∧ t.m.div = s.m.div ∧
      Wrote s.m.now k (t.m.cpu i.x.key) (fRd i.word) (BitVec.ofNat 64 (s.m.now - edgeCycle s.m)) 1)

/-- Privileged operations of a wings core (R208 to R212): the control register moves to rd and receives its new value; RTE
leaves the highest level; WFI with nothing to take waits; CALLR gives −2 for a routine that does not exist or that
RFLAGS keeps from it, −1 without an idle thread or a call number, else the call number; a word whose POP names no
operation is ILLEGAL (R187). Log entries 20, 25, 26, 115 and 116, on which clauses rest, are the model's choice. -/
def Obligations.PrivilegedRun : Prop :=
  ∀ (s : State) (i : Issue) (c : Fin 4), i.x = .core c → MayIssue s i .prv →
    let k := s.m.cpu (wng c.val)
    let n := fCr i.word
    let a := (k.g (fRa i.word)).toNat
    let m := endStep i.x s.m
    let old := if n = 9 then c.val else k.crv n
    (popOf i.word = some .crd → prvLegal .crd i.word = true → ∃ t, exec (.crd i) s = .next t ∧ t = { s with m := t.m } ∧ Issued s.m t.m i.x ∧
      Wrote s.m.now k (t.m.cpu i.x.key) (fRd i.word) (BitVec.ofNat 64 old) 1) ∧
    (popOf i.word = some .cwr → prvLegal .cwr i.word = true → Completes (.cwr i) s (finishRd i.x 0 0 1 (crWrite s.inForce c.val n a m))) ∧
    (popOf i.word = some .crs → prvLegal .crs i.word = true → n ≠ 0x00A →
      Completes (.crs i) s (finishRd i.x (fRd i.word) (BitVec.ofNat 64 old) 1 (crWrite s.inForce c.val n (old ||| a) m))) ∧
    (popOf i.word = some .crc → prvLegal .crc i.word = true → n ≠ 0x00A →
      Completes (.crc i) s (finishRd i.x (fRd i.word) (BitVec.ofNat 64 old) 1 (crWrite s.inForce c.val n (clearBits old a) m))) ∧
    (popOf i.word = some .crs → prvLegal .crs i.word = true → n = 0x00A → Completes (.crs i) s (finishRd i.x (fRd i.word) (BitVec.ofNat 64 old) 1 m)) ∧
    (popOf i.word = some .crc → prvLegal .crc i.word = true → n = 0x00A →
      Completes (.crc i) s (finishRd i.x (fRd i.word) (BitVec.ofNat 64 old) 1 (clearCallDone s.inForce c.val a m))) ∧
    (popOf i.word = some .rte → prvLegal .rte i.word = true → k.inLevel 5 = false → k.inLevel 4 = true →
      ∃ t, exec (.rte i) s = .next t ∧ (t.m.cpu (wng c.val)).pc = k.crv 2 ∧ (t.m.cpu (wng c.val)).ready = s.m.now + 2 ∧
        (t.m.cpu (wng c.val)).inLevel 4 = false ∧ (t.m.cpu (wng c.val)).bank = 0 ∧ CpusKept s.m t.m (wng c.val)) ∧
    (popOf i.word = some .rte → prvLegal .rte i.word = true → k.inLevel 5 = false → k.inLevel 4 = false → k.inLevel 3 = true →
      ∃ t, exec (.rte i) s = .next t ∧ (t.m.cpu (wng c.val)).pc = k.crv 1 ∧ (t.m.cpu (wng c.val)).ready = s.m.now + 2 ∧
        (t.m.cpu (wng c.val)).inLevel 3 = false ∧ (∀ j, (t.m.cpu (wng c.val)).g j = k.g j) ∧ CpusKept s.m t.m (wng c.val)) ∧
    (popOf i.word = some .rte → prvLegal .rte i.word = true → k.inLevel 5 = true →
      ∃ t, exec (.rte i) s = .next t ∧ (t.m.cpu (wng c.val)).pc = k.crv 3 ∧ (t.m.cpu (wng c.val)).inLevel 5 = false) ∧
    (popOf i.word = some .wfi → prvLegal .wfi i.word = true → k.pend = [] → canTake s.inForce m c.val = false →
      Completes (.wfi i) s (m.setCpu (wng c.val) { k with pc := (k.pc + 4) % 2 ^ 64, wait := .wfi, ready := s.m.now + 1 })) ∧
    (popOf i.word = some .callr → prvLegal .callr i.word = true → s.inForce.routine a = none →
      ∃ t, exec (.callr i) s = .next t ∧ t = { s with m := t.m } ∧ Issued s.m t.m i.x ∧
        Wrote s.m.now k (t.m.cpu i.x.key) (fRd i.word) (BitVec.ofInt 64 (-2)) 1) ∧
    (∀ q, popOf i.word = some .callr → prvLegal .callr i.word = true → s.inForce.routine a = some q → bitAt q.rflags 0 = false →
      ∃ t, exec (.callr i) s = .next t ∧ t = { s with m := t.m } ∧ Issued s.m t.m i.x ∧
        Wrote s.m.now k (t.m.cpu i.x.key) (fRd i.word) (BitVec.ofInt 64 (-2)) 1) ∧
    (∀ q, popOf i.word = some .callr → prvLegal .callr i.word = true → s.inForce.routine a = some q → bitAt q.rflags 0 = true →
      (idleOwnerThread s.inForce m = none ∨ ∀ n, n < 16 → bitAt k.calls n = true) →
      ∃ t, exec (.callr i) s = .next t ∧ t = { s with m := t.m } ∧ Issued s.m t.m i.x ∧
        Wrote s.m.now k (t.m.cpu i.x.key) (fRd i.word) (BitVec.ofInt 64 (-1)) 1) ∧
    (∀ q th j, popOf i.word = some .callr → prvLegal .callr i.word = true → s.inForce.routine a = some q → bitAt q.rflags 0 = true →
      idleOwnerThread s.inForce m = some th → (List.range 16).find? (fun n => !(bitAt k.calls n)) = some j →
      ∃ t, exec (.callr i) s = .next t ∧
        (∀ n, (t.m.cpu (wng c.val)).g n = if n = fRd i.word ∧ n ≠ 0 then BitVec.ofNat 64 j else k.g n) ∧
        (t.m.cpu (wng c.val)).calls = putBit k.calls j true ∧
        (t.m.cpu (thr th)).rout = some ⟨q.index, 8, 0, c.val, j, edgeCount s.m, none⟩ ∧
        (t.m.cpu (thr th)).pc = 0 ∧ (t.m.cpu (thr th)).g 1 = k.g 1 ∧ (t.m.cpu (thr th)).g 4 = k.g 4) ∧
    (popOf i.word = none → ∀ f ∈ ([.crd, .cwr, .crs, .crc, .rte, .wfi, .callr] : List (Issue → Instr)),
      Completes (f i) s (raiseIllegal s.inForce i.x i.word m))

/-- Starting a core and taking an interrupt (R209, R213, R340): START puts a stopped core at its entry with registers,
scratch and control registers zero, is ignored by a core that runs and refused with a bad entry; an offered normal
interrupt saves PC, sets IN_N and goes to VEC_N. ROUTINE_OVERRUN (R65): at the edge that breaks MAX_TICKS a
partition's routine ends with ROUTINE_FAULT, detail 2, and its partition's fault fires. Log entry 27, on which a
clause rests, is the model's choice. -/
def Obligations.CoresStart : Prop :=
  (∀ (s : State) (c : Fin 4),
     (∀ entry : BitVec 32, s.m.inReset 22 c.val = false → s.m.flag .WNG_CTL_RUNNING c.val = false →
       s.m.flag .WNG_CTL_HALTED c.val = false → entry.toNat % 4 = 0 → entry.toNat < s.inForce.loadArea.length →
       Completes (.wingsStart c entry) s (startCore c.val entry.toNat (s.m.setFld .WNG_CTL_ENTRY c.val entry.toNat))) ∧
     (∀ entry : BitVec 32, s.m.inReset 22 c.val = false →
       (s.m.flag .WNG_CTL_RUNNING c.val = true ∨ s.m.flag .WNG_CTL_HALTED c.val = true) →
       Completes (.wingsStart c entry) s (s.m.setFld .WNG_CTL_ENTRY c.val entry.toNat)) ∧
     (∀ entry : BitVec 32, s.m.inReset 22 c.val = false → s.m.flag .WNG_CTL_RUNNING c.val = false →
       s.m.flag .WNG_CTL_HALTED c.val = false → (entry.toNat % 4 ≠ 0 ∨ s.inForce.loadArea.length ≤ entry.toNat) →
       Completes (.wingsStart c entry) s ((s.m.setFld .WNG_CTL_ENTRY c.val entry.toNat).setFlag .WNG_CTL_REFUSED c.val true)) ∧
     (∀ (m : M) (e : Nat), let t := startCore c.val e m
       (t.cpu (wng c.val)).pc = e ∧ (∀ b n, mapGet 0 (t.cpu (wng c.val)).regs (b, n) = 0) ∧ (∀ n, (t.cpu (wng c.val)).crv n = 0) ∧
       (∀ a, memGet t.scratch a = if (512 + c.val) * 65536 ≤ a ∧ a < (513 + c.val) * 65536 then 0 else memGet m.scratch a) ∧
       CpusKept m t (wng c.val)) ∧
     (∀ src, atBoundary s.m.now (s.m.cpu (wng c.val)) = true → s.m.inReset 22 c.val = false →
       (s.m.cpu (wng c.val)).pend = [] →
       (s.m.cpu (wng c.val)).inLevel 5 = false → (s.m.cpu (wng c.val)).inLevel 4 = false →
       (s.m.cpu (wng c.val)).inLevel 3 = false → bitAt ((s.m.cpu (wng c.val)).crv 0) 1 = false →
       bitAt ((s.m.cpu (wng c.val)).crv 0) 0 = true → wOffer s.inForce s.m c.val false = some src →
       Completes (.interruptEntry c) s (enterLevel c.val 3 (wCommit s.inForce c.val src false s.m)))) ∧
  (∀ (s : State) (t : Fin 512) (r : RoutCtx) (q : Rout),
     (s.m.cpu (thr t.val)).rout = some r → s.inForce.routine r.index = some q →
     (∀ a b c d, (s.m.cpu (thr t.val)).wait ≠ .ending a b c d) →
     r.edge + q.maxTicks + 1 ≤ s.m.fld .TCK_COUNT_COUNT 0 → r.part ≠ 8 →
     Completes (.routineOverrun t) s (routineAbort s.inForce t.val 0x26 2 2
       (fireP s.inForce (0x050 + r.part) (r.index % 2 ^ 16 + t.val % 2 ^ 9 * 2 ^ 16) r.part s.m)))

/-! ### Start-up and resets of the whole part (00, 02) -/

/-- PORST_N (R392): low for less than 10 ns it changes nothing; from 20 ns on it is a power-on reset, after which every
register field has its reset value (R9), every memory, queue and key is gone (R41, R289), and only time, the outputs
driven so far and the levels that stand on pins from outside are kept. Fuses and the commands that wait are untouched.
RESET_N (R393): fewer than four low samples change nothing; four begin a chip reset, unless PORST_N or RESET_N already
holds the part: fields that the reset tables mark C return to reset, all others keep their value but for
PWR_RST_CAUSE, which names RESET_N (R368, R373). Log entries 3 and 45, on which clauses rest, are the model's choice. -/
def Obligations.ResetsOfThePart : Prop :=
  (∀ (s : State) (ns : Nat), s.m.react = [] →
     (ns < 10 → exec (.porstNAssert ns) s = .next s) ∧
     (20 ≤ ns → ∃ t, exec (.porstNAssert ns) s = .next t ∧
       t.pending = s.pending ∧ t.fuses = s.fuses ∧ t.img = s.img ∧ t.m.boot.phase = .porst ∧
       (∀ F i, t.m.fld F i = rstVal F) ∧ t.m.stage = [] ∧ t.m.scratch = [] ∧ t.m.cpus = [] ∧ t.m.scripts = [] ∧
       t.m.rings = [] ∧ t.m.chans = [] ∧ t.m.links = [] ∧ t.m.subq = [] ∧ t.m.mbx = [] ∧ t.m.trc.words = [] ∧
       t.m.mem.lines = [] ∧ t.m.sec = SecSt.init ∧ t.m.now = s.m.now)) ∧
  (∀ (s : State) (n : Nat), s.m.react = [] →
     (n < 4 → exec (.resetNAssert n) s = .next s) ∧
     (4 ≤ n → s.m.boot.phase ≠ .porst → s.m.boot.phase ≠ .rstLow → ∃ t, exec (.resetNAssert n) s = .next t ∧
       t.pending = s.pending ∧ t.fuses = s.fuses ∧ t.m.boot.phase = .rstLow ∧
       (∀ F i, (F, i) ≠ (.PWR_RST_CAUSE_KIND, 0) → (F, i) ≠ (.PWR_RST_CAUSE_SRC, 0) →
         t.m.fld F i = if (fldSpec F).c then rstVal F else s.m.fld F i) ∧
       t.m.fld .PWR_RST_CAUSE_KIND 0 = 2 ∧ t.m.fld .PWR_RST_CAUSE_SRC 0 = 0 ∧
       t.m.stage = [] ∧ t.m.scratch = [] ∧ t.m.scripts = [] ∧ t.m.links = [] ∧ t.m.sec = SecSt.init))

/-- The releases of the reset pins and the PLL (R29, R41, R393): step 0 begins, its end reads the slot with the higher
IMAGE_SEQ, and a PLL that never locks leaves the part as it is. -/
def Obligations.StartUpBegins : Prop :=
  ∀ (s : State),
    (s.m.boot.phase = .porst → Completes .porstNRelease s
      (startBoot true ((s.m.setFld .PWR_RST_CAUSE_KIND 0 1).setFlag .PWR_THERM_TRIP 0 s.m.pins.thermTrip))) ∧
    (s.m.boot.phase = .rstLow → s.m.boot.relAt = none → Completes .resetNRelease s (startBoot false s.m)) ∧
    (∀ octal seq0 seq1, s.m.boot.phase = .pll → Completes (.corePllLock octal seq0 seq1) s
      { s.m with boot := { s.m.boot with
        phase := .read, octal := octal, slot := if seq1.toNat ≤ seq0.toNat then 0 else 1, second := false
        step1At := some s.m.now } }) ∧
    (s.m.boot.phase = .pll → s.m.boot.cold = true → s.m.boot.porAt + 2000000 ≤ s.m.now →
      Completes .corePllLockTimeout s { s.m with boot := { s.m.boot with phase := .stuck } }) ∧
    (s.m.boot.phase = .wait5 → s.m.boot.step5At + 200000000 ≤ s.m.now →
      Completes .step5EntropyTimeout s (driveFault { s.m with pins := { s.m.pins with faultEntropy := true } }))

/-- A slot read without error (R38, R41) goes on to verification when both hash paths agree; one that fails a check is the
slot's result, and the boot turns to the other slot when this was the first. Step 2 follows the first read (R41, R277,
R280, R285): the fuses are sensed by vote, the device secret is checked on two paths and DS_OK holds its outcome; then
a word in three-way disagreement ends the boot with FUSE_VOTE, and an unset owner key with NO_OWNER. -/
def Obligations.SlotsAreTried : Prop :=
  (∀ (s : State) (b : List Byte) (x : FuseSense), s.m.react = [] → Undisturbed s.m → s.m.boot.phase = .read →
    s.m.boot.sensed = false → imgReadCheck b = none →
    let c := votedFuses s.fuses
    let ok := (senseWords s.fuses x).all (fun e => e.2 != .three)
    ∃ t, exec (.slotReadComplete b true x) s = .next t ∧ t.m.boot.sensed = true ∧ t.m.sec.sensed = c ∧
      t.m.flag .SEC_STS_OWNER_SET 0 = c.set ∧ t.m.flag .SEC_STS_FACTORY_OPEN 0 = !c.set ∧
      t.m.flag .SEC_STS_DEBUG_DISABLE 0 = c.dbg ∧ t.m.fld .SEC_STS_SVN_STEPS 0 = svnSteps c % 128 ∧
      t.m.flag .SEC_STS_DS_OK 0 = ((pathsOf x.secret secretOk).a && (pathsOf x.secret secretOk).b) ∧
      (ok = true → c.set = true → t.m.boot.phase = .verify ∧ t.m.boot.copy = b ∧ t.m.fld .IMG_BOOT_STS_LAST_STEP 0 = 2) ∧
      (ok = false ∨ c.set = false → t.m.boot.phase = .failed ∧ t.m.pins.faultBoot = true ∧
        t.m.fld (if s.m.boot.slot = 0 then .IMG_BOOT_STS_RESULT0 else .IMG_BOOT_STS_RESULT1) 0 =
          if ok then resNoOwner else resFuseVote)) ∧
  ∀ (s : State) (b : List Byte) (x : FuseSense), s.m.react = [] → s.m.boot.phase = .read → s.m.boot.sensed = true →
    (imgReadCheck b = none → Completes (.slotReadComplete b true x) s
      { stepDone 1 { s.m with boot := { s.m.boot with copy := b } } with
        boot := { s.m.boot with copy := b, phase := .verify } }) ∧
    (∀ c, imgReadCheck b = some c → endsBoot c = false → s.m.boot.second = false →
      ∃ t, exec (.slotReadComplete b true x) s = .next t ∧ t.m.boot.phase = .read ∧ t.m.boot.slot = 1 - s.m.boot.slot ∧
        t.m.boot.second = true ∧ t.m.boot.copy = [] ∧ t.m.flag .IMG_BOOT_STS_FALLBACK 0 = true ∧
        t.m.fld (if s.m.boot.slot = 0 then .IMG_BOOT_STS_RESULT0 else .IMG_BOOT_STS_RESULT1) 0 = c % 256) ∧
    (s.m.boot.second = false → ∃ t, exec (.flashReadTimeout x) s = .next t ∧ t.m.boot.phase = .read ∧
      t.m.boot.slot = 1 - s.m.boot.slot ∧ t.m.boot.second = true ∧
      t.m.fld (if s.m.boot.slot = 0 then .IMG_BOOT_STS_RESULT0 else .IMG_BOOT_STS_RESULT1) 0 = resFlashError % 256) ∧
    (s.m.boot.second = true → ∃ t, exec (.flashReadTimeout x) s = .next t ∧ t.m.boot.phase = .failed ∧
      t.m.pins.faultBoot = true)

/-- An image is applied only when key, signature, security version and every structural check pass (R38, R40, R41, R43):
with both paths right and entropy healthy it then comes into force, its slot and the result ACCEPTED named, its owner
key held and the boot past step 6; one that fails a structural check is the slot's failure and applies nothing, and so
are a wrong key, a wrong signature and two paths that differ. Entropy healthy again (R287): ENTROPY_OK is set, what
waited goes on; a waiting step 5 applies its image. -/
def Obligations.VerifiedImageApplies : Prop :=
  (∀ (s : State) (key sig : Verdict), s.m.react = [] → s.m.boot.phase = .verify →
     let k := pathsOf key (imgKeyOk s.m.boot.copy s.m.sec.sensed.hash)
     let g := pathsOf sig (imgSigOk s.m.boot.copy)
     let r := imgStep4 s.m.boot.copy (svnSteps s.m.sec.sensed) serialNat
     let held := stepDone 3 { s.m with sec := { s.m.sec with ownerKey := imgPubkey s.m.boot.copy } }
     (k = ⟨true, true⟩ → g = ⟨true, true⟩ → r.1 = resAccepted → s.m.boot.entropy = true →
       exec (.signatureVerifyComplete key sig true true) s = .next { s with
         img := r.2
         m := settle r.2 reactRounds (applyImage r.2 (stepDone 4
           ((setResult s.m.boot.slot resAccepted held).setFld .IMG_BOOT_STS_SLOT 0 s.m.boot.slot))) }) ∧
     (k = ⟨true, true⟩ → g = ⟨true, true⟩ → r.1 ≠ resAccepted → (∀ svn, svn = true ∨ r.1 = resWrongPart ∨ r.1 = resWrongDie →
       Completes (.signatureVerifyComplete key sig svn true) s (failSlot r.1 held))) ∧
     (∀ svn, s.m.boot.second = false → k = ⟨false, false⟩ →
       ∃ t, exec (.signatureVerifyComplete key sig svn true) s = .next t ∧
       t.img = s.img ∧ t.m.boot.phase = .read ∧ t.m.boot.second = true ∧
       t.m.fld (if s.m.boot.slot = 0 then .IMG_BOOT_STS_RESULT0 else .IMG_BOOT_STS_RESULT1) 0 = resKeyMismatch) ∧
     (∀ svn, s.m.boot.second = false → k = ⟨true, true⟩ → g = ⟨false, false⟩ →
       ∃ t, exec (.signatureVerifyComplete key sig svn true) s = .next t ∧
       t.img = s.img ∧ t.m.boot.phase = .read ∧ t.m.boot.second = true ∧
       t.m.fld (if s.m.boot.slot = 0 then .IMG_BOOT_STS_RESULT0 else .IMG_BOOT_STS_RESULT1) 0 = resBadSignature) ∧
     (∀ svn, k.a ≠ k.b → Completes (.signatureVerifyComplete key sig svn true) s (pathFail s.inForce s.m))) ∧
  (∀ (s : State), s.m.boot.entropy = false →
     ((entropyBack s.inForce s.m).boot.phase ≠ .wait5 →
       Completes .entropyHealthRestored s (releaseHeldRows s.inForce (entropyBack s.inForce s.m))) ∧
     ((entropyBack s.inForce s.m).boot.phase = .wait5 → ∃ t, exec .entropyHealthRestored s = .next t ∧
       t.img = bootImage (entropyBack s.inForce s.m)))

/-- RELEASE and READY (R46, R47): with the partition enabled, every present channel trained and every octet in use
calibrated the bits set and stay set; otherwise RELEASE_REFUSED. A partition not READY 900 ms after its release fires
its source once. -/
def Obligations.ReleaseAndReady : Prop :=
  ∀ (s : State) (p : Fin 8),
    (s.m.react = [] → s.inForce.enabled p.val = true → memReady s.inForce s.m = true → octReady s.inForce s.m = true →
      released s.m p.val = false → ∃ t, exec (.release p) s = .next t ∧
        t = { s with m := { s.m with f := t.m.f, out := t.m.out, boot := { s.m.boot with
          releaseAt := mapPut s.m.boot.releaseAt (p.val, 0) s.m.now } } } ∧
        FldsKept s.m t.m [(.IMG_PORT_CTL_RELEASE, 0), (.IMG_BOOT_STS_LAST_STEP, 0)] ∧
        (∀ q, q < 8 → released t.m q = (decide (q = p.val) || released s.m q)) ∧
        t.m.fld .IMG_BOOT_STS_LAST_STEP 0 = 9) ∧
    (mayRelease s.inForce s.m p.val = true → released s.m p.val = true → Completes (.release p) s s.m) ∧
    (mayRelease s.inForce s.m p.val = false →
      Completes (.release p) s (s.m.setFlag .IMG_BOOT_STS_RELEASE_REFUSED 0 true) ∧
      Completes (.ready p) s (s.m.setFlag .IMG_BOOT_STS_RELEASE_REFUSED 0 true)) ∧
    (mayRelease s.inForce s.m p.val = true → Completes (.ready p) s
      ((releaseNow s.inForce p.val s.m).setFld .IMG_PORT_CTL_READY 0
        (putBit ((releaseNow s.inForce p.val s.m).fld .IMG_PORT_CTL_READY 0) p.val true))) ∧
    (∀ t, mapFind s.m.boot.releaseAt (p.val, 0) = some t → isReady s.m p.val = false → bitAt s.m.boot.overdue p.val = false →
      t + 1800000000 ≤ s.m.now → Completes (.partitionReadyOverdue p) s
        (fire s.inForce 0x009 p.val { s.m with boot := { s.m.boot with overdue := putBit s.m.boot.overdue p.val true } }))

/-- Flash commands (R49): aligned and outside the loaded slot they make the flash BUSY with the bytes to program; a
command on the loaded slot is refused and sets PROTECT, and one that is misaligned, programs from beyond OWNER_STAGE,
or comes while the flash or a check is busy is refused; the completion clears BUSY, a failure sets ERROR and fires.
The slot check (R50): START begins at once, waits for the flash, or is ignored during a check; its end writes RESULT
and DONE and applies nothing. FLASH_WINDOW_READ (R383): the bytes of the flash, or all ones while the flash or a check
is busy, which FLASH_BUSY_RD records; all ones in the failed-boot state. Log entry 112, on which a clause rests, is
the model's choice. -/
def Obligations.FlashAndChecks : Prop :=
  (∀ (s : State), s.m.boot.phase = .run →
     (∀ a : BitVec 25, s.m.flag .IMG_FLASH_STS_BUSY 0 = false → s.m.flag .IMG_CHECK_BUSY 0 = false →
       a.toNat / 0x1000000 ≠ s.m.fld .IMG_BOOT_STS_SLOT 0 →
       (a.toNat % 65536 = 0 → Completes (.flashErase a) s
         (({ s.m.setFlag .IMG_FLASH_STS_BUSY 0 true with boot := { s.m.boot with flashOp := some (1, a.toNat, []) } }).emit
           (.flash 1 a.toNat []))) ∧
       (∀ src : BitVec 16, a.toNat % 256 = 0 → src.toNat * 256 + 256 ≤ s.img.ownerStageBytes → Completes (.flashProgram a src) s
         (({ s.m.setFlag .IMG_FLASH_STS_BUSY 0 true with boot := { s.m.boot with
           flashOp := some (2, a.toNat, memRead s.m.stage (src.toNat * 256) 256) } }).emit
           (.flash 2 a.toNat (memRead s.m.stage (src.toNat * 256) 256))))) ∧
     (∀ (a : BitVec 25) (src : BitVec 16), a.toNat / 0x1000000 = s.m.fld .IMG_BOOT_STS_SLOT 0 →
       Completes (.flashErase a) s ((s.m.setFlag .IMG_FLASH_STS_PROTECT 0 true).setFlag .IMG_FLASH_STS_REFUSED 0 true) ∧
       Completes (.flashProgram a src) s
         ((s.m.setFlag .IMG_FLASH_STS_PROTECT 0 true).setFlag .IMG_FLASH_STS_REFUSED 0 true)) ∧
     (∀ (a : BitVec 25) (src : BitVec 16), a.toNat / 0x1000000 ≠ s.m.fld .IMG_BOOT_STS_SLOT 0 →
       (a.toNat % 65536 ≠ 0 ∨ s.m.flag .IMG_FLASH_STS_BUSY 0 = true ∨ s.m.flag .IMG_CHECK_BUSY 0 = true →
         Completes (.flashErase a) s (s.m.setFlag .IMG_FLASH_STS_REFUSED 0 true)) ∧
       (a.toNat % 256 ≠ 0 ∨ s.img.ownerStageBytes < src.toNat * 256 + 256 ∨ s.m.flag .IMG_FLASH_STS_BUSY 0 = true ∨
           s.m.flag .IMG_CHECK_BUSY 0 = true →
         Completes (.flashProgram a src) s (s.m.setFlag .IMG_FLASH_STS_REFUSED 0 true))) ∧
     (∀ op, Completes (.flashCmdReservedOp op) s (s.m.setFlag .IMG_FLASH_STS_REFUSED 0 true)) ∧
     (∀ op a d, s.m.boot.flashOp = some (op, a, d) →
       Completes (.flashCommandComplete false) s
         { s.m.setFlag .IMG_FLASH_STS_BUSY 0 false with boot := { s.m.boot with flashOp := none } } ∧
       Completes (.flashCommandComplete true) s (fire s.img 0x00A a
         (({ s.m.setFlag .IMG_FLASH_STS_BUSY 0 false with boot := { s.m.boot with flashOp := none } } : M).setFlag
           .IMG_FLASH_STS_ERROR 0 true)))) ∧
  (∀ (s : State),
     (∀ slot : Fin 2, s.m.flag .IMG_CHECK_BUSY 0 = false → s.m.flag .IMG_FLASH_STS_BUSY 0 = false →
       Completes (.imgCheckStart slot) s (beginCheck slot.val (s.m.setFld .IMG_CHECK_SLOT 0 slot.val))) ∧
     (∀ slot : Fin 2, s.m.flag .IMG_CHECK_BUSY 0 = false → s.m.flag .IMG_FLASH_STS_BUSY 0 = true →
       Completes (.imgCheckStart slot) s { (s.m.setFld .IMG_CHECK_SLOT 0 slot.val).setFlag .IMG_CHECK_START 0 true with
         boot := { s.m.boot with chkWait := some slot.val } }) ∧
     (∀ slot : Fin 2, s.m.flag .IMG_CHECK_BUSY 0 = true → Completes (.imgCheckStart slot) s s.m) ∧
     (∀ slot, s.m.boot.chkWait = some slot → s.m.flag .IMG_FLASH_STS_BUSY 0 = false →
       Completes .imgCheckDeferredStart s (beginCheck slot s.m)) ∧
     (∀ b h key sig svn slot, s.m.boot.chkSlot = some slot →
       let w := checkSlot s.inForce b h key sig svn s.m
       Completes (.imgCheckDone b h key sig svn) s (irqSync s.inForce 8 0x800
         ((({ (w.2.setFlag .IMG_CHECK_BUSY 0 false).setFlag .IMG_CHECK_START 0 false with
           boot := { w.2.boot with chkSlot := none } } : M).setFld .IMG_CHECK_RESULT 0 w.1).setFlag .IMG_CHECK_DONE 0 true))) ∧
     (∀ b h key sig svn, Undisturbed s.m →
       let w := checkSlot s.inForce b h key sig svn s.m
       (b = none → w = (resFlashError, s.m)) ∧
       (∀ d c, b = some d → imgReadCheck d = some c → w = (c, s.m)) ∧
       (∀ d, b = some d → imgReadCheck d = none → s.m.sec.sensed.set = true → h = true → svn = true →
         pathsOf key (imgKeyOk d s.m.sec.sensed.hash) = ⟨true, true⟩ → pathsOf sig (imgSigOk d) = ⟨true, true⟩ →
         w = ((imgStep4 d (svnSteps s.m.sec.sensed) serialNat).1, s.m)) ∧
       (∀ d, b = some d → imgReadCheck d = none → s.m.sec.sensed.set = true → h = true →
         pathsOf key (imgKeyOk d s.m.sec.sensed.hash) = ⟨false, false⟩ → w = (resKeyMismatch, s.m)) ∧
       (∀ d, b = some d → imgReadCheck d = none → s.m.sec.sensed.set = true → h = true →
         pathsOf key (imgKeyOk d s.m.sec.sensed.hash) = ⟨true, true⟩ → pathsOf sig (imgSigOk d) = ⟨false, false⟩ →
         w = (resBadSignature, s.m)))) ∧
  (∀ (s : State) (a : BitVec 25) (n : Nat) (b : List Byte), n = 4 ∨ n = 8 → a.toNat % n = 0 →
     (s.m.boot.phase ≠ .failed → s.m.flag .IMG_FLASH_STS_BUSY 0 = false → s.m.flag .IMG_CHECK_BUSY 0 = false →
       Completes (.flashWindowRead a n b) s (s.m.emit (.regData .owner (0x6000000 + a.toNat) (bytesAt b 0 n)))) ∧
     (s.m.flag .IMG_FLASH_STS_BUSY 0 = true ∨ s.m.flag .IMG_CHECK_BUSY 0 = true → Completes (.flashWindowRead a n b) s
       ((s.m.setFlag .BSTS_FLASH_BUSY_RD (bstsInst .owner bkImg) true).emit
         (.regData .owner (0x6000000 + a.toNat) (List.replicate n 0xFF)))) ∧
     (s.m.boot.phase = .failed → s.m.flag .IMG_FLASH_STS_BUSY 0 = false → s.m.flag .IMG_CHECK_BUSY 0 = false →
       Completes (.flashWindowRead a n b) s (s.m.emit (.regData .owner (0x6000000 + a.toNat) (List.replicate n 0xFF)))))

/-! ### Register accesses, the fabric and clocks (00, 01, 16) -/

/-- The access codes of R4: what a write of a whole register does to one field of it. RW takes the value (a TCK_CAP field
no more than the image's, R66), RW1C clears what is written 1 but for what hardware set in this cycle (R5), RO, RC and
WO keep what they hold; RWL is as RW while rings are disabled. A field with a command of its own (every RW1S field has
one) is left to it. No other field but a status register's changes. RC (R4, R5, R7): a read returns RC fields to reset
where it covers them, but for what the events of this very cycle recorded, and touches no other field. -/
def Obligations.AccessCodes : Prop :=
  (∀ (im : Image) (v : View) (off i x : Nat) (m : M) (f : Fld),
     let s := fldSpec f
     let y := x / 2 ^ s.lo % 2 ^ s.w
     let t := writeFld im v off i x m f
     (s.own = true → t = m) ∧
     (s.own = false →
       (s.acc = .rw → t.fld f i = min y (capLimit im i f) % 2 ^ s.w) ∧
       (s.acc = .rw1c → ∀ b, bitAt (t.fld f i) b =
         (bitAt (m.fld f i) b && !(bitAt y b && !bitAt (m.cycSet f i) b) && decide (b < s.w))) ∧
       (s.acc = .rwl → m.flag .RNG_ENABLE_ENABLED (pinst (viewPart v) 0) = false → t.fld f i = y) ∧
       (s.acc = .rwl → m.flag .RNG_ENABLE_ENABLED (pinst (viewPart v) 0) = true → t = setLocked v off m) ∧
       (s.acc = .ro ∨ s.acc = .rc ∨ s.acc = .wo → t = m)) ∧
     (∀ G j, (G, j) ≠ (f, i) → (fldSpec G).reg ≠ .BSTS → t.fld G j = m.fld G j)) ∧
  (∀ (r : Reg) (i lo w : Nat) (m : M) (F : Fld) (j : Nat),
     (clearRc r i lo w m).fld F j =
       if j = i ∧ F ∈ regFields r ∧ (fldSpec F).acc = .rc ∧ (fldSpec F).lo < lo + w ∧ lo < (fldSpec F).lo + (fldSpec F).w then
         match mapFind m.cyc (F.num, i) with
         | none => rstVal F
         | some e => e.2 % 2 ^ (fldSpec F).w
       else m.fld F j)

/-- REGISTER_WRITE (R4, R6, R7, R66, R261): an 8-byte aligned write of a register in use acts on its fields and starts
what the register starts: a cap takes the value, no more than the image's; a 4-byte aligned one writes its half,
unless the register needs 8 bytes; one of more than 8 bytes is made 8 bytes at a time; any other size or a misaligned
access only sets RSVD_WR; a write through a closed function is discarded, and so is a poisoned one, which AER records.
RC_FIELD_READ (R4, R5, R7, R261): an 8-byte aligned read of a register in use answers its value before the events of
this cycle, bits of an interrupt bank that are no source reading zero (the model's choice: log entry 106), and its RC
fields return to reset; a 4-byte aligned one answers its half and clears what lies in it, unless the register pops a
FIFO; one of more than 8 bytes is made 8 bytes at a time; any other size answers zeros and sets RSVD_WR; a read
through a closed function is answered UR. Log entries 39, 41 and 106, on which clauses rest, are the model's choice. -/
def Obligations.RegisterAccesses : Prop :=
  (∀ (s : State) (v : View) (off : Nat) (d : List Byte),
     let m := touchView v s.m
     (∀ ep, viewOpen s.inForce s.m v = false → Completes (.registerWrite v off ⟨d, ep⟩) s m) ∧
     (Completes (.registerWrite .owner off ⟨d, true⟩) s s.m) ∧
     (v ≠ .owner → viewOpen s.inForce s.m v = true → Completes (.registerWrite v off ⟨d, true⟩) s
       (m.setHost (viewPart v) { m.hostOf (viewPart v) with poisoned := true })) ∧
     (∀ row k i, viewOpen s.inForce s.m v = true → d.length = 8 → off % 8 = 0 → off + 8 ≤ viewSize s.inForce v →
       inWindow v off 8 = false → inFlash v off = false → inMsix v off = false → inCmdBuf v off = false →
       accReg s.inForce v off = some (row, k, i) → accessHeld s.m row.reg i = false → regLive s.inForce v row.reg k = true →
       Completes (.registerWrite v off ⟨d, false⟩) s (writeReg s.inForce v row k i off 0 64 (leVal d) m)) ∧
     (∀ row k i, viewOpen s.inForce s.m v = true → d.length = 4 → off % 4 = 0 → off + 4 ≤ viewSize s.inForce v →
       inWindow v off 4 = false → inFlash v off = false → inMsix v off = false → inCmdBuf v off = false →
       accReg s.inForce v off = some (row, k, i) → accessHeld s.m row.reg i = false → regLive s.inForce v row.reg k = true →
       (needs8 row.reg = false → Completes (.registerWrite v off ⟨d, false⟩) s
         (writeReg s.inForce v row k i off (8 * (off % 8)) 32 (leVal d) m)) ∧
       (needs8 row.reg = true → Completes (.registerWrite v off ⟨d, false⟩) s (setRsvd v (blockOf v off) off m))) ∧
     (∀ d1 d2, d = d1 ++ d2 → d1.length = 8 → d2 ≠ [] → viewOpen s.inForce s.m v = true → (∀ p, v ≠ .bar2 p) →
       off + d.length ≤ viewSize s.inForce v → Completes (.registerWrite v off ⟨d, false⟩) s
         (accWrite s.inForce v (off + 8) d2 (writeOrHold s.inForce v off d1 m))) ∧
     (∀ p : Fin 8, s.m.react = [] → d.length = 8 → s.inForce.enabled p.val = true → accessHeld s.m .TCK_CAP_A p.val = false →
       ∃ t, exec (.registerWrite .owner (regOff .owner .TCK_CAP_A p.val) ⟨d, false⟩) s = .next t ∧
         t = { s with m := { s.m with f := t.m.f } } ∧
         t.m.fld .TCK_CAP_A_SPINDLE_CYCLES p.val = min (leVal d % 2 ^ 32) (s.inForce.bud p.val).cycles % 2 ^ 32 ∧
         t.m.fld .TCK_CAP_A_MOVER_BYTES p.val = min (leVal d / 2 ^ 32) (s.inForce.bud p.val).mover % 2 ^ 32 ∧
         FldsKept s.m t.m [(.TCK_CAP_A_SPINDLE_CYCLES, p.val), (.TCK_CAP_A_MOVER_BYTES, p.val)]) ∧
     (viewOpen s.inForce s.m v = true → 1 ≤ d.length → d.length ≤ 8 → (d.length ≠ 4 ∧ d.length ≠ 8 ∨ off % d.length ≠ 0) →
       off + d.length ≤ viewSize s.inForce v → inWindow v off d.length = false → offHeld s.inForce s.m v off = false →
       Completes (.registerWrite v off ⟨d, false⟩) s (setRsvd v (blockOf v off) off m))) ∧
  (∀ (s : State) (v : View) (off : Nat),
     let m := touchView v s.m
     (∀ n, 1 ≤ n → off + n ≤ viewSize s.inForce v → viewOpen s.inForce s.m v = false →
       Completes (.rcFieldRead v off n) s (m.emit (.regUr v off))) ∧
     (∀ row k i, viewOpen s.inForce s.m v = true → off % 8 = 0 → off + 8 ≤ viewSize s.inForce v →
       inFlash v off = false → inMsix v off = false → inCmdBuf v off = false →
       accReg s.inForce v off = some (row, k, i) → accessHeld s.m row.reg i = false → regLive s.inForce v row.reg k = true →
       Completes (.rcFieldRead v off 8) s
         ((readReg s.inForce v row k i 0 64 .ok m).2.emit (.regData v off (leBytes 8 (readReg s.inForce v row k i 0 64 .ok m).1))) ∧
       (row.reg ∉ [.MBX_RX, .MBX_WRX, .TRC_GET, .TRC_EVT, .IMG_ROOT_HASH, .MOV_CFG] → row.mirror = false →
         Completes (.rcFieldRead v off 8) s
           ((clearRc row.reg i 0 64 m).emit (.regData v off
             (leBytes 8 (regVal (beforeEvents row.reg i m) row.reg i &&& bankSeen s.inForce m v row.reg k))))) ∧
       (row.reg ∉ [.MBX_RX, .MBX_WRX, .TRC_GET, .TRC_EVT, .IMG_ROOT_HASH, .MOV_CFG] → row.mirror = false → regBank row.reg = none →
         s.m.cyc = [] → (∀ f ∈ regFields row.reg, s.m.fld f i < 2 ^ (fldSpec f).w) → Completes (.rcFieldRead v off 8) s
           ((clearRc row.reg i 0 64 m).emit (.regData v off (leBytes 8 (regVal s.m row.reg i)))))) ∧
     (∀ row k i, viewOpen s.inForce s.m v = true → off % 4 = 0 → off + 4 ≤ viewSize s.inForce v →
       inFlash v off = false → inMsix v off = false → inCmdBuf v off = false →
       accReg s.inForce v off = some (row, k, i) → accessHeld s.m row.reg i = false → regLive s.inForce v row.reg k = true →
       (popReg row.reg = false → Completes (.rcFieldRead v off 4) s
         ((readReg s.inForce v row k i (8 * (off % 8)) 32 .ok m).2.emit (.regData v off
           (bytesAt (leBytes 8 (readReg s.inForce v row k i (8 * (off % 8)) 32 .ok m).1) (off % 8) 4)))) ∧
       (popReg row.reg = true → Completes (.rcFieldRead v off 4) s
         ((setRsvd v (blockOf v off) off m).emit (.regData v off (List.replicate 4 0))))) ∧
     (∀ n, 1 ≤ n → viewOpen s.inForce s.m v = true → off + 8 + n ≤ viewSize s.inForce v →
       readHeld s.inForce s.m v off (8 + n) = false →
       let r1 := readPiece s.inForce v off 8 .ok m
       let r2 := accRead s.inForce v (off + 8) n .ok r1.2
       Completes (.rcFieldRead v off (8 + n)) s (r2.2.emit (.regData v off (r1.1 ++ r2.1)))) ∧
     (∀ n, 1 ≤ n → n < 8 → (n ≠ 4 ∨ off % 4 ≠ 0) → viewOpen s.inForce s.m v = true → off + n ≤ viewSize s.inForce v →
       offHeld s.inForce s.m v off = false →
       Completes (.rcFieldRead v off n) s
         ((setRsvd v (blockOf v off) off m).emit (.regData v off (List.replicate n 0)))))

/-- The owner tags of the fabric (R11, R12, R15, R16, R282): a transfer whose tag is the owner of what it addresses is
made: a write to the stage buffer writes its bytes and no other, a read is answered with the bytes there, and other
blocks pass it on to their own commands; one whose tag is not the owner's changes no data and fires the destination's
datapath source, a read being answered with an error; two paths that differ refuse it too, and count. Log entries 42
and 98, on which clauses rest, are the model's choice. -/
def Obligations.FabricTags : Prop :=
  ∀ (s : State) (t : Fabric), 1 ≤ t.size → t.addr.toNat % 256 + t.size ≤ 256 →
    (20 ≤ t.dst.val → t.dst.val < 52 → t.dst.val = 20 + t.addr.toNat / 256 % 32) →
    (∀ x, 68 ≤ t.dst.val → t.dst.val < 72 → chanAddr s.inForce t.addr.toNat = some x → 68 + x.1 = t.dst.val) →
    (t.paths = ⟨true, true⟩ → fabricOwner s.inForce t = some t.tag.val →
      (s.m.react = [] → t.write = true → 20 ≤ t.dst.val → t.dst.val < 52 →
        ∃ u, exec (.fabricTransfer t) s = .next u ∧ u = { s with m := { s.m with stage := u.m.stage } } ∧
          (∀ j (h : j < t.data.length), memGet u.m.stage (t.addr.toNat + j) = t.data[j]) ∧
          (∀ a, a < t.addr.toNat ∨ t.addr.toNat + t.data.length ≤ a → memGet u.m.stage a = memGet s.m.stage a)) ∧
      (t.write = false → 20 ≤ t.dst.val → t.dst.val < 52 → Completes (.fabricTransfer t) s
        (s.m.emit (.fabric false t.dst.val (memRead s.m.stage t.addr.toNat t.len)))) ∧
      ((t.dst.val < 20 ∨ 52 ≤ t.dst.val) → Completes (.fabricTransfer t) s
        (if t.write then s.m else s.m.emit (.fabric false t.dst.val [])))) ∧
    (t.paths = ⟨true, true⟩ → fabricOwner s.inForce t ≠ some t.tag.val →
      (t.write = true → Completes (.fabricTransfer t) s (tagFault s.inForce t s.m)) ∧
      (t.write = false → Completes (.fabricTransfer t) s ((tagFault s.inForce t s.m).emit (.fabric true t.dst.val [])))) ∧
    (t.paths.a ≠ t.paths.b →
      Completes (.fabricTransfer t) s (refuseFabric s.inForce t (pathDisagree s.inForce 7 s.m)))

/-- Reference clocks (R29, R218, R254): an absent port clock and its return change the port's termination; an octet's
clock that goes away sends every link of it that is neither OFF nor DISABLED to WAIT, and its return lets links
attempt again. PLL losses after start-up fire their sources (R29): the core's, and a memory channel's with its number. -/
def Obligations.ClocksThatStop : Prop :=
  (∀ (s : State),
     (∀ (n : Fin 8) p, s.inForce.partOfPort n.val = some p →
       Completes (.refclkHpAbsent n) s
         (driveTerm s.inForce p { s.m with pins := { s.m.pins with hpAbsent := putBit s.m.pins.hpAbsent n.val true } }) ∧
       Completes (.refclkHpReturn n) s
         (driveTerm s.inForce p { s.m with pins := { s.m.pins with hpAbsent := putBit s.m.pins.hpAbsent n.val false } })) ∧
     (∀ (n : Fin 8), s.inForce.partOfPort n.val = none →
       Completes (.refclkHpAbsent n) s { s.m with pins := { s.m.pins with hpAbsent := putBit s.m.pins.hpAbsent n.val true } } ∧
       Completes (.refclkHpReturn n) s { s.m with pins := { s.m.pins with hpAbsent := putBit s.m.pins.hpAbsent n.val false } }) ∧
     (∀ (o : Fin 12),
       let ls := (s.inForce.linksOfOctet o.val).filter (fun l => s.m.linkState l != lsOff && s.m.linkState l != lsDisabled)
       Completes (.refclkOnAbsent o) s (leaveAll s.inForce ls lsWait lcRefclk false (ls.foldl (fun m l => m.emit (.idle l))
         { s.m with pins := { s.m.pins with onAbsent := putBit s.m.pins.onAbsent o.val true } }))) ∧
     (∀ (o : Fin 12), Completes (.refclkOnReturn o) s
       { s.m with pins := { s.m.pins with onAbsent := putBit s.m.pins.onAbsent o.val false } })) ∧
  (∀ (s : State), s.m.boot.phase = .run →
     Completes .corePllLockLost s (fire s.img 0x000 0 s.m) ∧
     ∀ c : Fin 4, Completes (.memoryPllLockLost c) s (fire s.img 0x001 c.val s.m))

/-- Voted words (R279, R280, R382): copies that agree give the value; one that differs is corrected, counted and reported;
three that differ give no value, the read of IMG_ROOT_HASH is zero and the severe source fires, at that read and at
every later one. -/
def Obligations.VotedReads : Prop :=
  ∀ (s : State) (i : Fin 6), s.m.upset = [] →
    (s.m.voteDead.contains (.rootHash i) = true → ∀ v, Completes (.imgRootHashRead v i) s
      ((fireSevere s.inForce 0x011 (vwordInfo (.rootHash i)) (s.m.bump .SEC_VOTE_SEVERE 0)).emit
        (.regData .owner (regOff .owner .IMG_ROOT_HASH i.val) (leBytes 8 0)))) ∧
    (s.m.voteDead.contains (.rootHash i) = false → Completes (.imgRootHashRead .agree i) s
      (s.m.emit (.regData .owner (regOff .owner .IMG_ROOT_HASH i.val) (leBytes 8 (s.m.fld .IMG_ROOT_HASH_HASH i.val))))) ∧
    (s.m.voteDead.contains (.rootHash i) = false →
     let m := fire s.inForce 0x010 (vwordInfo (.rootHash i)) (s.m.bump .SEC_VOTE_CORRECTED 0)
     Completes (.imgRootHashRead .two i) s
      (m.emit (.regData .owner (regOff .owner .IMG_ROOT_HASH i.val) (leBytes 8 (m.fld .IMG_ROOT_HASH_HASH i.val))))) ∧
    (s.m.voteDead.contains (.rootHash i) = false →
     let m := fireSevere s.inForce 0x011 (vwordInfo (.rootHash i))
        (({ s.m with voteDead := .rootHash i :: s.m.voteDead } : M).bump .SEC_VOTE_SEVERE 0)
     Completes (.imgRootHashRead .three i) s
      (m.emit (.regData .owner (regOff .owner .IMG_ROOT_HASH i.val) (leBytes 8 0))))

/-! ### The tick (03) -/

/-- TICK_EDGE (R57, R58, R64): in the cycle in which the edge is due the accounting of every enabled partition closes,
with the operations in flight credited to the new tick, and a requested hush begins; in any other cycle nothing
happens. The steps after it follow in the cycles e + 1 to e + 4: the reload with the work that waited for it, fault
windows and buckets, the tick count, the threads; each as its cycle passes, and the edge itself when no command has
made it. Steps 1, 2 and 4 of the edge (R57, R58, R59, R64, R66): a budget's allowance becomes its value latched for
the edge, the smaller of image and cap, less the operations in flight and what was started since the edge, at least
zero; TCK_COUNT rises by 1 modulo 2^64, and ALIVE changes level exactly when the new count is 1 modulo 128 and it is
not frozen. Log entries 30 and 97, on which clauses rest, are the model's choice. -/
def Obligations.TickEdgeSteps : Prop :=
  (∀ (s : State) (busy : List Server) (strikes : List Strike),
     let im := s.inForce
     let step1 := fun (b : List Server) (m : M) =>
       let m := openTick im b (im.enabledParts.foldl (closeTick im b) (takeEdge im m))
       m.setFlag .PWR_CTL_HUSH_ACTIVE 0 (m.flag .PWR_CTL_HUSH 0)
     (s.m.now ≠ s.m.tick.next → Completes (.tickEdge busy strikes) s s.m) ∧
     (s.m.tick.on = true → s.m.now = s.m.tick.next →
       Completes (.tickEdge busy strikes) s (strikes.foldl strikeWord (step1 busy s.m)) ∧
       tickStep im s.m = step1 [] s.m) ∧
     (∀ k, k < 4 → s.m.tick.on = true → s.m.tick.phase = k + 1 → s.m.now = s.m.tick.edge + k + 1 → s.m.now ≠ s.m.tick.next →
       let m : M := { s.m with tick := { s.m.tick with phase := k + 2 } }
       tickStep im s.m =
         if k = 0 then im.enabledParts.foldl (refill im) (reload im m)
         else if k = 1 then ageAll im m
         else if k = 2 then stepCount im m
         else schedule m)) ∧
  ((∀ (m : M) (k : Key),
     let t := reload1 m k
     let v := mapGet 0 m.bud.nextInf k
     let c := mapGet 0 m.bud.charged k + mapGet 0 m.bud.early k
     mapGet 0 t.bud.inf k = v ∧ t.left k.1 k.2 = v - c ∧
     ∀ a i, (a, i) ≠ k → t.left a i = m.left a i ∧ t.inForce a i = m.inForce a i) ∧
   (∀ (im : Image) (m : M) (p : Nat), p ∈ im.enabledParts →
     mapGet 0 (latchCaps im m).bud.nextInf (0, p) = min (im.bud p).cycles (m.fld .TCK_CAP_A_SPINDLE_CYCLES p) ∧
     mapGet 0 (latchCaps im m).bud.nextInf (1, p) = min (im.bud p).mover (m.fld .TCK_CAP_A_MOVER_BYTES p) ∧
     mapGet 0 (latchCaps im m).bud.nextInf (2, p) = min (im.bud p).host (m.fld .TCK_CAP_B_HOSTPORT_BYTES p) ∧
     mapGet 0 (latchCaps im m).bud.nextInf (5, p) = min (im.bud p).stage (m.fld .TCK_CAP_B_STAGE_QUOTA p)) ∧
   (∀ (im : Image) (b : List Server) (m : M) (p : Nat), p ∈ im.enabledParts →
     mapGet 0 (openTick im b m).bud.charged (0, p) = carryOf m b (0, p) ∧ (openTick im b m).bud.exhausted = []) ∧
   (∀ (im : Image) (m : M), Undisturbed m →
     let n := (m.fld .TCK_COUNT_COUNT 0 + 1) % 2 ^ 64
     (stepCount im m).fld .TCK_COUNT_COUNT 0 = n ∧
     (n % 128 ≠ 1 ∨ m.flag .PWR_PIN_ALIVE_FROZEN 0 = true →
       (stepCount im m).fld .PWR_PIN_ALIVE 0 = m.fld .PWR_PIN_ALIVE 0) ∧
     (n % 128 = 1 → m.flag .PWR_PIN_ALIVE_FROZEN 0 = false →
       (stepCount im m).flag .PWR_PIN_ALIVE 0 = !(m.flag .PWR_PIN_ALIVE 0))))

/-- Charges (R58, R59, R64, R65): work starts only when the allowance covers its cost; the cost is deducted from that
budget alone, and counts to the tick in which the work started: from the edge cycle to the reload, to the new one. -/
def Obligations.ChargesDeduct : Prop :=
  ∀ (m : M) (k i sv n : Nat),
    let t := m.charge k i sv n
    (m.covers k i n = true ↔ n ≤ m.left k i) ∧
    (m.covers k i n = true → t.left k i + n = m.left k i) ∧
    (∀ a j, (a, j) ≠ (k, i) → t.left a j = m.left a j) ∧
    (m.beforeReload = true → mapGet 0 t.bud.early (k, i) = mapGet 0 m.bud.early (k, i) + n ∧ t.bud.charged = m.bud.charged) ∧
    (m.beforeReload = false → mapGet 0 t.bud.charged (k, i) = mapGet 0 m.bud.charged (k, i) + n ∧ t.bud.early = m.bud.early) ∧
    t = { m with bud := t.bud }

/-- Locking to TICK_IN (R54, R55): a sampled edge within half a period of the latest edge is valid, moves the next edge by
at most 64 cycles and clears MISS_RUN; one outside every span is stray; after 8 missed edges the lock is lost and its
source fires. -/
def Obligations.TickInput : Prop :=
  ∀ (s : State), s.m.tick.on = true → s.inForce.tickSource = 1 →
    let P := s.inForce.tickPeriod
    (s.m.now ≤ s.m.tick.edge + P / 2 → s.m.tick.edge < s.m.now + P / 2 → s.m.tick.taken = false →
      Completes .tickInEdge s (validEdge ((s.m.now : Int) - s.m.tick.edge)
        { s.m with tick := { s.m.tick with
          taken := true
          next := ((s.m.tick.edge : Int) + P + max (-64) (min 64 ((s.m.now : Int) - s.m.tick.edge))).toNat } })) ∧
    (s.m.tick.closed = true → s.m.tick.edge + P / 2 < s.m.now → s.m.now + P / 2 ≤ s.m.tick.next →
      Completes .tickInEdge s (s.m.bump .TCK_SYNC_CNT_STRAY 0)) ∧
    (s.m.now ≤ s.m.tick.edge + P / 2 → s.m.flag .TCK_STS_LOCKED 0 = true → 8 ≤ s.m.fld .TCK_STS_MISS_RUN 0 →
      Completes .tickReferenceLost s (fire s.inForce 0x008 (s.m.fld .TCK_SYNC_CNT_MISSED 0)
        ((s.m.setFlag .TCK_STS_LOCKED 0 false).setFlag .TCK_STS_LOST 0 true)))

/-- Fault windows and hush (R360, R372): a window that ran out at the edge ends with COUNT and AGE 0; HUSH 1 waits for the
edge, HUSH 0 leaves at once, and the lanes that hush powered down are ready 10 µs later (the model's choice of the
time: log entry 113). Log entries 31, 87 and 113, on which clauses rest, are the model's choice. -/
def Obligations.WindowsAndHush : Prop :=
  ∀ (s : State), s.m.react = [] →
    (∀ f : Fin 304, s.m.tick.due.contains f.val = true → ∃ t, exec (.faultWindowExpiry f) s = .next t ∧
      t.m.fld .FLT_SRC_COUNT f.val = 0 ∧ t.m.fld .FLT_SRC_AGE f.val = 0 ∧ t.m.tick.due.contains f.val = false ∧
      FldsKept s.m t.m [(.FLT_SRC_COUNT, f.val), (.FLT_SRC_AGE, f.val)] ∧
      t = { s with m := { s.m with f := t.m.f, tick := { s.m.tick with due := t.m.tick.due } } }) ∧
    (exec (.hush true) s = .next { s with m := s.m.setFlag .PWR_CTL_HUSH 0 true }) ∧
    (exec (.hush false) s = .next { s with
      m := ((if s.m.flag .PWR_CTL_HUSH_ACTIVE 0 then lanesWake s.m else s.m).setFlag .PWR_CTL_HUSH 0 false).setFlag
        .PWR_CTL_HUSH_ACTIVE 0 false }) ∧
    (∀ l, l < 96 → s.m.linkLive l = false → s.m.linkState l ≠ lsTrain → s.m.linkState l ≠ lsHand →
      ((lanesWake s.m).link l).lanesAt = s.m.now + 20000)

/-! ### Interrupts (13) -/

/-- COMMIT (R331 to R333, R335, R336): once in a cycle, on PEND and ACT as they stood when it began, the eligible fast
sources and the eligible normal sources of the next group move from PEND to ACT, the group's hold-off starts, and the
messages leave, at once or, in EXACT partitions, provisionally; with nothing eligible, or a second time, nothing
happens. A commit sets the source's ACT and clears its PEND, which an edge or a pulse of the same cycle sets again; no
other bit of any field changes (R331). -/
def Obligations.CommitMoves : Prop :=
  (∀ (s : State) (p : Fin 8),
     let im := s.inForce
     let fast := (candSources im s.m p.val .f).filter (eligible im s.m p.val)
     let cand := (candSources im s.m p.val .n ++ candSources im s.m p.val .r).filter (eligible im s.m p.val)
     let grp := fun (src : Nat) => match srcRoute im s.m p.val src with | some (_, g) => g | none => 0
     let m0 : M := { s.m with irq := { s.m.irq with did := s.m.irq.did ++ [p.val] } }
     (s.m.irq.did.contains p.val = true → Completes (.commit p) s s.m) ∧
     (fast = [] → cand = [] → Completes (.commit p) s s.m) ∧
     (s.m.irq.did.contains p.val = false → fast ≠ [] → cand = [] →
       let m1 := fast.foldl (fun m src => commitSrc im p.val src m) m0
       (im.exact p.val = false → Completes (.commit p) s (commitMsgs im p.val fast [] (s.m.now + 2) m1)) ∧
       (im.exact p.val = true → Completes (.commit p) s { m1 with irq := { m1.irq with
         prov := m1.irq.prov ++ [⟨p.val, s.m.now, fast.map (fun x => (1, x)), none⟩] } })) ∧
     (∀ g, s.m.irq.did.contains p.val = false → nextGroup s.m p.val (cand.map grp) = some g →
       let slow := cand.filter (fun src => grp src == g)
       let m1 := (fast ++ slow).foldl (fun m src => commitSrc im p.val src m) m0
       let m2 := loadHold im p.val g m1
       let m3 : M := { m2 with irq := { m2.irq with last := mapPut m2.irq.last (p.val, 0) g } }
       (im.exact p.val = false → Completes (.commit p) s (commitMsgs im p.val fast slow (s.m.now + 2) m3)) ∧
       (im.exact p.val = true → Completes (.commit p) s { m3 with irq := { m3.irq with
         prov := m3.irq.prov ++ [⟨p.val, s.m.now, (fast.map (fun x => (1, x))) ++ (slow.map (fun x => (0, x))),
           some (g, mapFind m1.irq.hold (p.val, g))⟩] } }))) ∧
  (∀ (im : Image) (o src : Nat) (m : M), o ≤ 8 →
     let t := commitSrc im o src m
     srcBit im t .pend o src = bitAt (startBits im m o src) 2 ∧ srcBit im t .act o src = true ∧
     FldsKept m t [(bankFld .pend o (srcBank im o src), bankInst o (srcIdx src)),
       (bankFld .act o (srcBank im o src), bankInst o (srcIdx src))] ∧
     (∀ k, k = .pend ∨ k = .act → ∀ b, b < 64 → b ≠ src % 64 →
       bitAt (t.fld (bankFld k o (srcBank im o src)) (bankInst o (srcIdx src))) b =
         bitAt (m.fld (bankFld k o (srcBank im o src)) (bankInst o (srcIdx src))) b) ∧
     t = { m with f := t.f, irq := { m.irq with start := t.irq.start } })

/-- COMMIT_RECHECK (R338): 8 cycles on, sources that no mask in effect then covers leave as messages; one that a mask
covers is pending again and active no more, and the load of a group's timer is undone when no other source of that
commit remains, a fast one included; before that nothing happens. MASK_EFFECT and HOLDOFF_EXPIRY (R336, R338): a mask
write is in effect 8 cycles after its decode and not before, and from then on whether or not the command has come; a
hold-off timer past its last cycle no longer runs. -/
def Obligations.RecheckAndMasks : Prop :=
  (∀ (s : State) (p : Fin 8) (c : ProvC),
     s.m.irq.prov.find? (fun c => c.part == p.val) = some c →
     let then8 : M := { s.m with now := c.cyc + 8 }
     (s.m.now < c.cyc + 8 → Completes (.commitRecheck p) s s.m) ∧
     (c.cyc + 8 ≤ s.m.now → c.srcs.all (provKept s.inForce then8 p.val) = true →
       (c.group = none ∨ c.srcs ≠ []) →
       Completes (.commitRecheck p) s (commitMsgs s.inForce p.val
         ((c.srcs.filter (fun x => x.1 == 1)).map (·.2)) ((c.srcs.filter (fun x => x.1 == 0)).map (·.2)) (c.cyc + 8)
         { s.m with irq := { s.m.irq with prov := s.m.irq.prov.filter (fun d => d != c) } })) ∧
     (∀ src g, c.cyc + 8 ≤ s.m.now → c.srcs = [(0, src)] → c.group = some (g, none) →
       provKept s.inForce then8 p.val (0, src) = false →
       let m := setSrcBit s.inForce .pend p.val src true (setSrcBit s.inForce .act p.val src false s.m)
       Completes (.commitRecheck p) s (commitMsgs s.inForce p.val [] [] (c.cyc + 8)
         { m with irq := { m.irq with
           hold := mapDel m.irq.hold (p.val, g)
           prov := m.irq.prov.filter (fun d => d != c) } })) ∧
     (∀ kept src g old, c.cyc + 8 ≤ s.m.now → c.srcs = [(1, kept), (0, src)] → c.group = some (g, old) →
       provKept s.inForce then8 p.val (1, kept) = true → provKept s.inForce then8 p.val (0, src) = false →
       let m := setSrcBit s.inForce .pend p.val src true (setSrcBit s.inForce .act p.val src false s.m)
       Completes (.commitRecheck p) s (commitMsgs s.inForce p.val [kept] [] (c.cyc + 8)
         { m with irq := { m.irq with prov := m.irq.prov.filter (fun d => d != c) } }))) ∧
  (∀ (s : State), s.m.react = [] →
     (∀ w, s.m.irq.maskq = [w] → w.due ≤ s.m.now → effOf s.m w.key = w.val ∧
       ∃ t, exec .maskEffect s = .next t ∧ t.m.irq.maskq = [] ∧ (∀ k, effOf t.m k = effOf s.m k) ∧
       t = { s with m := { s.m with irq := { s.m.irq with eff := t.m.irq.eff, maskq := [] } } }) ∧
     (∀ w, s.m.irq.maskq = [w] → s.m.now < w.due → exec .maskEffect s = .next s ∧
       effOf s.m w.key = mapGet (if w.key.1 = 1000 then 1 else 0) s.m.irq.eff w.key) ∧
     (∀ k v, (maskWrite k v s.m).irq.maskq = s.m.irq.maskq ++ [⟨s.m.now + 8, k, v⟩]) ∧
     (∀ (o : Fin 9) (g : Fin 256) e, mapFind s.m.irq.hold (o.val, g.val) = some e → e < s.m.now →
       Completes (.holdoffExpiry o g) s { s.m with irq := { s.m.irq with hold := mapDel s.m.irq.hold (o.val, g.val) } }) ∧
     (∀ (o : Fin 9) (g : Fin 256) e, mapFind s.m.irq.hold (o.val, g.val) = some e → s.m.now ≤ e →
       exec (.holdoffExpiry o g) s = .next s))

/-- ACKNOWLEDGE and PEND_CLEAR (R330, R331, R339): ACT or PEND bits written 1 clear; each acknowledged bit that was not
active when the cycle began is stray and counted, and in a partition with the FAULT policy the write fires once; PEND
stays set by an edge or a pulse of the same cycle, and a high level source gives its event again. -/
def Obligations.AcknowledgeClears : Prop :=
  ∀ (s : State) (o : Fin 9) (b : Bank) (i : Fin 1024) (bits : BitVec 64),
    let im := s.inForce
    (o.val = 8 ∨ im.enabled o.val = true) → ¬(o.val = 8 ∧ b = .r) → (b = .r ∨ i.val < 128) →
    let F := bankFld .act o.val b
    let P := bankFld .pend o.val b
    let k := bankInst o.val i.val
    let ack : Access := .acknowledge o b i bits
    let clr : Access := .pendClear o b i bits
    let cur := s.m.fld F k
    let live := (((setBits cur 64).filter (fun n => bitAt (startBits im s.m o.val (bankSrc b i.val n)) 1)).map (2 ^ ·)).sum
    let stray := clearBits bits.toNat live
    let m := (setBits (bits.toNat &&& live) 64).foldl
      (fun m n => setSrcBit im .act o.val (bankSrc b i.val n) false m) (touchRow im ack s.m)
    (RowTaken s ack → o.val = 8 → Completes (.acknowledge o b i bits) s
      (m.bumpN .IRQ_WSTRAY_COUNT 0 (popCount stray 64))) ∧
    (RowTaken s ack → o.val ≠ 8 → (s.m.flag .IRQ_CFG_STRAY_ACK (pinst o.val 0) = false ∨ stray = 0) →
      Completes (.acknowledge o b i bits) s (m.bumpN .IRQ_STRAY_ACK_COUNT (pinst o.val 0) (popCount stray 64))) ∧
    (RowTaken s ack → o.val ≠ 8 → s.m.flag .IRQ_CFG_STRAY_ACK (pinst o.val 0) = true → stray ≠ 0 →
      Completes (.acknowledge o b i bits) s (fireP im (0x078 + o.val) i.val o.val
        (m.bumpN .IRQ_STRAY_ACK_COUNT (pinst o.val 0) (popCount stray 64)))) ∧
    ((∀ n, n < 64 → srcBank im o.val (bankSrc b i.val n) = b) → ∀ n, n < 64 →
      bitAt (m.fld F k) n = (bitAt cur n && !(bits.toNat.testBit n && bitAt (startBits im s.m o.val (bankSrc b i.val n)) 1))) ∧
    (RowTaken s clr → Completes (.pendClear o b i bits) s
      (irqRelevel im o.val ((setBits (bits.toNat &&& s.m.fld P k) 64).foldl (fun m n =>
        setSrcBit im .pend o.val (bankSrc b i.val n) (bitAt (startBits im m o.val (bankSrc b i.val n)) 2) m)
        (touchRow im clr s.m))))

/-! ### Mailboxes, link events, trace (14) -/

/-- Sending into a mailbox (R346): a header discards an item still open, its words counted in TORN; with room it opens an
item of LEN + 1 words, a one-word item being complete at once; without room it sets OVERRUN and no item is open; a
payload word joins the open item, which completes when full; without an open item it counts TORN. Receiving from a
mailbox (R347, R348, R351): an aligned 8-byte read takes the oldest word of the oldest complete item, or answers the
idle word 0xE0; any other size answers zeros with RSVD_WR; a flush, of either FIFO by either side, empties the FIFO; a
pointer mismatch empties it, sets PTR_ERR on both sides and fires, in a block reset of the mailboxes too (R371). -/
def Obligations.MailboxesRun : Prop :=
  (∀ (s : State) (e : Side) (p : Fin 8) (w : BitVec 64), s.inForce.enabled p.val = true →
     let im := s.inForce
     let x := s.m.mbxOf p.val (txFifo e)
     let n := w.toNat / 256 % 8 + 1
     let h := w.toNat % 2 ^ 63 + 2 ^ 63
     let y : Mbx := ⟨x.items, none⟩
     let m0 := touchRow im (.mbxTxHead e p w) s.m
     let m1 := touchRow im (.mbxTxData e p w) s.m
     let m := match x.opened with | none => m0 | some (_, l) => m0.bumpN (tornFld e) (pinst p.val 0) l.length
     (RowTaken s (.mbxTxHead e p w) → x.items.length < 64 → (x.items.map List.length).sum + n ≤ 512 →
       Completes (.mbxTxHead e p w) s (mbxSync im p.val (m.setMbx p.val (txFifo e)
         (if n = 1 then { y with items := x.items ++ [[h]] } else { y with opened := some (n, [h]) })))) ∧
     (RowTaken s (.mbxTxHead e p w) → (64 ≤ x.items.length ∨ 512 < (x.items.map List.length).sum + n) →
       Completes (.mbxTxHead e p w) s
         (mbxSync im p.val ((m.setMbx p.val (txFifo e) y).setFlag (overFld e) (pinst p.val 0) true))) ∧
     (∀ k l, RowTaken s (.mbxTxData e p w) → x.opened = some (k, l) →
       Completes (.mbxTxData e p w) s (mbxSync im p.val (m1.setMbx p.val (txFifo e)
         (if l.length + 1 = k then ⟨x.items ++ [l ++ [w.toNat]], none⟩ else ⟨x.items, some (k, l ++ [w.toNat])⟩)))) ∧
     (RowTaken s (.mbxTxData e p w) → x.opened = none →
       Completes (.mbxTxData e p w) s (m1.bump (tornFld e) (pinst p.val 0)))) ∧
  (∀ (s : State) (e : Side) (p : Fin 8), s.inForce.enabled p.val = true →
     let im := s.inForce
     let x := s.m.mbxOf p.val (rxFifo e)
     let v := (rxPort e p.val).1
     let a := (rxPort e p.val).2
     let t := fun (a : Access) => touchRow im a s.m
     (RowTaken s (.mbxRx e p 8 0) → x.items = [] → Completes (.mbxRx e p 8 0) s
       ((mbxSync im p.val ((t (.mbxRx e p 8 0)).setMbx p.val (rxFifo e) x)).emit (.regData v a (leBytes 8 0xE0)))) ∧
     (∀ y l u, RowTaken s (.mbxRx e p 8 0) → x.items = (y :: l) :: u → Completes (.mbxRx e p 8 0) s
       ((mbxSync im p.val ((t (.mbxRx e p 8 0)).setMbx p.val (rxFifo e)
         { x with items := if l = [] then u else l :: u })).emit
         (.regData v a (leBytes 8 y)))) ∧
     (∀ n off, RowTaken s (.mbxRx e p n off) → (n ≠ 8 ∨ off ≠ 0) → Completes (.mbxRx e p n off) s
       ((setRsvd v bkMbx (a + off) (t (.mbxRx e p n off))).emit (.regData v (a + off) (List.replicate n 0)))) ∧
     (RowTaken s (.flushTx e p) → Completes (.flushTx e p) s (mbxSync im p.val
       ((t (.flushTx e p)).setMbx p.val (txFifo e) ⟨[], none⟩))) ∧
     (RowTaken s (.flushRx e p) → Completes (.flushRx e p) s (mbxSync im p.val
       ((t (.flushRx e p)).setMbx p.val (rxFifo e) ⟨[], none⟩))) ∧
     (Completes (.mailboxPointerMismatch p false) s (fireP im (0x090 + p.val) 0 p.val
       (((mbxSync im p.val (s.m.setMbx p.val 0 ⟨[], none⟩)).setFlag .MBX_STS_PTR_ERR_TX (pinst p.val 0) true).setFlag
         .MBX_WSTS_PTR_ERR_RX (pinst p.val 0) true))) ∧
     (Completes (.mailboxPointerMismatch p true) s (fireP im (0x090 + p.val) 1 p.val
       (((mbxSync im p.val (s.m.setMbx p.val 1 ⟨[], none⟩)).setFlag .MBX_STS_PTR_ERR_RX (pinst p.val 0) true).setFlag
         .MBX_WSTS_PTR_ERR_TX (pinst p.val 0) true))))

/-- No mailbox command overfills a FIFO (R344, R346): at most 64 items and 512 words, complete items of 1 to 8 words, an
open item short of its length; kept by every mailbox command from any state in which the FIFOs are so. -/
def Obligations.MailboxesStayBounded : Prop :=
  ∀ (s t : State) (c : Instr), s.m.react = [] → (∀ p d, MbxOk (s.m.mbxOf p d)) →
    (match c with
     | .mbxTxHead .. | .mbxTxData .. | .mbxRx .. | .flushTx .. | .flushRx .. => True
     | _ => False) →
    exec c s = .next t → ∀ p d, MbxOk (t.m.mbxOf p d)

/-- Link events (R353, R354, R377): an entry holds the code, its two arguments, the tick and VALID; it goes behind the
entries of earlier cycles, and among those of its own cycle in ascending order of code; in a full FIFO it overwrites
the oldest, and LOST counts; a read takes the oldest entry or answers the idle word, and of a number that is no link
it reads zero; a pointer mismatch empties the FIFO, sets PTR_ERR and fires. The trace FIFO (R355 to R358): PUT appends
the word with bit 63 set, dropping the oldest of a full FIFO, which ends a valid mark and counts LOST when that word
was unread; GET answers the oldest unread word, corrected when one bit was wrong, the idle word without one, and 0xE1
for an uncorrectable one; MARK and REWIND, and both in one write do neither. -/
def Obligations.EventsAndTrace : Prop :=
  (∀ (s : State) (l : Fin 96), s.m.react = [] →
     (∀ (m : M) (code a b : Nat) r1 r2,
       let q := mapGet [] m.evt (l.val, 0)
       let w := evtWord m code a b
       (if q.length < 32 then q else q.tail) = r1 ++ r2 →
       (∀ e ∈ r1, e.1 = m.now → e.2 % 256 ≤ code % 256) → (∀ e r, r2 = e :: r → e.1 = m.now ∧ code % 256 < e.2 % 256) →
       let m1 := ({ m with evt := mapPut m.evt (l.val, 0) (r1 ++ (m.now, w) :: r2) } : M).setFld .TRC_EVT_STS_COUNT l.val
         (r1.length + 1 + r2.length)
       evtPush l.val code a b m = (if q.length < 32 then m1 else m1.bump .TRC_EVT_STS_LOST l.val) ∧
       (code < 256 → w % 2 ^ 8 = code ∧ w / 2 ^ 8 % 2 ^ 8 = a % 256 ∧ w / 2 ^ 16 % 2 ^ 16 = b % 256 ∧
         w / 2 ^ 32 % 2 ^ 31 = m.fld .TCK_COUNT_COUNT 0 % 2 ^ 31 ∧ w / 2 ^ 63 = 1)) ∧
     (isLink s.inForce l.val = true → mapGet [] s.m.evt (l.val, 0) = [] → Completes (.trcEvtRead l) s
       (s.m.emit (.regData .owner (regOff .owner .TRC_EVT l.val) (leBytes 8 0xE0)))) ∧
     (∀ w r, isLink s.inForce l.val = true → mapGet [] s.m.evt (l.val, 0) = w :: r → Completes (.trcEvtRead l) s
       ((({ s.m with evt := mapPut s.m.evt (l.val, 0) r } : M).setFld .TRC_EVT_STS_COUNT l.val r.length).emit
         (.regData .owner (regOff .owner .TRC_EVT l.val) (leBytes 8 w.2)))) ∧
     (isLink s.inForce l.val = false → Completes (.trcEvtRead l) s
       (s.m.emit (.regData .owner (regOff .owner .TRC_EVT l.val) (leBytes 8 0)))) ∧
     Completes (.eventFifoPointerMismatch l) s (fire s.inForce 0x0A2 l.val
       ((({ s.m with evt := mapPut s.m.evt (l.val, 0) [] } : M).setFld .TRC_EVT_STS_COUNT l.val 0).setFlag
         .TRC_EVT_STS_PTR_ERR l.val true))) ∧
  (∀ (s : State), s.m.react = [] →
     (∀ w : BitVec 64, RowTaken s (.trcPut w) → s.m.trc.words.length < 131072 →
       let m := noteRsvd .owner .TRC_PUT 0 w.toNat s.m
       Completes (.trcPut w) s (trcSync { m with trc := { m.trc with words := m.trc.words ++ [w.toNat % 2 ^ 63 + 2 ^ 63] } })) ∧
     (∀ w : BitVec 64, RowTaken s (.trcPut w) → s.m.trc.words.length = 131072 →
       ∃ t, exec (.trcPut w) s = .next t ∧ t.m.trc.words = s.m.trc.words.tail ++ [w.toNat % 2 ^ 63 + 2 ^ 63] ∧
         t.m.trc.rd = s.m.trc.rd - 1 ∧ t.m.flag .TRC_STS_MARK_VALID 0 = false ∧
         t.m.fld .TRC_CNT_LOST 0 = (if s.m.trc.rd = 0 then (s.m.bump .TRC_CNT_LOST 0).fld .TRC_CNT_LOST 0
           else s.m.fld .TRC_CNT_LOST 0)) ∧
     (∀ e, RowTaken s (.trcGet e) → s.m.trc.words.length ≤ s.m.trc.rd → Completes (.trcGet e) s
       (s.m.emit (.regData .owner (regOff .owner .TRC_GET 0) (leBytes 8 0xE0)))) ∧
     (∀ w, RowTaken s (.trcGet .ok) → s.m.trc.words[s.m.trc.rd]? = some w → Completes (.trcGet .ok) s
       ((trcSync (trcTrim { s.m with trc := { s.m.trc with rd := s.m.trc.rd + 1 } })).emit
         (.regData .owner (regOff .owner .TRC_GET 0) (leBytes 8 w)))) ∧
     (∀ w, RowTaken s (.trcGet .corrected) → s.m.trc.words[s.m.trc.rd]? = some w → Completes (.trcGet .corrected) s
       (((trcSync (trcTrim { s.m with trc := { s.m.trc with rd := s.m.trc.rd + 1 } })).bump .TRC_CNT_CORR 0).emit
         (.regData .owner (regOff .owner .TRC_GET 0) (leBytes 8 w)))) ∧
     (∀ w, RowTaken s (.trcGet .uncorr) → s.m.trc.words[s.m.trc.rd]? = some w → Completes (.trcGet .uncorr) s
       ((fire s.inForce 0x0A0 s.m.trc.rd ((trcSync (trcTrim { s.m with trc := { s.m.trc with rd := s.m.trc.rd + 1 } })).bump
         .TRC_CNT_UNCORR 0)).emit (.regData .owner (regOff .owner .TRC_GET 0) (leBytes 8 0xE1)))) ∧
     (∀ v : BitVec 64, RowTaken s (.traceMark v) → v.toNat.testBit 0 = true → v.toNat.testBit 1 = false →
       let m := noteRsvd .owner .TRC_CTL 0 v.toNat s.m
       Completes (.traceMark v) s
         (({ m with trc := ⟨s.m.trc.words.drop s.m.trc.rd, 0⟩ } : M).setFlag .TRC_STS_MARK_VALID 0 true)) ∧
     (∀ v : BitVec 64, RowTaken s (.rewind v) → v.toNat.testBit 0 = false → v.toNat.testBit 1 = true →
       let m := noteRsvd .owner .TRC_CTL 0 v.toNat s.m
       (s.m.flag .TRC_STS_MARK_VALID 0 = true → Completes (.rewind v) s (trcSync { m with trc := { s.m.trc with rd := 0 } })) ∧
       (s.m.flag .TRC_STS_MARK_VALID 0 = false → Completes (.rewind v) s (m.setFlag .TRC_STS_MARK_LOST 0 true))) ∧
     (∀ v : BitVec 64, v.toNat.testBit 0 = true → v.toNat.testBit 1 = true →
       let m := setRsvd .owner bkTrc (regOff .owner .TRC_CTL 0) (noteRsvd .owner .TRC_CTL 0 v.toNat s.m)
       (RowTaken s (.traceMark v) → Completes (.traceMark v) s m) ∧ (RowTaken s (.rewind v) → Completes (.rewind v) s m)) ∧
     (Completes .tracePointerMismatch s (fire s.inForce 0x0A1 0
       ((trcSync (({ s.m with trc := ⟨[], 0⟩ } : M).setFlag .TRC_STS_MARK_VALID 0 false)).setFlag .TRC_STS_PTR_ERR 0 true))))

/-! ### Faults, block resets, temperature (15) -/

/-- One fault event (R359 to R362): it is severe exactly when COUNT reaches N; EVENTS and SEEN record it, COUNT starts
over after a severe one; the first event of an idle block is recorded whole, a later one is merged and leaves that
record. A window that ran out at the latest edge has ended first, and an event between the edge and its step 3 sees
the source aged by it (R57). -/
def Obligations.FaultEventCounts : Prop :=
  ∀ (im : Image) (f b info core : Nat) (ps : List Nat) (m : M),
    faultInst f = some b →
    let t := faultEvent im f info ps core false m
    let m0 := agedForEvent im f m
    let c := if m.tick.due.contains f then 0 else m0.fld .FLT_SRC_COUNT f
    let sev := decide ((faultEntry im f).n ≤ c + 1)
    (beforeStep3 m = false → m0 = m) ∧
    (beforeStep3 m = true → m.tick.aged.contains f = false → m.fld .FLT_SRC_COUNT f ≠ 0 →
      m0.fld .FLT_SRC_COUNT f =
        if (faultEntry im f).w ≤ m.fld .FLT_SRC_AGE f + 1 then 0 else m.fld .FLT_SRC_COUNT f) ∧
    t.fld .FLT_SRC_COUNT f = (if sev then 0 else min (c + 1) 255) ∧
    t.fld .FLT_SRC_EVENTS f = satAdd (fldSpec .FLT_SRC_EVENTS).w (m.fld .FLT_SRC_EVENTS f) 1 % 2 ^ (fldSpec .FLT_SRC_EVENTS).w ∧
    t.flag .FLT_STS_ACTIVE b = true ∧
    (m.flag .FLT_STS_ACTIVE b = false →
      t.fld .FLT_FIRST_A_SRC b = f % 2 ^ (fldSpec .FLT_FIRST_A_SRC).w ∧ t.flag .FLT_FIRST_A_SEVERE b = sev ∧
      t.fld .FLT_FIRST_B_INFO b = info % 2 ^ (fldSpec .FLT_FIRST_B_INFO).w) ∧
    (m.flag .FLT_STS_ACTIVE b = true →
      t.fld .FLT_FIRST_A_SRC b = m.fld .FLT_FIRST_A_SRC b ∧ t.fld .FLT_FIRST_B_INFO b = m.fld .FLT_FIRST_B_INFO b) ∧
    t = { m with f := t.f, tick := t.tick, irq := t.irq, cpus := t.cpus, pins := t.pins, out := t.out, react := t.react }

/-- Block resets (R9, R352, R368 to R370, R373, R380): a GO write resets the instance or is refused for one that has none;
it asserts QUIET for its duration and 64 cycles more, counts at each neighbour, and returns the fields whose Reset
cell holds B: those of the trace, the mailboxes, the interrupt controller and a core, with the FIFOs, the timers and
the messages that go with them; its end, once due, lets the block work again and performs the accesses that waited.
FAULT_INJECT (R277): outside factory test mode nothing; in it one event of the named source with INFO 0. Log entries
32 and 36, on which clauses rest, are the model's choice. -/
def Obligations.BlockResets : Prop :=
  (∀ (s : State),
     (∀ v : BitVec 64, let b := v.toNat % 256
       let m := noteRsvd .owner .PWR_BRESET 0 v.toNat s.m
       (v.toNat.testBit 8 = true → b ≤ 44 → noBlockReset b = false →
         Completes (.pwrBreset v) s (blockReset s.inForce b (v.toNat / 512 % 4) m)) ∧
       (v.toNat.testBit 8 = true → (44 < b ∨ noBlockReset b = true) →
         Completes (.pwrBreset v) s (m.setFlag .PWR_CTL_BRESET_REFUSED 0 true))) ∧
     (∀ (b : Fin 45) (c : Fin 4), let k := if b.val = 22 then c.val else 0
       (resetDone s.m b.val k = true → Completes (.blockResetEnd b c) s
         (releaseHeldRows s.inForce (resetOver s.inForce b.val k { s.m with brst := mapDel s.m.brst (b.val, k) }))) ∧
       (resetDone s.m b.val k = false → Completes (.blockResetEnd b c) s s.m)) ∧
     (∀ (im : Image) (b c : Nat) (m : M), m.inReset b c = false → (b ≠ 22 → c = 0) →
       ∃ m1, blockReset im b c m = resetEffect im b c m1 ∧ mapFind m1.brst (b, c) = some m.now ∧
         mapFind m1.quiet (b, c) = some (m.now + resetTime b + 64)) ∧
     (∀ (b c : Nat) (m : M) F i, (clearB b c m).fld F i =
       if (fldSpec F).b = true ∧ holdKey (fldSpec F).reg i = some (b, c) then rstVal F else m.fld F i) ∧
     (∀ (im : Image) (m : M) (b c : Nat), b = 26 ∨ b = 27 ∨ b = 28 ∨ (b = 22 ∧ c < 4) → (b ≠ 22 → c = 0) →
       let t := resetEffect im b c m
       (∀ F i, (fldSpec F).b = true → holdKey (fldSpec F).reg i = some (b, c) → t.fld F i = rstVal F) ∧
       t.evt = m.evt ∧
       (b = 28 → t.trc = ⟨[], 0⟩ ∧ t.flag .TRC_STS_MARK_VALID 0 = false) ∧
       (b = 27 → ∀ p d, t.mbxOf p d = Mbx.empty) ∧
       (b = 26 → t.irq.hold = [] ∧ t.irq.prov = [] ∧ (∀ p, (t.hostOf p).msgq = []) ∧ t.flag .IRQ_WCFG_LOST 0 = true ∧
         ∀ p ∈ im.enabledParts, t.flag .IRQ_CFG_LOST (pinst p 0) = true) ∧
       (b = 22 → t.cpu (wng c) = Cpu.init ∧ CpusKept m t (wng c)))) ∧
  (∀ (s : State) (b : Fin 45) (v : BitVec 64),
     (s.m.flag .SEC_STS_FACTORY_OPEN 0 = false → Completes (.faultInject b v) s s.m) ∧
     (∀ f, s.m.flag .SEC_STS_FACTORY_OPEN 0 = true → v.toNat.testBit 8 = true → f ≠ 0x016 →
       faultList.find? (fun f => faultInst f == some b.val && faultLocal f == v.toNat % 32) = some f →
       Completes (.faultInject b v) s (faultEvent s.inForce f 0 (faultParts s.inForce f (some 0) (some 0)) 0 false
         (noteRsvd .owner .FLT_INJECT b.val v.toNat s.m))))

/-- INTERFACE_TIMEOUT (R365, R370): a request unanswered for 131,072 sc, its block not quiet, raises the requester's
datapath error and is answered as a bus error, a load, a descriptor or cue read, a list read, an element or a status
writeback alike; the timer stands still while the block asserts QUIET; speculative work raises no error (R115); one
that is not outstanding, or not for so long, is none. Log entry 37, on which a clause rests, is the model's choice. -/
def Obligations.InterfaceTimeouts : Prop :=
  ∀ (s : State),
    let im := s.inForce
    (∀ k t b, mapFind s.m.asks k = some (t, b) → mapFind s.m.quiet (b, 0) = none →
      (overdue s.m k = true ↔ t + 131072 ≤ s.m.now)) ∧
    (∀ k t b q, mapFind s.m.asks k = some (t, b) → mapFind s.m.quiet (b, 0) = some q →
      (overdue s.m k = true ↔ t + 131072 ≤ s.m.now ∧ q < s.m.now)) ∧
    (∀ k t b n, mapFind s.m.asks k = some (t, b) → mapFind (standStill b n s.m).asks k = some (t + n, b)) ∧
    (∀ k, mapFind s.m.asks k = none → overdue s.m k = false) ∧
    (∀ (t : Fin 512) l, (s.m.cpu (thr t.val)).wait = .load l → (s.m.cpu (thr t.val)).loadDrop = 0 →
      loadAtHost s.m (.thread t) = false → overdue s.m (0, t.val) = true →
      Completes (.interfaceTimeout (.load (.thread t))) s
        (loadAns im (.thread t) .fabric (ifaceFault im 21 (t.val / 32) s.m))) ∧
    (∀ (c : Fin 4) l, (s.m.cpu (wng c.val)).wait = .load l → (s.m.cpu (wng c.val)).loadDrop = 0 →
      loadAtHost s.m (.core c) = false → overdue s.m (0, (Proc.core c).num) = true →
      Completes (.interfaceTimeout (.load (.core c))) s (loadAns im (.core c) .fabric (ifaceFault im 4 72 s.m))) ∧
    (∀ x : Proc, (s.m.cpu x.key).wait = .none → (s.m.cpu x.key).loadDrop = 0 →
      Completes (.interfaceTimeout (.load x)) s s.m) ∧
    (∀ x : Proc, overdue s.m (0, x.num) = false → Completes (.interfaceTimeout (.load x)) s s.m) ∧
    (∀ c : Fin 1024, (s.m.chan c.val).reading.isSome = true → overdue s.m (1, c.val) = true →
      Completes (.interfaceTimeout (.desc c)) s (opDescriptorRead im c.val .fabric (ifaceFault im 24 (c.val / 64) s.m))) ∧
    (∀ c : Fin 1024, overdue s.m (1, c.val) = false → Completes (.interfaceTimeout (.desc c)) s s.m) ∧
    (∀ t : Fin 512, fetchAtHost s.m t.val = false → overdue s.m (2, t.val) = true →
      Completes (.interfaceTimeout (.fetch t)) s
        (opCueFetchComplete im t.val .fabric .agree
          (if fetchSpec s.m t.val then s.m else ifaceFault im 21 (t.val / 32) s.m))) ∧
    (∀ t : Fin 512, overdue s.m (2, t.val) = false → Completes (.interfaceTimeout (.fetch t)) s s.m) ∧
    (∀ t : Fin 512, listAtHost s.m t.val = false → overdue s.m (3, t.val) = true →
      Completes (.interfaceTimeout (.ilist t)) s
        (opListComplete im t.val .fabric (if listSpec s.m t.val then s.m else ifaceFault im 21 (t.val / 32) s.m))) ∧
    (∀ t : Fin 512, overdue s.m (3, t.val) = false → Completes (.interfaceTimeout (.ilist t)) s s.m) ∧
    (∀ (e : Fin 16) (c : Fin 1024) d r y off, (s.m.chan c.val).descs = d :: r → overdue s.m (4 + e.val, off) = true →
      (d.wb = some (some off) → Completes (.interfaceTimeout (.elem e (.chan c) off)) s
        (opElementAnswer im e.val (.chan c) off (.wrote .fabric) (ifaceFault im 24 e.val s.m))) ∧
      (d.wb ≠ some (some off) → d.x.elems.find? (fun y => y.id == off) = some y → d.x.speculative s.m = false →
        (y.st = .reading → Completes (.interfaceTimeout (.elem e (.chan c) off)) s
          (ifaceFault im 24 e.val (opElementAnswer im e.val (.chan c) off (.read [.fabric]) s.m))) ∧
        (y.st = .writing → Completes (.interfaceTimeout (.elem e (.chan c) off)) s
          (ifaceFault im 24 e.val (opElementAnswer im e.val (.chan c) off (.wrote .fabric) s.m))))) ∧
    (∀ (e : Fin 16) (o : Fin 9) x l y off, s.m.queue e.val o.val = x :: l → overdue s.m (4 + e.val, off) = true →
      x.elems.find? (fun y => y.id == off) = some y → x.speculative s.m = true → y.st = .reading →
      Completes (.interfaceTimeout (.elem e (.queue o) off)) s
        (opElementAnswer im e.val (.queue o) off (.read [.fabric]) s.m)) ∧
    (∀ (e : Fin 16) q off, overdue s.m (4 + e.val, off) = false →
      Completes (.interfaceTimeout (.elem e q off)) s s.m)

/-- Temperature (R364, R367, R401, R404): readings become valid 1 ms after PORST_N; 105 °C warns once until 100 °C is
undercut; a trip latches THERMTRIP_N low, once; before the readings are valid and after; valid readings reach the
sensor's register, MAX and MAX_SENSOR. Log entry 38, on which a clause rests, is the model's choice. -/
def Obligations.Temperatures : Prop :=
  ∀ (s : State), s.m.boot.phase ≠ .porst →
    (∀ (k : Fin 16) (t : BitVec 16), 105 * 16 ≤ t.toInt → s.m.pins.warnArmed = true → s.m.flag .PWR_THERM_VALID 0 = false →
      Completes (.thermalWarning k t) s (fire s.inForce 0x002 (tempInfo k.val t.toNat)
        { s.m.setFlag .PWR_THERM_WARN 0 true with pins := { s.m.pins with warnArmed := false } })) ∧
    (∀ (k : Fin 16) (t : BitVec 16), s.m.pins.warnArmed = false → s.m.flag .PWR_THERM_VALID 0 = false →
      Completes (.thermalWarning k t) s s.m) ∧
    (∀ (k : Fin 16) (t : BitVec 16), 120 * 16 ≤ t.toInt → s.m.pins.thermTrip = false → s.m.flag .PWR_THERM_VALID 0 = false →
      let m := ({ s.m with pins := { s.m.pins with thermTrip := true } } : M).emit (.pin .thermtripN false)
      Completes (.thermalTrip k t) s (fire s.inForce 0x003 (tempInfo k.val t.toNat) (m.setFlag .PWR_THERM_TRIP 0 true))) ∧
    (∀ (k : Fin 16) (t : BitVec 16), s.m.flag .PWR_THERM_VALID 0 = true →
      let m := syncTherm (s.m.setFld (tempFld k.val) (k.val / 4) t.toNat)
      (105 * 16 ≤ t.toInt → s.m.pins.warnArmed = true → Completes (.thermalWarning k t) s
        (fire s.inForce 0x002 (tempInfo k.val t.toNat)
          { m.setFlag .PWR_THERM_WARN 0 true with pins := { m.pins with warnArmed := false } })) ∧
      (105 * 16 ≤ t.toInt → s.m.pins.warnArmed = false → Completes (.thermalWarning k t) s m)) ∧
    (∀ (k : Fin 16) (t : BitVec 16), 120 * 16 ≤ t.toInt → s.m.pins.thermTrip = false → s.m.flag .PWR_THERM_VALID 0 = true →
      let m := ({ s.m with pins := { s.m.pins with thermTrip := true } } : M).emit (.pin .thermtripN false)
      Completes (.thermalTrip k t) s (fire s.inForce 0x003 (tempInfo k.val t.toNat)
        ((syncTherm (m.setFld (tempFld k.val) (k.val / 4) t.toNat)).setFlag .PWR_THERM_TRIP 0 true))) ∧
    (∀ (k : Fin 16) (t : BitVec 16), s.m.pins.thermTrip = true → Completes (.thermalTrip k t) s s.m) ∧
    (∀ m : M, (∀ k, k < 16 → m.fld (tempFld k) (k / 4) < 2 ^ 16) →
      let t := syncTherm m
      let j := t.fld .PWR_THERM_MAX_SENSOR 0
      j < 16 ∧ t.fld .PWR_THERM_MAX 0 = m.fld (tempFld j) (j / 4) ∧
      ∀ k, k < 16 → sval 16 (m.fld (tempFld k) (k / 4)) ≤ sval 16 (t.fld .PWR_THERM_MAX 0)) ∧
    (∀ t : BitVec 16, t.toInt < 100 * 16 → Completes (.thermalWarningRearm t) s
      { s.m.setFlag .PWR_THERM_WARN 0 false with pins := { s.m.pins with warnArmed := true } }) ∧
    (∀ ts : List (BitVec 16), ts.length = 16 → s.m.boot.porAt + 2000000 ≤ s.m.now → ∃ m : M,
      Completes (.sensorReadingsValid ts) s (syncTherm (m.setFlag .PWR_THERM_VALID 0 true)) ∧
      (∀ k (h : k < ts.length), m.fld (tempFld k) (k / 4) = ts[k].toNat))

/-! ### Scripts and cues (04, 05) -/

/-- A script's way through threads and contexts (R71, R75, R76, R82, R99, R113, R143): the oldest queued script of its
partition starts on an idle thread of it; a script that is not running parks and comes back, or, its context lost,
ends with DATA_ERROR; a fetch reads the block's cues, and its answer hands them to the cue engine in order, as an
indirect entry's answer joins its list. Log entries 61, 88 and 123, on which clauses rest, are the model's choice. -/
def Obligations.ScriptsMove : Prop :=
  ∀ (s : State) (p : Fin 8) (tag : BitVec 32) (t : Fin 512) (x : Script),
    let im := s.inForce
    let n := 32 * fetchCount im s.m x.part
    let asked := s.m.setScript { x with fetching := true }
    (s.m.script p.val tag.toNat = some x → x.st = .queued → x.parked = none → nextDispatch s.m p.val = some tag.toNat →
      im.spindleOwner (t.val / 4) = p.val → threadIdle s.m t.val = true → s.m.inForce 0 p.val ≠ 0 →
      let m := { s.m with dispq := mapPut s.m.dispq (x.part, 0) ((dispQ s.m x.part).filter (fun u => u != x.tag)) }
      let m := wakeSpindle im t.val (m.bump .CUE_STATS_STARTED (pinst x.part 0))
      Completes (.scriptDispatch p tag t) s (addReact (.serve p.val) (goOn im x.part x.tag (m.setScript
        { x with st := .running, thread := some t.val, next := some (x.first, x.inl) })))) ∧
    (∀ c : Fin 65536, s.m.script p.val tag.toNat = some x → x.st ≠ .running → x.parked = none →
      s.m.scripts.any (fun e => e.2.parked == some c.val) = false →
      Completes (.scriptPark p tag c) s (addReact (.serve p.val)
        ((parkReads x s.m).2.setScript { (parkReads x s.m).1 with parked := some c.val, thread := none })) ∧
      (x.fetching = false → x.win.any (fun c => c.listOut) = false → parkReads x s.m = (x, s.m))) ∧
    (∀ c : Fin 65536, s.m.script p.val tag.toNat = some x → x.st = .running →
      Completes (.scriptPark p tag c) s s.m) ∧
    (∀ (ch : Fin 4) c, s.m.script p.val tag.toNat = some x → x.parked = some c → x.st = .waiting →
      im.spindleOwner (t.val / 4) = p.val → threadIdle s.m t.val = true →
      Completes (.contextRestore p tag t ch false) s (addReact (.serve p.val)
        (goOn im p.val tag.toNat ((wakeSpindle im t.val s.m).setScript { x with parked := none, thread := some t.val })))) ∧
    (∀ (ch : Fin 4) c, s.m.script p.val tag.toNat = some x → x.parked = some c → x.st = .waiting →
      ∃ e : Entry, e.status = 0x24 ∧ e.detail = 1 ∧ e.term = true ∧
        Completes (.contextRestore p tag t ch true) s (endScript im { x with dev := 0 } e
          (fireP im (0x0B3 + 8 * ch.val) (Config.infoPack (0x0B3 + 8 * ch.val) tag.toNat p.val) p.val s.m))) ∧
    (∀ a, s.m.scriptOn t.val = some x → x.next = some (a, false) → x.fetching = false → x.ahead = [] → x.halting = false →
      mayGrow x = true → spindleBudget s.m x.part = true → x.st ≠ .ended → a % 32 = 0 → Undisturbed s.m →
      winCheck im s.m x.part a 32 rScript = 0 → winPrefetch im s.m x.part a = true →
      (∀ y, winMap im s.m x.part a = some (.dram, y) → Completes (.cueFetch t) s
        (dramRead im (2, t.val) (clusterPort x) x.part x.part y (n a) asked)) ∧
      (∀ q y, winMap im s.m x.part a = some (.host q, y) → Completes (.cueFetch t) s
        (reqTlp q (.rd (.cues x.tag) y (n a) (n a)) asked))) ∧
    (∀ a b, s.m.scriptOn t.val = some x → x.next = some (a, false) → x.fetching = true → Undisturbed s.m →
      (s.m.cpu (thr t.val)).fetchDrop = 0 →
      Completes (.cueFetchComplete t (.data b) .agree) s (goOn im x.part x.tag
        ((dropPurp x.part (.cues x.tag) s.m).setScript { x with fetching := false, ahead := cueParts a b }))) ∧
    (∀ r, s.m.scriptOn t.val = some x → (s.m.cpu (thr t.val)).listDrop = 0 → x.win.any (fun c => c.listOut) = true →
      Completes (.indirectListReadComplete t r) s
        (goOn im x.part x.tag ((dropPurp x.part (.ilist x.tag) s.m).setScript { x with win := x.win.map (putEntry r) })))

/-- The cues (R68, R72, R87, R89 to R94, R101, R102, R104, R126, R410): a confirmed WRITE, READ, CONTROL, SENSE or RELAY
whose spaces are held takes one spindle cycle, posts its data work and queues its CMD frames; JUMP, NOP, MARK and
FENCE complete at once; the cue decoded behind a JUMP is the one at its target, behind any other the next in sequence;
a MARK posts one MARKER entry with its USER_TAG, and one without CC then ends with OK; a skip goes on one cue further,
every younger cue discarded; a squash discards the younger cues with their queued REHEARSE frames, strikes their
rehearsals and counts them; a script that ends keeps no cue, buffer, wait or request; WAIT completes when its latch or
event is set and consumes it, else waits for the edge that ends it; CALL starts its routine with the seven arguments
or ends NOT_CALLABLE; a granted allocation takes its units. Log entry 62, on which a clause rests, is the model's
choice. -/
def Obligations.CuesRun : Prop :=
  ∀ (s : State) (t : Fin 512) (x : Script) (c : PCue),
    let im := s.inForce
    let p := x.part
    let m1 := cueStep x s.m
    let u := spaceNeed im x c
    let y := if u = 0 then x else setHead x (fun c => { c with wunits := u })
    let d := if u = 0 then c else { c with wunits := u }
    let m0 := cueStep y (if u = 0 then s.m else s.m.stageTake p u)
    let device := fun (op : Nat) (i : Instr) => readyCue t.val op s.m = some (x, c) → x.run.begun = false →
      linkRefusal s.m c.cue = none → ungranted x = none → (u = 0 ∨ stageNow s.m p u = true) → c.rhs = none →
      (needsItem x c = false →
        let m2 := enqFrame (slotLink c.cue.slot) (.cmd p x.tag false) m0
        let m3 := (if c.cue.op = 5 then enqFrame (slotLink c.cue.dstSlot) (.cmd p x.tag true) m2 else m2).setScript
          { y with run := { y.run with begun := true } }
        m3.scriptOn t.val = some { y with run := { y.run with begun := true } } →
        Completes i s (settleQueue im x.cluster p m3)) ∧
      (needsItem x c = true → queueRoom im s.m x.cluster p = true → (cueXfer s.m p x.tag c.sn).isNone = true →
        (cueXfer m0 p x.tag c.sn).isNone = true → x.run.itemDone = false →
        let m2 := enqFrame (slotLink c.cue.slot) (.cmd p x.tag false)
          (postXfer x.cluster p (keptXfer y (groupXfer im m0 y y.head d)) m0)
        let m3 := (if c.cue.op = 5 then enqFrame (slotLink c.cue.dstSlot) (.cmd p x.tag true) m2 else m2).setScript
          { y with run := { y.run with kept := [], begun := true } }
        m3.scriptOn t.val = some { y with run := { y.run with kept := [], begun := true } } →
        Completes i s (settleQueue im x.cluster p m3))
    device 1 (.write t) ∧ device 2 (.read t) ∧ device 3 (.control t) ∧ device 4 (.sense t) ∧ device 5 (.relay t) ∧
    (readyCue t.val 8 s.m = some (x, c) → Completes (.jump t) s (completeCue im p x.tag 0 false m1)) ∧
    (readyCue t.val 9 s.m = some (x, c) → Completes (.nop t) s (completeCue im p x.tag 0 false m1)) ∧
    (readyCue t.val 12 s.m = some (x, c) → Completes (.mark t) s (completeCue im p x.tag 0 false m1)) ∧
    (readyCue t.val 13 s.m = some (x, c) → Completes (.fence t) s (completeCue im p x.tag 0 false m1)) ∧
    (readyCue t.val 10 s.m = some (x, c) →
      let arg := if c.cue.arg = 1 then c.cue.slot else bitsAt c.cue.w3 0 6
      (waitMet m1 p c.cue.arg arg = true →
        Completes (.wait t) s (completeCue im p x.tag 0 false (consume p c.cue.arg arg m1))) ∧
      (waitMet m1 p c.cue.arg arg = false →
        let m2 := m1.setScript { x with
          st := .waiting
          run := { x.run with begun := true }
          wait := .cue c.cue.arg arg c.cue.param (edgeCount m1) }
        Completes (.wait t) s { m2 with waits := m2.waits ++ [(p, x.tag)] })) ∧
    (∀ mode arg ticks start, s.m.scriptOn t.val = some x → x.wait = .cue mode arg ticks start → ticks ≠ 0 →
      start + ticks ≤ edgeCount s.m →
      (mode = 0 → Completes (.waitTicksExpire t) s (endWait im p x.tag false s.m)) ∧
      (mode ≠ 0 → Completes (.waitTimeout t) s (endWait im p x.tag true s.m))) ∧
    (readyCue t.val 11 s.m = some (x, c) → x.run.begun = false →
      (∀ q, im.routine c.cue.arg = some q → bitAt q.callers p = true → (s.m.cpu (thr t.val)).ready ≤ s.m.now →
        let m2 := m1.bump .SPN_RSTATS_CALLS (pinst p 0)
        let k : Cpu := ((((((({ Cpu.init with
          rout := some ⟨q.index, p, x.tag, 0, 0, edgeCount m2, none⟩
          ready := m2.now
          loadDrop := (m2.cpu (thr t.val)).loadDrop
          fetchDrop := (m2.cpu (thr t.val)).fetchDrop
          listDrop := (m2.cpu (thr t.val)).listDrop } : Cpu).setG 1 (.ofNat 64 c.cue.w1)).setG 2 (.ofNat 64 c.cue.slot)).setG 3 (.ofNat 64 c.cue.param)).setG 4
          (.ofNat 64 c.cue.w3)).setG 5 (.ofNat 64 x.tag)).setG 6 (.ofNat 64 p)).setG 7
          (.ofNat 64 (c.ptr + if c.inl then 2 ^ 63 else 0))
        Completes (.call t) s ((m2.setCpu (thr t.val) k).setScript { x with run := { x.run with begun := true } })) ∧
      (im.routine c.cue.arg = none → Completes (.call t) s (endScript im x (failEntry x c 0x26 4) m1))) ∧
    (∀ (q : Fin 8) w, s.m.bud.stageq.find? (fun w => w.part == q.val) = some w → s.m.stageFits q.val w.units = true →
      s.m.script q.val w.tag = some x → let m2 := s.m.stageTake q.val w.units
      let m3 : M := { m2 with bud := { m2.bud with stageq := m2.bud.stageq.erase w } }
      Completes (.stageGrant q) s (grantTo x w m3) ∧
      (∀ k, w.buf = none → x.st = .waiting → x.wait = .stage k → grantTo x w m3 =
        m3.setScript { setHead x (fun c => { c with wunits := w.units }) with st := .running, wait := .nothing })) ∧
    (∀ (q : Fin 8) w, s.m.bud.stageq.find? (fun w => w.part == q.val) = some w → s.m.stageFits q.val w.units = false →
      Completes (.stageGrant q) s s.m) ∧
    (∀ im m y ptr inl cue chk, (addCue im ptr inl cue chk y m).1.next =
      some (if cue.op = 8 then (cue.w3, false) else if inl = true then (ptr + 1, true) else (ptr + 32, false))) ∧
    (∀ m w, m.script p x.tag = some x → x.win = c :: w → c.cue.op = 12 → c.cue.cd = false → x.run.cleared = false →
      let y : Script := { x with skipped := false, run := default, win := { c with wunits := 0 } :: w }
      let e := mkEntry y 0x01 0 0 c.ptr c.cue.userTag c.inl false
      let r := postEntry im p e (discardXfer p x.tag c.sn (m.stageFree p c.wunits))
      r.1 = false →
      (c.cue.cc = true → x.halting = false → completeCue im p x.tag 0 false m =
        goOn im p x.tag (r.2.setScript { y with side := false, done := none, win := w, st := .running, wait := .nothing })) ∧
      (c.cue.cc = false → completeCue im p x.tag 0 false m =
        endScript im y (mkEntry y 0x00 0 0 c.ptr c.cue.userTag c.inl true) r.2)) ∧
    (∀ m w n, m.script p x.tag = some x → x.win = c :: w → c.cue.isLast = false → c.cue.cd = false → c.cue.op ≠ 12 →
      c.cue.post = false → x.halting = false → x.run.cleared = false → c.inl = false →
      let y : Script := { x with skipped := true, run := default, side := false, done := none, win := { c with wunits := 0 } :: w }
      let q := squash 1 y (discardXfer p x.tag c.sn (m.stageFree p c.wunits))
      completeCue im p x.tag n true m = goOn im p x.tag ((q.2.bump .SPC_SQUASH_REFETCH (pinst p 0)).setScript { q.1 with
        win := [], next := some (if c.cue.op = 8 then c.cue.w3 + 32 else c.ptr + 64, false), st := .running, wait := .nothing })) ∧
    (∀ k (y : Script) m, let t := squash k y m
      let i := pinst y.part 0
      t.1.win = y.win.take k ∧ t.1.ahead = [] ∧ t.1.fetching = false ∧ t.1.next = y.next ∧
      (y.win.length ≤ k → t.2.f = m.f) ∧
      (k < y.win.length → t.2.fld .SPC_CUES_DISCARDED i =
          (m.bumpN .SPC_CUES_DISCARDED i (y.win.length - k)).fld .SPC_CUES_DISCARDED i ∧
        t.2.fld .SPC_SQUASH_SQUASHES i = (m.bump .SPC_SQUASH_SQUASHES i).fld .SPC_SQUASH_SQUASHES i) ∧
      (∀ d ∈ y.win.drop k, d.rq = true → .rehearse y.part y.tag d.sn ∉ (t.2.link (slotLink d.cue.slot)).cmdq) ∧
      (∀ d ∈ y.win.drop k, ∀ n r, d.rhs = some n → m.rh (slotLink d.cue.slot) n = some r →
        ∃ r', t.2.rh (slotLink d.cue.slot) n = some r' ∧ r'.st = .striking ∧ r'.hold = 0 ∧ r'.data = [])) ∧
    (∀ e (y : Script) m, let t := endScript im y e m
      (∃ z, t.script y.part y.tag = some z ∧ z.st = .ended ∧ z.win = [] ∧ z.next = none ∧ z.bufs = [] ∧ z.thread = none) ∧
      (∀ w ∈ t.bud.stageq, ¬(w.part = y.part ∧ w.tag = y.tag)) ∧ (y.part, y.tag) ∉ t.waits) ∧
    (∀ (q : Fin 8) (bits : BitVec 64), im.enabled q.val = true → barOpen im s.m q.val = true →
      let old := s.m.fld .CUE_EVENT_EVENT (pinst q.val 0)
      Completes (.cueEvent q bits) s
        (wakeWaits im q.val ((hostTlp q.val s.m).setFld .CUE_EVENT_EVENT (pinst q.val 0) (old ||| bits.toNat))))

/-! ### Rings (06) -/

/-- Rings (R137, R142, R144, R145, R147, R153, R154, R157, R158, R412): the enable checks every ring in order and refuses
with the first reason; a doorbell in range moves TAIL or HEAD and lets the rings be served, one out of range only sets
its error bit and fires; a write of the inline window marks it; an answer joins the copies, an error of a read with
published units stops the ring and one beyond TAIL only loses its copies, a completion timeout counting at the port as
well; an entry that the port can take is written. -/
def Obligations.RingsRun : Prop :=
  ∀ (s : State) (p : Fin 8) (r : BitVec 16),
    let im := s.inForce
    let n := r.toNat
    let i := pinst p.val n
    let size := 2 ^ s.m.fld .RNG_CFG_B_SIZE_LOG2 i
    let x := s.m.ring p.val n
    let m := hostTlp p.val s.m
    (barOpen im s.m p.val = true → im.enabled p.val = true → s.m.flag .RNG_ENABLE_ENABLED (pinst p.val 0) = false →
      ((∀ k, k < im.partN p.val (·.ringCount) → ringReason im s.m p.val k = 0) →
        Completes (.ringEnable p) s (m.setFlag .RNG_ENABLE_ENABLED (pinst p.val 0) true)) ∧
      (∀ k, k < im.partN p.val (·.ringCount) → ringReason im s.m p.val k ≠ 0 → (∀ j, j < k → ringReason im s.m p.val j = 0) →
        Completes (.ringEnable p) s (((m.setFlag .RNG_ENABLE_REFUSED (pinst p.val 0) true).setFld .RNG_ENABLE_REASON
          (pinst p.val 0) (ringReason im s.m p.val k)).setFld .RNG_ENABLE_RING (pinst p.val 0) k))) ∧
    (∀ v : BitVec 64, barOpen im s.m p.val = true → n < im.partN p.val (·.ringCount) → ringLive im s.m p.val n = false →
      v.toNat / 2 ^ 16 % 2 ^ 47 = 0 →
      Completes (.doorbell p r v) s (m.bump .RNG_CNT_A_DB_IGNORED (pinst p.val 0)) ∧
      Completes (.statusHeadDoorbell p r v) s (m.bump .RNG_CNT_A_DB_IGNORED (pinst p.val 0))) ∧
    (∀ v : BitVec 64, barOpen im s.m p.val = true → ringLive im s.m p.val n = true → ringKind s.m p.val n = 1 →
      v.toNat / 2 ^ 16 % 2 ^ 47 = 0 →
      let t := v.toNat % 2 ^ 16
      (size ≤ t → Completes (.doorbell p r v) s
        (fireP im (0x030 + 4 * portOf im p.val) n p.val (m.setFlag .RNG_STS_DB_ERR i true))) ∧
      (t < size → s.m.fld .RNG_STS_TAIL i < t → v.toNat.testBit 63 = false → Completes (.doorbell p r v) s
        (serve im p.val ((m.setRing p.val n { x with blocked := false }).setFld .RNG_STS_TAIL i t)))) ∧
    (∀ v : BitVec 64, barOpen im s.m p.val = true → ringLive im s.m p.val n = true → ringKind s.m p.val n = 2 →
      v.toNat / 2 ^ 16 % 2 ^ 47 = 0 → v.toNat.testBit 63 = false →
      let h := v.toNat % 2 ^ 16
      let d := (h + size - s.m.fld .RNG_STS_HEAD i) % size
      (size ≤ h ∨ h % 2 = 1 ∨ x.used < d → Completes (.statusHeadDoorbell p r v) s
        (fireP im (0x031 + 4 * portOf im p.val) n p.val (m.setFlag .RNG_STS_HEAD_ERR i true))) ∧
      (h < size → h % 2 = 0 → d ≤ x.used → x.held = [] → Completes (.statusHeadDoorbell p r v) s
        (serve im p.val (syncHeld p.val n (irqSync im p.val (ringSrc n)
          ((m.setFld .RNG_STS_HEAD i h).setRing p.val n { x with used := x.used - d })))))) ∧
    (∀ off d, barOpen im s.m p.val = true → d.length ∈ [4, 8, 16, 32, 64] → off % d.length = 0 → off + d.length ≤ 64 →
      n < im.partN p.val (·.ringCount) →
      (ringLive im s.m p.val n = true → Completes (.inlineWindowWrite p r off d) s (m.setRing p.val n
        { x with mark := true, win := bytesAt x.win 0 off ++ d ++ x.win.drop (off + d.length) })) ∧
      (ringLive im s.m p.val n = false → Completes (.inlineWindowWrite p r off d) s
        (m.bump .RNG_CNT_A_DB_IGNORED (pinst p.val 0)))) ∧
    (∀ (u : BitVec 16) k e f, x.fetch = some (u.toNat, k, e, f) →
      let counted := fun (b : RdRes) => if b = .timeout then s.m.bump .HPT_CNT_CPL_TIMEOUT (pinst p.val 0) else s.m
      (∀ b, Completes (.requestFetchComplete p r u (.data b)) s (ringAnswer im p.val n (.data b) (dropPurp p.val (.ring n) s.m))) ∧
      (∀ b, (∀ d, b ≠ .data d) → u.toNat < e → Completes (.requestFetchComplete p r u b) s
        (((dropPurp p.val (.ring n) (counted b)).setRing p.val n { x with fetch := none, blocked := true, pre := [] }).setFlag
          .RNG_STS_FETCH_ERR i true)) ∧
      (∀ b, (∀ d, b ≠ .data d) → e ≤ u.toNat → Completes (.requestFetchComplete p r u b) s
        (serve im p.val ((dropPurp p.val (.ring n) (counted b)).setRing p.val n { x with fetch := none })))) ∧
    (∀ e t, entryReady s.m p.val = true → x.staged = e :: t →
      Completes (.statusEntryWrite p r) s (writeWake im p.val n e (s.m.setRing p.val n { x with staged := t }))) ∧
    (entryReady s.m p.val = false → Completes (.statusEntryWrite p r) s s.m)

/-! ### Movers (07) -/

/-- Channels (R163, R168, R170 to R175): START begins a run at HEAD from IDLE, records KICK while RUNNING and counts as
missed otherwise; STOP records CH_ERR 1 and stops; CLEAR returns to IDLE; two actions in one write only set RSVD_WR;
MOV_LIST and MOV_CFG take a value whole or refuse it; a due trigger fires or is counted as missed; a descriptor that
arrives is taken up, one that fails stops the channel. -/
def Obligations.ChannelsRun : Prop :=
  ∀ (s : State) (v : View) (c : Fin 1024) (x : BitVec 64),
    let im := s.inForce
    let n := c.val
    let st := s.m.fld .MOV_STS_STATE n
    let a := x.toNat % 8
    let start := touchRow im (.movStart v c x) s.m
    let stop := touchRow im (.movStop v c x) s.m
    let clear := touchRow im (.movClear v c x) s.m
    let list := touchRow im (.movCfgWrite v c true x) s.m
    let cfg := touchRow im (.movCfgWrite v c false x) s.m
    chanSeen im v n = true →
    (RowTaken s (.movStart v c x) → x.toNat / 8 % 2 ^ 29 = 0 → x.toNat / 2 ^ 52 = 0 →
      (a = 1 → st = 0 → Completes (.movStart v c x) s (startRun im n (x.toNat / 2 ^ 32 % 2 ^ 20) start)) ∧
      (a = 1 → st = 1 → Completes (.movStart v c x) s (start.setFlag .MOV_STS_KICK n true)) ∧
      (a = 1 → 2 ≤ st → Completes (.movStart v c x) s (start.bump .MOV_CNT_TRIG_MISSED n)) ∧
      (a ∈ [3, 5, 6, 7] → Completes (.movStart v c x) s (setRsvd v bkMov (chanOff v n 0x10) start))) ∧
    (RowTaken s (.movStop v c x) → x.toNat / 8 % 2 ^ 29 = 0 → x.toNat / 2 ^ 52 = 0 → a = 2 →
      (st = 1 → Completes (.movStop v c x) s (settleChan im n (stopChannel im n 1 stop))) ∧
      (st ≠ 1 → Completes (.movStop v c x) s stop)) ∧
    (RowTaken s (.movClear v c x) → x.toNat / 8 % 2 ^ 29 = 0 → x.toNat / 2 ^ 52 = 0 → a = 4 →
      (st = 3 → Completes (.movClear v c x) s
        (irqSync im (im.chanOwner n) (2 * n + 1) (((clear.setFld .MOV_STS_CH_ERR n 0).setFld .MOV_STS_CUR n
          (s.m.fld .MOV_LAST_INDEX n)).setFld .MOV_STS_STATE n 0))) ∧
      (st ≠ 3 → Completes (.movClear v c x) s clear)) ∧
    (RowTaken s (.movCfgWrite v c true x) → x.toNat.testBit 4 = false →
      (st = 1 ∨ st = 2 → Completes (.movCfgWrite v c true x) s (list.setFlag .MOV_STS_CFG_REFUSED n true)) ∧
      (st = 0 ∨ st = 3 → Completes (.movCfgWrite v c true x) s
        ((list.setFld .MOV_LIST_LSPACE n x.toNat).setFld .MOV_LIST_LIST_BASE n (x.toNat / 32)))) ∧
    (RowTaken s (.movCfgWrite v c false x) → x.toNat / 8 % 32 = 0 → x.toNat / 2 ^ 18 % 64 = 0 →
      (cfgRefused im s.m n false x.toNat = true → Completes (.movCfgWrite v c false x) s
        (cfg.setFlag .MOV_STS_CFG_REFUSED n true)) ∧
      (cfgRefused im s.m n false x.toNat = false → s.m.flag .MOV_CFG_ARM n = true → im.chanOwner n ≠ 8 →
        Completes (.movCfgWrite v c false x) s (((((cfg.setFld .MOV_CFG_TRIG n x.toNat).setFld .MOV_CFG_ARM n (x.toNat / 4)).setFld
          .MOV_CFG_CHAIN_SRC n (x.toNat / 2 ^ 8)).setFld .MOV_CFG_PERIOD n (x.toNat / 2 ^ 24)).setFld
          .MOV_CFG_TRIG_HEAD n (x.toNat / 2 ^ 44))) ∧
      (cfgRefused im s.m n false x.toNat = false → s.m.flag .MOV_CFG_ARM n = false → x.toNat.testBit 2 = true →
        ∃ t, exec (.movCfgWrite v c false x) s = .next t ∧
          (s.m.react = [] → (t.m.chan n).trigFrom = edgeCount s.m ∧ (t.m.chan n).armedAt = s.m.now))) ∧
    (let period := s.m.fld .MOV_CFG_PERIOD n
     s.m.flag .MOV_CFG_ARM n = true → period ≠ 0 →
      (s.m.fld .MOV_CFG_TRIG n = 1 → (s.m.chan n).trigFrom + period ≤ s.m.fld .TCK_COUNT_COUNT 0 → Completes (.tickTrigger c) s
        (fireTrigger im n (s.m.setChan n { s.m.chan n with trigFrom := (s.m.chan n).trigFrom + period }))) ∧
      (s.m.fld .MOV_CFG_TRIG n = 2 → (s.m.chan n).armedAt + 64 * period ≤ s.m.now → Completes (.timerTrigger c) s
        (fireTrigger im n (s.m.setChan n { s.m.chan n with armedAt := (s.m.chan n).armedAt + 64 * period })))) ∧
    (∀ i, (s.m.chan n).reading = some i → st = 1 →
      let m := if asPart im s.m n = 8 then s.m else dropPurp (asPart im s.m n) (.desc n) s.m
      let idle := m.setChan n { m.chan n with reading := none, reread := false }
      (∀ b, Completes (.descriptorRead c (.data b)) s (takeDesc im n i b m)) ∧
      (∀ b, (m.chan n).reread = false → (m.chan n).descs ≠ [] → (leAt (descData m n i 32 b) 0 8).testBit 11 = true →
        takeDesc im n i b m = m.setChan n { m.chan n with
          reading := none
          descs := (m.chan n).descs.map (fun a => { a with moved := false, fence := true }) }) ∧
      (Completes (.descriptorRead c .dram) s (settleChan im n (stopChannel im n 5 idle))) ∧
      (Completes (.descriptorRead c .fabric) s (settleChan im n (stopChannel im n 4 idle))))

/-- Elements (R59, R160, R161, R169, R176, R177, R181): an element of two places in the stage buffer copies exactly its
bytes and ends at the next 256-byte boundary of its destination or the end of the work; the engine serves the
requester whose turn it is, and an answer goes to its element. -/
def Obligations.ElementsMove : Prop :=
  (∀ (im : Image) (e q : Nat) (x : Xfer) (m : M) (a b len : Nat),
    x.src = [⟨.ownerStage, a, len⟩] → x.dst = [⟨.ownerStage, b, len⟩] → x.stopped = false → x.err = 0 → x.pos < len →
    x.total = len → x.avail = len → x.owner = 8 → x.late = [] → (∀ y ∈ x.elems, y.off ≤ x.pos) →
    let n := min (256 - (b + x.pos) % 256) (len - x.pos)
    ∃ z y t, nextElem m x = some z ∧ startElem im e q ⟨.ok, false, false⟩ x z m = (y, t) ∧ y.pos = x.pos + n ∧
      y.elems.getLast? = some ⟨mapGet 0 m.eng (e, 2), x.pos, n, .ok, []⟩ ∧
      memRead t.stage (b + x.pos) n = memRead m.stage (a + x.pos) n ∧
      (∀ z, z < b + x.pos ∨ b + x.pos + n ≤ z → memGet t.stage z = memGet m.stage z) ∧
      t = { m with stage := t.stage, eng := t.eng, bud := t.bud }) ∧
  (∀ (s : State) (e : Fin 16) (q : Req) (ends : ElemEnds),
    let im := s.inForce
    let served := fun (q : Req) => noteServed im e.val q s.m
    let heard := fun (q off : Nat) => dropElem e.val q off { s.m with asks := mapDel s.m.asks (4 + e.val, off) }
    (s.m.inReset 24 0 = true → Completes (.moverElement e ⟨q, ends⟩) s s.m) ∧
    (s.m.inReset 24 0 = false → pickReq im s.m e.val ≠ some q → Completes (.moverElement e ⟨q, ends⟩) s s.m) ∧
    (∀ c, s.m.inReset 24 0 = false → pickReq im s.m e.val = some (.chan c) →
      Completes (.moverElement e ⟨.chan c, ends⟩) s (startChan im c.val ends (served (.chan c)))) ∧
    (∀ o a x b t, s.m.inReset 24 0 = false → pickReq im s.m e.val = some (.queue o) →
      queueStart (served (.queue o)) ((served (.queue o)).queue e.val o.val) = some ((a, x, b), t) →
      let y := startElem im e.val (4096 + o.val) ends x t (served (.queue o))
      Completes (.moverElement e ⟨.queue o, ends⟩) s
        (settleQueue im e.val o.val (y.2.setQueue e.val o.val (a ++ y.1 :: b)))) ∧
    (∀ c : Fin 1024, ∀ off d, let m := heard c.val off
      chanDrains im m c.val = false → (m.chan c.val).descs.find? (fun r => r.wb == some (some off)) = some d →
      Completes (.elementAnswer e (.chan c) off (.wrote .ok)) s (settleChan im c.val (retireDesc im c.val d (wbStage c.val d m))) ∧
      (∀ w, w ≠ .ok → Completes (.elementAnswer e (.chan c) off (.wrote w)) s (settleChan im c.val (wbFail im c.val 6 d m)))) ∧
    (∀ (o : Fin 9) off a x, let m := heard (4096 + o.val) off
      m.queue e.val o.val = [x] → let y := answerElem im e.val x off a m
      Completes (.elementAnswer e (.queue o) off a) s (settleQueue im e.val o.val (y.2.setQueue e.val o.val [y.1]))) ∧
    (∀ (o : Fin 9) id r x, let m := (List.range 8).foldl (fun m p => dropPurp p (.flush e.val (4096 + o.val) id) m) s.m
      m.queue e.val o.val = [x] → x.flush = 2 →
      Completes (.flushReadComplete e (.queue o) ⟨id, r⟩) s
        (settleQueue im e.val o.val (m.setQueue e.val o.val [answerFlush id r x]))))

/-! ### Links (09) -/

/-- The states of a link (R29, R217 to R219, R222 to R224, R228, R240, R254): DISABLE takes a link down and its end lets
it wait; RETRY_NOW and an ended backoff start an attempt on a clocked, calibrated octet; a lane that is powered down
receives no training block; each limit of time takes the link to WAIT with its own cause and not before; a calibration
that succeeds makes the octet ready, its waiting links without backoff, and one that fails records its cause; a line
fault is recorded on its lane, and on an active lane the link trains again. Log entries 71, 72, 74, 113 and 117, on
which clauses rest, are the model's choice. -/
def Obligations.LinkStatesMove : Prop :=
  ∀ (s : State) (l : Fin 96),
    let im := s.inForce
    let st := s.m.linkState l.val
    let since := (s.m.link l.val).since
    (isLink im l.val = true →
      (RowTaken s (.disable l true) → st ≠ lsDisabled → st ≠ lsOff → Completes (.disable l true) s
        (leaveTo im l.val lsDisabled 13 false (s.m.setFlag .LNK_CTL_DISABLE l.val true))) ∧
      (RowTaken s (.disable l false) → st = lsDisabled → let m := s.m.setFlag .LNK_CTL_DISABLE l.val false
        Completes (.disable l false) s (zeroBackoff l.val (enterState l.val lsWait (m.fld .LNK_STS_LAST_CAUSE l.val) m))) ∧
      (RowTaken s (.retryNow l) → st = lsWait → octetReady s.m (l.val / 8) = true → Completes (.retryNow l) s
        (toDetect im l.val (s.m.setFlag .LNK_CTL_RETRY_NOW l.val true)))) ∧
    (st = lsWait → octetReady s.m (l.val / 8) = true → (s.m.link l.val).retryAt ≤ s.m.now →
      Completes (.backoffExpire l) s (toDetect im l.val s.m)) ∧
    (st = lsWait → s.m.now < (s.m.link l.val).retryAt → s.m.flag .LNK_CTL_RETRY_NOW l.val = false →
      Completes (.backoffExpire l) s s.m) ∧
    (∀ term : BitVec 8, st = lsDetect → (∀ k, k < im.linkWidth l.val → term.getLsbD k = false) →
      Completes (.receiverDetect l term) s s.m) ∧
    (∀ term : BitVec 8, st = lsDetect → im.linkWidth l.val = 1 → term.getLsbD 0 = true →
      let m := enterState l.val lsTrain 0 s.m
      let m1 := (if s.m.flag .PWR_CTL_HUSH_ACTIVE 0 = true then
        m.setLink l.val { m.link l.val with lanesAt := s.m.now + 20000 } else m).setFld .LNK_LANE_PRESET l.val 5
      let m2 := m1.setLink l.val { m1.link l.val with trn := [{ (default : LaneTr) with term := true }], cutWidth := 1 }
      Completes (.receiverDetect l term) s (sendTrain im l.val 0 1 0 0 m2)) ∧
    (∀ (lane : Fin 8) x, st ≠ lsTrain → st ≠ lsRetrain → Completes (.trainingBlock l lane x) s s.m) ∧
    (∀ (lane : Fin 8) (x : BitVec 256), st = lsTrain → (s.m.now < (s.m.link l.val).lanesAt ∨ pmaDown s.m l.val lane.val = true) →
      Completes (.trainingBlock l lane x) s s.m) ∧
    (∀ (lane : Fin 8) (x : BitVec 256), st = lsTrain → pmaDown s.m l.val lane.val = false → lane.val < im.linkWidth l.val → laneState s.m (l.val + lane.val) ≤ 1 →
      1 ≤ x.toNat / 2 ^ 24 % 8 → x.toNat / 2 ^ 24 % 8 ≤ 5 → x.toNat % 65536 = 0x4E4C →
      Completes (.trainingBlock l lane x) s (trainBlock im l.val lane.val x.toNat false s.m)) ∧
    (st = lsTrain → since + 20 * 2000000 ≤ s.m.now →
      (crossedNow im s.m l.val = true → Completes (.crossed l) s
        ((cutLanes im l.val).foldl (fun m k => setLane l.val k 4 m) (leaveTo im l.val lsWait 2 false s.m))) ∧
      (crossedNow im s.m l.val = false → noLanes im s.m l.val = false →
        Completes (.trainTimeout l) s (leaveTo im l.val lsWait 1 false s.m)) ∧
      (crossedNow im s.m l.val = false → noLanes im s.m l.val = true →
        Completes (.trainTimeout l) s (leaveTo im l.val lsWait 15 false s.m))) ∧
    (st = lsTrain → s.m.now < since + 20 * 2000000 → Completes (.trainTimeout l) s s.m ∧ Completes (.crossed l) s s.m) ∧
    (st = lsRetrain → since + 2 * 2000000 ≤ s.m.now → noLanes im s.m l.val = false →
      Completes (.retrainTimeout l) s (leaveTo im l.val lsWait 10 false s.m)) ∧
    (st = lsRetrain → s.m.now < since + 2 * 2000000 → Completes (.retrainTimeout l) s s.m) ∧
    (st = lsHand → since + 50 * 2000000 ≤ s.m.now → Completes (.authTimeout l) s (linkDown im l.val 4 s.m)) ∧
    (st = lsHand → s.m.now < since + 50 * 2000000 → Completes (.authTimeout l) s s.m) ∧
    (st = lsActive → (s.m.link l.val).lastRx + 200000 ≤ s.m.now → Completes (.keepaliveLost l) s (linkDown im l.val 8 s.m)) ∧
    (st = lsActive → s.m.now < (s.m.link l.val).lastRx + 200000 → Completes (.keepaliveLost l) s s.m) ∧
    (st = lsActive → (s.m.link l.val).keyLimit ≤ s.m.fld .LNK_STS_TX_GROUPS l.val →
      Completes (.rekeyOverdue l) s (leaveTo im l.val lsWait 9 false s.m)) ∧
    (st = lsActive → s.m.fld .LNK_STS_TX_GROUPS l.val < (s.m.link l.val).keyLimit →
      ((s.m.link l.val).keyLimit ≤ (s.m.link l.val).rxGroups → Completes (.rekeyOverdue l) s (linkDown im l.val 9 s.m)) ∧
      ((s.m.link l.val).rxGroups < (s.m.link l.val).keyLimit → Completes (.rekeyOverdue l) s s.m)) ∧
    (RowTaken s (.rewiden l) → (st = lsActive → Completes (.rewiden l) s
        (toRetrain im l.val true (s.m.setFlag .LNK_CTL_REWIDEN l.val true))) ∧
      (st ≠ lsActive → Completes (.rewiden l) s s.m)) ∧
    (RowTaken s (.rekeyNow l) → s.m.flag .LNK_CTL_REKEY_NOW l.val = true → Completes (.rekeyNow l) s
      (s.m.askAgain .LNK_CTL_REKEY_NOW l.val)) ∧
    (RowTaken s (.rekeyNow l) → s.m.flag .LNK_CTL_REKEY_NOW l.val = false → (st = lsActive → Completes (.rekeyNow l) s
        (startRekey l.val (s.m.setFlag .LNK_CTL_REKEY_NOW l.val true))) ∧
      (st ≠ lsActive → Completes (.rekeyNow l) s s.m)) ∧
    (2 ^ im.rekeyLog2 - 2 ^ 16 ≤ s.m.fld .LNK_STS_TX_GROUPS l.val → Completes (.rekeyThreshold l) s (startRekey l.val s.m)) ∧
    (∀ (lane : Fin 96), im.linkOfLane lane.val = some l.val → laneState s.m lane.val ≤ 1 → st = lsActive →
      let user := l.val + rxLane im s.m l.val (lane.val - l.val)
      (laneActive s.m user = true →
        Completes (.noSignal lane) s (setLane l.val lane.val 3 (toRetrain im l.val false s.m)) ∧
        Completes (.noisy lane) s (setLane l.val lane.val 6 (toRetrain im l.val false s.m)) ∧
        Completes (.blockLockLost lane) s (toRetrain im l.val false s.m)) ∧
      (laneActive s.m user = false →
        Completes (.noSignal lane) s (setLane l.val lane.val 3 s.m) ∧
        Completes (.noisy lane) s (setLane l.val lane.val 6 s.m) ∧ Completes (.blockLockLost lane) s s.m) ∧
      (laneActive s.m lane.val = true → Completes (.short lane) s (setLane l.val lane.val 5 (toRetrain im l.val false s.m))) ∧
      (laneActive s.m lane.val = false → Completes (.short lane) s (setLane l.val lane.val 5 s.m))) ∧
    (∀ (o : Fin 12), s.m.flag .LNK_OCT_STS_HOLDS_LINK o.val = true →
      (RowTaken s (.cal o) → s.m.flag .LNK_OCT_STS_CALIBRATING o.val = false → s.m.flag .LNK_OCT_STS_CAL_DONE o.val = false →
        Completes (.cal o) s ((((s.m.setFlag .LNK_OCT_CTL_CAL o.val true).setFlag .LNK_OCT_STS_CALIBRATING o.val true).setFlag
          .LNK_OCT_STS_CAL_FAIL o.val false).setFld .LNK_OCT_STS_FAIL_CAUSE o.val 0)) ∧
      (s.m.flag .LNK_OCT_STS_CALIBRATING o.val = true → ∀ c : Fin 4,
        let t := opCalDone im o.val c.val s.m
        let cause := if bitAt s.m.pins.onAbsent o.val = true then 1
          else if bitAt s.m.pins.calBad (o.val / 6) = true ∧ c.val = 0 then 3 else c.val
        Completes (.calComplete o c) s t ∧
        (cause ≠ 0 → s.m.askedAgain .LNK_OCT_CTL_CAL o.val = false →
          t.fld .LNK_OCT_STS_FAIL_CAUSE o.val = cause ∧ t.flag .LNK_OCT_STS_CAL_FAIL o.val = true ∧
          t.flag .LNK_OCT_STS_CALIBRATING o.val = false) ∧
        (cause = 0 → t.flag .LNK_OCT_STS_CAL_DONE o.val = true ∧ t.flag .LNK_OCT_STS_CALIBRATING o.val = false ∧
          t.flag .LNK_OCT_CTL_CAL o.val = false ∧ octetReady t o.val = true ∧
          (∀ j ∈ im.linksOfOctet o.val, s.m.linkState j = lsWait → (t.link j).retryAt = s.m.now ∧ (t.link j).backoff = 1) ∧
          (octReady im s.m = false → octReady im t = true → s.m.fld .IMG_BOOT_STS_LAST_STEP 0 < 9 →
            t.fld .IMG_BOOT_STS_LAST_STEP 0 = 8))))

/-- What a flit is (R225 to R227, R240): it takes the next SEQ modulo 65,536, spends no state of any other link, stays in
the replay buffer, and closes its group when no other is ready to follow or as the 16th; a closed group counts. Log
entry 71, on which a clause rests, is the model's choice. -/
def Obligations.FlitsAreNumbered : Prop :=
  ∀ (l type vl : Nat) (b : List Byte) (more : Bool) (m : M),
    let k := m.link l
    let t := sendFlit l type vl b more m
    let active := m.linkState l = lsActive
    let close := active ∧ (more = false ∨ k.txOpen.length = 15)
    (t.link l).txSeq = (k.txSeq + 1) % 65536 ∧
    (t.link l).replay.length = k.replay.length + 1 ∧ (t.link l).replay.take k.replay.length = k.replay ∧
    (∃ f, (t.link l).replay.getLast? = some f ∧ f.seq = k.txSeq ∧ f.type = type ∧ f.vl = vl ∧ f.area.length = 248 ∧
      (f.close = true ↔ close) ∧ (f.kphase = true ↔ active ∧ k.kTx = true) ∧
      f.raw = flitRaw (flitHead f)
        (flitBody k.txKeys.l2d (groupNonce k.txKeys.l2dIv (m.fld .LNK_STS_TX_GROUPS l)) (m.linkState l == lsActive) k.txOpen f) ∧
      (active → ¬ close → (t.link l).txOpen = k.txOpen ++ [f])) ∧
    (t.link l).lastTx = m.now ∧ (close → (t.link l).txOpen = []) ∧
    (¬ close → ∀ F i, t.fld F i = m.fld F i) ∧
    (¬ close ∨ k.txSwitch = false → (t.link l).kTx = k.kTx ∧ (t.link l).txKeys = k.txKeys ∧ (t.link l).txSwitch = k.txSwitch) ∧
    (close → k.txSwitch = true → (t.link l).kTx = !k.kTx ∧ (t.link l).txKeys = k.fresh ∧ (t.link l).txSwitch = false ∧
      t.fld .LNK_STS_TX_GROUPS l = 0) ∧
    (close → FldsKept m t [(.LNK_STS_TX_GROUPS, l)]) ∧
    LinksKept m t l ∧ (t.link l).cmds = k.cmds ∧ (t.link l).cmdq = k.cmdq ∧ (t.link l).cr = k.cr ∧
    t = { m with f := t.f, links := t.links, out := t.out }

/-- What the loom sends (R119, R122, R124, R128, R228, R230, R234, R240, R244, R245, R247, R248, R250): each frame takes
credit, budget and its place in the queue; a queued REHEARSE that may no longer go is removed; a DATA frame carries at
most 240 bytes, 224 in a flit that closes its group; time limits, of commands and of committed rehearsals, act when
they have passed and not before. Log entries 74, 75 and 122, on which clauses rest, are the model's choice. -/
def Obligations.LinksTransmit : Prop :=
  ∀ (s : State) (l : Fin 96) (more : Bool),
    let im := s.inForce
    let n := l.val
    let k := s.m.link n
    let sendable := s.m.linkState n = lsActive ∧ mayFlit s.m n = true ∧ 0 < txCredit s.m n 0
    (∀ p slot q, sendable → k.cmdq = .clear p slot :: q → p < 8 → s.m.covers 3 (fidx p n) 1 = true →
      ∀ t, freeTagOf s.m n = some t →
        let m := sendVl0 n 1 (.clear p slot) (cmdFrame 3 0 0 (slotNum slot) t 0 0 0 []) more s.m
        Completes (.cmd l more) s (addCmd n { newCmd m n t p 0 false 0 (slotNum slot) 0 0 with clear := true } m)) ∧
    (∀ p tag dst q, sendable → k.cmdq = .cmd p tag dst :: q → p < 8 → s.m.covers 3 (fidx p n) 1 = true →
      Completes (.cmd l more) s (startCmd im n p tag dst more (.cmd p tag dst) s.m)) ∧
    (∀ (p tag : Nat) (x : Script) (c : PCue) w t, s.m.script p tag = some x → x.win = c :: w →
      (s.m.capOf c.cue.slot).isSome = true → freeTagOf s.m n = some t → c.cue.op = 2 →
      let m := sendVl0 n 1 (.cmd p tag false)
        (cmdFrame 1 2 c.cue.cmd (slotNum c.cue.slot) t 0 (groupTotal x.head) c.cue.param []) more s.m
      startCmd im n p tag false more (.cmd p tag false) s.m =
        markSent im p tag (addCmd n (newCmd m n t p tag false 2 (slotNum c.cue.slot) (groupTotal x.head) 0) m)) ∧
    (∀ p mask q, sendable → k.cmdq = .go p mask :: q → p < 8 → s.m.covers 3 (fidx p n) 1 = true →
      (∀ h ∈ setBits mask 64, ∃ r, s.m.rh n h = some r ∧ edgeCount s.m < r.start + 224) →
      Completes (.go l more) s ((setBits mask 64).foldl (commitRh im n)
        ((sendVl0 n 5 (.go p mask) (leBytes 8 mask) more s.m).bump .SPC_RHS_GO (pinst p 0)))) ∧
    (∀ p mask h r, sendable → k.cmdq = [.go p mask] → h ∈ setBits mask 64 → s.m.rh n h = some r →
      r.start + 224 ≤ edgeCount s.m → Completes (.go l more) s s.m) ∧
    (∀ p mask q, sendable → k.cmdq = .strike p mask :: q → p < 8 → s.m.covers 3 (fidx p n) 1 = true →
      let m := sendVl0 n 6 (.strike p mask) (leBytes 8 mask) more s.m
      Completes (.strike l more) s ((strikeParts m n p mask).foldl (fun m q => m.bump .SPC_RHS_STRIKE (pinst q 0)) m)) ∧
    (¬ sendable → Completes (.cmd l more) s s.m ∧ Completes (.go l more) s s.m ∧ Completes (.strike l more) s s.m) ∧
    (s.m.scripts = [] → sendable → k.cmdq = [] → Completes (.rehearse l more) s s.m) ∧
    (∀ p tag sn q (x : Script), (let m := s.m.scripts.foldl (fun m e => specWork im e.1.1 e.1.2 m) s.m
      m.linkState n = lsActive → mayFlit m n = true → 0 < txCredit m n 0 → (m.link n).cmdq = .rehearse p tag sn :: q → p < 8 →
      m.covers 3 (fidx p n) 1 = true → m.script p tag = some x →
      (freeRhs m n = none → Completes (.rehearse l more) s (unqueueRehearse n p tag sn m)) ∧
      (∀ h c t, freeRhs m n = some h → groupAt sn x.win = c :: t → stillRehearses m x c = false →
        Completes (.rehearse l more) s (unqueueRehearse n p tag sn m)) ∧
      (∀ h c t, freeRhs m n = some h → groupAt sn x.win = c :: t → stillRehearses m x c = true →
        let total := groupTotal (c :: t)
        let m2 := sendVl0 n 4 (.rehearse p tag sn)
          (cmdFrame 1 c.cue.op c.cue.cmd (slotNum c.cue.slot) h c.runits total c.cue.param []) more m
        let m3 := m2.setRh n h ⟨p, tag, sn, c.cue.slot, .out, false, c.runits, total, [], false, edgeCount m2, none, 0, 0,
          m2.now, none, m2.respLimit c.cue.slot, false⟩
        Completes (.rehearse l more) s (specWork im p tag (((syncRhs n m3).bump .SPC_RHS_SENT (pinst p 0)).setScript { x with
          win := x.win.map (fun c => if c.sn = sn then { c with rhs := some h, rq := false, runits := 0, sent := true } else c) }))))) ∧
    (∀ (ctag : BitVec 12) (c : Cmd) (cl : Nat) (x : Xfer), s.m.linkState n = lsActive → mayFlit s.m n = true →
      0 < txCredit s.m n 1 → findCmd s.m n ctag.toNat = some c → c.dead = false → c.clear = false → c.sentLast = false →
      c.opc = 1 → s.m.covers 3 (fidx c.part n) 1 = true → cmdXfer s.m c = some (cl, x) →
      let r := readyBytes c.sent x.elems
      let d := dataCut s.m n ctag.toNat c.part r.length more
      (d.1 ≤ 240 ∧ d.1 ≤ r.length ∧ (closesGroup s.m n d.2 = true → d.1 ≤ 224) ∧ (more = true → d.2 = true) ∧ (r ≠ [] → d.1 ≠ 0)) ∧
      (d.1 ≠ 0 →
        let last := c.sent + d.1 == x.total
        let m := sendFlit n 2 1 (dataFrame ctag.toNat last c.sent (r.take d.1)) d.2 (chargeFlit c.part n (spendCredit n 1 s.m))
        let m := updCmd n ctag.toNat (fun e => { e with sent := e.sent + d.1, sentLast := last, timer := m.now }) m
        Completes (.dataTransmit l ctag more) s (settleQueue im cl c.part (updQueue cl c.part
          (fun y => if y.who = x.who then { y with elems := dropBytes d.1 y.elems } else y) m)))) ∧
    (∀ (h : Fin 64) r, s.m.rh n h.val = some r →
      (r.st = .out → r.start + 224 ≤ edgeCount s.m → Completes (.rehearsalWithdrawal l h) s
        (loseRehearsal im n h.val r.part r.tag r.sn ((strikeRh n h.val s.m).bump .SPC_RHS_MISS_WITHDRAWN (pinst r.part 0)))) ∧
      (r.st = .out → edgeCount s.m < r.start + 224 → Completes (.rehearsalWithdrawal l h) s s.m) ∧
      (∀ e, r.freeAt = some e → e ≤ edgeCount s.m →
        Completes (.rehearsalNumberRelease l h) s (releaseRh n h.val (dropStrike n h.val s.m))) ∧
      (∀ e, r.freeAt = some e → edgeCount s.m < e → Completes (.rehearsalNumberRelease l h) s s.m)) ∧
    (mayFlit s.m n = true → k.nakDue = false →
      let m := s.m.setLink n { k with
        rxCr := (List.range 4).map (fun v => k.rxCr.getD v 0 + k.ret.getD v 0)
        ret := [0, 0, 0, 0]
        unacked := 0
        nakDue := false
        nakTx := k.nakTx }
      Completes (.creditSend l [] more) s (sendFlit n 7 0 (creditFrame ((k.rxSeq + 65535) % 65536) false k.ret [])
        (more || flitReady m n none) m)) ∧
    (mayFlit s.m n = true → k.lastTx + 20000 ≤ s.m.now →
      Completes (.keepalive l) s (sendFlit n 8 0 [] (flitReady s.m n none) s.m)) ∧
    (s.m.now < k.lastTx + 20000 → Completes (.keepalive l) s s.m) ∧
    (RowTaken s (.ownerMessageSend l) → isLink im n = true → s.m.flag .LNK_OWN_TX_SEND n = false →
      let len := s.m.fld .LNK_OWN_TX_LEN n
      (s.m.linkState n = lsActive → 1 ≤ len → len ≤ 57344 → Completes (.ownerMessageSend l) s
        (sendMgmt n 9 (memRead s.m.stage (s.m.fld .LNK_OWN_TX_OFF n) len) (s.m.setFlag .LNK_OWN_TX_SEND n true))) ∧
      (s.m.linkState n ≠ lsActive ∨ len = 0 ∨ 57344 < len →
        Completes (.ownerMessageSend l) s (s.m.setFlag .LNK_OWN_TX_REFUSED n true))) ∧
    (s.m.flag .LNK_OWN_TX_SEND n = true → (∀ f ∈ k.mgmtq, f.1 ≠ 9) → s.m.askedAgain .LNK_OWN_TX_SEND n = false →
      Completes (.ownerMessageSent l) s (irqPulse im 8 (0x900 + n) (s.m.setFlag .LNK_OWN_TX_SEND n false))) ∧
    (∀ (ctag : BitVec 12) c, 64 ≤ ctag.toNat → s.m.linkState n = lsActive → findCmd s.m n ctag.toNat = some c →
      c.dead = false → c.clear = false →
      (c.timer + c.limit < s.m.now → Completes (.responseTimeout l ctag) s
        (abortCmd im n ctag.toNat c.part c.tag 0x15 s.m)) ∧
      (s.m.now ≤ c.timer + c.limit → Completes (.responseTimeout l ctag) s s.m)) ∧
    (∀ (ctag : BitVec 12) r, ctag.toNat < 64 → s.m.linkState n = lsActive → s.m.rh n ctag.toNat = some r →
      r.st = .committed → r.detached = false →
      (r.timer + r.limit < s.m.now → Completes (.responseTimeout l ctag) s
        (abortCmd im n ctag.toNat r.part r.tag 0x15 s.m)) ∧
      (s.m.now ≤ r.timer + r.limit → Completes (.responseTimeout l ctag) s s.m)) ∧
    (∀ (ctag : BitVec 12) r e, findCmd s.m n ctag.toNat = none → s.m.rh n ctag.toNat = some r → r.abortTick = some e →
      r.stuck = false → e + 256 ≤ edgeCount s.m → Completes (.abortUnanswered l ctag) s
        (fireL im (0x0D3 + 8 * (n / 8)) (n + 2 ^ 16 * ctag.toNat) n (evtPush n 9 (ctag.toNat % 256) (ctag.toNat / 256)
          (s.m.setRh n ctag.toNat { r with stuck := true })))) ∧
    (∀ (ctag : BitVec 12) c, findCmd s.m n ctag.toNat = some c → c.stuck = true →
      Completes (.abortUnanswered l ctag) s s.m) ∧
    (∀ (ctag : BitVec 12) c e, findCmd s.m n ctag.toNat = some c → c.abortTick = some e → c.stuck = false →
      (e + 256 ≤ edgeCount s.m → Completes (.abortUnanswered l ctag) s
        (fireL im (0x0D3 + 8 * (n / 8)) (n + 2 ^ 16 * ctag.toNat) n (evtPush n 9 (ctag.toNat % 256) (ctag.toNat / 256)
          (updCmd n ctag.toNat (fun c => { c with stuck := true }) s.m)))) ∧
      (edgeCount s.m < e + 256 → Completes (.abortUnanswered l ctag) s s.m))

/-- What the loom receives (R226, R227, R238, R239, R241, R250): a flit that fails its code or check is discarded and a
NAK is due; one with the next SEQ is accepted, one behind is discarded; a tag that fails takes the link down; HELLO_R
and FINISH are verified before the session begins, a failure being AUTH_FAIL. Log entries 71 and 73, on which clauses
rest, are the model's choice. -/
def Obligations.LinksReceive : Prop :=
  ∀ (s : State) (l : Fin 96),
    let im := s.inForce
    let n := l.val
    let k := s.m.link n
    let bad := fun (m : M) => m.setLink n { m.link n with rxBad := true, nakDue := true }
    (∀ f, s.m.linkState n ≠ lsActive → s.m.linkState n ≠ lsHand → Completes (.flitReceive l f) s s.m) ∧
    (∀ f, (s.m.linkState n = lsActive ∨ s.m.linkState n = lsHand) → f.corr = [] →
      (f.fecOk = false → Completes (.flitReceive l f) s (bad (s.m.bump .LNK_CNT_A_UNCORR n))) ∧
      (f.fecOk = true → flitCrcOk f.raw = false → Completes (.flitReceive l f) s (bad (s.m.bump .LNK_CNT_A_CRC_ERR n))) ∧
      (f.fecOk = true → flitCrcOk f.raw = true →
        let m := s.m.setLink n { k with lastRx := s.m.now }
        (leAt f.raw 2 2 = k.rxSeq → Completes (.flitReceive l f) s (rxAccept im n f m)) ∧
        (leAt f.raw 2 2 ≠ k.rxSeq → k.rxBad = false → (leAt f.raw 2 2 + 65536 - k.rxSeq) % 65536 < 32768 →
          Completes (.flitReceive l f) s (bad m)) ∧
        (leAt f.raw 2 2 ≠ k.rxSeq → 32768 ≤ (leAt f.raw 2 2 + 65536 - k.rxSeq) % 65536 → Completes (.flitReceive l f) s m))) ∧
    (∀ f m, f.tagOk = false → (m.link n).kRx = bitAt (leAt f.raw 0 1) 7 → m.linkState n = lsActive →
      bitAt (leAt f.raw 0 1) 6 = true → ∃ m2, rxAccept im n f m = fireL im (0x0D0 + 8 * (n / 8)) n n (linkDown im n 5 m2) ∧
        (m2.link n).rxSeq = ((m.link n).rxSeq + 1) % 65536) ∧
    (∀ v : Verdict, s.m.linkState n = lsHand → k.hs = 2 → helloRSound k.helloR = true → s.m.flag .SEC_STS_DS_OK 0 = true →
      s.m.flag .SEC_STS_CERT_MISMATCH 0 = false →
      let o := pathsOf v (helloROk im k.hello k.helloR)
      (∀ d h, o = ⟨true, true⟩ → k.share = some d → s.m.sec.derived = some h →
        let m := s.m.draw.2
        let keys := sessionKeys d k.hello k.helloR
        let b := authMsg im h keys.lFin k.hello k.helloR s.m.draw.1
        Completes (.helloR l v) s (sendMgmt n 3 b (m.setLink n { m.link n with
          hs := 3, adv := (List.range 4).map (fun i => leAt k.helloR (8 + 2 * i) 2)
          txKeys := keys, rxKeys := keys, share := none, auth := b }))) ∧
      (o = ⟨false, false⟩ → Completes (.helloR l v) s
        (fireL im (0x0D1 + 8 * (n / 8)) (n + 2 ^ 8 * 3) n (linkDown im n 3 s.m))) ∧
      (o.a ≠ o.b → Completes (.helloR l v) s
        (fireL im (0x0D1 + 8 * (n / 8)) (n + 2 ^ 8 * 3) n (linkDown im n 3 (pathDisagree im 5 s.m))))) ∧
    (∀ v : Verdict, s.m.linkState n = lsHand → k.hs = 2 → s.m.flag .SEC_STS_DS_OK 0 = false →
      Completes (.helloR l v) s (fireL im (0x0D1 + 8 * (n / 8)) (n + 2 ^ 8 * 3) n (linkDown im n 3 s.m))) ∧
    (∀ v : Verdict, s.m.linkState n = lsHand → k.hs = 4 → k.fin.length = 48 →
      let o := pathsOf v (k.fin == finishMac k.txKeys.dFin k.hello k.helloR k.auth)
      (o = ⟨true, true⟩ → s.m.react = [] → ∃ t, exec (.finish l v) s = .next t ∧ t.m.linkState n = lsActive ∧ (t.m.link n).cr = k.adv ∧
        (t.m.link n).rxCr = [0, 0, 128, 32] ∧ (t.m.link n).sessStart = s.m.now ∧ t.m.fld .LNK_STS_TX_GROUPS n = 0 ∧
        (t.m.link n).keyLimit = 2 ^ im.rekeyLog2 - 1 ∧ (t.m.link n).txKeys = k.txKeys ∧ (t.m.link n).rxKeys = k.rxKeys ∧
        (t.m.link n).kTx = false ∧ (t.m.link n).kRx = false ∧ LinksKept s.m t.m n ∧ t.m.scripts = s.m.scripts) ∧
      (o = ⟨false, false⟩ → Completes (.finish l v) s
        (fireL im (0x0D1 + 8 * (n / 8)) (n + 2 ^ 8 * 3) n (linkDown im n 3 s.m))) ∧
      (o.a ≠ o.b → Completes (.finish l v) s
        (fireL im (0x0D1 + 8 * (n / 8)) (n + 2 ^ 8 * 3) n (linkDown im n 3 (pathDisagree im 5 s.m))))) ∧
    (RowTaken s (.rxAck l) → isLink im n = true → let m := irqSync im 8 (0x980 + n) (s.m.setFlag .LNK_OWN_RX_RX_FULL n false)
      (m.link n).ownHeld = [] → Completes (.rxAck l) s (m.setLink n
        { m.link n with ret := (m.link n).ret.set 3 ((m.link n).ret.getD 3 0 + (m.link n).rxOwed), rxOwed := 0 }))

/-! ### Host ports (10) -/

/-- Configuration and link (R47, R255 to R259, R261): before READY and in a drain a request is answered with retry status,
after it each write acts on its field alone; the identity, BAR and command dwords read what the spec gives; a port
that presents termination comes up at the smaller rate and width; I/O, locked and atomic requests are answered UR. Log
entries 9 and 57, on which clauses rest, are the model's choice. -/
def Obligations.HostConfiguration : Prop :=
  ∀ (s : State) (p : Fin 8), s.inForce.enabled p.val = true →
    let im := s.inForce
    let h := s.m.hostOf p.val
    let i := pinst p.val 0
    let drains := s.m.flag .HPT_STS_DRAINING i
    let hm := hostTlp p.val s.m
    let hh := hm.hostOf p.val
    (h.up = false → ∀ q, Completes (.configurationRequest p q) s s.m) ∧
    (h.up = true → ∀ k : Fin 3, Completes (.ioLockedAtomicRequest p k) s (hm.emit (.cplUr p.val))) ∧
    (h.up = true → isReady s.m p.val = false ∨ drains = true → ∀ q, Completes (.configurationRequest p q) s (hm.emit (.crs p.val))) ∧
    (h.up = true → isReady s.m p.val = true → drains = false →
      (∀ off : BitVec 12,
        let reads := fun x => Completes (.configurationRequest p (.read off)) s (hm.emit (.cfg p.val x))
        (off.toNat / 4 = 0 → reads 0x96241F2C) ∧
        (off.toNat / 4 = 2 → reads (0x08800000 + s.m.fld .IDN_POS_STEPPING 0)) ∧
        (off.toNat / 4 = 4 → reads (h.bars.getD 0 0 / 2 ^ 24 * 2 ^ 24 % 2 ^ 32 + 4)) ∧
        (off.toNat / 4 = 5 → reads (h.bars.getD 1 0)) ∧
        (off.toNat / 4 = 8 → reads (h.bars.getD 4 0 / 2 ^ 16 * 2 ^ 16 % 2 ^ 32 + 4)) ∧
        (off.toNat / 4 = 11 → reads ((0x9600 + p.val) * 65536 + 0x1F2C)) ∧
        (off.toNat / 4 = 12 → reads 0) ∧
        (∀ v : BitVec 32, 4 ≤ off.toNat / 4 → off.toNat / 4 < 10 → Completes (.configurationRequest p (.other off v)) s
          (hm.setHost p.val { hh with bars := hh.bars.set (off.toNat / 4 - 4) v.toNat }))) ∧
      Completes (.configurationRequest p (.bme true)) s (pumpHost p.val (hm.setHost p.val { hh with bme := true })) ∧
      Completes (.configurationRequest p (.bme false)) s (hm.setHost p.val { hh with bme := false }) ∧
      (∀ b, Completes (.configurationRequest p (.mse b)) s (hm.setHost p.val { hh with mse := b })) ∧
      (∀ c, Completes (.configurationRequest p (.mps c)) s (hm.setHost p.val { hh with mps := min (128 * 2 ^ c.val) 512 })) ∧
      (∀ c, Completes (.configurationRequest p (.mrrs c)) s (hm.setHost p.val { hh with mrrs := min (128 * 2 ^ c.val) 4096 })) ∧
      (∀ c, Completes (.configurationRequest p (.cto c)) s (hm.setHost p.val { hh with cto := c.val })) ∧
      (∀ b, Completes (.configurationRequest p (.tag10 b)) s (hm.setHost p.val { hh with tag10 := b })) ∧
      (∀ b, Completes (.configurationRequest p (.aspmL1 b)) s (hm.setHost p.val { hh with aspmL1 := b })) ∧
      (∀ b, Completes (.configurationRequest p (.pmeEn b)) s (hm.setHost p.val { hh with pmeEn := b }))) ∧
    (∀ (rate : Fin 8) flit (w : Fin 17), portTerm im s.m p.val = false → Completes (.hostPortLinkUp p rate flit w) s s.m) ∧
    (∀ (rate : Fin 8) flit (w : Fin 17), s.m.react = [] → portTerm im s.m p.val = true → 5 ≤ rate.val → w.val ∈ [1, 2, 4, 8, 16] →
      5 ≤ im.partN p.val (·.maxRate) → im.partN p.val (·.maxRate) ≤ 6 → im.partN p.val (·.maxWidth) ≤ 16 →
      h.waitq = [] → h.msgq = [] → ∃ t, exec (.hostPortLinkUp p rate flit w) s = .next t ∧
        t.m.fld .HPT_STS_RATE i = min rate.val (im.partN p.val (·.maxRate)) ∧
        t.m.fld .HPT_STS_WIDTH i = min w.val (im.partN p.val (·.maxWidth)) ∧
        t.m.fld .HPT_STS_CUR_WIDTH i = min w.val (im.partN p.val (·.maxWidth)) ∧ t.m.fld .HPT_STS_LSTATE i = 0 ∧
        t.m.flag .HPT_STS_BELOW_MIN i = false ∧ (t.m.hostOf p.val).up = true ∧ HostsKept s.m t.m p.val ∧
        (t.m.flag .HPT_STS_FLIT i = true ↔ 6 ≤ min rate.val (im.partN p.val (·.maxRate)) ∨ flit = true) ∧
        t.m.scripts = s.m.scripts ∧ t.m.rings = s.m.rings)

/-- Power states (R268 to R272): D3hot and D0 by configuration writes, PME every 100 ms while it lasts, for which the port
leaves L1, L1 after 16 µs without a TLP and out again for either side, the width of L0p within the negotiated width.
Log entries 9 and 57, on which clauses rest, are the model's choice. -/
def Obligations.HostPowerStates : Prop :=
  ∀ (s : State) (p : Fin 8),
    let im := s.inForce
    let h := s.m.hostOf p.val
    let i := pinst p.val 0
    let ls := s.m.fld .HPT_STS_LSTATE i
    let hm := hostTlp p.val s.m
    let open_ := im.enabled p.val = true ∧ h.up = true
    let ready := isReady s.m p.val = true ∧ s.m.flag .HPT_STS_DRAINING i = false
    (open_ → ready → s.m.flag .HPT_STS_D3HOT i = false →
      Completes (.d3hotEntry p) s (pmeOnPending im p.val (hm.setFlag .HPT_STS_D3HOT i true)) ∧ Completes (.d0Entry p) s hm) ∧
    (open_ → ready → s.m.flag .HPT_STS_D3HOT i = true → Completes (.d3hotEntry p) s hm ∧
      let m := sendLtr p.val (hm.setFlag .HPT_STS_D3HOT i false)
      (h.waitq = [] → Completes (.d0Entry p) s (issueMsgs p.val (writeD3All im p.val m))) ∧
      sendLtr p.val (hm.setFlag .HPT_STS_D3HOT i false) = ((hm.setFlag .HPT_STS_D3HOT i false).emit (.ltr p.val 10000)).setHost p.val
        { h with lastTlp := s.m.now }) ∧
    (open_ → ¬ ready → Completes (.d3hotEntry p) s (hm.emit (.crs p.val)) ∧ Completes (.d0Entry p) s (hm.emit (.crs p.val))) ∧
    (¬ open_ → Completes (.d3hotEntry p) s s.m ∧ Completes (.d0Entry p) s s.m) ∧
    (s.m.flag .HPT_STS_D3HOT i = true → h.pmeStatus = true → h.pmeEn = true → h.pmeAt + 190000000 ≤ s.m.now →
      let m := s.m.setHost p.val { h with pmeAt := s.m.now }
      Completes (.pmeRepeat p) s (drivePme im p.val m) ∧
      (ls = 0 → drivePme im p.val m = ((m.emit (.pme p.val)).bump .HPT_CNT_PME_SENT i).setHost p.val
        { m.hostOf p.val with lastTlp := s.m.now }) ∧
      (ls ≠ 0 → (drivePme im p.val m).fld .HPT_STS_LSTATE i = 0 ∧
        (drivePme im p.val m).fld .HPT_CNT_L1_EXITS i = (s.m.bump .HPT_CNT_L1_EXITS i).fld .HPT_CNT_L1_EXITS i)) ∧
    (s.m.now < h.pmeAt + 190000000 ∨ h.pmeStatus = false → Completes (.pmeRepeat p) s s.m) ∧
    (∀ sub : Fin 4, h.up = true → h.aspmL1 = true → ls = 0 → portQuiet s.m p.val = true →
      (h.lastTlp + 32000 ≤ s.m.now → sub.val ≤ 1 → Completes (.l1Entry p sub) s (s.m.setFld .HPT_STS_LSTATE i 1)) ∧
      (h.lastTlp + 32000 ≤ s.m.now → 2 ≤ sub.val → Completes (.l1Entry p sub) s
        ((s.m.setFld .HPT_STS_LSTATE i sub.val).emit (.pin (.clkreqN (portOf im p.val)) true))) ∧
      (s.m.now < h.lastTlp + 32000 → Completes (.l1Entry p sub) s s.m)) ∧
    (ls ≠ 0 → Completes (.hostL1Exit p) s (toL0 im p.val s.m)) ∧
    (ls = 0 → Completes (.hostL1Exit p) s s.m ∧ Completes (.l1Exit p) s s.m) ∧
    (ls ≠ 0 → tlpWaits s.m p.val = true → Completes (.l1Exit p) s (toL0 im p.val (s.m.bump .HPT_CNT_L1_EXITS i))) ∧
    (∀ w : Fin 17, h.up = true → w.val ∈ [1, 2, 4, 8, 16] → s.m.flag .HPT_STS_FLIT i = true →
      (w.val ≤ s.m.fld .HPT_STS_WIDTH i → Completes (.l0pWidthChange p w) s (s.m.setFld .HPT_STS_CUR_WIDTH i w.val)) ∧
      (s.m.fld .HPT_STS_WIDTH i < w.val → Completes (.l0pWidthChange p w) s s.m)) ∧
    (h.up = true → tlpWaits s.m p.val = true → s.m.fld .HPT_STS_CUR_WIDTH i < s.m.fld .HPT_STS_WIDTH i →
      (tlpLate s.m p.val = true → Completes (.l0pWidenRequest p) s (s.m.emit (.l0p p.val (s.m.fld .HPT_STS_WIDTH i)))) ∧
      (tlpLate s.m p.val = false → Completes (.l0pWidenRequest p) s s.m))

/-- Partition resets (R176, R256, R257, R262, R264 to R267, R374): each cause is recorded and drains a ready partition, a
port event before READY needs no drain and is over at once; a drain ends when nothing is awaited, or after 1 ms, and
gives every field of the partition its F reset and touches no other; completions, which may come in pieces, and
timeouts answer the request of their tag, an element once all its requests have answered, a tag in quarantine is
freed. Log entries 54, 55 and 120, on which clauses rest, are the model's choice. -/
def Obligations.PartitionResets : Prop :=
  ∀ (s : State) (p : Fin 8),
    let im := s.inForce
    let h := s.m.hostOf p.val
    let i := pinst p.val 0
    let drains := s.m.flag .HPT_STS_DRAINING i
    let hm := hostTlp p.val s.m
    let hh := hm.hostOf p.val
    let ended := drainBusy im s.m p.val = false ∨ ∃ f, h.drain = some f ∧ f + 2000000 ≤ s.m.now
    (im.enabled p.val = true → h.up = true → isReady s.m p.val = false ∨ drains = true →
      Completes (.flr p) s (hm.emit (.crs p.val))) ∧
    (im.enabled p.val = true → h.up = true → isReady s.m p.val = true → drains = false →
      Completes (.flr p) s (partReset im p.val 1 (hostTlp p.val s.m))) ∧
    (h.up = true → Completes (.hotReset p) s (partReset im p.val 2 s.m) ∧ Completes (.dlDown p) s (partReset im p.val 3 s.m)) ∧
    (h.up = false → Completes (.hotReset p) s s.m ∧ Completes (.dlDown p) s s.m ∧ (im.enabled p.val = true → Completes (.flr p) s s.m)) ∧
    (∀ n : Fin 8, im.partOfPort n.val = some p.val →
      (bitAt s.m.pins.perst n.val = false → Completes (.perstNAssert n) s
        (driveTerm im p.val (partReset im p.val 4 (setPerst n.val true s.m)))) ∧
      (bitAt s.m.pins.perst n.val = true → Completes (.perstNAssert n) s s.m ∧
        Completes (.perstNRelease n) s (driveTerm im p.val (setPerst n.val false s.m)))) ∧
    (∀ n : Fin 8, im.partOfPort n.val = none →
      (bitAt s.m.pins.perst n.val = false → Completes (.perstNAssert n) s (setPerst n.val true s.m)) ∧
      (bitAt s.m.pins.perst n.val = true → Completes (.perstNRelease n) s (setPerst n.val false s.m))) ∧
    (∀ cause, cause ∈ [2, 3, 4] → im.enabled p.val = true → isReady s.m p.val = false → drains = false →
      let t := partReset im p.val cause s.m
      t.fld .HPT_STS_LAST_CAUSE i = cause ∧ t.flag .HPT_STS_DRAINING i = false ∧ (t.hostOf p.val).up = false ∧
      (t.hostOf p.val).mse = false ∧ (t.hostOf p.val).bme = false ∧ t.scripts = s.m.scripts ∧
      (∀ c, im.chanOwner c ≠ p.val → t.chan c = s.m.chan c) ∧ (∀ d, t.mbxOf p.val d = Mbx.empty) ∧
      HostsKept s.m t p.val) ∧
    (∀ cause (m : M), im.enabled p.val = true → isReady m p.val = true → m.flag .HPT_STS_DRAINING i = true →
      let t := partReset im p.val cause m
      cause = 5 → t = (m.setFld .HPT_STS_LAST_CAUSE i 5).setHost p.val { m.hostOf p.val with drainOwn := true }) ∧
    (drains = true → ended → h.drainOwn = false → s.m.sec.erase = [] → Completes (.drainEnd p) s
      (syncPart im p.val (mbxSync im p.val (drainFinish im p.val (s.m.setFlag .HPT_STS_DRAINING i false))))) ∧
    (drains = true → ended → h.drainOwn = true → s.m.sec.erase = [] →
      Completes (.drainEnd p) s (irqNext p.val 0x801 true ((syncPart im p.val (mbxSync im p.val
        (drainFinish im p.val (s.m.setFlag .HPT_STS_DRAINING i false)))).setFlag .HPT_STS_OWNER_RESET i true))) ∧
    (drains = false ∨ ¬ ended → Completes (.drainEnd p) s s.m) ∧
    (∀ (m : M), let keep := (m.hostOf p.val).drainOwn = true ∧ (m.hostOf p.val).drainCfg = false
      (∀ F j, ¬ (keep ∧ F = .HPT_STS_D3HOT ∧ j = i) → (drainFinish im p.val m).fld F j =
        if (fldSpec F).f = true ∧ fldPart im (fldSpec F).reg j = p.val then rstVal F else m.fld F j) ∧
      (keep → (drainFinish im p.val m).flag .HPT_STS_D3HOT i = m.flag .HPT_STS_D3HOT i)) ∧
    (∀ m : M, (drainFinish im p.val m).scripts = m.scripts ∧ (∀ c, im.chanOwner c ≠ p.val → (drainFinish im p.val m).chan c = m.chan c) ∧
      HostsKept m (drainFinish im p.val m) p.val) ∧
    (∀ (tag : BitVec 10) r, h.quar.any (fun q => q.1 == tag.toNat) = true → Completes (.hostCompletion p tag r) s
      (freeQuar p.val tag.toNat (hm.bump .HPT_CNT_LATE_CPL i))) ∧
    (∀ (tag : BitVec 10) r, h.quar.any (fun q => q.1 == tag.toNat) = false → npOf s.m p.val tag.toNat = none →
      Completes (.hostCompletion p tag r) s (pumpHost p.val hm)) ∧
    (∀ (tag : BitVec 10) n, h.quar.any (fun q => q.1 == tag.toNat) = false → npOf s.m p.val tag.toNat = some n →
      let whole := fun (r : RdRes) => match r with | .data b => n.len ≤ n.got.length + b.length | _ => True
      let all := fun (r : RdRes) => match r with | .data b => .data (n.got ++ b) | e => e
      (∀ b, n.got.length + b.length < n.len → Completes (.hostCompletion p tag (.data b)) s
        (pumpHost p.val (hm.setHost p.val { hh with
          np := h.np.map (fun k => if k.tag = n.tag ∧ k.res.isNone then { k with got := k.got ++ b } else k) }))) ∧
      (n.purp.joint = false →
        let taken := fun (m : M) => m.setHost p.val { m.hostOf p.val with
          np := h.np.filter (fun k => !(k.tag == n.tag && k.res.isNone)) }
        (∀ r, whole r → Completes (.hostCompletion p tag r) s (pumpHost p.val (hostAnswer im p.val n.purp (all r) (taken hm)))) ∧
        (n.issued + n.cto ≤ s.m.now →
          (Purp.isDead s.m n.purp = false → Completes (.completionTimeout p tag) s
            (pumpHost p.val (hostAnswer im p.val n.purp .timeout (taken (s.m.bump .HPT_CNT_CPL_TIMEOUT i))))) ∧
          (Purp.isDead s.m n.purp = true → Completes (.completionTimeout p tag) s
            (pumpHost p.val (hostAnswer im p.val n.purp .timeout (taken s.m)))))) ∧
      (n.purp.joint = true →
        let joined := fun (c : Instr) (r : RdRes) (m : M) =>
          let np := h.np.map (fun k => if k.tag = n.tag ∧ k.res.isNone then { k with res := some r } else k)
          let mine := np.filter (fun k => k.purp == n.purp)
          (mine.any (fun k => k.res.isNone) = true → Completes c s
            (pumpHost p.val (m.setHost p.val { m.hostOf p.val with np := np }))) ∧
          (mine.any (fun k => k.res.isNone) = false → h.waitq = [] → Completes c s
            (pumpHost p.val (hostAnswer im p.val n.purp (joinRes (mine.filterMap (·.res)))
              (m.setHost p.val { m.hostOf p.val with np := np.filter (fun k => k.purp != n.purp) }))))
        (∀ r, whole r → joined (.hostCompletion p tag r) (all r) hm) ∧
        (n.issued + n.cto ≤ s.m.now → joined (.completionTimeout p tag) .timeout
          (if Purp.isDead s.m n.purp then s.m else s.m.bump .HPT_CNT_CPL_TIMEOUT i))) ∧
      (s.m.now < n.issued + n.cto → Completes (.completionTimeout p tag) s s.m)) ∧
    (∀ (tag : BitVec 10) q, h.quar.find? (fun q => q.1 == tag.toNat) = some q →
      (q.2 ≤ s.m.now → Completes (.quarantineExpiry p tag) s (freeQuar p.val tag.toNat s.m)) ∧
      (s.m.now < q.2 → Completes (.quarantineExpiry p tag) s s.m))

/-! ### Security (11) -/

/-- Owner commands (R282, R293 to R299): SUBMIT copies LEN bytes and sets BUSY, or is lost while BUSY; a signed command of
this die with the source's nonce, a key and a signature that both paths accept has its effect, one that fails a check
ends with that check's result, one whose paths differ with PATH_DISAGREE; DISABLE_DEBUG ends every debug access;
FIRMWARE hands its message to the wings, which finish it or time out. Log entries 48, 49 and 119, on which clauses
rest, are the model's choice. -/
def Obligations.OwnerCommands : Prop :=
  ∀ (s : State) (src : Nat) (b : List Byte) (rest : List (Nat × List Byte)),
    let im := s.inForce
    let yes : Verdict := ⟨true, true⟩
    let no : Verdict := ⟨false, false⟩
    let good := s.m.inReset 3 0 = false ∧ s.m.sec.cmds = (src, b) :: rest ∧ s.m.sec.fw = none
    let read := voteReads im (hashWords []) s.m
    let die := fun x : CmdPaths => pathsOf x.die (leAt b 0x10 16 == 0 || leAt b 0x10 16 == serialNat)
    let nonce := fun x : CmdPaths => pathsOf x.nonce (!(s.m.sec.nonceOwed.contains src) && leAt b 0x20 32 == nonceOf s.m src)
    let key := fun x : CmdPaths => pathsOf x.key (ownerKeyOk read.2)
    let sig := fun x : CmdPaths => pathsOf x.sig (cmdSigOk read.2 b)
    let verified := fun x : CmdPaths => good ∧ die x = yes ∧ nonce x = yes ∧ read.1 = true ∧ key x = yes ∧ sig x = yes
    let ends := fun (x : CmdPaths) (m : M) =>
      (ctypeOf b = 0x101 → Completes (.resetPartition x.toIdPaths x.toKeyPaths []) s m) ∧ (ctypeOf b = 0x102 → Completes (.chipReset x.toIdPaths x.toKeyPaths []) s m) ∧
      (ctypeOf b = 0x105 → Completes (.firmware x.toIdPaths x.toKeyPaths []) s m) ∧ (ctypeOf b = 0x103 → Completes (.advanceSvn x.toIdPaths x.toKeyPaths [] []) s m) ∧
      (ctypeOf b = 0x104 → Completes (.disableDebug x.toIdPaths x.toKeyPaths [] []) s m)
    (∀ (p : Fin 8) (v : BitVec 64) q, RowTaken s (.submit (.port p) v) → im.partOfPort p.val = some q →
      let m0 := noteRsvd (bar4Of q) .OCMD_CTL 0 v.toNat (touchRow im (.submit (.port p) v) s.m)
      (v.toNat.testBit 0 = false → Completes (.submit (.port p) v) s m0) ∧
      (v.toNat.testBit 0 = true → m0.fld .OCMD_STS_BUSY p.val ≠ 0 →
        Completes (.submit (.port p) v) s (m0.setFld .OCMD_STS_SUBMIT_LOST p.val 1)) ∧
      (v.toNat.testBit 0 = true → m0.fld .OCMD_STS_BUSY p.val = 0 → let m := m0.setFld .OCMD_STS_BUSY p.val 1
        Completes (.submit (.port p) v) s (secPump im (m.sec.cmds.length + 1) { m with sec := { m.sec with
          cmds := m.sec.cmds ++ [(p.val, memRead (mapGet [] m.sec.mbuf (p.val, 0)) 0 (v.toNat / 2 ^ 32 % 2 ^ 15))] } }))) ∧
    (∀ v : BitVec 64, RowTaken s (.submit .wings v) →
      let off := v.toNat / 2 ^ 6 % 2 ^ 19
      let len := v.toNat / 2 ^ 32 % 2 ^ 15
      let m0 := ((noteRsvd .owner .SEC_WCMD 0 v.toNat s.m).setFld .SEC_WCMD_OFF 0 off).setFld .SEC_WCMD_LEN 0 len
      (v.toNat.testBit 0 = false → Completes (.submit .wings v) s m0) ∧
      (v.toNat.testBit 0 = true → m0.fld .SEC_WSTS_BUSY 0 ≠ 0 →
        Completes (.submit .wings v) s (m0.setFld .SEC_WSTS_SUBMIT_LOST 0 1)) ∧
      (v.toNat.testBit 0 = true → m0.fld .SEC_WSTS_BUSY 0 = 0 → let m := m0.setFld .SEC_WSTS_BUSY 0 1
        Completes (.submit .wings v) s (secPump im (m.sec.cmds.length + 1) { m with sec := { m.sec with
          cmds := m.sec.cmds ++ [(8, ownRead im m0 (64 * off) len)] } }))) ∧
    (∀ x, good → (die x = no → ends x (endCmd im 4 [] s.m)) ∧
      ((die x).a ≠ (die x).b → ends x (endCmd im 7 [] (rejectCmd im src 7 (pathDisagree im 3 s.m)))) ∧
      (die x = yes →
        (nonce x = no → ends x (endCmd im 5 [] s.m)) ∧
        ((nonce x).a ≠ (nonce x).b → ends x (endCmd im 7 [] (rejectCmd im src 7 (pathDisagree im 3 s.m)))) ∧
        (nonce x = yes → read.1 = false → ends x (endCmd im 7 [] (rejectCmd im src 7 read.2))) ∧
        (nonce x = yes → read.1 = true →
          (key x = no → ends x (endCmd im 6 [] (rejectCmd im src 6 read.2))) ∧
          ((key x).a ≠ (key x).b → ends x (endCmd im 7 [] (rejectCmd im src 7 (pathDisagree im 3 read.2)))) ∧
          (key x = yes → sig x = no → ends x (endCmd im 6 [] (rejectCmd im src 6 read.2))) ∧
          (key x = yes → (sig x).a ≠ (sig x).b → ends x (endCmd im 7 [] (rejectCmd im src 7 (pathDisagree im 3 read.2))))))) ∧
    (∀ x, verified x →
      (ctypeOf b = 0x102 → Completes (.chipReset x.toIdPaths x.toKeyPaths []) s (endCmd im 1 []
        { countAccepted read.2 with sec := { (countAccepted read.2).sec with chipResetAt := some (read.2.now + 2000000) } })) ∧
      (ctypeOf b = 0x101 → leAt b 0x40 1 < 8 → im.enabled (leAt b 0x40 1) = true →
        (leAt b 0x41 1 = 0 → Completes (.resetPartition x.toIdPaths x.toKeyPaths []) s
          (partReset im (leAt b 0x40 1) 5 (endCmd im 1 [] (countAccepted read.2)))) ∧
        (leAt b 0x41 1 = 1 → let m := endCmd im 1 [] (countAccepted read.2)
          m.sec.erase.contains (leAt b 0x40 1) = false → Completes (.resetPartition x.toIdPaths x.toKeyPaths []) s
            (partReset im (leAt b 0x40 1) 5 { m with sec := { m.sec with erase := m.sec.erase ++ [leAt b 0x40 1] } })) ∧
        (2 ≤ leAt b 0x41 1 → Completes (.resetPartition x.toIdPaths x.toKeyPaths []) s (endCmd im 8 [] read.2))) ∧
      (ctypeOf b = 0x103 → leAt b 0x40 1 ≤ 64 → leAt b 0x40 1 ≤ im.svn →
        let u := advanceTo (leAt b 0x40 1) [] (List.range 64) s.fuses
        exec (.advanceSvn x.toIdPaths x.toKeyPaths [] []) s = .next { s with
          fuses := u.1
          m := settle im reactRounds (endCmd im (if u.2 then 1 else 9) [] (senseAfterBlow u.1 (countAccepted read.2))) }) ∧
      (ctypeOf b = 0x103 → im.svn < leAt b 0x40 1 → Completes (.advanceSvn x.toIdPaths x.toKeyPaths [] []) s (endCmd im 8 [] read.2)) ∧
      (ctypeOf b = 0x104 → let u := blowBit .dbg 0 [] s.fuses
        exec (.disableDebug x.toIdPaths x.toKeyPaths [] []) s = .next { s with
          fuses := u
          m := settle im reactRounds (endCmd im (if allBlown u .dbg 0 then 1 else 9) []
            (endDebug (senseAfterBlow u (countAccepted read.2)))) }) ∧
      (ctypeOf b = 0x105 → read.2.flag .SEC_FWCMD_ARMED 0 = true →
        let m := ownWrite im (read.2.fld .SEC_FWCMD_DEST 0) b (countAccepted read.2)
        let m := ((m.setFlag .SEC_FWCMD_PENDING 0 true).setFld .SEC_FWCMD_SRC 0 src).setFlag .SEC_FWCMD_ARMED 0 false
        Completes (.firmware x.toIdPaths x.toKeyPaths []) s
          (irqSync im 8 0x802 { m with sec := { m.sec with fw := some (src, m.now), lastFw := none } })) ∧
      (ctypeOf b = 0x105 → read.2.flag .SEC_FWCMD_ARMED 0 = false → Completes (.firmware x.toIdPaths x.toKeyPaths []) s (endCmd im 8 [] read.2))) ∧
    (∀ (v : BitVec 64) at0, RowTaken s (.finishFirmwareCommand v) → s.m.sec.fw = some (src, at0) → v.toNat.testBit 27 = true →
      v.toNat.testBit 28 = false → src < 8 →
      let m := ((noteRsvd .owner .SEC_FWCMD 0 v.toNat s.m).setFld .SEC_FWCMD_DEST 0 (v.toNat % 2 ^ 25)).setFlag .SEC_FWCMD_ARMED 0 (v.toNat.testBit 25)
      Completes (.finishFirmwareCommand v) s (endCmd im 1
        (ownRead im m (v.toNat % 2 ^ 25) (min (v.toNat / 2 ^ 36 % 2 ^ 12) 3840))
        ((fwClear im m).setFld .OCMD_STS_FW_CODE src (v.toNat / 2 ^ 48 % 2 ^ 8)))) ∧
    (∀ at0, s.m.sec.fw = some (src, at0) →
      (at0 + 2000000000 ≤ s.m.now → Completes .fwTimeout s
        (endCmd im 10 [] (fwClear im { s.m with sec := { s.m.sec with lastFw := some src } }))) ∧
      (s.m.now < at0 + 2000000000 → Completes .fwTimeout s s.m)) ∧
    (good → ctypeOf b = 2 → s.m.flag .SEC_STS_DS_OK 0 = true → ∀ h, s.m.sec.derived = some h →
      (leAt b 0x40 1 = 0 → Completes (.getKeys true) s (endCmd im 1 (attestKey h) s.m)) ∧
      (leAt b 0x40 1 = 1 → Completes (.getKeys true) s (endCmd im 1 (linkKey h) s.m)) ∧
      (2 ≤ leAt b 0x40 1 → Completes (.getKeys true) s (endCmd im 8 [] s.m))) ∧
    (good → (ctypeOf b = 2 → Completes (.getKeys false) s (endCmd im 7 [] (rejectCmd im src 7 (pathDisagree im 3 s.m)))) ∧
      (ctypeOf b = 1 → ∀ l, Completes (.attest false l) s (endCmd im 7 [] (rejectCmd im src 7 (pathDisagree im 3 s.m))))) ∧
    (good → ctypeOf b = 1 → s.m.flag .SEC_STS_DS_OK 0 = true →
      let w := voteReads im ((List.range 6).map (fun i => (VWord.rootHash (Fin.ofNat 6 i), Vote.agree)) ++ hashWords []) s.m
      ∀ h, w.1 = true → w.2.sec.derived = some h → let r := attestReport im s.m src h (bytesAt b 0x40 32)
      Completes (.attest true []) s (endCmd im 1 (r ++ attestSign h r w.2.draw.1) w.2.draw.2)) ∧
    (good → ctypeOf b = 1 → s.m.flag .SEC_STS_DS_OK 0 = false → Completes (.attest true []) s (endCmd im 8 [] s.m)) ∧
    (∀ m, let t := endDebug m
      t.flag .SEC_STS_DEBUG_ACTIVE 0 = false ∧ t.fld .SEC_STS_DEBUG_SCOPE 0 = 0 ∧ t.mgt.wdbg = 0 ∧
      t.mgt.ir ∉ [0x02, 0x03, 0x30, 0x40, 0x41] ∧ (m.mgt.ir ∉ [0x02, 0x03, 0x30, 0x40, 0x41] → t.mgt.ir = m.mgt.ir))

/-- What ends an owner command (R294, R296), and what the block does beside them (R281, R287, R298): the result, DONE and
BUSY of the source; a chip reset 1 ms after its command; the sweep of voted words when it is due; a failing entropy
source. Log entry 50, on which a clause rests, is the model's choice. -/
def Obligations.SecurityEvents : Prop :=
  (∀ (im : Image) (p result : Nat) (msg resp : List Byte) (m : M), p < 8 → result < 256 → resp.length < 4096 →
    (ctypeOf msg = 1 ∨ ctypeOf msg = 2) → im.partOfPort p = none →
    let t := finishCmd im p result msg resp m
    t.fld .OCMD_STS_RESULT p = result ∧ t.fld .OCMD_STS_RESP_LEN p = resp.length ∧ t.fld .OCMD_STS_CTYPE p = ctypeOf msg ∧
    t.fld .OCMD_STS_BUSY p = 0 ∧ t.fld .OCMD_STS_DONE p = 1 ∧ mapGet [] t.sec.resp (p, 0) = resp ∧
    FldsKept m t [(.OCMD_STS_RESULT, p), (.OCMD_STS_RESP_LEN, p), (.OCMD_STS_CTYPE, p), (.OCMD_STS_BUSY, p), (.OCMD_STS_DONE, p)] ∧
    t = { m with f := t.f, sec := { m.sec with resp := t.sec.resp } }) ∧
  (∀ (s : State),
    (∀ t, s.m.sec.chipResetAt = some t → t ≤ s.m.now → Completes .chipResetDelayExpiry s (chipResetNow 4 0 s.m)) ∧
    (∀ t, s.m.sec.chipResetAt = some t → s.m.now < t → Completes .chipResetDelayExpiry s s.m) ∧
    (s.m.sec.chipResetAt = none → Completes .chipResetDelayExpiry s s.m) ∧
    (∀ w, s.m.sec.sweepDue = true → s.m.voteDead = [] → s.m.upset = [] →
      let m : M := { s.m with sec := { s.m.sec with sweepDue := false } }
      Completes (.votedSweep [(w, .agree)]) s m ∧
      Completes (.votedSweep [(w, .two)]) s (fire s.inForce 0x010 (vwordInfo w) (m.bump .SEC_VOTE_CORRECTED 0)) ∧
      Completes (.votedSweep [(w, .three)]) s
        (fireSevere s.inForce 0x011 (vwordInfo w) (({ m with voteDead := [w] } : M).bump .SEC_VOTE_SEVERE 0))) ∧
    (∀ l, s.m.sec.sweepDue = false → Completes (.votedSweep l) s s.m) ∧
    (s.m.boot.entropy = true → Completes .drbgReseed s
      { s.m with fresh := s.m.fresh + 1, sec := { s.m.sec with reseedIn := 1024 } }) ∧
    (s.m.boot.entropy = false → Completes .drbgReseed s s.m) ∧
    (∀ b : Bool, Completes (.entropyFailure b) s (fire s.inForce 0x014 (if b then 2 else 1)
      (({ s.m with boot := { s.m.boot with entropy := false } } : M).setFlag .SEC_STS_ENTROPY_OK 0 false))))

/-! ### Local memory (12) -/

/-- The symbol code (R309 to R311): every line decodes as it was encoded; whatever one chip of ten gives wrong in any of
the eight codewords is found and corrected, and the chip named; the poison pattern is no line. -/
def Obligations.SymbolCodeCorrects : Prop :=
  (∀ d : BitVec 512, decodeBurst (encodeLine d) = .good d) ∧
  (∀ (d : BitVec 512) (chip : Fin 10) (x : Fin 8 → Fin 256), (∃ j, x j ≠ 0) →
    decodeBurst (encodeLine d ^^^ burstOf ((List.finRange 8).map (fun j => (List.replicate 10 0).set chip.val (x j).val))) =
      .fixed (encodeLine d) chip.val) ∧
  (∀ d : BitVec 512, encodeLine d ≠ poison) ∧
  decodeBurst poison = .poison

/-- Local memory (R62, R304, R314, R315, R317, R320 to R324): training loses what a channel held; a line of a trained
channel is written whole and read with its checks, an untrained channel answers with the error; a part of a line
merges after a checked read; a requester is served in its turn; accesses wait for a block reset to end, and whole-line
writes for a key that is owed; the scrubber finds a tag line held on die as it stands; the bucket leaks at its edges;
the scrubber starts on a sound range, stops, and within its limit corrects, poisons or counts line by line. Log
entries 18, 43, 52, 53, 105, 109, 110 and 111, on which clauses rest, are the model's choice. -/
def Obligations.MemoryRuns : Prop :=
  ∀ (s : State) (c : Fin 4),
    let im := s.inForce
    let n := c.val
    (RowTaken s (.train c) → s.m.flag .MEM_CH_STS_PRESENT n = true → s.m.flag .MEM_CH_STS_TRAINING n = false →
      s.m.react = [] → ∃ t, exec (.train c) s = .next t ∧ t.m.flag .MEM_CH_STS_TRAINING n = true ∧
        t.m.flag .MEM_CH_STS_TRAINED n = false ∧ t.m.flag .MEM_CH_STS_TRAIN_FAIL n = false ∧ t.m.fld .MEM_CH_STS_FAIL_CAUSE n = 0 ∧
        t.m.mem.lines = s.m.mem.lines.filter (fun x => x.1.1 != n) ∧ t.m.mem.tags = s.m.mem.tags.filter (fun x => x.1.1 != n) ∧
        FldsKept s.m t.m [(.MEM_CH_CTL_TRAIN, n), (.MEM_CH_STS_TRAINING, n), (.MEM_CH_STS_TRAINED, n),
          (.MEM_CH_STS_TRAIN_FAIL, n), (.MEM_CH_STS_FAIL_CAUSE, n)] ∧
        t = { s with m := { s.m with f := t.m.f, mem := t.m.mem, pins := { s.m.pins with memReset := t.m.pins.memReset } } }) ∧
    (s.m.flag .MEM_CH_STS_TRAINING n = true → s.m.askedAgain .MEM_CH_CTL_TRAIN n = false →
      let m := (s.m.setFlag .MEM_CH_CTL_TRAIN n false).setFlag .MEM_CH_STS_TRAINING n false
      (bitAt s.m.pins.calBad 2 = false →
        Completes (.trainingComplete c .trained) s (noteMem im (m.setFlag .MEM_CH_STS_TRAINED n true))) ∧
      (bitAt s.m.pins.calBad 2 = true → Completes (.trainingComplete c .trained) s
        ((((m.setFlag .MEM_CH_STS_TRAIN_FAIL n true).setFld .MEM_CH_STS_FAIL_CAUSE n 2).setFlag
          .MEM_CH_STS_FAIL_SUB n false).setFlag .MEM_CH_STS_FAIL_RANK n false)) ∧
      (∀ cause sub rank, Completes (.trainingComplete c (.fail cause sub rank)) s
        ((((m.setFlag .MEM_CH_STS_TRAIN_FAIL n true).setFld .MEM_CH_STS_FAIL_CAUSE n cause.val).setFlag
          .MEM_CH_STS_FAIL_SUB n sub).setFlag .MEM_CH_STS_FAIL_RANK n rank))) ∧
    (∀ line (q : LineReq) e te, s.m.inReset (29 + n) 0 = true →
      Completes (.lineRead c line q e te) s { s.m with held := s.m.held ++ [.lineRead c line q e te] } ∧
      ∀ off b, Completes (.lineWrite c line off b q e te) s { s.m with held := s.m.held ++ [.lineWrite c line off b q e te] }) ∧
    (∀ line (q : LineReq) e te (b : List Byte), b.length = 64 → keyWanting im s.m n line = true →
      Completes (.lineWrite c line 0 b q e te) s { s.m with held := s.m.held ++ [.lineWrite c line 0 b q e te] }) ∧
    (∀ line a r (q : LineReq), s.m.inReset (29 + n) 0 = false → keyWanting im s.m n line = false → localAddr im n (64 * line) = some a → regionOf im a = some r →
      (lineTurn s.m n q.own.val = false → ∀ e te, Completes (.lineRead c line q e te) s s.m ∧
        ∀ off b, Completes (.lineWrite c line off b q e te) s s.m) ∧
      (lineTurn s.m n q.own.val = true →
        let m1 := lineServed n q.own.val s.m
        (∀ e te, trained s.m n = true → ∀ d k, readLine im m1 n line a r e te = (.data d, k) →
          Completes (.lineRead c line q e te) s
            ((noteCorr im n k (!q.spec) m1).emit (.line n 0 (leBytes 64 d.toNat)))) ∧
        (∀ e te x k, trained s.m n = true → readLine im m1 n line a r e te = (x, k) → (∀ d, x ≠ .data d) →
          Completes (.lineRead c line q e te) s
            ((noteFail im n a r q.spec x (noteCorr im n k (!q.spec) m1)).emit (.line n x.kind []))) ∧
        (∀ (b : List Byte) e te, b.length = 64 →
          (trained s.m n = true → Completes (.lineWrite c line 0 b q e te) s
            ((storeLine im n line a r (BitVec.ofNat 512 (leVal b)) te m1).emit (.line n 0 []))) ∧
          (trained s.m n = false → Completes (.lineWrite c line 0 b q e te) s (m1.emit (.line n 4 [])))) ∧
        (∀ (b : List Byte) off e te d k, 1 ≤ b.length → b.length < 64 → off + b.length ≤ 64 → trained s.m n = true →
          readLine im m1 n line a r e te = (.data d, k) → Completes (.lineWrite c line off b q e te) s
            ((storeLine im n line a r (mergeLine d off b) te (noteCorr im n k true m1)).emit (.line n 0 []))) ∧
        (∀ (b : List Byte) off e te x k, 1 ≤ b.length → b.length < 64 → off + b.length ≤ 64 → trained s.m n = true →
          readLine im m1 n line a r e te = (x, k) → (∀ d, x ≠ .data d) → Completes (.lineWrite c line off b q e te) s
            (((noteFail im n a r false x (noteCorr im n k true m1)).bump .MEM_ERR_B_WRITE_ERR n).emit (.line n 4 []))))) ∧
    (∀ tl d, mapFind s.m.mem.tags (n, tl) = some d → Completes (.tagLineWriteback c tl) s { s.m with mem := { s.m.mem with
      lines := mapPut s.m.mem.lines (n, tl) (encodeLine d)
      tags := mapDel s.m.mem.tags (n, tl) } }) ∧
    (∀ hot, n ∈ s.m.mem.selfRef → Completes (.refresh c hot) s s.m) ∧
    (∀ hot, n ∉ s.m.mem.selfRef → ∃ l, Completes (.refresh c hot) s { s.m with mem := { s.m.mem with double := l } } ∧ (n ∈ l ↔ hot = true) ∧
      ∀ k, k ≠ n → (k ∈ l ↔ k ∈ s.m.mem.double)) ∧
    (let t := s.m.fld .TCK_COUNT_COUNT 0 + 1
     let due := s.m.tick.on = true ∧ s.m.now = s.m.tick.edge + 2 ∧ (s.m.tick.phase = 2 ∨ s.m.tick.phase = 3) ∧ t % 2 ^ s.m.fld .MEM_BUCKET_LEAK_LOG2 n = 0 ∧ mapGet 0 s.m.mem.leakAt (n, 0) ≠ t
     (due → Completes (.bucketLeak c) s
        (({ s.m with mem := { s.m.mem with leakAt := mapPut s.m.mem.leakAt (n, 0) t } } : M).setFld .MEM_BUCKET_LEVEL n
          (s.m.fld .MEM_BUCKET_LEVEL n - 1))) ∧
     (¬ due → Completes (.bucketLeak c) s s.m)) ∧
    (∀ v : BitVec 64, RowTaken s (.memBucketWrite c v) → s.m.react = [] → ∃ t, exec (.memBucketWrite c v) s = .next t ∧
      t.m.fld .MEM_BUCKET_DEPTH n = max 1 (v.toNat % 2 ^ 16) ∧ t.m.fld .MEM_BUCKET_LEAK_LOG2 n = min 20 (v.toNat / 2 ^ 16 % 32) ∧
      t.m.fld .MEM_BUCKET_LEVEL n ≤ max 1 (v.toNat % 2 ^ 16)) ∧
    (∀ v : BitVec 64, RowTaken s (.scrubStart c v) → v.toNat % 2 = 1 → v.toNat / 2 % 2 = 0 → v.toNat / 8 % 4 = 0 →
      let rate := v.toNat / 2 ^ 8 % 32
      let m := (noteRsvd .owner .MEM_SCRUB_CTL n v.toNat s.m).setFld .MEM_SCRUB_CTL_RATE n rate
      let a := m.fld .MEM_SCRUB_RANGE_FIRST n
      let b := m.fld .MEM_SCRUB_RANGE_LAST n
      let sound := m.flag .MEM_SCRUB_CTL_BUSY n = false ∧ trained m n = true ∧ 1 ≤ rate ∧ rate ≤ 25 ∧ a ≤ b ∧ b < capLines im n
      (¬ sound → Completes (.scrubStart c v) s (m.setFlag .MEM_SCRUB_CTL_REFUSED n true)) ∧
      (sound →
        let m := clearSummary n ((m.setFlag .MEM_SCRUB_CTL_DONE n false).setFlag .MEM_SCRUB_CTL_STOPPED n false)
        let m := (m.setFlag .MEM_SCRUB_CTL_BUSY n true).setFlag .MEM_SCRUB_CTL_START n true
        Completes (.scrubStart c v) s
          (irqSync im 8 (0x808 + n) { m with mem := { m.mem with scrub := mapPut m.mem.scrub (n, 0) (a, b) } }))) ∧
    (RowTaken s (.scrubStop c) → (s.m.flag .MEM_SCRUB_CTL_BUSY n = true → Completes (.scrubStop c) s (endScrub im n true s.m)) ∧
      (s.m.flag .MEM_SCRUB_CTL_BUSY n = false → Completes (.scrubStop c) s s.m)) ∧
    (∀ e a b, s.m.inReset (29 + n) 0 = false → mapFind s.m.mem.scrub (n, 0) = some (a, b) →
      let k := a + s.m.fld .MEM_SCRUB_SUM_A_LINES n
      let m0 := opTagWriteback n k s.m
      let x := (scrubDec m0 n k e).bursts
      (scrubMay s.m n x = false ∨ lineTurn s.m n 8 = false → Completes (.scrubLine c e) s s.m) ∧
      (scrubMay s.m n x = true → lineTurn s.m n 8 = true →
        trained s.m n = true →
        let m1 := lineServed n 8 { m0 with mem := { m0.mem with
          bursts := mapPut m0.mem.bursts (n, 0) (List.replicate x s.m.now ++ scrubBursts s.m n) } }
        let m := m1.bump .MEM_SCRUB_SUM_A_LINES n
        (∀ v d, k < b → mapFind m0.mem.lines (n, k) = some v → decodeBurst (v ^^^ e) = .good d → Completes (.scrubLine c e) s m) ∧
        (∀ v, k < b → mapFind m0.mem.lines (n, k) = some v → decodeBurst (v ^^^ e) = .poison →
          Completes (.scrubLine c e) s (m.bump .MEM_SCRUB_SUM_B_POISON_SEEN n)) ∧
        (k < b → mapFind m0.mem.lines (n, k) = none → m.flag .MEM_SCRUB_SUM_C_FAIL_VALID n = false →
          let p := m.bump .MEM_SCRUB_SUM_B_UNCORR n
          Completes (.scrubLine c e) s (((({ p with mem := { p.mem with lines := mapPut p.mem.lines (n, k) poison } } : M).setFld
            .MEM_SCRUB_SUM_C_FIRST_FAIL n k).setFld .MEM_SCRUB_SUM_C_LAST_FAIL n k).setFlag .MEM_SCRUB_SUM_C_FAIL_VALID n true)) ∧
        (∀ v d, b ≤ k → mapFind m0.mem.lines (n, k) = some v → decodeBurst (v ^^^ e) = .good d →
          Completes (.scrubLine c e) s (endScrub im n false m))))

/-! ### Management (17) -/

/-- I3C (R275, R395, R400): from 1 ms after the release of PORST_N a target without a dynamic address takes the one
assigned and loses it at RSTDAA; a directed code is answered only by a target that has one; the offset takes four
bytes, and a private read gives the telemetry set from it onward; before, nothing on the bus has an effect. Log entry
81, on which a clause rests, is the model's choice. -/
def Obligations.ManagementBus : Prop :=
  ∀ (s : State),
    let addr := fun (x : Option Nat) => ({ s.m with mgt := { s.m.mgt with i3cAddr := x } } : M)
    let live := s.m.boot.phase ≠ .porst ∧ s.m.boot.porAt + 2000000 ≤ s.m.now
    (¬ live → ∀ (a b : BitVec 7) (x : List Byte) (n : Nat), ∀ i ∈ [Instr.entdaa a, .setdasa a b, .rstdaa, .getpid, .getbcr,
      .getdcr, .getstatus, .i3cOffsetWrite x, .i3cPrivateRead n], Completes i s s.m) ∧
    (live →
      (∀ a : BitVec 7, s.m.mgt.i3cAddr = none → Completes (.entdaa a) s (addr (some a.toNat)) ∧
        Completes (.setdasa 0x34 a) s (addr (some a.toNat))) ∧
      (∀ a b : BitVec 7, s.m.mgt.i3cAddr ≠ none → Completes (.entdaa a) s s.m ∧ Completes (.setdasa a b) s s.m) ∧
      (∀ a b : BitVec 7, a ≠ 0x34 → Completes (.setdasa a b) s s.m) ∧
      Completes .rstdaa s (addr none) ∧
      (s.m.mgt.i3cAddr = none → Completes .getpid s s.m ∧ Completes .getbcr s s.m ∧ Completes .getdcr s s.m) ∧
      (s.m.mgt.i3cAddr ≠ none →
        Completes .getbcr s (s.m.emit (.i3c [0])) ∧ Completes .getdcr s (s.m.emit (.i3c [0])) ∧
        Completes .getpid s (s.m.emit (.i3c (leBytes 6 (2 ^ 32 + Config.dieSerial.toNat % 2 ^ 32)).reverse)) ∧
        ∃ b : List Byte, b.length = 2 ∧ Completes .getstatus s (({ s.m with fresh := s.m.fresh + 1 } : M).emit (.i3c b))) ∧
      (∀ b : List Byte, b.length = 4 → leVal b % 8 = 0 →
        Completes (.i3cOffsetWrite b) s { s.m with mgt := { s.m.mgt with i3cOff := leVal b } }) ∧
      (∀ b : List Byte, b.length ≠ 4 → Completes (.i3cOffsetWrite b) s s.m) ∧
      (∀ row k, regAt .owner s.m.mgt.i3cOff = some (row, k) → s.m.mgt.i3cOff < 2 ^ 32 →
        Completes (.i3cPrivateRead 8) s (({ s.m with mgt := { s.m.mgt with i3cOff := (s.m.mgt.i3cOff + 8) % 2 ^ 32 } } : M).emit
          (.i3c (leBytes 8 (if telemetry row.reg = true then regVal s.m row.reg k else 0))))))

/-- JTAG (R276 to R278, R300, R402): the instruction register captures 1, and what the data register captures follows;
with PORST_N released IDENT, CHALLENGE and BYPASS always answer; an instruction whose condition does not hold selects
BYPASS; under its scope the boundary register captures the pins and takes what shifts in, cores halt, resume, step and
show registers, and FUSE reads and blows one bit; TOKEN captures the outcome before it; a token is checked on two
paths in the order of R300, and every attempt outside a block reset renews the challenge. Log entries 80, 82 and 84,
on which clauses rest, are the model's choice. -/
def Obligations.JtagRuns : Prop :=
  ∀ (s : State), s.m.boot.phase ≠ .porst →
    let out := fun (ir : Nat) (d : List Byte) (m : M) => (({ m with mgt := { m.mgt with ir := ir } } : M).emit (.jtagIr 1)).emit (.jtag ir d)
    let byp := fun (m : M) => out 0xFF [0] { m with mgt := { m.mgt with byp := false } }
    let halted := fun (c : Nat) => (s.m.cpu (wng c)).dbgHalt
    let h := fun (b : Bool) => leBytes 8 (if b then 1 else 0)
    Completes .bypass s (byp s.m) ∧
    Completes .ident s (out 0x10 (leBytes 8 (regVal s.m .IDN_LOT 0) ++ leBytes 8 (regVal s.m .IDN_POS 0) ++
      leBytes 8 (regVal s.m .IDN_SERIAL_LO 0) ++ leBytes 8 (regVal s.m .IDN_SERIAL_HI 0)) s.m) ∧
    Completes .challenge s (out 0x20 (leBytes 32 (challengeVal s.m)) s.m) ∧
    (scopeOk s.m 0 = false → ∀ l b, Completes (.samplePreload l b) s (byp s.m) ∧
      Completes (.extest l b) s (byp s.m)) ∧
    (scopeOk s.m 0 = true → ∀ (l b : List Bool), b.length = 2010 →
      let m : M := { s.m with fresh := s.m.fresh + 1, pins := { s.m.pins with bscan := b } }
      let cells := fun (drive : Nat → Ball → Drive) => leBytes 252 (packBits (captureCells s.m.fresh l drive))
      Completes (.samplePreload l b) s (out 0x02 (cells (fun _ x => ballDrive s.inForce s.m x)) m) ∧
      Completes (.extest l b) s (out 0x03 (cells (scanDrive s.m.pins.bscan)) m)) ∧
    (scopeOk s.m 1 = false → ∀ (c : Fin 4) r d, Completes (.wdbgHalt c) s (byp s.m) ∧
      Completes (.wdbgResume c) s (byp s.m) ∧ Completes (.wdbgStep c) s (byp s.m) ∧
      Completes (.regRd c r) s (byp s.m) ∧ Completes (.regWr c r d) s (byp s.m)) ∧
    (scopeOk s.m 1 = true → ∀ (c : Fin 4), let k := s.m.cpu (wng c.val)
      (k.running = true → let m := s.m.setCpu (wng c.val) { k with dbgHalt := true }
        Completes (.wdbgHalt c) s (out 0x40 (h (m.cpu (wng c.val)).dbgHalt ++ leBytes 8 0) m)) ∧
      (k.running = false → Completes (.wdbgHalt c) s (out 0x40 (h (halted c.val) ++ leBytes 8 0) s.m)) ∧
      (let m := s.m.setCpu (wng c.val) { k with dbgHalt := false }
       Completes (.wdbgResume c) s (out 0x40 (h (m.cpu (wng c.val)).dbgHalt ++ leBytes 8 0) m)) ∧
      (k.dbgHalt = true → Completes (.wdbgStep c) s
        (out 0x40 (h true ++ leBytes 8 0) { s.m with mgt := { s.m.mgt with wdbg := c.val + 1 } })) ∧
      (k.dbgHalt = false → Completes (.wdbgStep c) s (out 0x40 (h false ++ leBytes 8 0) s.m)) ∧
      (∀ r : BitVec 6, 1 ≤ r.toNat → r.toNat < 32 → Completes (.regRd c r) s
        (out 0x40 (h (halted c.val) ++ leBytes 8 (mapGet 0 k.regs (0, r.toNat)).toNat) s.m)) ∧
      (Completes (.regRd c 32) s (out 0x40 (h (halted c.val) ++ leBytes 8 k.pc) s.m)) ∧
      (∀ d, Completes (.regWr c 0 d) s (out 0x40 (h ((s.m.setCpu (wng c.val) k).cpu (wng c.val)).dbgHalt ++ leBytes 8 0)
        (s.m.setCpu (wng c.val) k))) ∧
      (∀ (r : BitVec 6) d, 1 ≤ r.toNat → r.toNat < 32 →
        let m := s.m.setCpu (wng c.val) { k with regs := mapPut k.regs (0, r.toNat) d }
        Completes (.regWr c r d) s (out 0x40 (h (m.cpu (wng c.val)).dbgHalt ++ leBytes 8 0) m))) ∧
    (∀ e, RowTaken s (.trace e) → scopeOk s.m 3 = false → Completes (.trace e) s (byp s.m)) ∧
    (∀ e, RowTaken s (.trace e) → scopeOk s.m 3 = true → Completes (.trace e) s
      (out 0x41 (leBytes 8 (trcPop s.inForce e s.m).1) (trcPop s.inForce e s.m).2)) ∧
    (∀ dr, RowTaken s (.reg dr) → scopeOk s.m 2 = false → Completes (.reg dr) s (byp s.m)) ∧
    (∀ dr, RowTaken s (.reg dr) → scopeOk s.m 2 = true → dr.toNat.testBit 91 = true →
      let m := accWrite s.inForce .owner (dr.toNat / 2 ^ 64 % 2 ^ 27) (leBytes 8 (dr.toNat % 2 ^ 64)) s.m
      let m : M := { m with mgt := { m.mgt with regDone := true } }
      Completes (.reg dr) s (out 0x30 (leBytes 8 m.mgt.regData ++ leBytes 4 (2 ^ 28)) m)) ∧
    (∀ b v x l, s.m.inReset 3 0 = true → Completes (.token b ⟨v, x, l⟩) s
      (let m := out 0x21 [BitVec.ofNat 8 s.m.sec.tokSts] s.m
       out 0x21 [4] { m with sec := { m.sec with tokSts := 4 } })) ∧
    (∀ b v x, s.m.inReset 3 0 = false →
      let w := voteReads s.inForce (tokenWords []) (out 0x21 [BitVec.ofNat 8 s.m.sec.tokSts] s.m)
      let ps := [pathsOf v (tokenForm w.2 b), pathsOf x.die (tokenDie b), pathsOf x.nonce (tokenNonce w.2 b),
        pathsOf x.key (tokenKey w.2 b), pathsOf x.sig (tokenSig b)]
      let ends := fun (n : Nat) (m : M) => Completes (.token b ⟨v, x, []⟩) s
        (out 0x21 [BitVec.ofNat 8 n] (renewChallenge { m with sec := { m.sec with tokSts := n } }))
      (w.1 = false → ends 3 w.2) ∧
      (w.1 = true → ∀ pre u post, ps = pre ++ u :: post → (∀ y ∈ pre, y = ⟨true, true⟩) →
        (u.a ≠ u.b → ends 3 (pathDisagree s.inForce 4 w.2)) ∧ (u = ⟨false, false⟩ → ends 2 w.2)) ∧
      (w.1 = true → (∀ y ∈ ps, y = ⟨true, true⟩) →
        let m : M := (w.2.setFlag .SEC_STS_DEBUG_ACTIVE 0 true).setFld .SEC_STS_DEBUG_SCOPE 0 (leAt b 6 2)
        ends 1 (fire s.inForce 0x017 (leAt b 6 2) { m with sec := { m.sec with debugSeen := true } }))) ∧
    (∀ dr stuck, factoryMode s.m = false → exec (.fuse dr stuck) s = .next { s with
      m := settle s.inForce reactRounds (byp s.m) }) ∧
    (∀ dr : BitVec 24, factoryMode s.m = true → dr.toNat.testBit 13 = true → dr.toNat % 4 < 3 → dr.toNat / 4 % 4 = 2 →
      dr.toNat / 16 % 512 < 64 → s.m.react = [] → ∃ t, exec (.fuse dr []) s = .next t ∧
        (∀ n k b, (t.fuses.copy n).bit k b = true ↔ (s.fuses.copy n).bit k b = true ∨
          ((if n < 2 then n else 2) = dr.toNat % 4 ∧ k = .svn ∧ b = dr.toNat / 16 % 512)) ∧
        t.m = out 0x50 [1] { s.m with mgt := { s.m.mgt with fuseBit := true } })

/-! ### The block as a whole -/

/-- A step takes the command at the front of the queue and runs it on the state with the rest; on an empty queue one cycle
passes (the model's choice: log entries 1 and 2), which on a loom that has no tick, no script and no interrupt under
way changes nothing but the time and the notes of the cycle that ends, and starts a boot when the release of a chip
reset has come (R368). -/
def Obligations.StepTakesTheFront : Prop :=
  (∀ (c : Instr) (q : List Instr) (s : State), step { s with pending := c :: q } = exec c { s with pending := q }) ∧
  (∀ s : State, s.pending = [] → step s = .next (s.upd passCycle)) ∧
  (∀ s : State, s.pending = [] → s.m.tick.on = false → s.m.scripts = [] → s.m.irq.prov = [] → s.m.irq.maskq = [] → s.m.irq.sig = [] →
    s.m.irq.later = [] → (∀ p, (s.m.hostOf p).msgq = [] ∧ s.m.flag .HPT_STS_D3HOT (pinst p 0) = false) → s.m.react = [] →
    let m : M := { s.m with now := s.m.now + 1, cyc := [], irq := { s.m.irq with start := [], did := [] } }
    ((∀ r, s.m.boot.relAt = some r → s.m.now + 1 < r) → step s = .next { s with m := m }) ∧
    (∀ r, s.m.boot.relAt = some r → r ≤ s.m.now + 1 → step s = .next { s with m := startBoot false m }))

/-- Every command completes, in every state, and takes exactly itself from the queue: the loom never stops, and no command
adds or drops another (the loom defines no stop; log entry 1). -/
def Obligations.EveryStepCompletes : Prop :=
  ∀ s : State, ∃ t, step s = .next t ∧ t.pending = s.pending.tail

/-- After power-on reset (R9, R41, R276, R373): every register field holds the value its Reset cell gives, memories,
queues, links, scripts and keys hold nothing, no fuse is blown, no image is in force, and no command waits. Log
entries 3, 7 and 14, on which clauses rest, are the model's choice. -/
def Obligations.ResetValues : Prop :=
  (∀ F i, State.reset.m.fld F i = rstVal F) ∧
  (∀ n k b, (State.reset.fuses.copy n).bit k b = false) ∧
  State.reset.img = Image.empty ∧ State.reset.inForce = Image.empty ∧ State.reset.pending = [] ∧
  State.reset.m.boot.phase = .porst ∧ State.reset.m.scripts = [] ∧ State.reset.m.rings = [] ∧ State.reset.m.chans = [] ∧
  State.reset.m.links = [] ∧ State.reset.m.cpus = [] ∧ State.reset.m.stage = [] ∧ State.reset.m.scratch = [] ∧
  State.reset.m.mem.lines = [] ∧ State.reset.m.mbx = [] ∧ State.reset.m.trc.words = [] ∧ State.reset.m.sec = SecSt.init ∧
  State.reset.m.react = []

/-- Fuses only ever go from unblown to blown (R276), at every step from every state, and only FUSE, ADVANCE_SVN and
DISABLE_DEBUG touch them (R297, R402). -/
def Obligations.FusesOnlyBlow : Prop :=
  ∀ (s t : State), step s = .next t →
    (∀ n k b, (s.fuses.copy n).bit k b = true → (t.fuses.copy n).bit k b = true) ∧
    match s.pending.head? with
    | some (.fuse ..) | some (.advanceSvn ..) | some (.disableDebug ..) => True
    | _ => t.fuses = s.fuses

/-- Where the image in force comes from (R38, R40, R41, R43, R44, R287): the last check of the boot, with the key and the
signature accepted on both paths and every structural check passed, or the return of entropy while step 5 waits, which
applies the image of the copy the boot read; the boot comes from its checks to that wait only with the same key,
signature and structural checks passed on that copy. At every other step, and in particular at every step of a running
loom, the image stays. -/
def Obligations.OnlyVerifiedImages : Prop :=
  (∀ (s t : State), step s = .next t →
    t.img = s.img ∨
    (∃ key sig ent q, s.pending = .signatureVerifyComplete key sig true ent :: q ∧ s.m.boot.phase = .verify ∧
      pathsOf key (imgKeyOk s.m.boot.copy s.m.sec.sensed.hash) = ⟨true, true⟩ ∧ pathsOf sig (imgSigOk s.m.boot.copy) = ⟨true, true⟩ ∧
      imgStep4 s.m.boot.copy (svnSteps s.m.sec.sensed) serialNat = (resAccepted, t.img)) ∨
    (∃ q, s.pending = .entropyHealthRestored :: q ∧ s.m.boot.phase = .wait5 ∧ s.m.boot.entropy = false ∧ t.img = bootImage s.m)) ∧
  (∀ (s t : State) key sig agree ent, exec (.signatureVerifyComplete key sig agree ent) s = .next t →
    s.m.react = [] → s.m.boot.phase = .verify → t.m.boot.phase = .wait5 →
    agree = true ∧ pathsOf key (imgKeyOk s.m.boot.copy s.m.sec.sensed.hash) = ⟨true, true⟩ ∧
    pathsOf sig (imgSigOk s.m.boot.copy) = ⟨true, true⟩ ∧
    imgStep4 s.m.boot.copy (svnSteps s.m.sec.sensed) serialNat = (resAccepted, bootImage t.m) ∧ t.m.boot.copy = s.m.boot.copy)
end

