-- ==== Sys2Proof/Laws/Bytes.lean ====
section
/-! SUPPORT. Byte fields read back from where they were put, and voted reads of words that nothing disturbs. -/

namespace Sys2Proof

/-! ### Bytes -/

@[simp] theorem takePad_length (n : Nat) (l : List Byte) : (takePad n l).length = n := by
  induction n generalizing l with
  | zero => rfl
  | succ n ih => cases l <;> simp [takePad, ih]

@[simp] theorem bytesAt_length (l : List Byte) (o n : Nat) : (bytesAt l o n).length = n := takePad_length _ _

theorem takePad_append (a b : List Byte) : takePad a.length (a ++ b) = a := by
  induction a with
  | nil => rfl
  | cons x a ih => simp [takePad, ih]

/-- A block of bytes reads back from its place. -/
theorem bytesAt_mid (a b c : List Byte) : bytesAt (a ++ (b ++ c)) a.length b.length = b := by
  rw [bytesAt, List.drop_left, takePad_append]

@[simp] theorem leBytes_length (n v : Nat) : (leBytes n v).length = n := by
  induction n generalizing v with
  | zero => rfl
  | succ n ih => simp [leBytes, ih]

/-- Little-endian bytes read back. -/
theorem leVal_leBytes (n v : Nat) (h : v < 256 ^ n) : leVal (leBytes n v) = v := by
  induction n generalizing v with
  | zero => simp [leBytes, leVal]; omega
  | succ n ih =>
    have : v / 256 < 256 ^ n := by rw [Nat.div_lt_iff_lt_mul (by decide)]; rw [pow_succ] at h; omega
    simp [leBytes, leVal, ih _ this, BitVec.toNat_ofNat]
    omega

/-- A field reads back from its place. -/
theorem leAt_mid (a c : List Byte) (n v : Nat) (h : v < 256 ^ n) : leAt (a ++ (leBytes n v ++ c)) a.length n = v := by
  have := bytesAt_mid a (leBytes n v) c
  rw [leBytes_length] at this
  rw [leAt, this, leVal_leBytes n v h]

/-! ### Votes -/

/-- A read of a voted word whose copies agree has no effect (R279). -/
theorem voteRead_agree (im : Image) (w : VWord) (m : M) (u : m.upset = []) (d : m.voteDead = []) :
    voteRead im w .agree m = (true, m) := by
  simp only [voteRead, upsetOf, u, d, List.filter_nil, List.contains_nil]
  cases m
  simp_all [worse]

/-- So does a row of them. -/
theorem voteReads_agree (im : Image) (l : List (VWord × Vote)) (m : M) (u : m.upset = []) (d : m.voteDead = [])
    (h : ∀ e ∈ l, e.2 = .agree) : voteReads im l m = (true, m) := by
  unfold voteReads
  induction l with
  | nil => rfl
  | cons e l ih =>
    have he := h e (by simp)
    simp only [List.foldl_cons, he, voteRead_agree im e.1 m u d, Bool.and_true]
    exact ih (fun x hx => h x (by simp [hx]))

/-- Two paths that both compute rightly agree with the decision. -/
@[simp] theorem pathsOf_right (ok : Bool) : pathsOf ⟨true, true⟩ ok = ⟨ok, ok⟩ := by cases ok <;> rfl

/-- Whatever a decision, the paths can give any two results. -/
@[simp] theorem pathsOf_pathsOf (v : Verdict) (ok : Bool) : pathsOf (pathsOf v ok) ok = v := by
  obtain ⟨a, b⟩ := v
  cases a <;> cases b <;> cases ok <;> rfl

end Sys2Proof
end

