-- ==== Sys2Proof/Laws/Sparse.lean ====
section
/-! SUPPORT. Reading after writing, frames and canonical form of sparse maps and byte memories. -/

namespace Sys2Proof

variable {V : Type}

/-! ### The order of keys -/

theorem keyLt_iff (a b : Key) : keyLt a b = true ↔ a.1 < b.1 ∨ a.1 = b.1 ∧ a.2 < b.2 := by
  simp [keyLt]

theorem keyLt_trans {a b c : Key} (h : keyLt a b = true) (k : keyLt b c = true) : keyLt a c = true := by
  rw [keyLt_iff] at *
  omega

theorem keyLt_of_not {a b : Key} (h : ¬ keyLt a b = true) (n : b ≠ a) : keyLt b a = true := by
  rw [keyLt_iff] at *
  by_contra k
  apply n
  ext <;> omega

/-! ### Maps: read after write -/

theorem mapFind_ins_same (l : Map V) (k : Key) (v : V) (h : mapFind l k = none) : mapFind (mapIns l k v) k = some v := by
  induction l with
  | nil => simp [mapIns, mapFind]
  | cons e t ih =>
    simp only [mapFind] at h
    split at h
    · cases h
    · rename_i n
      simp only [mapIns]
      split
      · simp [mapFind]
      · simp [mapFind, n, ih h]

theorem mapFind_ins_ne (l : Map V) {k j : Key} (v : V) (h : j ≠ k) : mapFind (mapIns l k v) j = mapFind l j := by
  induction l with
  | nil => simp [mapIns, mapFind, h.symm]
  | cons e t ih =>
    simp only [mapIns]
    split
    · simp [mapFind, h.symm]
    · simp only [mapFind, ih]

@[simp] theorem mapFind_del_same (l : Map V) (k : Key) : mapFind (mapDel l k) k = none := by
  induction l with
  | nil => rfl
  | cons e t ih =>
    by_cases h : e.1 = k
    · simpa [mapDel, h] using ih
    · have : mapDel (e :: t) k = e :: mapDel t k := by simp [mapDel, h]
      rw [this]
      simp [mapFind, h, ih]

theorem mapFind_del_ne (l : Map V) {k j : Key} (h : j ≠ k) : mapFind (mapDel l k) j = mapFind l j := by
  induction l with
  | nil => rfl
  | cons e t ih =>
    by_cases n : e.1 = k
    · have : mapDel (e :: t) k = mapDel t k := by simp [mapDel, n]
      rw [this, ih]
      simp [mapFind, n, h.symm]
    · have : mapDel (e :: t) k = e :: mapDel t k := by simp [mapDel, n]
      rw [this]
      simp only [mapFind, ih]

@[simp] theorem mapFind_put_same (l : Map V) (k : Key) (v : V) : mapFind (mapPut l k v) k = some v :=
  mapFind_ins_same _ _ _ (mapFind_del_same l k)

theorem mapFind_put_ne (l : Map V) {k j : Key} (v : V) (h : j ≠ k) : mapFind (mapPut l k v) j = mapFind l j := by
  rw [mapPut, mapFind_ins_ne _ _ h, mapFind_del_ne _ h]

@[simp] theorem mapGet_put_same (d : V) (l : Map V) (k : Key) (v : V) : mapGet d (mapPut l k v) k = v := by
  simp [mapGet]

theorem mapGet_put_ne (d : V) (l : Map V) {k j : Key} (v : V) (h : j ≠ k) : mapGet d (mapPut l k v) j = mapGet d l j := by
  simp [mapGet, mapFind_put_ne l v h]

@[simp] theorem mapGet_del_same (d : V) (l : Map V) (k : Key) : mapGet d (mapDel l k) k = d := by
  simp [mapGet]

theorem mapGet_del_ne (d : V) (l : Map V) {k j : Key} (h : j ≠ k) : mapGet d (mapDel l k) j = mapGet d l j := by
  simp [mapGet, mapFind_del_ne l h]

@[simp] theorem mapGet_nil (d : V) (k : Key) : mapGet d [] k = d := rfl

/-! ### Maps: canonical form -/

theorem mem_mapIns {l : Map V} {k : Key} {v : V} {x : Key × V} (h : x ∈ mapIns l k v) : x = (k, v) ∨ x ∈ l := by
  induction l with
  | nil => simpa [mapIns] using h
  | cons e t ih =>
    simp only [mapIns] at h
    split at h
    · simpa using h
    · rcases List.mem_cons.1 h with rfl | h
      · simp
      · rcases ih h with h | h <;> simp [h]

theorem mapWf_iff (l : Map V) : mapWf l = true ↔ l.Pairwise (fun a b => keyLt a.1 b.1 = true) := by
  simp only [mapWf, decide_eq_true_eq]

theorem mapWf_del {l : Map V} (h : mapWf l = true) (k : Key) : mapWf (mapDel l k) = true := by
  rw [mapWf_iff] at *
  exact h.filter _

theorem mapPairwise_ins {l : Map V} {k : Key} (v : V) (h : l.Pairwise (fun a b => keyLt a.1 b.1 = true))
    (n : ∀ e ∈ l, e.1 ≠ k) : (mapIns l k v).Pairwise (fun a b => keyLt a.1 b.1 = true) := by
  induction l with
  | nil => simp [mapIns]
  | cons e t ih =>
    obtain ⟨h1, h2⟩ := List.pairwise_cons.1 h
    simp only [mapIns]
    split
    · rename_i c
      refine List.pairwise_cons.2 ⟨fun x m => ?_, h⟩
      rcases List.mem_cons.1 m with rfl | m
      · exact c
      · exact keyLt_trans c (h1 x m)
    · rename_i c
      refine List.pairwise_cons.2 ⟨fun x m => ?_, ih h2 (fun y m => n y (List.mem_cons_of_mem _ m))⟩
      rcases mem_mapIns m with rfl | m
      · exact keyLt_of_not c (n e (List.mem_cons_self ..))
      · exact h1 x m

theorem mapWf_put {l : Map V} (h : mapWf l = true) (k : Key) (v : V) : mapWf (mapPut l k v) = true := by
  refine (mapWf_iff _).2 (mapPairwise_ins v ((mapWf_iff _).1 (mapWf_del h k)) (fun e m => ?_))
  simpa using (List.mem_filter.1 m).2

/-! ### Memories: read after write -/

theorem memGet_ins_ne (l : Mem) {a x : Nat} (b : Byte) (h : x ≠ a) : memGet (memIns l a b) x = memGet l x := by
  induction l with
  | nil => simp [memIns, memGet, h.symm]
  | cons e t ih =>
    simp only [memIns]
    split
    · simp [memGet, h.symm]
    · simp only [memGet, ih]

theorem memGet_del_same (l : Mem) (a : Nat) : memGet (memDel l a) a = 0 := by
  induction l with
  | nil => rfl
  | cons e t ih =>
    by_cases h : e.1 = a
    · simpa [memDel, h] using ih
    · have : memDel (e :: t) a = e :: memDel t a := by simp [memDel, h]
      rw [this]
      simp [memGet, h, ih]

theorem memGet_del_ne (l : Mem) {a x : Nat} (h : x ≠ a) : memGet (memDel l a) x = memGet l x := by
  induction l with
  | nil => rfl
  | cons e t ih =>
    by_cases n : e.1 = a
    · have : memDel (e :: t) a = memDel t a := by simp [memDel, n]
      rw [this, ih]
      simp [memGet, n, h.symm]
    · have : memDel (e :: t) a = e :: memDel t a := by simp [memDel, n]
      rw [this]
      simp only [memGet, ih]

theorem memGet_ins_same (l : Mem) (a : Nat) (b : Byte) (n : ∀ e ∈ l, e.1 ≠ a) : memGet (memIns l a b) a = b := by
  induction l with
  | nil => simp [memIns, memGet]
  | cons e t ih =>
    simp only [memIns]
    split
    · simp [memGet]
    · simp [memGet, n e (List.mem_cons_self ..), ih (fun y m => n y (List.mem_cons_of_mem _ m))]

theorem memDel_ne {l : Mem} {a : Nat} : ∀ e ∈ memDel l a, e.1 ≠ a := by
  intro e m
  simpa using (List.mem_filter.1 m).2

@[simp] theorem memGet_set_same (l : Mem) (a : Nat) (b : Byte) : memGet (memSet l a b) a = b := by
  simp only [memSet]
  split
  · rename_i h
    rw [memGet_del_same, h]
  · exact memGet_ins_same _ _ _ memDel_ne

theorem memGet_set_ne (l : Mem) {a x : Nat} (b : Byte) (h : x ≠ a) : memGet (memSet l a b) x = memGet l x := by
  simp only [memSet]
  split
  · exact memGet_del_ne _ h
  · rw [memGet_ins_ne _ _ h, memGet_del_ne _ h]

theorem memGet_write_out (l : Mem) (a x : Nat) (b : List Byte) (h : x < a ∨ a + b.length ≤ x) :
    memGet (memWrite l a b) x = memGet l x := by
  induction b generalizing l a with
  | nil => rfl
  | cons c t ih =>
    simp only [List.length_cons] at h
    rw [memWrite, ih _ _ (by omega), memGet_set_ne _ _ (by omega)]

theorem memGet_write_in (l : Mem) (a i : Nat) (b : List Byte) (h : i < b.length) :
    memGet (memWrite l a b) (a + i) = b[i] := by
  induction b generalizing l a i with
  | nil => simp at h
  | cons c t ih =>
    rw [memWrite]
    cases i with
    | zero => rw [memGet_write_out _ _ _ _ (by omega)]; simp
    | succ i =>
      have := ih (memSet l a c) (a + 1) i (by simpa using h)
      rw [show a + (i + 1) = a + 1 + i by omega, this]
      rfl

theorem memGet_clear (l : Mem) (a n x : Nat) :
    memGet (memClear l a n) x = if a ≤ x ∧ x < a + n then 0 else memGet l x := by
  induction l with
  | nil => simp [memClear, memGet]
  | cons e t ih =>
    by_cases h : a ≤ e.1 ∧ e.1 < a + n
    · have : memClear (e :: t) a n = memClear t a n := by simp [memClear, h]
      rw [this, ih, memGet]
      split
      · rfl
      · split
        · subst_vars; contradiction
        · rfl
    · have : memClear (e :: t) a n = e :: memClear t a n := by
        simp only [memClear, List.filter_cons, h, not_false_eq_true, decide_true, if_true]
      rw [this, memGet, memGet, ih]
      split
      · subst_vars; simp [h]
      · rfl

/-! ### Memories: canonical form -/

theorem mem_memIns {l : Mem} {a : Nat} {b : Byte} {x : Host.Cell} (h : x ∈ memIns l a b) : x = (a, b) ∨ x ∈ l := by
  induction l with
  | nil => simpa [memIns] using h
  | cons e t ih =>
    simp only [memIns] at h
    split at h
    · simpa using h
    · rcases List.mem_cons.1 h with rfl | h
      · simp
      · rcases ih h with h | h <;> simp [h]

theorem memWf_iff (l : Mem) : memWf l = true ↔ l.Pairwise (fun a b => a.1 < b.1) ∧ ∀ e ∈ l, e.2 ≠ 0 := by
  simp [memWf]

theorem memWf_filter {l : Mem} (h : memWf l = true) (p : Host.Cell → Bool) : memWf (l.filter p) = true := by
  rw [memWf_iff] at *
  exact ⟨h.1.filter _, fun e m => h.2 e (List.mem_filter.1 m).1⟩

theorem memWf_del {l : Mem} (h : memWf l = true) (a : Nat) : memWf (memDel l a) = true := memWf_filter h _

theorem memWf_clear {l : Mem} (h : memWf l = true) (a n : Nat) : memWf (memClear l a n) = true := memWf_filter h _

theorem memPairwise_ins {l : Mem} {a : Nat} (b : Byte) (h : l.Pairwise (fun x y => x.1 < y.1)) (n : ∀ e ∈ l, e.1 ≠ a) :
    (memIns l a b).Pairwise (fun x y => x.1 < y.1) := by
  induction l with
  | nil => simp [memIns]
  | cons e t ih =>
    obtain ⟨h1, h2⟩ := List.pairwise_cons.1 h
    simp only [memIns]
    split
    · rename_i c
      refine List.pairwise_cons.2 ⟨fun x m => ?_, h⟩
      rcases List.mem_cons.1 m with rfl | m
      · exact c
      · exact Nat.lt_trans c (h1 x m)
    · rename_i c
      refine List.pairwise_cons.2 ⟨fun x m => ?_, ih h2 (fun y m => n y (List.mem_cons_of_mem _ m))⟩
      rcases mem_memIns m with rfl | m
      · have := n e (List.mem_cons_self ..)
        simp only at *
        omega
      · exact h1 x m

theorem memWf_set {l : Mem} (h : memWf l = true) (a : Nat) (b : Byte) : memWf (memSet l a b) = true := by
  simp only [memSet]
  split
  · exact memWf_del h a
  · rename_i nz
    have d := (memWf_iff _).1 (memWf_del h a)
    refine (memWf_iff _).2 ⟨memPairwise_ins b d.1 memDel_ne, fun e m => ?_⟩
    rcases mem_memIns m with rfl | m
    · exact nz
    · exact d.2 e m

theorem memWf_write {l : Mem} (h : memWf l = true) (a : Nat) (b : List Byte) : memWf (memWrite l a b) = true := by
  induction b generalizing l a with
  | nil => exact h
  | cons c t ih => exact ih (memWf_set h a c) (a + 1)

end Sys2Proof
end

