-- ==== Sys2Proof/Laws/State.lean ====
section
/-! SUPPORT. What each update of the state leaves alone, and what reads back what it wrote: one lemma per field and
update. -/

namespace Sys2Proof

/-! ### setFld -/

section

variable (m : M) (F : Fld) (i v : Nat)

@[simp] theorem M.setFld_cyc : (m.setFld F i v).cyc = m.cyc := rfl
@[simp] theorem M.setFld_now : (m.setFld F i v).now = m.now := rfl
@[simp] theorem M.setFld_fresh : (m.setFld F i v).fresh = m.fresh := rfl
@[simp] theorem M.setFld_out : (m.setFld F i v).out = m.out := rfl
@[simp] theorem M.setFld_react : (m.setFld F i v).react = m.react := rfl
@[simp] theorem M.setFld_boot : (m.setFld F i v).boot = m.boot := rfl
@[simp] theorem M.setFld_pins : (m.setFld F i v).pins = m.pins := rfl
@[simp] theorem M.setFld_tick : (m.setFld F i v).tick = m.tick := rfl
@[simp] theorem M.setFld_bud : (m.setFld F i v).bud = m.bud := rfl
@[simp] theorem M.setFld_brst : (m.setFld F i v).brst = m.brst := rfl
@[simp] theorem M.setFld_quiet : (m.setFld F i v).quiet = m.quiet := rfl
@[simp] theorem M.setFld_held : (m.setFld F i v).held = m.held := rfl
@[simp] theorem M.setFld_asks : (m.setFld F i v).asks = m.asks := rfl
@[simp] theorem M.setFld_irq : (m.setFld F i v).irq = m.irq := rfl
@[simp] theorem M.setFld_host : (m.setFld F i v).host = m.host := rfl
@[simp] theorem M.setFld_rings : (m.setFld F i v).rings = m.rings := rfl
@[simp] theorem M.setFld_dispq : (m.setFld F i v).dispq = m.dispq := rfl
@[simp] theorem M.setFld_lastRing : (m.setFld F i v).lastRing = m.lastRing := rfl
@[simp] theorem M.setFld_scripts : (m.setFld F i v).scripts = m.scripts := rfl
@[simp] theorem M.setFld_waits : (m.setFld F i v).waits = m.waits := rfl
@[simp] theorem M.setFld_attn : (m.setFld F i v).attn = m.attn := rfl
@[simp] theorem M.setFld_rhs : (m.setFld F i v).rhs = m.rhs := rfl
@[simp] theorem M.setFld_chans : (m.setFld F i v).chans = m.chans := rfl
@[simp] theorem M.setFld_subq : (m.setFld F i v).subq = m.subq := rfl
@[simp] theorem M.setFld_eng : (m.setFld F i v).eng = m.eng := rfl
@[simp] theorem M.setFld_cpus : (m.setFld F i v).cpus = m.cpus := rfl
@[simp] theorem M.setFld_served : (m.setFld F i v).served = m.served := rfl
@[simp] theorem M.setFld_scratch : (m.setFld F i v).scratch = m.scratch := rfl
@[simp] theorem M.setFld_stage : (m.setFld F i v).stage = m.stage := rfl
@[simp] theorem M.setFld_div : (m.setFld F i v).div = m.div := rfl
@[simp] theorem M.setFld_links : (m.setFld F i v).links = m.links := rfl
@[simp] theorem M.setFld_sec : (m.setFld F i v).sec = m.sec := rfl
@[simp] theorem M.setFld_voteDead : (m.setFld F i v).voteDead = m.voteDead := rfl
@[simp] theorem M.setFld_upset : (m.setFld F i v).upset = m.upset := rfl
@[simp] theorem M.setFld_glitch : (m.setFld F i v).glitch = m.glitch := rfl
@[simp] theorem M.setFld_mem : (m.setFld F i v).mem = m.mem := rfl
@[simp] theorem M.setFld_mbx : (m.setFld F i v).mbx = m.mbx := rfl
@[simp] theorem M.setFld_evt : (m.setFld F i v).evt = m.evt := rfl
@[simp] theorem M.setFld_trc : (m.setFld F i v).trc = m.trc := rfl
@[simp] theorem M.setFld_mgt : (m.setFld F i v).mgt = m.mgt := rfl
@[simp] theorem M.setFld_hostOf (q : Nat) : (m.setFld F i v).hostOf q = m.hostOf q := rfl
@[simp] theorem M.setFld_ring (q j : Nat) : (m.setFld F i v).ring q j = m.ring q j := rfl
@[simp] theorem M.setFld_chan (j : Nat) : (m.setFld F i v).chan j = m.chan j := rfl
@[simp] theorem M.setFld_cpu (j : Key) : (m.setFld F i v).cpu j = m.cpu j := rfl
@[simp] theorem M.setFld_link (j : Nat) : (m.setFld F i v).link j = m.link j := rfl
@[simp] theorem M.setFld_script (q j : Nat) : (m.setFld F i v).script q j = m.script q j := rfl
@[simp] theorem M.setFld_rh (q j : Nat) : (m.setFld F i v).rh q j = m.rh q j := rfl
@[simp] theorem M.setFld_queue (q j : Nat) : (m.setFld F i v).queue q j = m.queue q j := rfl
@[simp] theorem M.setFld_mbxOf (q j : Nat) : (m.setFld F i v).mbxOf q j = m.mbxOf q j := rfl
@[simp] theorem M.setFld_inForce (a j : Nat) : (m.setFld F i v).inForce a j = m.inForce a j := rfl
@[simp] theorem M.setFld_left (a j : Nat) : (m.setFld F i v).left a j = m.left a j := rfl
@[simp] theorem M.setFld_inReset (a j : Nat) : (m.setFld F i v).inReset a j = m.inReset a j := rfl
@[simp] theorem M.setFld_lastServed (j : Nat) : (m.setFld F i v).lastServed j = m.lastServed j := rfl

end

/-! ### setFlag -/

section

variable (m : M) (F : Fld) (i : Nat) (b : Bool)

@[simp] theorem M.setFlag_now : (m.setFlag F i b).now = m.now := rfl
@[simp] theorem M.setFlag_fresh : (m.setFlag F i b).fresh = m.fresh := rfl
@[simp] theorem M.setFlag_out : (m.setFlag F i b).out = m.out := rfl
@[simp] theorem M.setFlag_react : (m.setFlag F i b).react = m.react := rfl
@[simp] theorem M.setFlag_boot : (m.setFlag F i b).boot = m.boot := rfl
@[simp] theorem M.setFlag_pins : (m.setFlag F i b).pins = m.pins := rfl
@[simp] theorem M.setFlag_tick : (m.setFlag F i b).tick = m.tick := rfl
@[simp] theorem M.setFlag_bud : (m.setFlag F i b).bud = m.bud := rfl
@[simp] theorem M.setFlag_brst : (m.setFlag F i b).brst = m.brst := rfl
@[simp] theorem M.setFlag_quiet : (m.setFlag F i b).quiet = m.quiet := rfl
@[simp] theorem M.setFlag_held : (m.setFlag F i b).held = m.held := rfl
@[simp] theorem M.setFlag_asks : (m.setFlag F i b).asks = m.asks := rfl
@[simp] theorem M.setFlag_irq : (m.setFlag F i b).irq = m.irq := rfl
@[simp] theorem M.setFlag_host : (m.setFlag F i b).host = m.host := rfl
@[simp] theorem M.setFlag_rings : (m.setFlag F i b).rings = m.rings := rfl
@[simp] theorem M.setFlag_dispq : (m.setFlag F i b).dispq = m.dispq := rfl
@[simp] theorem M.setFlag_lastRing : (m.setFlag F i b).lastRing = m.lastRing := rfl
@[simp] theorem M.setFlag_scripts : (m.setFlag F i b).scripts = m.scripts := rfl
@[simp] theorem M.setFlag_waits : (m.setFlag F i b).waits = m.waits := rfl
@[simp] theorem M.setFlag_attn : (m.setFlag F i b).attn = m.attn := rfl
@[simp] theorem M.setFlag_rhs : (m.setFlag F i b).rhs = m.rhs := rfl
@[simp] theorem M.setFlag_chans : (m.setFlag F i b).chans = m.chans := rfl
@[simp] theorem M.setFlag_subq : (m.setFlag F i b).subq = m.subq := rfl
@[simp] theorem M.setFlag_eng : (m.setFlag F i b).eng = m.eng := rfl
@[simp] theorem M.setFlag_cpus : (m.setFlag F i b).cpus = m.cpus := rfl
@[simp] theorem M.setFlag_served : (m.setFlag F i b).served = m.served := rfl
@[simp] theorem M.setFlag_scratch : (m.setFlag F i b).scratch = m.scratch := rfl
@[simp] theorem M.setFlag_stage : (m.setFlag F i b).stage = m.stage := rfl
@[simp] theorem M.setFlag_div : (m.setFlag F i b).div = m.div := rfl
@[simp] theorem M.setFlag_links : (m.setFlag F i b).links = m.links := rfl
@[simp] theorem M.setFlag_sec : (m.setFlag F i b).sec = m.sec := rfl
@[simp] theorem M.setFlag_voteDead : (m.setFlag F i b).voteDead = m.voteDead := rfl
@[simp] theorem M.setFlag_upset : (m.setFlag F i b).upset = m.upset := rfl
@[simp] theorem M.setFlag_glitch : (m.setFlag F i b).glitch = m.glitch := rfl
@[simp] theorem M.setFlag_mem : (m.setFlag F i b).mem = m.mem := rfl
@[simp] theorem M.setFlag_mbx : (m.setFlag F i b).mbx = m.mbx := rfl
@[simp] theorem M.setFlag_evt : (m.setFlag F i b).evt = m.evt := rfl
@[simp] theorem M.setFlag_trc : (m.setFlag F i b).trc = m.trc := rfl
@[simp] theorem M.setFlag_mgt : (m.setFlag F i b).mgt = m.mgt := rfl
@[simp] theorem M.setFlag_hostOf (q : Nat) : (m.setFlag F i b).hostOf q = m.hostOf q := rfl
@[simp] theorem M.setFlag_ring (q j : Nat) : (m.setFlag F i b).ring q j = m.ring q j := rfl
@[simp] theorem M.setFlag_chan (j : Nat) : (m.setFlag F i b).chan j = m.chan j := rfl
@[simp] theorem M.setFlag_cpu (j : Key) : (m.setFlag F i b).cpu j = m.cpu j := rfl
@[simp] theorem M.setFlag_link (j : Nat) : (m.setFlag F i b).link j = m.link j := rfl
@[simp] theorem M.setFlag_script (q j : Nat) : (m.setFlag F i b).script q j = m.script q j := rfl
@[simp] theorem M.setFlag_rh (q j : Nat) : (m.setFlag F i b).rh q j = m.rh q j := rfl
@[simp] theorem M.setFlag_queue (q j : Nat) : (m.setFlag F i b).queue q j = m.queue q j := rfl
@[simp] theorem M.setFlag_mbxOf (q j : Nat) : (m.setFlag F i b).mbxOf q j = m.mbxOf q j := rfl
@[simp] theorem M.setFlag_inForce (a j : Nat) : (m.setFlag F i b).inForce a j = m.inForce a j := rfl
@[simp] theorem M.setFlag_left (a j : Nat) : (m.setFlag F i b).left a j = m.left a j := rfl
@[simp] theorem M.setFlag_inReset (a j : Nat) : (m.setFlag F i b).inReset a j = m.inReset a j := rfl
@[simp] theorem M.setFlag_lastServed (j : Nat) : (m.setFlag F i b).lastServed j = m.lastServed j := rfl

end

/-! ### rstFld -/

section

variable (m : M) (F : Fld) (i : Nat)

@[simp] theorem M.rstFld_now : (m.rstFld F i).now = m.now := rfl
@[simp] theorem M.rstFld_fresh : (m.rstFld F i).fresh = m.fresh := rfl
@[simp] theorem M.rstFld_out : (m.rstFld F i).out = m.out := rfl
@[simp] theorem M.rstFld_react : (m.rstFld F i).react = m.react := rfl
@[simp] theorem M.rstFld_boot : (m.rstFld F i).boot = m.boot := rfl
@[simp] theorem M.rstFld_pins : (m.rstFld F i).pins = m.pins := rfl
@[simp] theorem M.rstFld_tick : (m.rstFld F i).tick = m.tick := rfl
@[simp] theorem M.rstFld_bud : (m.rstFld F i).bud = m.bud := rfl
@[simp] theorem M.rstFld_brst : (m.rstFld F i).brst = m.brst := rfl
@[simp] theorem M.rstFld_quiet : (m.rstFld F i).quiet = m.quiet := rfl
@[simp] theorem M.rstFld_held : (m.rstFld F i).held = m.held := rfl
@[simp] theorem M.rstFld_asks : (m.rstFld F i).asks = m.asks := rfl
@[simp] theorem M.rstFld_irq : (m.rstFld F i).irq = m.irq := rfl
@[simp] theorem M.rstFld_host : (m.rstFld F i).host = m.host := rfl
@[simp] theorem M.rstFld_rings : (m.rstFld F i).rings = m.rings := rfl
@[simp] theorem M.rstFld_dispq : (m.rstFld F i).dispq = m.dispq := rfl
@[simp] theorem M.rstFld_lastRing : (m.rstFld F i).lastRing = m.lastRing := rfl
@[simp] theorem M.rstFld_scripts : (m.rstFld F i).scripts = m.scripts := rfl
@[simp] theorem M.rstFld_waits : (m.rstFld F i).waits = m.waits := rfl
@[simp] theorem M.rstFld_attn : (m.rstFld F i).attn = m.attn := rfl
@[simp] theorem M.rstFld_rhs : (m.rstFld F i).rhs = m.rhs := rfl
@[simp] theorem M.rstFld_chans : (m.rstFld F i).chans = m.chans := rfl
@[simp] theorem M.rstFld_subq : (m.rstFld F i).subq = m.subq := rfl
@[simp] theorem M.rstFld_eng : (m.rstFld F i).eng = m.eng := rfl
@[simp] theorem M.rstFld_cpus : (m.rstFld F i).cpus = m.cpus := rfl
@[simp] theorem M.rstFld_served : (m.rstFld F i).served = m.served := rfl
@[simp] theorem M.rstFld_scratch : (m.rstFld F i).scratch = m.scratch := rfl
@[simp] theorem M.rstFld_stage : (m.rstFld F i).stage = m.stage := rfl
@[simp] theorem M.rstFld_div : (m.rstFld F i).div = m.div := rfl
@[simp] theorem M.rstFld_links : (m.rstFld F i).links = m.links := rfl
@[simp] theorem M.rstFld_sec : (m.rstFld F i).sec = m.sec := rfl
@[simp] theorem M.rstFld_voteDead : (m.rstFld F i).voteDead = m.voteDead := rfl
@[simp] theorem M.rstFld_upset : (m.rstFld F i).upset = m.upset := rfl
@[simp] theorem M.rstFld_glitch : (m.rstFld F i).glitch = m.glitch := rfl
@[simp] theorem M.rstFld_mem : (m.rstFld F i).mem = m.mem := rfl
@[simp] theorem M.rstFld_mbx : (m.rstFld F i).mbx = m.mbx := rfl
@[simp] theorem M.rstFld_evt : (m.rstFld F i).evt = m.evt := rfl
@[simp] theorem M.rstFld_trc : (m.rstFld F i).trc = m.trc := rfl
@[simp] theorem M.rstFld_mgt : (m.rstFld F i).mgt = m.mgt := rfl
@[simp] theorem M.rstFld_hostOf (q : Nat) : (m.rstFld F i).hostOf q = m.hostOf q := rfl
@[simp] theorem M.rstFld_ring (q j : Nat) : (m.rstFld F i).ring q j = m.ring q j := rfl
@[simp] theorem M.rstFld_chan (j : Nat) : (m.rstFld F i).chan j = m.chan j := rfl
@[simp] theorem M.rstFld_cpu (j : Key) : (m.rstFld F i).cpu j = m.cpu j := rfl
@[simp] theorem M.rstFld_link (j : Nat) : (m.rstFld F i).link j = m.link j := rfl
@[simp] theorem M.rstFld_script (q j : Nat) : (m.rstFld F i).script q j = m.script q j := rfl
@[simp] theorem M.rstFld_rh (q j : Nat) : (m.rstFld F i).rh q j = m.rh q j := rfl
@[simp] theorem M.rstFld_queue (q j : Nat) : (m.rstFld F i).queue q j = m.queue q j := rfl
@[simp] theorem M.rstFld_mbxOf (q j : Nat) : (m.rstFld F i).mbxOf q j = m.mbxOf q j := rfl
@[simp] theorem M.rstFld_inForce (a j : Nat) : (m.rstFld F i).inForce a j = m.inForce a j := rfl
@[simp] theorem M.rstFld_left (a j : Nat) : (m.rstFld F i).left a j = m.left a j := rfl
@[simp] theorem M.rstFld_inReset (a j : Nat) : (m.rstFld F i).inReset a j = m.inReset a j := rfl
@[simp] theorem M.rstFld_lastServed (j : Nat) : (m.rstFld F i).lastServed j = m.lastServed j := rfl

end

/-! ### bumpN -/

section

variable (m : M) (F : Fld) (i n : Nat)

@[simp] theorem M.bumpN_now : (m.bumpN F i n).now = m.now := rfl
@[simp] theorem M.bumpN_fresh : (m.bumpN F i n).fresh = m.fresh := rfl
@[simp] theorem M.bumpN_out : (m.bumpN F i n).out = m.out := rfl
@[simp] theorem M.bumpN_react : (m.bumpN F i n).react = m.react := rfl
@[simp] theorem M.bumpN_boot : (m.bumpN F i n).boot = m.boot := rfl
@[simp] theorem M.bumpN_pins : (m.bumpN F i n).pins = m.pins := rfl
@[simp] theorem M.bumpN_tick : (m.bumpN F i n).tick = m.tick := rfl
@[simp] theorem M.bumpN_bud : (m.bumpN F i n).bud = m.bud := rfl
@[simp] theorem M.bumpN_brst : (m.bumpN F i n).brst = m.brst := rfl
@[simp] theorem M.bumpN_quiet : (m.bumpN F i n).quiet = m.quiet := rfl
@[simp] theorem M.bumpN_held : (m.bumpN F i n).held = m.held := rfl
@[simp] theorem M.bumpN_asks : (m.bumpN F i n).asks = m.asks := rfl
@[simp] theorem M.bumpN_irq : (m.bumpN F i n).irq = m.irq := rfl
@[simp] theorem M.bumpN_host : (m.bumpN F i n).host = m.host := rfl
@[simp] theorem M.bumpN_rings : (m.bumpN F i n).rings = m.rings := rfl
@[simp] theorem M.bumpN_dispq : (m.bumpN F i n).dispq = m.dispq := rfl
@[simp] theorem M.bumpN_lastRing : (m.bumpN F i n).lastRing = m.lastRing := rfl
@[simp] theorem M.bumpN_scripts : (m.bumpN F i n).scripts = m.scripts := rfl
@[simp] theorem M.bumpN_waits : (m.bumpN F i n).waits = m.waits := rfl
@[simp] theorem M.bumpN_attn : (m.bumpN F i n).attn = m.attn := rfl
@[simp] theorem M.bumpN_rhs : (m.bumpN F i n).rhs = m.rhs := rfl
@[simp] theorem M.bumpN_chans : (m.bumpN F i n).chans = m.chans := rfl
@[simp] theorem M.bumpN_subq : (m.bumpN F i n).subq = m.subq := rfl
@[simp] theorem M.bumpN_eng : (m.bumpN F i n).eng = m.eng := rfl
@[simp] theorem M.bumpN_cpus : (m.bumpN F i n).cpus = m.cpus := rfl
@[simp] theorem M.bumpN_served : (m.bumpN F i n).served = m.served := rfl
@[simp] theorem M.bumpN_scratch : (m.bumpN F i n).scratch = m.scratch := rfl
@[simp] theorem M.bumpN_stage : (m.bumpN F i n).stage = m.stage := rfl
@[simp] theorem M.bumpN_div : (m.bumpN F i n).div = m.div := rfl
@[simp] theorem M.bumpN_links : (m.bumpN F i n).links = m.links := rfl
@[simp] theorem M.bumpN_sec : (m.bumpN F i n).sec = m.sec := rfl
@[simp] theorem M.bumpN_voteDead : (m.bumpN F i n).voteDead = m.voteDead := rfl
@[simp] theorem M.bumpN_upset : (m.bumpN F i n).upset = m.upset := rfl
@[simp] theorem M.bumpN_glitch : (m.bumpN F i n).glitch = m.glitch := rfl
@[simp] theorem M.bumpN_mem : (m.bumpN F i n).mem = m.mem := rfl
@[simp] theorem M.bumpN_mbx : (m.bumpN F i n).mbx = m.mbx := rfl
@[simp] theorem M.bumpN_evt : (m.bumpN F i n).evt = m.evt := rfl
@[simp] theorem M.bumpN_trc : (m.bumpN F i n).trc = m.trc := rfl
@[simp] theorem M.bumpN_mgt : (m.bumpN F i n).mgt = m.mgt := rfl
@[simp] theorem M.bumpN_hostOf (q : Nat) : (m.bumpN F i n).hostOf q = m.hostOf q := rfl
@[simp] theorem M.bumpN_ring (q j : Nat) : (m.bumpN F i n).ring q j = m.ring q j := rfl
@[simp] theorem M.bumpN_chan (j : Nat) : (m.bumpN F i n).chan j = m.chan j := rfl
@[simp] theorem M.bumpN_cpu (j : Key) : (m.bumpN F i n).cpu j = m.cpu j := rfl
@[simp] theorem M.bumpN_link (j : Nat) : (m.bumpN F i n).link j = m.link j := rfl
@[simp] theorem M.bumpN_script (q j : Nat) : (m.bumpN F i n).script q j = m.script q j := rfl
@[simp] theorem M.bumpN_rh (q j : Nat) : (m.bumpN F i n).rh q j = m.rh q j := rfl
@[simp] theorem M.bumpN_queue (q j : Nat) : (m.bumpN F i n).queue q j = m.queue q j := rfl
@[simp] theorem M.bumpN_mbxOf (q j : Nat) : (m.bumpN F i n).mbxOf q j = m.mbxOf q j := rfl
@[simp] theorem M.bumpN_inForce (a j : Nat) : (m.bumpN F i n).inForce a j = m.inForce a j := rfl
@[simp] theorem M.bumpN_left (a j : Nat) : (m.bumpN F i n).left a j = m.left a j := rfl
@[simp] theorem M.bumpN_inReset (a j : Nat) : (m.bumpN F i n).inReset a j = m.inReset a j := rfl
@[simp] theorem M.bumpN_lastServed (j : Nat) : (m.bumpN F i n).lastServed j = m.lastServed j := rfl

end

/-! ### bump -/

section

variable (m : M) (F : Fld) (i : Nat)

@[simp] theorem M.bump_now : (m.bump F i).now = m.now := rfl
@[simp] theorem M.bump_fresh : (m.bump F i).fresh = m.fresh := rfl
@[simp] theorem M.bump_out : (m.bump F i).out = m.out := rfl
@[simp] theorem M.bump_react : (m.bump F i).react = m.react := rfl
@[simp] theorem M.bump_boot : (m.bump F i).boot = m.boot := rfl
@[simp] theorem M.bump_pins : (m.bump F i).pins = m.pins := rfl
@[simp] theorem M.bump_tick : (m.bump F i).tick = m.tick := rfl
@[simp] theorem M.bump_bud : (m.bump F i).bud = m.bud := rfl
@[simp] theorem M.bump_brst : (m.bump F i).brst = m.brst := rfl
@[simp] theorem M.bump_quiet : (m.bump F i).quiet = m.quiet := rfl
@[simp] theorem M.bump_held : (m.bump F i).held = m.held := rfl
@[simp] theorem M.bump_asks : (m.bump F i).asks = m.asks := rfl
@[simp] theorem M.bump_irq : (m.bump F i).irq = m.irq := rfl
@[simp] theorem M.bump_host : (m.bump F i).host = m.host := rfl
@[simp] theorem M.bump_rings : (m.bump F i).rings = m.rings := rfl
@[simp] theorem M.bump_dispq : (m.bump F i).dispq = m.dispq := rfl
@[simp] theorem M.bump_lastRing : (m.bump F i).lastRing = m.lastRing := rfl
@[simp] theorem M.bump_scripts : (m.bump F i).scripts = m.scripts := rfl
@[simp] theorem M.bump_waits : (m.bump F i).waits = m.waits := rfl
@[simp] theorem M.bump_attn : (m.bump F i).attn = m.attn := rfl
@[simp] theorem M.bump_rhs : (m.bump F i).rhs = m.rhs := rfl
@[simp] theorem M.bump_chans : (m.bump F i).chans = m.chans := rfl
@[simp] theorem M.bump_subq : (m.bump F i).subq = m.subq := rfl
@[simp] theorem M.bump_eng : (m.bump F i).eng = m.eng := rfl
@[simp] theorem M.bump_cpus : (m.bump F i).cpus = m.cpus := rfl
@[simp] theorem M.bump_served : (m.bump F i).served = m.served := rfl
@[simp] theorem M.bump_scratch : (m.bump F i).scratch = m.scratch := rfl
@[simp] theorem M.bump_stage : (m.bump F i).stage = m.stage := rfl
@[simp] theorem M.bump_div : (m.bump F i).div = m.div := rfl
@[simp] theorem M.bump_links : (m.bump F i).links = m.links := rfl
@[simp] theorem M.bump_sec : (m.bump F i).sec = m.sec := rfl
@[simp] theorem M.bump_voteDead : (m.bump F i).voteDead = m.voteDead := rfl
@[simp] theorem M.bump_upset : (m.bump F i).upset = m.upset := rfl
@[simp] theorem M.bump_glitch : (m.bump F i).glitch = m.glitch := rfl
@[simp] theorem M.bump_mem : (m.bump F i).mem = m.mem := rfl
@[simp] theorem M.bump_mbx : (m.bump F i).mbx = m.mbx := rfl
@[simp] theorem M.bump_evt : (m.bump F i).evt = m.evt := rfl
@[simp] theorem M.bump_trc : (m.bump F i).trc = m.trc := rfl
@[simp] theorem M.bump_mgt : (m.bump F i).mgt = m.mgt := rfl
@[simp] theorem M.bump_hostOf (q : Nat) : (m.bump F i).hostOf q = m.hostOf q := rfl
@[simp] theorem M.bump_ring (q j : Nat) : (m.bump F i).ring q j = m.ring q j := rfl
@[simp] theorem M.bump_chan (j : Nat) : (m.bump F i).chan j = m.chan j := rfl
@[simp] theorem M.bump_cpu (j : Key) : (m.bump F i).cpu j = m.cpu j := rfl
@[simp] theorem M.bump_link (j : Nat) : (m.bump F i).link j = m.link j := rfl
@[simp] theorem M.bump_script (q j : Nat) : (m.bump F i).script q j = m.script q j := rfl
@[simp] theorem M.bump_rh (q j : Nat) : (m.bump F i).rh q j = m.rh q j := rfl
@[simp] theorem M.bump_queue (q j : Nat) : (m.bump F i).queue q j = m.queue q j := rfl
@[simp] theorem M.bump_mbxOf (q j : Nat) : (m.bump F i).mbxOf q j = m.mbxOf q j := rfl
@[simp] theorem M.bump_inForce (a j : Nat) : (m.bump F i).inForce a j = m.inForce a j := rfl
@[simp] theorem M.bump_left (a j : Nat) : (m.bump F i).left a j = m.left a j := rfl
@[simp] theorem M.bump_inReset (a j : Nat) : (m.bump F i).inReset a j = m.inReset a j := rfl
@[simp] theorem M.bump_lastServed (j : Nat) : (m.bump F i).lastServed j = m.lastServed j := rfl

end

/-! ### clearFlds -/

section

variable (m : M) (p : FSpec → Nat → Bool)

@[simp] theorem M.clearFlds_now : (m.clearFlds p).now = m.now := rfl
@[simp] theorem M.clearFlds_fresh : (m.clearFlds p).fresh = m.fresh := rfl
@[simp] theorem M.clearFlds_out : (m.clearFlds p).out = m.out := rfl
@[simp] theorem M.clearFlds_react : (m.clearFlds p).react = m.react := rfl
@[simp] theorem M.clearFlds_boot : (m.clearFlds p).boot = m.boot := rfl
@[simp] theorem M.clearFlds_pins : (m.clearFlds p).pins = m.pins := rfl
@[simp] theorem M.clearFlds_tick : (m.clearFlds p).tick = m.tick := rfl
@[simp] theorem M.clearFlds_bud : (m.clearFlds p).bud = m.bud := rfl
@[simp] theorem M.clearFlds_brst : (m.clearFlds p).brst = m.brst := rfl
@[simp] theorem M.clearFlds_quiet : (m.clearFlds p).quiet = m.quiet := rfl
@[simp] theorem M.clearFlds_held : (m.clearFlds p).held = m.held := rfl
@[simp] theorem M.clearFlds_asks : (m.clearFlds p).asks = m.asks := rfl
@[simp] theorem M.clearFlds_irq : (m.clearFlds p).irq = m.irq := rfl
@[simp] theorem M.clearFlds_host : (m.clearFlds p).host = m.host := rfl
@[simp] theorem M.clearFlds_rings : (m.clearFlds p).rings = m.rings := rfl
@[simp] theorem M.clearFlds_dispq : (m.clearFlds p).dispq = m.dispq := rfl
@[simp] theorem M.clearFlds_lastRing : (m.clearFlds p).lastRing = m.lastRing := rfl
@[simp] theorem M.clearFlds_scripts : (m.clearFlds p).scripts = m.scripts := rfl
@[simp] theorem M.clearFlds_waits : (m.clearFlds p).waits = m.waits := rfl
@[simp] theorem M.clearFlds_attn : (m.clearFlds p).attn = m.attn := rfl
@[simp] theorem M.clearFlds_rhs : (m.clearFlds p).rhs = m.rhs := rfl
@[simp] theorem M.clearFlds_chans : (m.clearFlds p).chans = m.chans := rfl
@[simp] theorem M.clearFlds_subq : (m.clearFlds p).subq = m.subq := rfl
@[simp] theorem M.clearFlds_eng : (m.clearFlds p).eng = m.eng := rfl
@[simp] theorem M.clearFlds_cpus : (m.clearFlds p).cpus = m.cpus := rfl
@[simp] theorem M.clearFlds_served : (m.clearFlds p).served = m.served := rfl
@[simp] theorem M.clearFlds_scratch : (m.clearFlds p).scratch = m.scratch := rfl
@[simp] theorem M.clearFlds_stage : (m.clearFlds p).stage = m.stage := rfl
@[simp] theorem M.clearFlds_div : (m.clearFlds p).div = m.div := rfl
@[simp] theorem M.clearFlds_links : (m.clearFlds p).links = m.links := rfl
@[simp] theorem M.clearFlds_sec : (m.clearFlds p).sec = m.sec := rfl
@[simp] theorem M.clearFlds_voteDead : (m.clearFlds p).voteDead = m.voteDead := rfl
@[simp] theorem M.clearFlds_upset : (m.clearFlds p).upset = m.upset := rfl
@[simp] theorem M.clearFlds_glitch : (m.clearFlds p).glitch = m.glitch := rfl
@[simp] theorem M.clearFlds_mem : (m.clearFlds p).mem = m.mem := rfl
@[simp] theorem M.clearFlds_mbx : (m.clearFlds p).mbx = m.mbx := rfl
@[simp] theorem M.clearFlds_evt : (m.clearFlds p).evt = m.evt := rfl
@[simp] theorem M.clearFlds_trc : (m.clearFlds p).trc = m.trc := rfl
@[simp] theorem M.clearFlds_mgt : (m.clearFlds p).mgt = m.mgt := rfl
@[simp] theorem M.clearFlds_hostOf (q : Nat) : (m.clearFlds p).hostOf q = m.hostOf q := rfl
@[simp] theorem M.clearFlds_ring (q j : Nat) : (m.clearFlds p).ring q j = m.ring q j := rfl
@[simp] theorem M.clearFlds_chan (j : Nat) : (m.clearFlds p).chan j = m.chan j := rfl
@[simp] theorem M.clearFlds_cpu (j : Key) : (m.clearFlds p).cpu j = m.cpu j := rfl
@[simp] theorem M.clearFlds_link (j : Nat) : (m.clearFlds p).link j = m.link j := rfl
@[simp] theorem M.clearFlds_script (q j : Nat) : (m.clearFlds p).script q j = m.script q j := rfl
@[simp] theorem M.clearFlds_rh (q j : Nat) : (m.clearFlds p).rh q j = m.rh q j := rfl
@[simp] theorem M.clearFlds_queue (q j : Nat) : (m.clearFlds p).queue q j = m.queue q j := rfl
@[simp] theorem M.clearFlds_mbxOf (q j : Nat) : (m.clearFlds p).mbxOf q j = m.mbxOf q j := rfl
@[simp] theorem M.clearFlds_inForce (a j : Nat) : (m.clearFlds p).inForce a j = m.inForce a j := rfl
@[simp] theorem M.clearFlds_left (a j : Nat) : (m.clearFlds p).left a j = m.left a j := rfl
@[simp] theorem M.clearFlds_inReset (a j : Nat) : (m.clearFlds p).inReset a j = m.inReset a j := rfl
@[simp] theorem M.clearFlds_lastServed (j : Nat) : (m.clearFlds p).lastServed j = m.lastServed j := rfl

end

/-! ### peak -/

section

variable (m : M) (F : Fld) (i n : Nat)

@[simp] theorem M.peak_now : (m.peak F i n).now = m.now := rfl
@[simp] theorem M.peak_fresh : (m.peak F i n).fresh = m.fresh := rfl
@[simp] theorem M.peak_out : (m.peak F i n).out = m.out := rfl
@[simp] theorem M.peak_react : (m.peak F i n).react = m.react := rfl
@[simp] theorem M.peak_boot : (m.peak F i n).boot = m.boot := rfl
@[simp] theorem M.peak_pins : (m.peak F i n).pins = m.pins := rfl
@[simp] theorem M.peak_tick : (m.peak F i n).tick = m.tick := rfl
@[simp] theorem M.peak_bud : (m.peak F i n).bud = m.bud := rfl
@[simp] theorem M.peak_brst : (m.peak F i n).brst = m.brst := rfl
@[simp] theorem M.peak_quiet : (m.peak F i n).quiet = m.quiet := rfl
@[simp] theorem M.peak_held : (m.peak F i n).held = m.held := rfl
@[simp] theorem M.peak_asks : (m.peak F i n).asks = m.asks := rfl
@[simp] theorem M.peak_irq : (m.peak F i n).irq = m.irq := rfl
@[simp] theorem M.peak_host : (m.peak F i n).host = m.host := rfl
@[simp] theorem M.peak_rings : (m.peak F i n).rings = m.rings := rfl
@[simp] theorem M.peak_dispq : (m.peak F i n).dispq = m.dispq := rfl
@[simp] theorem M.peak_lastRing : (m.peak F i n).lastRing = m.lastRing := rfl
@[simp] theorem M.peak_scripts : (m.peak F i n).scripts = m.scripts := rfl
@[simp] theorem M.peak_waits : (m.peak F i n).waits = m.waits := rfl
@[simp] theorem M.peak_attn : (m.peak F i n).attn = m.attn := rfl
@[simp] theorem M.peak_rhs : (m.peak F i n).rhs = m.rhs := rfl
@[simp] theorem M.peak_chans : (m.peak F i n).chans = m.chans := rfl
@[simp] theorem M.peak_subq : (m.peak F i n).subq = m.subq := rfl
@[simp] theorem M.peak_eng : (m.peak F i n).eng = m.eng := rfl
@[simp] theorem M.peak_cpus : (m.peak F i n).cpus = m.cpus := rfl
@[simp] theorem M.peak_served : (m.peak F i n).served = m.served := rfl
@[simp] theorem M.peak_scratch : (m.peak F i n).scratch = m.scratch := rfl
@[simp] theorem M.peak_stage : (m.peak F i n).stage = m.stage := rfl
@[simp] theorem M.peak_div : (m.peak F i n).div = m.div := rfl
@[simp] theorem M.peak_links : (m.peak F i n).links = m.links := rfl
@[simp] theorem M.peak_sec : (m.peak F i n).sec = m.sec := rfl
@[simp] theorem M.peak_voteDead : (m.peak F i n).voteDead = m.voteDead := rfl
@[simp] theorem M.peak_upset : (m.peak F i n).upset = m.upset := rfl
@[simp] theorem M.peak_glitch : (m.peak F i n).glitch = m.glitch := rfl
@[simp] theorem M.peak_mem : (m.peak F i n).mem = m.mem := rfl
@[simp] theorem M.peak_mbx : (m.peak F i n).mbx = m.mbx := rfl
@[simp] theorem M.peak_evt : (m.peak F i n).evt = m.evt := rfl
@[simp] theorem M.peak_trc : (m.peak F i n).trc = m.trc := rfl
@[simp] theorem M.peak_mgt : (m.peak F i n).mgt = m.mgt := rfl
@[simp] theorem M.peak_hostOf (q : Nat) : (m.peak F i n).hostOf q = m.hostOf q := rfl
@[simp] theorem M.peak_ring (q j : Nat) : (m.peak F i n).ring q j = m.ring q j := rfl
@[simp] theorem M.peak_chan (j : Nat) : (m.peak F i n).chan j = m.chan j := rfl
@[simp] theorem M.peak_cpu (j : Key) : (m.peak F i n).cpu j = m.cpu j := rfl
@[simp] theorem M.peak_link (j : Nat) : (m.peak F i n).link j = m.link j := rfl
@[simp] theorem M.peak_script (q j : Nat) : (m.peak F i n).script q j = m.script q j := rfl
@[simp] theorem M.peak_rh (q j : Nat) : (m.peak F i n).rh q j = m.rh q j := rfl
@[simp] theorem M.peak_queue (q j : Nat) : (m.peak F i n).queue q j = m.queue q j := rfl
@[simp] theorem M.peak_mbxOf (q j : Nat) : (m.peak F i n).mbxOf q j = m.mbxOf q j := rfl
@[simp] theorem M.peak_inForce (a j : Nat) : (m.peak F i n).inForce a j = m.inForce a j := rfl
@[simp] theorem M.peak_left (a j : Nat) : (m.peak F i n).left a j = m.left a j := rfl
@[simp] theorem M.peak_inReset (a j : Nat) : (m.peak F i n).inReset a j = m.inReset a j := rfl
@[simp] theorem M.peak_lastServed (j : Nat) : (m.peak F i n).lastServed j = m.lastServed j := rfl

end

/-! ### askAgain -/

section

variable (m : M) (F : Fld) (i : Nat)

@[simp] theorem M.askAgain_f : (m.askAgain F i).f = m.f := rfl
@[simp] theorem M.askAgain_now : (m.askAgain F i).now = m.now := rfl
@[simp] theorem M.askAgain_fresh : (m.askAgain F i).fresh = m.fresh := rfl
@[simp] theorem M.askAgain_out : (m.askAgain F i).out = m.out := rfl
@[simp] theorem M.askAgain_react : (m.askAgain F i).react = m.react := rfl
@[simp] theorem M.askAgain_boot : (m.askAgain F i).boot = m.boot := rfl
@[simp] theorem M.askAgain_pins : (m.askAgain F i).pins = m.pins := rfl
@[simp] theorem M.askAgain_tick : (m.askAgain F i).tick = m.tick := rfl
@[simp] theorem M.askAgain_bud : (m.askAgain F i).bud = m.bud := rfl
@[simp] theorem M.askAgain_brst : (m.askAgain F i).brst = m.brst := rfl
@[simp] theorem M.askAgain_quiet : (m.askAgain F i).quiet = m.quiet := rfl
@[simp] theorem M.askAgain_held : (m.askAgain F i).held = m.held := rfl
@[simp] theorem M.askAgain_asks : (m.askAgain F i).asks = m.asks := rfl
@[simp] theorem M.askAgain_irq : (m.askAgain F i).irq = m.irq := rfl
@[simp] theorem M.askAgain_host : (m.askAgain F i).host = m.host := rfl
@[simp] theorem M.askAgain_rings : (m.askAgain F i).rings = m.rings := rfl
@[simp] theorem M.askAgain_dispq : (m.askAgain F i).dispq = m.dispq := rfl
@[simp] theorem M.askAgain_lastRing : (m.askAgain F i).lastRing = m.lastRing := rfl
@[simp] theorem M.askAgain_scripts : (m.askAgain F i).scripts = m.scripts := rfl
@[simp] theorem M.askAgain_waits : (m.askAgain F i).waits = m.waits := rfl
@[simp] theorem M.askAgain_attn : (m.askAgain F i).attn = m.attn := rfl
@[simp] theorem M.askAgain_rhs : (m.askAgain F i).rhs = m.rhs := rfl
@[simp] theorem M.askAgain_chans : (m.askAgain F i).chans = m.chans := rfl
@[simp] theorem M.askAgain_subq : (m.askAgain F i).subq = m.subq := rfl
@[simp] theorem M.askAgain_eng : (m.askAgain F i).eng = m.eng := rfl
@[simp] theorem M.askAgain_cpus : (m.askAgain F i).cpus = m.cpus := rfl
@[simp] theorem M.askAgain_served : (m.askAgain F i).served = m.served := rfl
@[simp] theorem M.askAgain_scratch : (m.askAgain F i).scratch = m.scratch := rfl
@[simp] theorem M.askAgain_stage : (m.askAgain F i).stage = m.stage := rfl
@[simp] theorem M.askAgain_div : (m.askAgain F i).div = m.div := rfl
@[simp] theorem M.askAgain_links : (m.askAgain F i).links = m.links := rfl
@[simp] theorem M.askAgain_sec : (m.askAgain F i).sec = m.sec := rfl
@[simp] theorem M.askAgain_voteDead : (m.askAgain F i).voteDead = m.voteDead := rfl
@[simp] theorem M.askAgain_upset : (m.askAgain F i).upset = m.upset := rfl
@[simp] theorem M.askAgain_glitch : (m.askAgain F i).glitch = m.glitch := rfl
@[simp] theorem M.askAgain_mem : (m.askAgain F i).mem = m.mem := rfl
@[simp] theorem M.askAgain_mbx : (m.askAgain F i).mbx = m.mbx := rfl
@[simp] theorem M.askAgain_evt : (m.askAgain F i).evt = m.evt := rfl
@[simp] theorem M.askAgain_trc : (m.askAgain F i).trc = m.trc := rfl
@[simp] theorem M.askAgain_mgt : (m.askAgain F i).mgt = m.mgt := rfl
@[simp] theorem M.askAgain_fld (G : Fld) (j : Nat) : (m.askAgain F i).fld G j = m.fld G j := rfl
@[simp] theorem M.askAgain_flag (G : Fld) (j : Nat) : (m.askAgain F i).flag G j = m.flag G j := rfl
@[simp] theorem M.askAgain_hostOf (q : Nat) : (m.askAgain F i).hostOf q = m.hostOf q := rfl
@[simp] theorem M.askAgain_ring (q j : Nat) : (m.askAgain F i).ring q j = m.ring q j := rfl
@[simp] theorem M.askAgain_chan (j : Nat) : (m.askAgain F i).chan j = m.chan j := rfl
@[simp] theorem M.askAgain_cpu (j : Key) : (m.askAgain F i).cpu j = m.cpu j := rfl
@[simp] theorem M.askAgain_link (j : Nat) : (m.askAgain F i).link j = m.link j := rfl
@[simp] theorem M.askAgain_script (q j : Nat) : (m.askAgain F i).script q j = m.script q j := rfl
@[simp] theorem M.askAgain_rh (q j : Nat) : (m.askAgain F i).rh q j = m.rh q j := rfl
@[simp] theorem M.askAgain_queue (q j : Nat) : (m.askAgain F i).queue q j = m.queue q j := rfl
@[simp] theorem M.askAgain_mbxOf (q j : Nat) : (m.askAgain F i).mbxOf q j = m.mbxOf q j := rfl
@[simp] theorem M.askAgain_inForce (a j : Nat) : (m.askAgain F i).inForce a j = m.inForce a j := rfl
@[simp] theorem M.askAgain_left (a j : Nat) : (m.askAgain F i).left a j = m.left a j := rfl
@[simp] theorem M.askAgain_inReset (a j : Nat) : (m.askAgain F i).inReset a j = m.inReset a j := rfl
@[simp] theorem M.askAgain_lastServed (j : Nat) : (m.askAgain F i).lastServed j = m.lastServed j := rfl

end

/-! ### emit -/

section

variable (m : M) (k : OutK)

@[simp] theorem M.emit_f : (m.emit k).f = m.f := rfl
@[simp] theorem M.emit_cyc : (m.emit k).cyc = m.cyc := rfl
@[simp] theorem M.emit_now : (m.emit k).now = m.now := rfl
@[simp] theorem M.emit_fresh : (m.emit k).fresh = m.fresh := rfl
@[simp] theorem M.emit_react : (m.emit k).react = m.react := rfl
@[simp] theorem M.emit_boot : (m.emit k).boot = m.boot := rfl
@[simp] theorem M.emit_pins : (m.emit k).pins = m.pins := rfl
@[simp] theorem M.emit_tick : (m.emit k).tick = m.tick := rfl
@[simp] theorem M.emit_bud : (m.emit k).bud = m.bud := rfl
@[simp] theorem M.emit_brst : (m.emit k).brst = m.brst := rfl
@[simp] theorem M.emit_quiet : (m.emit k).quiet = m.quiet := rfl
@[simp] theorem M.emit_held : (m.emit k).held = m.held := rfl
@[simp] theorem M.emit_asks : (m.emit k).asks = m.asks := rfl
@[simp] theorem M.emit_irq : (m.emit k).irq = m.irq := rfl
@[simp] theorem M.emit_host : (m.emit k).host = m.host := rfl
@[simp] theorem M.emit_rings : (m.emit k).rings = m.rings := rfl
@[simp] theorem M.emit_dispq : (m.emit k).dispq = m.dispq := rfl
@[simp] theorem M.emit_lastRing : (m.emit k).lastRing = m.lastRing := rfl
@[simp] theorem M.emit_scripts : (m.emit k).scripts = m.scripts := rfl
@[simp] theorem M.emit_waits : (m.emit k).waits = m.waits := rfl
@[simp] theorem M.emit_attn : (m.emit k).attn = m.attn := rfl
@[simp] theorem M.emit_rhs : (m.emit k).rhs = m.rhs := rfl
@[simp] theorem M.emit_chans : (m.emit k).chans = m.chans := rfl
@[simp] theorem M.emit_subq : (m.emit k).subq = m.subq := rfl
@[simp] theorem M.emit_eng : (m.emit k).eng = m.eng := rfl
@[simp] theorem M.emit_cpus : (m.emit k).cpus = m.cpus := rfl
@[simp] theorem M.emit_served : (m.emit k).served = m.served := rfl
@[simp] theorem M.emit_scratch : (m.emit k).scratch = m.scratch := rfl
@[simp] theorem M.emit_stage : (m.emit k).stage = m.stage := rfl
@[simp] theorem M.emit_div : (m.emit k).div = m.div := rfl
@[simp] theorem M.emit_links : (m.emit k).links = m.links := rfl
@[simp] theorem M.emit_sec : (m.emit k).sec = m.sec := rfl
@[simp] theorem M.emit_voteDead : (m.emit k).voteDead = m.voteDead := rfl
@[simp] theorem M.emit_upset : (m.emit k).upset = m.upset := rfl
@[simp] theorem M.emit_glitch : (m.emit k).glitch = m.glitch := rfl
@[simp] theorem M.emit_mem : (m.emit k).mem = m.mem := rfl
@[simp] theorem M.emit_mbx : (m.emit k).mbx = m.mbx := rfl
@[simp] theorem M.emit_evt : (m.emit k).evt = m.evt := rfl
@[simp] theorem M.emit_trc : (m.emit k).trc = m.trc := rfl
@[simp] theorem M.emit_mgt : (m.emit k).mgt = m.mgt := rfl
@[simp] theorem M.emit_fld (G : Fld) (j : Nat) : (m.emit k).fld G j = m.fld G j := rfl
@[simp] theorem M.emit_flag (G : Fld) (j : Nat) : (m.emit k).flag G j = m.flag G j := rfl
@[simp] theorem M.emit_hostOf (q : Nat) : (m.emit k).hostOf q = m.hostOf q := rfl
@[simp] theorem M.emit_ring (q j : Nat) : (m.emit k).ring q j = m.ring q j := rfl
@[simp] theorem M.emit_chan (j : Nat) : (m.emit k).chan j = m.chan j := rfl
@[simp] theorem M.emit_cpu (j : Key) : (m.emit k).cpu j = m.cpu j := rfl
@[simp] theorem M.emit_link (j : Nat) : (m.emit k).link j = m.link j := rfl
@[simp] theorem M.emit_script (q j : Nat) : (m.emit k).script q j = m.script q j := rfl
@[simp] theorem M.emit_rh (q j : Nat) : (m.emit k).rh q j = m.rh q j := rfl
@[simp] theorem M.emit_queue (q j : Nat) : (m.emit k).queue q j = m.queue q j := rfl
@[simp] theorem M.emit_mbxOf (q j : Nat) : (m.emit k).mbxOf q j = m.mbxOf q j := rfl
@[simp] theorem M.emit_inForce (a j : Nat) : (m.emit k).inForce a j = m.inForce a j := rfl
@[simp] theorem M.emit_left (a j : Nat) : (m.emit k).left a j = m.left a j := rfl
@[simp] theorem M.emit_inReset (a j : Nat) : (m.emit k).inReset a j = m.inReset a j := rfl
@[simp] theorem M.emit_lastServed (j : Nat) : (m.emit k).lastServed j = m.lastServed j := rfl

end

/-! ### draw -/

section

variable (m : M) 

@[simp] theorem M.draw_f : (m.draw.2).f = m.f := rfl
@[simp] theorem M.draw_cyc : (m.draw.2).cyc = m.cyc := rfl
@[simp] theorem M.draw_now : (m.draw.2).now = m.now := rfl
@[simp] theorem M.draw_out : (m.draw.2).out = m.out := rfl
@[simp] theorem M.draw_react : (m.draw.2).react = m.react := rfl
@[simp] theorem M.draw_boot : (m.draw.2).boot = m.boot := rfl
@[simp] theorem M.draw_pins : (m.draw.2).pins = m.pins := rfl
@[simp] theorem M.draw_tick : (m.draw.2).tick = m.tick := rfl
@[simp] theorem M.draw_bud : (m.draw.2).bud = m.bud := rfl
@[simp] theorem M.draw_brst : (m.draw.2).brst = m.brst := rfl
@[simp] theorem M.draw_quiet : (m.draw.2).quiet = m.quiet := rfl
@[simp] theorem M.draw_held : (m.draw.2).held = m.held := rfl
@[simp] theorem M.draw_asks : (m.draw.2).asks = m.asks := rfl
@[simp] theorem M.draw_irq : (m.draw.2).irq = m.irq := rfl
@[simp] theorem M.draw_host : (m.draw.2).host = m.host := rfl
@[simp] theorem M.draw_rings : (m.draw.2).rings = m.rings := rfl
@[simp] theorem M.draw_dispq : (m.draw.2).dispq = m.dispq := rfl
@[simp] theorem M.draw_lastRing : (m.draw.2).lastRing = m.lastRing := rfl
@[simp] theorem M.draw_scripts : (m.draw.2).scripts = m.scripts := rfl
@[simp] theorem M.draw_waits : (m.draw.2).waits = m.waits := rfl
@[simp] theorem M.draw_attn : (m.draw.2).attn = m.attn := rfl
@[simp] theorem M.draw_rhs : (m.draw.2).rhs = m.rhs := rfl
@[simp] theorem M.draw_chans : (m.draw.2).chans = m.chans := rfl
@[simp] theorem M.draw_subq : (m.draw.2).subq = m.subq := rfl
@[simp] theorem M.draw_eng : (m.draw.2).eng = m.eng := rfl
@[simp] theorem M.draw_cpus : (m.draw.2).cpus = m.cpus := rfl
@[simp] theorem M.draw_served : (m.draw.2).served = m.served := rfl
@[simp] theorem M.draw_scratch : (m.draw.2).scratch = m.scratch := rfl
@[simp] theorem M.draw_stage : (m.draw.2).stage = m.stage := rfl
@[simp] theorem M.draw_div : (m.draw.2).div = m.div := rfl
@[simp] theorem M.draw_links : (m.draw.2).links = m.links := rfl
@[simp] theorem M.draw_sec : (m.draw.2).sec = m.sec := rfl
@[simp] theorem M.draw_voteDead : (m.draw.2).voteDead = m.voteDead := rfl
@[simp] theorem M.draw_upset : (m.draw.2).upset = m.upset := rfl
@[simp] theorem M.draw_glitch : (m.draw.2).glitch = m.glitch := rfl
@[simp] theorem M.draw_mem : (m.draw.2).mem = m.mem := rfl
@[simp] theorem M.draw_mbx : (m.draw.2).mbx = m.mbx := rfl
@[simp] theorem M.draw_evt : (m.draw.2).evt = m.evt := rfl
@[simp] theorem M.draw_trc : (m.draw.2).trc = m.trc := rfl
@[simp] theorem M.draw_mgt : (m.draw.2).mgt = m.mgt := rfl
@[simp] theorem M.draw_fld (G : Fld) (j : Nat) : (m.draw.2).fld G j = m.fld G j := rfl
@[simp] theorem M.draw_flag (G : Fld) (j : Nat) : (m.draw.2).flag G j = m.flag G j := rfl
@[simp] theorem M.draw_hostOf (q : Nat) : (m.draw.2).hostOf q = m.hostOf q := rfl
@[simp] theorem M.draw_ring (q j : Nat) : (m.draw.2).ring q j = m.ring q j := rfl
@[simp] theorem M.draw_chan (j : Nat) : (m.draw.2).chan j = m.chan j := rfl
@[simp] theorem M.draw_cpu (j : Key) : (m.draw.2).cpu j = m.cpu j := rfl
@[simp] theorem M.draw_link (j : Nat) : (m.draw.2).link j = m.link j := rfl
@[simp] theorem M.draw_script (q j : Nat) : (m.draw.2).script q j = m.script q j := rfl
@[simp] theorem M.draw_rh (q j : Nat) : (m.draw.2).rh q j = m.rh q j := rfl
@[simp] theorem M.draw_queue (q j : Nat) : (m.draw.2).queue q j = m.queue q j := rfl
@[simp] theorem M.draw_mbxOf (q j : Nat) : (m.draw.2).mbxOf q j = m.mbxOf q j := rfl
@[simp] theorem M.draw_inForce (a j : Nat) : (m.draw.2).inForce a j = m.inForce a j := rfl
@[simp] theorem M.draw_left (a j : Nat) : (m.draw.2).left a j = m.left a j := rfl
@[simp] theorem M.draw_inReset (a j : Nat) : (m.draw.2).inReset a j = m.inReset a j := rfl
@[simp] theorem M.draw_lastServed (j : Nat) : (m.draw.2).lastServed j = m.lastServed j := rfl

end

/-! ### setHost -/

section

variable (m : M) (p : Nat) (h : HostSt)

@[simp] theorem M.setHost_f : (m.setHost p h).f = m.f := rfl
@[simp] theorem M.setHost_cyc : (m.setHost p h).cyc = m.cyc := rfl
@[simp] theorem M.setHost_now : (m.setHost p h).now = m.now := rfl
@[simp] theorem M.setHost_fresh : (m.setHost p h).fresh = m.fresh := rfl
@[simp] theorem M.setHost_out : (m.setHost p h).out = m.out := rfl
@[simp] theorem M.setHost_react : (m.setHost p h).react = m.react := rfl
@[simp] theorem M.setHost_boot : (m.setHost p h).boot = m.boot := rfl
@[simp] theorem M.setHost_pins : (m.setHost p h).pins = m.pins := rfl
@[simp] theorem M.setHost_tick : (m.setHost p h).tick = m.tick := rfl
@[simp] theorem M.setHost_bud : (m.setHost p h).bud = m.bud := rfl
@[simp] theorem M.setHost_brst : (m.setHost p h).brst = m.brst := rfl
@[simp] theorem M.setHost_quiet : (m.setHost p h).quiet = m.quiet := rfl
@[simp] theorem M.setHost_held : (m.setHost p h).held = m.held := rfl
@[simp] theorem M.setHost_asks : (m.setHost p h).asks = m.asks := rfl
@[simp] theorem M.setHost_irq : (m.setHost p h).irq = m.irq := rfl
@[simp] theorem M.setHost_rings : (m.setHost p h).rings = m.rings := rfl
@[simp] theorem M.setHost_dispq : (m.setHost p h).dispq = m.dispq := rfl
@[simp] theorem M.setHost_lastRing : (m.setHost p h).lastRing = m.lastRing := rfl
@[simp] theorem M.setHost_scripts : (m.setHost p h).scripts = m.scripts := rfl
@[simp] theorem M.setHost_waits : (m.setHost p h).waits = m.waits := rfl
@[simp] theorem M.setHost_attn : (m.setHost p h).attn = m.attn := rfl
@[simp] theorem M.setHost_rhs : (m.setHost p h).rhs = m.rhs := rfl
@[simp] theorem M.setHost_chans : (m.setHost p h).chans = m.chans := rfl
@[simp] theorem M.setHost_subq : (m.setHost p h).subq = m.subq := rfl
@[simp] theorem M.setHost_eng : (m.setHost p h).eng = m.eng := rfl
@[simp] theorem M.setHost_cpus : (m.setHost p h).cpus = m.cpus := rfl
@[simp] theorem M.setHost_served : (m.setHost p h).served = m.served := rfl
@[simp] theorem M.setHost_scratch : (m.setHost p h).scratch = m.scratch := rfl
@[simp] theorem M.setHost_stage : (m.setHost p h).stage = m.stage := rfl
@[simp] theorem M.setHost_div : (m.setHost p h).div = m.div := rfl
@[simp] theorem M.setHost_links : (m.setHost p h).links = m.links := rfl
@[simp] theorem M.setHost_sec : (m.setHost p h).sec = m.sec := rfl
@[simp] theorem M.setHost_voteDead : (m.setHost p h).voteDead = m.voteDead := rfl
@[simp] theorem M.setHost_upset : (m.setHost p h).upset = m.upset := rfl
@[simp] theorem M.setHost_glitch : (m.setHost p h).glitch = m.glitch := rfl
@[simp] theorem M.setHost_mem : (m.setHost p h).mem = m.mem := rfl
@[simp] theorem M.setHost_mbx : (m.setHost p h).mbx = m.mbx := rfl
@[simp] theorem M.setHost_evt : (m.setHost p h).evt = m.evt := rfl
@[simp] theorem M.setHost_trc : (m.setHost p h).trc = m.trc := rfl
@[simp] theorem M.setHost_mgt : (m.setHost p h).mgt = m.mgt := rfl
@[simp] theorem M.setHost_fld (G : Fld) (j : Nat) : (m.setHost p h).fld G j = m.fld G j := rfl
@[simp] theorem M.setHost_flag (G : Fld) (j : Nat) : (m.setHost p h).flag G j = m.flag G j := rfl
@[simp] theorem M.setHost_ring (q j : Nat) : (m.setHost p h).ring q j = m.ring q j := rfl
@[simp] theorem M.setHost_chan (j : Nat) : (m.setHost p h).chan j = m.chan j := rfl
@[simp] theorem M.setHost_cpu (j : Key) : (m.setHost p h).cpu j = m.cpu j := rfl
@[simp] theorem M.setHost_link (j : Nat) : (m.setHost p h).link j = m.link j := rfl
@[simp] theorem M.setHost_script (q j : Nat) : (m.setHost p h).script q j = m.script q j := rfl
@[simp] theorem M.setHost_rh (q j : Nat) : (m.setHost p h).rh q j = m.rh q j := rfl
@[simp] theorem M.setHost_queue (q j : Nat) : (m.setHost p h).queue q j = m.queue q j := rfl
@[simp] theorem M.setHost_mbxOf (q j : Nat) : (m.setHost p h).mbxOf q j = m.mbxOf q j := rfl
@[simp] theorem M.setHost_inForce (a j : Nat) : (m.setHost p h).inForce a j = m.inForce a j := rfl
@[simp] theorem M.setHost_left (a j : Nat) : (m.setHost p h).left a j = m.left a j := rfl
@[simp] theorem M.setHost_inReset (a j : Nat) : (m.setHost p h).inReset a j = m.inReset a j := rfl
@[simp] theorem M.setHost_lastServed (j : Nat) : (m.setHost p h).lastServed j = m.lastServed j := rfl

end

/-! ### setRing -/

section

variable (m : M) (p r : Nat) (x : RingSt)

@[simp] theorem M.setRing_f : (m.setRing p r x).f = m.f := rfl
@[simp] theorem M.setRing_cyc : (m.setRing p r x).cyc = m.cyc := rfl
@[simp] theorem M.setRing_now : (m.setRing p r x).now = m.now := rfl
@[simp] theorem M.setRing_fresh : (m.setRing p r x).fresh = m.fresh := rfl
@[simp] theorem M.setRing_out : (m.setRing p r x).out = m.out := rfl
@[simp] theorem M.setRing_react : (m.setRing p r x).react = m.react := rfl
@[simp] theorem M.setRing_boot : (m.setRing p r x).boot = m.boot := rfl
@[simp] theorem M.setRing_pins : (m.setRing p r x).pins = m.pins := rfl
@[simp] theorem M.setRing_tick : (m.setRing p r x).tick = m.tick := rfl
@[simp] theorem M.setRing_bud : (m.setRing p r x).bud = m.bud := rfl
@[simp] theorem M.setRing_brst : (m.setRing p r x).brst = m.brst := rfl
@[simp] theorem M.setRing_quiet : (m.setRing p r x).quiet = m.quiet := rfl
@[simp] theorem M.setRing_held : (m.setRing p r x).held = m.held := rfl
@[simp] theorem M.setRing_asks : (m.setRing p r x).asks = m.asks := rfl
@[simp] theorem M.setRing_irq : (m.setRing p r x).irq = m.irq := rfl
@[simp] theorem M.setRing_host : (m.setRing p r x).host = m.host := rfl
@[simp] theorem M.setRing_dispq : (m.setRing p r x).dispq = m.dispq := rfl
@[simp] theorem M.setRing_lastRing : (m.setRing p r x).lastRing = m.lastRing := rfl
@[simp] theorem M.setRing_scripts : (m.setRing p r x).scripts = m.scripts := rfl
@[simp] theorem M.setRing_waits : (m.setRing p r x).waits = m.waits := rfl
@[simp] theorem M.setRing_attn : (m.setRing p r x).attn = m.attn := rfl
@[simp] theorem M.setRing_rhs : (m.setRing p r x).rhs = m.rhs := rfl
@[simp] theorem M.setRing_chans : (m.setRing p r x).chans = m.chans := rfl
@[simp] theorem M.setRing_subq : (m.setRing p r x).subq = m.subq := rfl
@[simp] theorem M.setRing_eng : (m.setRing p r x).eng = m.eng := rfl
@[simp] theorem M.setRing_cpus : (m.setRing p r x).cpus = m.cpus := rfl
@[simp] theorem M.setRing_served : (m.setRing p r x).served = m.served := rfl
@[simp] theorem M.setRing_scratch : (m.setRing p r x).scratch = m.scratch := rfl
@[simp] theorem M.setRing_stage : (m.setRing p r x).stage = m.stage := rfl
@[simp] theorem M.setRing_div : (m.setRing p r x).div = m.div := rfl
@[simp] theorem M.setRing_links : (m.setRing p r x).links = m.links := rfl
@[simp] theorem M.setRing_sec : (m.setRing p r x).sec = m.sec := rfl
@[simp] theorem M.setRing_voteDead : (m.setRing p r x).voteDead = m.voteDead := rfl
@[simp] theorem M.setRing_upset : (m.setRing p r x).upset = m.upset := rfl
@[simp] theorem M.setRing_glitch : (m.setRing p r x).glitch = m.glitch := rfl
@[simp] theorem M.setRing_mem : (m.setRing p r x).mem = m.mem := rfl
@[simp] theorem M.setRing_mbx : (m.setRing p r x).mbx = m.mbx := rfl
@[simp] theorem M.setRing_evt : (m.setRing p r x).evt = m.evt := rfl
@[simp] theorem M.setRing_trc : (m.setRing p r x).trc = m.trc := rfl
@[simp] theorem M.setRing_mgt : (m.setRing p r x).mgt = m.mgt := rfl
@[simp] theorem M.setRing_fld (G : Fld) (j : Nat) : (m.setRing p r x).fld G j = m.fld G j := rfl
@[simp] theorem M.setRing_flag (G : Fld) (j : Nat) : (m.setRing p r x).flag G j = m.flag G j := rfl
@[simp] theorem M.setRing_hostOf (q : Nat) : (m.setRing p r x).hostOf q = m.hostOf q := rfl
@[simp] theorem M.setRing_chan (j : Nat) : (m.setRing p r x).chan j = m.chan j := rfl
@[simp] theorem M.setRing_cpu (j : Key) : (m.setRing p r x).cpu j = m.cpu j := rfl
@[simp] theorem M.setRing_link (j : Nat) : (m.setRing p r x).link j = m.link j := rfl
@[simp] theorem M.setRing_script (q j : Nat) : (m.setRing p r x).script q j = m.script q j := rfl
@[simp] theorem M.setRing_rh (q j : Nat) : (m.setRing p r x).rh q j = m.rh q j := rfl
@[simp] theorem M.setRing_queue (q j : Nat) : (m.setRing p r x).queue q j = m.queue q j := rfl
@[simp] theorem M.setRing_mbxOf (q j : Nat) : (m.setRing p r x).mbxOf q j = m.mbxOf q j := rfl
@[simp] theorem M.setRing_inForce (a j : Nat) : (m.setRing p r x).inForce a j = m.inForce a j := rfl
@[simp] theorem M.setRing_left (a j : Nat) : (m.setRing p r x).left a j = m.left a j := rfl
@[simp] theorem M.setRing_inReset (a j : Nat) : (m.setRing p r x).inReset a j = m.inReset a j := rfl
@[simp] theorem M.setRing_lastServed (j : Nat) : (m.setRing p r x).lastServed j = m.lastServed j := rfl

end

/-! ### setChan -/

section

variable (m : M) (n : Nat) (c : ChanSt)

@[simp] theorem M.setChan_f : (m.setChan n c).f = m.f := rfl
@[simp] theorem M.setChan_cyc : (m.setChan n c).cyc = m.cyc := rfl
@[simp] theorem M.setChan_now : (m.setChan n c).now = m.now := rfl
@[simp] theorem M.setChan_fresh : (m.setChan n c).fresh = m.fresh := rfl
@[simp] theorem M.setChan_out : (m.setChan n c).out = m.out := rfl
@[simp] theorem M.setChan_react : (m.setChan n c).react = m.react := rfl
@[simp] theorem M.setChan_boot : (m.setChan n c).boot = m.boot := rfl
@[simp] theorem M.setChan_pins : (m.setChan n c).pins = m.pins := rfl
@[simp] theorem M.setChan_tick : (m.setChan n c).tick = m.tick := rfl
@[simp] theorem M.setChan_bud : (m.setChan n c).bud = m.bud := rfl
@[simp] theorem M.setChan_brst : (m.setChan n c).brst = m.brst := rfl
@[simp] theorem M.setChan_quiet : (m.setChan n c).quiet = m.quiet := rfl
@[simp] theorem M.setChan_held : (m.setChan n c).held = m.held := rfl
@[simp] theorem M.setChan_asks : (m.setChan n c).asks = m.asks := rfl
@[simp] theorem M.setChan_irq : (m.setChan n c).irq = m.irq := rfl
@[simp] theorem M.setChan_host : (m.setChan n c).host = m.host := rfl
@[simp] theorem M.setChan_rings : (m.setChan n c).rings = m.rings := rfl
@[simp] theorem M.setChan_dispq : (m.setChan n c).dispq = m.dispq := rfl
@[simp] theorem M.setChan_lastRing : (m.setChan n c).lastRing = m.lastRing := rfl
@[simp] theorem M.setChan_scripts : (m.setChan n c).scripts = m.scripts := rfl
@[simp] theorem M.setChan_waits : (m.setChan n c).waits = m.waits := rfl
@[simp] theorem M.setChan_attn : (m.setChan n c).attn = m.attn := rfl
@[simp] theorem M.setChan_rhs : (m.setChan n c).rhs = m.rhs := rfl
@[simp] theorem M.setChan_subq : (m.setChan n c).subq = m.subq := rfl
@[simp] theorem M.setChan_eng : (m.setChan n c).eng = m.eng := rfl
@[simp] theorem M.setChan_cpus : (m.setChan n c).cpus = m.cpus := rfl
@[simp] theorem M.setChan_served : (m.setChan n c).served = m.served := rfl
@[simp] theorem M.setChan_scratch : (m.setChan n c).scratch = m.scratch := rfl
@[simp] theorem M.setChan_stage : (m.setChan n c).stage = m.stage := rfl
@[simp] theorem M.setChan_div : (m.setChan n c).div = m.div := rfl
@[simp] theorem M.setChan_links : (m.setChan n c).links = m.links := rfl
@[simp] theorem M.setChan_sec : (m.setChan n c).sec = m.sec := rfl
@[simp] theorem M.setChan_voteDead : (m.setChan n c).voteDead = m.voteDead := rfl
@[simp] theorem M.setChan_upset : (m.setChan n c).upset = m.upset := rfl
@[simp] theorem M.setChan_glitch : (m.setChan n c).glitch = m.glitch := rfl
@[simp] theorem M.setChan_mem : (m.setChan n c).mem = m.mem := rfl
@[simp] theorem M.setChan_mbx : (m.setChan n c).mbx = m.mbx := rfl
@[simp] theorem M.setChan_evt : (m.setChan n c).evt = m.evt := rfl
@[simp] theorem M.setChan_trc : (m.setChan n c).trc = m.trc := rfl
@[simp] theorem M.setChan_mgt : (m.setChan n c).mgt = m.mgt := rfl
@[simp] theorem M.setChan_fld (G : Fld) (j : Nat) : (m.setChan n c).fld G j = m.fld G j := rfl
@[simp] theorem M.setChan_flag (G : Fld) (j : Nat) : (m.setChan n c).flag G j = m.flag G j := rfl
@[simp] theorem M.setChan_hostOf (q : Nat) : (m.setChan n c).hostOf q = m.hostOf q := rfl
@[simp] theorem M.setChan_ring (q j : Nat) : (m.setChan n c).ring q j = m.ring q j := rfl
@[simp] theorem M.setChan_cpu (j : Key) : (m.setChan n c).cpu j = m.cpu j := rfl
@[simp] theorem M.setChan_link (j : Nat) : (m.setChan n c).link j = m.link j := rfl
@[simp] theorem M.setChan_script (q j : Nat) : (m.setChan n c).script q j = m.script q j := rfl
@[simp] theorem M.setChan_rh (q j : Nat) : (m.setChan n c).rh q j = m.rh q j := rfl
@[simp] theorem M.setChan_queue (q j : Nat) : (m.setChan n c).queue q j = m.queue q j := rfl
@[simp] theorem M.setChan_mbxOf (q j : Nat) : (m.setChan n c).mbxOf q j = m.mbxOf q j := rfl
@[simp] theorem M.setChan_inForce (a j : Nat) : (m.setChan n c).inForce a j = m.inForce a j := rfl
@[simp] theorem M.setChan_left (a j : Nat) : (m.setChan n c).left a j = m.left a j := rfl
@[simp] theorem M.setChan_inReset (a j : Nat) : (m.setChan n c).inReset a j = m.inReset a j := rfl
@[simp] theorem M.setChan_lastServed (j : Nat) : (m.setChan n c).lastServed j = m.lastServed j := rfl

end

/-! ### setCpu -/

section

variable (m : M) (k : Key) (x : Cpu)

@[simp] theorem M.setCpu_f : (m.setCpu k x).f = m.f := rfl
@[simp] theorem M.setCpu_cyc : (m.setCpu k x).cyc = m.cyc := rfl
@[simp] theorem M.setCpu_now : (m.setCpu k x).now = m.now := rfl
@[simp] theorem M.setCpu_fresh : (m.setCpu k x).fresh = m.fresh := rfl
@[simp] theorem M.setCpu_out : (m.setCpu k x).out = m.out := rfl
@[simp] theorem M.setCpu_react : (m.setCpu k x).react = m.react := rfl
@[simp] theorem M.setCpu_boot : (m.setCpu k x).boot = m.boot := rfl
@[simp] theorem M.setCpu_pins : (m.setCpu k x).pins = m.pins := rfl
@[simp] theorem M.setCpu_tick : (m.setCpu k x).tick = m.tick := rfl
@[simp] theorem M.setCpu_bud : (m.setCpu k x).bud = m.bud := rfl
@[simp] theorem M.setCpu_brst : (m.setCpu k x).brst = m.brst := rfl
@[simp] theorem M.setCpu_quiet : (m.setCpu k x).quiet = m.quiet := rfl
@[simp] theorem M.setCpu_held : (m.setCpu k x).held = m.held := rfl
@[simp] theorem M.setCpu_asks : (m.setCpu k x).asks = m.asks := rfl
@[simp] theorem M.setCpu_irq : (m.setCpu k x).irq = m.irq := rfl
@[simp] theorem M.setCpu_host : (m.setCpu k x).host = m.host := rfl
@[simp] theorem M.setCpu_rings : (m.setCpu k x).rings = m.rings := rfl
@[simp] theorem M.setCpu_dispq : (m.setCpu k x).dispq = m.dispq := rfl
@[simp] theorem M.setCpu_lastRing : (m.setCpu k x).lastRing = m.lastRing := rfl
@[simp] theorem M.setCpu_scripts : (m.setCpu k x).scripts = m.scripts := rfl
@[simp] theorem M.setCpu_waits : (m.setCpu k x).waits = m.waits := rfl
@[simp] theorem M.setCpu_attn : (m.setCpu k x).attn = m.attn := rfl
@[simp] theorem M.setCpu_rhs : (m.setCpu k x).rhs = m.rhs := rfl
@[simp] theorem M.setCpu_chans : (m.setCpu k x).chans = m.chans := rfl
@[simp] theorem M.setCpu_subq : (m.setCpu k x).subq = m.subq := rfl
@[simp] theorem M.setCpu_eng : (m.setCpu k x).eng = m.eng := rfl
@[simp] theorem M.setCpu_served : (m.setCpu k x).served = m.served := rfl
@[simp] theorem M.setCpu_scratch : (m.setCpu k x).scratch = m.scratch := rfl
@[simp] theorem M.setCpu_stage : (m.setCpu k x).stage = m.stage := rfl
@[simp] theorem M.setCpu_div : (m.setCpu k x).div = m.div := rfl
@[simp] theorem M.setCpu_links : (m.setCpu k x).links = m.links := rfl
@[simp] theorem M.setCpu_sec : (m.setCpu k x).sec = m.sec := rfl
@[simp] theorem M.setCpu_voteDead : (m.setCpu k x).voteDead = m.voteDead := rfl
@[simp] theorem M.setCpu_upset : (m.setCpu k x).upset = m.upset := rfl
@[simp] theorem M.setCpu_glitch : (m.setCpu k x).glitch = m.glitch := rfl
@[simp] theorem M.setCpu_mem : (m.setCpu k x).mem = m.mem := rfl
@[simp] theorem M.setCpu_mbx : (m.setCpu k x).mbx = m.mbx := rfl
@[simp] theorem M.setCpu_evt : (m.setCpu k x).evt = m.evt := rfl
@[simp] theorem M.setCpu_trc : (m.setCpu k x).trc = m.trc := rfl
@[simp] theorem M.setCpu_mgt : (m.setCpu k x).mgt = m.mgt := rfl
@[simp] theorem M.setCpu_fld (G : Fld) (j : Nat) : (m.setCpu k x).fld G j = m.fld G j := rfl
@[simp] theorem M.setCpu_flag (G : Fld) (j : Nat) : (m.setCpu k x).flag G j = m.flag G j := rfl
@[simp] theorem M.setCpu_hostOf (q : Nat) : (m.setCpu k x).hostOf q = m.hostOf q := rfl
@[simp] theorem M.setCpu_ring (q j : Nat) : (m.setCpu k x).ring q j = m.ring q j := rfl
@[simp] theorem M.setCpu_chan (j : Nat) : (m.setCpu k x).chan j = m.chan j := rfl
@[simp] theorem M.setCpu_link (j : Nat) : (m.setCpu k x).link j = m.link j := rfl
@[simp] theorem M.setCpu_script (q j : Nat) : (m.setCpu k x).script q j = m.script q j := rfl
@[simp] theorem M.setCpu_rh (q j : Nat) : (m.setCpu k x).rh q j = m.rh q j := rfl
@[simp] theorem M.setCpu_queue (q j : Nat) : (m.setCpu k x).queue q j = m.queue q j := rfl
@[simp] theorem M.setCpu_mbxOf (q j : Nat) : (m.setCpu k x).mbxOf q j = m.mbxOf q j := rfl
@[simp] theorem M.setCpu_inForce (a j : Nat) : (m.setCpu k x).inForce a j = m.inForce a j := rfl
@[simp] theorem M.setCpu_left (a j : Nat) : (m.setCpu k x).left a j = m.left a j := rfl
@[simp] theorem M.setCpu_inReset (a j : Nat) : (m.setCpu k x).inReset a j = m.inReset a j := rfl
@[simp] theorem M.setCpu_lastServed (j : Nat) : (m.setCpu k x).lastServed j = m.lastServed j := rfl

end

/-! ### setLink -/

section

variable (m : M) (l : Nat) (x : LinkSt)

@[simp] theorem M.setLink_f : (m.setLink l x).f = m.f := rfl
@[simp] theorem M.setLink_cyc : (m.setLink l x).cyc = m.cyc := rfl
@[simp] theorem M.setLink_now : (m.setLink l x).now = m.now := rfl
@[simp] theorem M.setLink_fresh : (m.setLink l x).fresh = m.fresh := rfl
@[simp] theorem M.setLink_out : (m.setLink l x).out = m.out := rfl
@[simp] theorem M.setLink_react : (m.setLink l x).react = m.react := rfl
@[simp] theorem M.setLink_boot : (m.setLink l x).boot = m.boot := rfl
@[simp] theorem M.setLink_pins : (m.setLink l x).pins = m.pins := rfl
@[simp] theorem M.setLink_tick : (m.setLink l x).tick = m.tick := rfl
@[simp] theorem M.setLink_bud : (m.setLink l x).bud = m.bud := rfl
@[simp] theorem M.setLink_brst : (m.setLink l x).brst = m.brst := rfl
@[simp] theorem M.setLink_quiet : (m.setLink l x).quiet = m.quiet := rfl
@[simp] theorem M.setLink_held : (m.setLink l x).held = m.held := rfl
@[simp] theorem M.setLink_asks : (m.setLink l x).asks = m.asks := rfl
@[simp] theorem M.setLink_irq : (m.setLink l x).irq = m.irq := rfl
@[simp] theorem M.setLink_host : (m.setLink l x).host = m.host := rfl
@[simp] theorem M.setLink_rings : (m.setLink l x).rings = m.rings := rfl
@[simp] theorem M.setLink_dispq : (m.setLink l x).dispq = m.dispq := rfl
@[simp] theorem M.setLink_lastRing : (m.setLink l x).lastRing = m.lastRing := rfl
@[simp] theorem M.setLink_scripts : (m.setLink l x).scripts = m.scripts := rfl
@[simp] theorem M.setLink_waits : (m.setLink l x).waits = m.waits := rfl
@[simp] theorem M.setLink_attn : (m.setLink l x).attn = m.attn := rfl
@[simp] theorem M.setLink_rhs : (m.setLink l x).rhs = m.rhs := rfl
@[simp] theorem M.setLink_chans : (m.setLink l x).chans = m.chans := rfl
@[simp] theorem M.setLink_subq : (m.setLink l x).subq = m.subq := rfl
@[simp] theorem M.setLink_eng : (m.setLink l x).eng = m.eng := rfl
@[simp] theorem M.setLink_cpus : (m.setLink l x).cpus = m.cpus := rfl
@[simp] theorem M.setLink_served : (m.setLink l x).served = m.served := rfl
@[simp] theorem M.setLink_scratch : (m.setLink l x).scratch = m.scratch := rfl
@[simp] theorem M.setLink_stage : (m.setLink l x).stage = m.stage := rfl
@[simp] theorem M.setLink_div : (m.setLink l x).div = m.div := rfl
@[simp] theorem M.setLink_sec : (m.setLink l x).sec = m.sec := rfl
@[simp] theorem M.setLink_voteDead : (m.setLink l x).voteDead = m.voteDead := rfl
@[simp] theorem M.setLink_upset : (m.setLink l x).upset = m.upset := rfl
@[simp] theorem M.setLink_glitch : (m.setLink l x).glitch = m.glitch := rfl
@[simp] theorem M.setLink_mem : (m.setLink l x).mem = m.mem := rfl
@[simp] theorem M.setLink_mbx : (m.setLink l x).mbx = m.mbx := rfl
@[simp] theorem M.setLink_evt : (m.setLink l x).evt = m.evt := rfl
@[simp] theorem M.setLink_trc : (m.setLink l x).trc = m.trc := rfl
@[simp] theorem M.setLink_mgt : (m.setLink l x).mgt = m.mgt := rfl
@[simp] theorem M.setLink_fld (G : Fld) (j : Nat) : (m.setLink l x).fld G j = m.fld G j := rfl
@[simp] theorem M.setLink_flag (G : Fld) (j : Nat) : (m.setLink l x).flag G j = m.flag G j := rfl
@[simp] theorem M.setLink_hostOf (q : Nat) : (m.setLink l x).hostOf q = m.hostOf q := rfl
@[simp] theorem M.setLink_ring (q j : Nat) : (m.setLink l x).ring q j = m.ring q j := rfl
@[simp] theorem M.setLink_chan (j : Nat) : (m.setLink l x).chan j = m.chan j := rfl
@[simp] theorem M.setLink_cpu (j : Key) : (m.setLink l x).cpu j = m.cpu j := rfl
@[simp] theorem M.setLink_script (q j : Nat) : (m.setLink l x).script q j = m.script q j := rfl
@[simp] theorem M.setLink_rh (q j : Nat) : (m.setLink l x).rh q j = m.rh q j := rfl
@[simp] theorem M.setLink_queue (q j : Nat) : (m.setLink l x).queue q j = m.queue q j := rfl
@[simp] theorem M.setLink_mbxOf (q j : Nat) : (m.setLink l x).mbxOf q j = m.mbxOf q j := rfl
@[simp] theorem M.setLink_inForce (a j : Nat) : (m.setLink l x).inForce a j = m.inForce a j := rfl
@[simp] theorem M.setLink_left (a j : Nat) : (m.setLink l x).left a j = m.left a j := rfl
@[simp] theorem M.setLink_inReset (a j : Nat) : (m.setLink l x).inReset a j = m.inReset a j := rfl
@[simp] theorem M.setLink_lastServed (j : Nat) : (m.setLink l x).lastServed j = m.lastServed j := rfl

end

/-! ### setScript -/

section

variable (m : M) (s : Script)

@[simp] theorem M.setScript_f : (m.setScript s).f = m.f := rfl
@[simp] theorem M.setScript_cyc : (m.setScript s).cyc = m.cyc := rfl
@[simp] theorem M.setScript_now : (m.setScript s).now = m.now := rfl
@[simp] theorem M.setScript_fresh : (m.setScript s).fresh = m.fresh := rfl
@[simp] theorem M.setScript_out : (m.setScript s).out = m.out := rfl
@[simp] theorem M.setScript_react : (m.setScript s).react = m.react := rfl
@[simp] theorem M.setScript_boot : (m.setScript s).boot = m.boot := rfl
@[simp] theorem M.setScript_pins : (m.setScript s).pins = m.pins := rfl
@[simp] theorem M.setScript_tick : (m.setScript s).tick = m.tick := rfl
@[simp] theorem M.setScript_bud : (m.setScript s).bud = m.bud := rfl
@[simp] theorem M.setScript_brst : (m.setScript s).brst = m.brst := rfl
@[simp] theorem M.setScript_quiet : (m.setScript s).quiet = m.quiet := rfl
@[simp] theorem M.setScript_held : (m.setScript s).held = m.held := rfl
@[simp] theorem M.setScript_asks : (m.setScript s).asks = m.asks := rfl
@[simp] theorem M.setScript_irq : (m.setScript s).irq = m.irq := rfl
@[simp] theorem M.setScript_host : (m.setScript s).host = m.host := rfl
@[simp] theorem M.setScript_rings : (m.setScript s).rings = m.rings := rfl
@[simp] theorem M.setScript_dispq : (m.setScript s).dispq = m.dispq := rfl
@[simp] theorem M.setScript_lastRing : (m.setScript s).lastRing = m.lastRing := rfl
@[simp] theorem M.setScript_waits : (m.setScript s).waits = m.waits := rfl
@[simp] theorem M.setScript_attn : (m.setScript s).attn = m.attn := rfl
@[simp] theorem M.setScript_rhs : (m.setScript s).rhs = m.rhs := rfl
@[simp] theorem M.setScript_chans : (m.setScript s).chans = m.chans := rfl
@[simp] theorem M.setScript_subq : (m.setScript s).subq = m.subq := rfl
@[simp] theorem M.setScript_eng : (m.setScript s).eng = m.eng := rfl
@[simp] theorem M.setScript_cpus : (m.setScript s).cpus = m.cpus := rfl
@[simp] theorem M.setScript_served : (m.setScript s).served = m.served := rfl
@[simp] theorem M.setScript_scratch : (m.setScript s).scratch = m.scratch := rfl
@[simp] theorem M.setScript_stage : (m.setScript s).stage = m.stage := rfl
@[simp] theorem M.setScript_div : (m.setScript s).div = m.div := rfl
@[simp] theorem M.setScript_links : (m.setScript s).links = m.links := rfl
@[simp] theorem M.setScript_sec : (m.setScript s).sec = m.sec := rfl
@[simp] theorem M.setScript_voteDead : (m.setScript s).voteDead = m.voteDead := rfl
@[simp] theorem M.setScript_upset : (m.setScript s).upset = m.upset := rfl
@[simp] theorem M.setScript_glitch : (m.setScript s).glitch = m.glitch := rfl
@[simp] theorem M.setScript_mem : (m.setScript s).mem = m.mem := rfl
@[simp] theorem M.setScript_mbx : (m.setScript s).mbx = m.mbx := rfl
@[simp] theorem M.setScript_evt : (m.setScript s).evt = m.evt := rfl
@[simp] theorem M.setScript_trc : (m.setScript s).trc = m.trc := rfl
@[simp] theorem M.setScript_mgt : (m.setScript s).mgt = m.mgt := rfl
@[simp] theorem M.setScript_fld (G : Fld) (j : Nat) : (m.setScript s).fld G j = m.fld G j := rfl
@[simp] theorem M.setScript_flag (G : Fld) (j : Nat) : (m.setScript s).flag G j = m.flag G j := rfl
@[simp] theorem M.setScript_hostOf (q : Nat) : (m.setScript s).hostOf q = m.hostOf q := rfl
@[simp] theorem M.setScript_ring (q j : Nat) : (m.setScript s).ring q j = m.ring q j := rfl
@[simp] theorem M.setScript_chan (j : Nat) : (m.setScript s).chan j = m.chan j := rfl
@[simp] theorem M.setScript_cpu (j : Key) : (m.setScript s).cpu j = m.cpu j := rfl
@[simp] theorem M.setScript_link (j : Nat) : (m.setScript s).link j = m.link j := rfl
@[simp] theorem M.setScript_rh (q j : Nat) : (m.setScript s).rh q j = m.rh q j := rfl
@[simp] theorem M.setScript_queue (q j : Nat) : (m.setScript s).queue q j = m.queue q j := rfl
@[simp] theorem M.setScript_mbxOf (q j : Nat) : (m.setScript s).mbxOf q j = m.mbxOf q j := rfl
@[simp] theorem M.setScript_inForce (a j : Nat) : (m.setScript s).inForce a j = m.inForce a j := rfl
@[simp] theorem M.setScript_left (a j : Nat) : (m.setScript s).left a j = m.left a j := rfl
@[simp] theorem M.setScript_inReset (a j : Nat) : (m.setScript s).inReset a j = m.inReset a j := rfl
@[simp] theorem M.setScript_lastServed (j : Nat) : (m.setScript s).lastServed j = m.lastServed j := rfl

end

/-! ### delScript -/

section

variable (m : M) (p t : Nat)

@[simp] theorem M.delScript_f : (m.delScript p t).f = m.f := rfl
@[simp] theorem M.delScript_cyc : (m.delScript p t).cyc = m.cyc := rfl
@[simp] theorem M.delScript_now : (m.delScript p t).now = m.now := rfl
@[simp] theorem M.delScript_fresh : (m.delScript p t).fresh = m.fresh := rfl
@[simp] theorem M.delScript_out : (m.delScript p t).out = m.out := rfl
@[simp] theorem M.delScript_react : (m.delScript p t).react = m.react := rfl
@[simp] theorem M.delScript_boot : (m.delScript p t).boot = m.boot := rfl
@[simp] theorem M.delScript_pins : (m.delScript p t).pins = m.pins := rfl
@[simp] theorem M.delScript_tick : (m.delScript p t).tick = m.tick := rfl
@[simp] theorem M.delScript_bud : (m.delScript p t).bud = m.bud := rfl
@[simp] theorem M.delScript_brst : (m.delScript p t).brst = m.brst := rfl
@[simp] theorem M.delScript_quiet : (m.delScript p t).quiet = m.quiet := rfl
@[simp] theorem M.delScript_held : (m.delScript p t).held = m.held := rfl
@[simp] theorem M.delScript_asks : (m.delScript p t).asks = m.asks := rfl
@[simp] theorem M.delScript_irq : (m.delScript p t).irq = m.irq := rfl
@[simp] theorem M.delScript_host : (m.delScript p t).host = m.host := rfl
@[simp] theorem M.delScript_rings : (m.delScript p t).rings = m.rings := rfl
@[simp] theorem M.delScript_dispq : (m.delScript p t).dispq = m.dispq := rfl
@[simp] theorem M.delScript_lastRing : (m.delScript p t).lastRing = m.lastRing := rfl
@[simp] theorem M.delScript_waits : (m.delScript p t).waits = m.waits := rfl
@[simp] theorem M.delScript_attn : (m.delScript p t).attn = m.attn := rfl
@[simp] theorem M.delScript_rhs : (m.delScript p t).rhs = m.rhs := rfl
@[simp] theorem M.delScript_chans : (m.delScript p t).chans = m.chans := rfl
@[simp] theorem M.delScript_subq : (m.delScript p t).subq = m.subq := rfl
@[simp] theorem M.delScript_eng : (m.delScript p t).eng = m.eng := rfl
@[simp] theorem M.delScript_cpus : (m.delScript p t).cpus = m.cpus := rfl
@[simp] theorem M.delScript_served : (m.delScript p t).served = m.served := rfl
@[simp] theorem M.delScript_scratch : (m.delScript p t).scratch = m.scratch := rfl
@[simp] theorem M.delScript_stage : (m.delScript p t).stage = m.stage := rfl
@[simp] theorem M.delScript_div : (m.delScript p t).div = m.div := rfl
@[simp] theorem M.delScript_links : (m.delScript p t).links = m.links := rfl
@[simp] theorem M.delScript_sec : (m.delScript p t).sec = m.sec := rfl
@[simp] theorem M.delScript_voteDead : (m.delScript p t).voteDead = m.voteDead := rfl
@[simp] theorem M.delScript_upset : (m.delScript p t).upset = m.upset := rfl
@[simp] theorem M.delScript_glitch : (m.delScript p t).glitch = m.glitch := rfl
@[simp] theorem M.delScript_mem : (m.delScript p t).mem = m.mem := rfl
@[simp] theorem M.delScript_mbx : (m.delScript p t).mbx = m.mbx := rfl
@[simp] theorem M.delScript_evt : (m.delScript p t).evt = m.evt := rfl
@[simp] theorem M.delScript_trc : (m.delScript p t).trc = m.trc := rfl
@[simp] theorem M.delScript_mgt : (m.delScript p t).mgt = m.mgt := rfl
@[simp] theorem M.delScript_fld (G : Fld) (j : Nat) : (m.delScript p t).fld G j = m.fld G j := rfl
@[simp] theorem M.delScript_flag (G : Fld) (j : Nat) : (m.delScript p t).flag G j = m.flag G j := rfl
@[simp] theorem M.delScript_hostOf (q : Nat) : (m.delScript p t).hostOf q = m.hostOf q := rfl
@[simp] theorem M.delScript_ring (q j : Nat) : (m.delScript p t).ring q j = m.ring q j := rfl
@[simp] theorem M.delScript_chan (j : Nat) : (m.delScript p t).chan j = m.chan j := rfl
@[simp] theorem M.delScript_cpu (j : Key) : (m.delScript p t).cpu j = m.cpu j := rfl
@[simp] theorem M.delScript_link (j : Nat) : (m.delScript p t).link j = m.link j := rfl
@[simp] theorem M.delScript_rh (q j : Nat) : (m.delScript p t).rh q j = m.rh q j := rfl
@[simp] theorem M.delScript_queue (q j : Nat) : (m.delScript p t).queue q j = m.queue q j := rfl
@[simp] theorem M.delScript_mbxOf (q j : Nat) : (m.delScript p t).mbxOf q j = m.mbxOf q j := rfl
@[simp] theorem M.delScript_inForce (a j : Nat) : (m.delScript p t).inForce a j = m.inForce a j := rfl
@[simp] theorem M.delScript_left (a j : Nat) : (m.delScript p t).left a j = m.left a j := rfl
@[simp] theorem M.delScript_inReset (a j : Nat) : (m.delScript p t).inReset a j = m.inReset a j := rfl
@[simp] theorem M.delScript_lastServed (j : Nat) : (m.delScript p t).lastServed j = m.lastServed j := rfl

end

/-! ### setRh -/

section

variable (m : M) (l n : Nat) (r : Rehearsal)

@[simp] theorem M.setRh_f : (m.setRh l n r).f = m.f := rfl
@[simp] theorem M.setRh_cyc : (m.setRh l n r).cyc = m.cyc := rfl
@[simp] theorem M.setRh_now : (m.setRh l n r).now = m.now := rfl
@[simp] theorem M.setRh_fresh : (m.setRh l n r).fresh = m.fresh := rfl
@[simp] theorem M.setRh_out : (m.setRh l n r).out = m.out := rfl
@[simp] theorem M.setRh_react : (m.setRh l n r).react = m.react := rfl
@[simp] theorem M.setRh_boot : (m.setRh l n r).boot = m.boot := rfl
@[simp] theorem M.setRh_pins : (m.setRh l n r).pins = m.pins := rfl
@[simp] theorem M.setRh_tick : (m.setRh l n r).tick = m.tick := rfl
@[simp] theorem M.setRh_bud : (m.setRh l n r).bud = m.bud := rfl
@[simp] theorem M.setRh_brst : (m.setRh l n r).brst = m.brst := rfl
@[simp] theorem M.setRh_quiet : (m.setRh l n r).quiet = m.quiet := rfl
@[simp] theorem M.setRh_held : (m.setRh l n r).held = m.held := rfl
@[simp] theorem M.setRh_asks : (m.setRh l n r).asks = m.asks := rfl
@[simp] theorem M.setRh_irq : (m.setRh l n r).irq = m.irq := rfl
@[simp] theorem M.setRh_host : (m.setRh l n r).host = m.host := rfl
@[simp] theorem M.setRh_rings : (m.setRh l n r).rings = m.rings := rfl
@[simp] theorem M.setRh_dispq : (m.setRh l n r).dispq = m.dispq := rfl
@[simp] theorem M.setRh_lastRing : (m.setRh l n r).lastRing = m.lastRing := rfl
@[simp] theorem M.setRh_scripts : (m.setRh l n r).scripts = m.scripts := rfl
@[simp] theorem M.setRh_waits : (m.setRh l n r).waits = m.waits := rfl
@[simp] theorem M.setRh_attn : (m.setRh l n r).attn = m.attn := rfl
@[simp] theorem M.setRh_chans : (m.setRh l n r).chans = m.chans := rfl
@[simp] theorem M.setRh_subq : (m.setRh l n r).subq = m.subq := rfl
@[simp] theorem M.setRh_eng : (m.setRh l n r).eng = m.eng := rfl
@[simp] theorem M.setRh_cpus : (m.setRh l n r).cpus = m.cpus := rfl
@[simp] theorem M.setRh_served : (m.setRh l n r).served = m.served := rfl
@[simp] theorem M.setRh_scratch : (m.setRh l n r).scratch = m.scratch := rfl
@[simp] theorem M.setRh_stage : (m.setRh l n r).stage = m.stage := rfl
@[simp] theorem M.setRh_div : (m.setRh l n r).div = m.div := rfl
@[simp] theorem M.setRh_links : (m.setRh l n r).links = m.links := rfl
@[simp] theorem M.setRh_sec : (m.setRh l n r).sec = m.sec := rfl
@[simp] theorem M.setRh_voteDead : (m.setRh l n r).voteDead = m.voteDead := rfl
@[simp] theorem M.setRh_upset : (m.setRh l n r).upset = m.upset := rfl
@[simp] theorem M.setRh_glitch : (m.setRh l n r).glitch = m.glitch := rfl
@[simp] theorem M.setRh_mem : (m.setRh l n r).mem = m.mem := rfl
@[simp] theorem M.setRh_mbx : (m.setRh l n r).mbx = m.mbx := rfl
@[simp] theorem M.setRh_evt : (m.setRh l n r).evt = m.evt := rfl
@[simp] theorem M.setRh_trc : (m.setRh l n r).trc = m.trc := rfl
@[simp] theorem M.setRh_mgt : (m.setRh l n r).mgt = m.mgt := rfl
@[simp] theorem M.setRh_fld (G : Fld) (j : Nat) : (m.setRh l n r).fld G j = m.fld G j := rfl
@[simp] theorem M.setRh_flag (G : Fld) (j : Nat) : (m.setRh l n r).flag G j = m.flag G j := rfl
@[simp] theorem M.setRh_hostOf (q : Nat) : (m.setRh l n r).hostOf q = m.hostOf q := rfl
@[simp] theorem M.setRh_ring (q j : Nat) : (m.setRh l n r).ring q j = m.ring q j := rfl
@[simp] theorem M.setRh_chan (j : Nat) : (m.setRh l n r).chan j = m.chan j := rfl
@[simp] theorem M.setRh_cpu (j : Key) : (m.setRh l n r).cpu j = m.cpu j := rfl
@[simp] theorem M.setRh_link (j : Nat) : (m.setRh l n r).link j = m.link j := rfl
@[simp] theorem M.setRh_script (q j : Nat) : (m.setRh l n r).script q j = m.script q j := rfl
@[simp] theorem M.setRh_queue (q j : Nat) : (m.setRh l n r).queue q j = m.queue q j := rfl
@[simp] theorem M.setRh_mbxOf (q j : Nat) : (m.setRh l n r).mbxOf q j = m.mbxOf q j := rfl
@[simp] theorem M.setRh_inForce (a j : Nat) : (m.setRh l n r).inForce a j = m.inForce a j := rfl
@[simp] theorem M.setRh_left (a j : Nat) : (m.setRh l n r).left a j = m.left a j := rfl
@[simp] theorem M.setRh_inReset (a j : Nat) : (m.setRh l n r).inReset a j = m.inReset a j := rfl
@[simp] theorem M.setRh_lastServed (j : Nat) : (m.setRh l n r).lastServed j = m.lastServed j := rfl

end

/-! ### delRh -/

section

variable (m : M) (l n : Nat)

@[simp] theorem M.delRh_f : (m.delRh l n).f = m.f := rfl
@[simp] theorem M.delRh_cyc : (m.delRh l n).cyc = m.cyc := rfl
@[simp] theorem M.delRh_now : (m.delRh l n).now = m.now := rfl
@[simp] theorem M.delRh_fresh : (m.delRh l n).fresh = m.fresh := rfl
@[simp] theorem M.delRh_out : (m.delRh l n).out = m.out := rfl
@[simp] theorem M.delRh_react : (m.delRh l n).react = m.react := rfl
@[simp] theorem M.delRh_boot : (m.delRh l n).boot = m.boot := rfl
@[simp] theorem M.delRh_pins : (m.delRh l n).pins = m.pins := rfl
@[simp] theorem M.delRh_tick : (m.delRh l n).tick = m.tick := rfl
@[simp] theorem M.delRh_bud : (m.delRh l n).bud = m.bud := rfl
@[simp] theorem M.delRh_brst : (m.delRh l n).brst = m.brst := rfl
@[simp] theorem M.delRh_quiet : (m.delRh l n).quiet = m.quiet := rfl
@[simp] theorem M.delRh_held : (m.delRh l n).held = m.held := rfl
@[simp] theorem M.delRh_asks : (m.delRh l n).asks = m.asks := rfl
@[simp] theorem M.delRh_irq : (m.delRh l n).irq = m.irq := rfl
@[simp] theorem M.delRh_host : (m.delRh l n).host = m.host := rfl
@[simp] theorem M.delRh_rings : (m.delRh l n).rings = m.rings := rfl
@[simp] theorem M.delRh_dispq : (m.delRh l n).dispq = m.dispq := rfl
@[simp] theorem M.delRh_lastRing : (m.delRh l n).lastRing = m.lastRing := rfl
@[simp] theorem M.delRh_scripts : (m.delRh l n).scripts = m.scripts := rfl
@[simp] theorem M.delRh_waits : (m.delRh l n).waits = m.waits := rfl
@[simp] theorem M.delRh_attn : (m.delRh l n).attn = m.attn := rfl
@[simp] theorem M.delRh_chans : (m.delRh l n).chans = m.chans := rfl
@[simp] theorem M.delRh_subq : (m.delRh l n).subq = m.subq := rfl
@[simp] theorem M.delRh_eng : (m.delRh l n).eng = m.eng := rfl
@[simp] theorem M.delRh_cpus : (m.delRh l n).cpus = m.cpus := rfl
@[simp] theorem M.delRh_served : (m.delRh l n).served = m.served := rfl
@[simp] theorem M.delRh_scratch : (m.delRh l n).scratch = m.scratch := rfl
@[simp] theorem M.delRh_stage : (m.delRh l n).stage = m.stage := rfl
@[simp] theorem M.delRh_div : (m.delRh l n).div = m.div := rfl
@[simp] theorem M.delRh_links : (m.delRh l n).links = m.links := rfl
@[simp] theorem M.delRh_sec : (m.delRh l n).sec = m.sec := rfl
@[simp] theorem M.delRh_voteDead : (m.delRh l n).voteDead = m.voteDead := rfl
@[simp] theorem M.delRh_upset : (m.delRh l n).upset = m.upset := rfl
@[simp] theorem M.delRh_glitch : (m.delRh l n).glitch = m.glitch := rfl
@[simp] theorem M.delRh_mem : (m.delRh l n).mem = m.mem := rfl
@[simp] theorem M.delRh_mbx : (m.delRh l n).mbx = m.mbx := rfl
@[simp] theorem M.delRh_evt : (m.delRh l n).evt = m.evt := rfl
@[simp] theorem M.delRh_trc : (m.delRh l n).trc = m.trc := rfl
@[simp] theorem M.delRh_mgt : (m.delRh l n).mgt = m.mgt := rfl
@[simp] theorem M.delRh_fld (G : Fld) (j : Nat) : (m.delRh l n).fld G j = m.fld G j := rfl
@[simp] theorem M.delRh_flag (G : Fld) (j : Nat) : (m.delRh l n).flag G j = m.flag G j := rfl
@[simp] theorem M.delRh_hostOf (q : Nat) : (m.delRh l n).hostOf q = m.hostOf q := rfl
@[simp] theorem M.delRh_ring (q j : Nat) : (m.delRh l n).ring q j = m.ring q j := rfl
@[simp] theorem M.delRh_chan (j : Nat) : (m.delRh l n).chan j = m.chan j := rfl
@[simp] theorem M.delRh_cpu (j : Key) : (m.delRh l n).cpu j = m.cpu j := rfl
@[simp] theorem M.delRh_link (j : Nat) : (m.delRh l n).link j = m.link j := rfl
@[simp] theorem M.delRh_script (q j : Nat) : (m.delRh l n).script q j = m.script q j := rfl
@[simp] theorem M.delRh_queue (q j : Nat) : (m.delRh l n).queue q j = m.queue q j := rfl
@[simp] theorem M.delRh_mbxOf (q j : Nat) : (m.delRh l n).mbxOf q j = m.mbxOf q j := rfl
@[simp] theorem M.delRh_inForce (a j : Nat) : (m.delRh l n).inForce a j = m.inForce a j := rfl
@[simp] theorem M.delRh_left (a j : Nat) : (m.delRh l n).left a j = m.left a j := rfl
@[simp] theorem M.delRh_inReset (a j : Nat) : (m.delRh l n).inReset a j = m.inReset a j := rfl
@[simp] theorem M.delRh_lastServed (j : Nat) : (m.delRh l n).lastServed j = m.lastServed j := rfl

end

/-! ### setQueue -/

section

variable (m : M) (c o : Nat) (x : List Xfer)

@[simp] theorem M.setQueue_f : (m.setQueue c o x).f = m.f := rfl
@[simp] theorem M.setQueue_cyc : (m.setQueue c o x).cyc = m.cyc := rfl
@[simp] theorem M.setQueue_now : (m.setQueue c o x).now = m.now := rfl
@[simp] theorem M.setQueue_fresh : (m.setQueue c o x).fresh = m.fresh := rfl
@[simp] theorem M.setQueue_out : (m.setQueue c o x).out = m.out := rfl
@[simp] theorem M.setQueue_react : (m.setQueue c o x).react = m.react := rfl
@[simp] theorem M.setQueue_boot : (m.setQueue c o x).boot = m.boot := rfl
@[simp] theorem M.setQueue_pins : (m.setQueue c o x).pins = m.pins := rfl
@[simp] theorem M.setQueue_tick : (m.setQueue c o x).tick = m.tick := rfl
@[simp] theorem M.setQueue_bud : (m.setQueue c o x).bud = m.bud := rfl
@[simp] theorem M.setQueue_brst : (m.setQueue c o x).brst = m.brst := rfl
@[simp] theorem M.setQueue_quiet : (m.setQueue c o x).quiet = m.quiet := rfl
@[simp] theorem M.setQueue_held : (m.setQueue c o x).held = m.held := rfl
@[simp] theorem M.setQueue_asks : (m.setQueue c o x).asks = m.asks := rfl
@[simp] theorem M.setQueue_irq : (m.setQueue c o x).irq = m.irq := rfl
@[simp] theorem M.setQueue_host : (m.setQueue c o x).host = m.host := rfl
@[simp] theorem M.setQueue_rings : (m.setQueue c o x).rings = m.rings := rfl
@[simp] theorem M.setQueue_dispq : (m.setQueue c o x).dispq = m.dispq := rfl
@[simp] theorem M.setQueue_lastRing : (m.setQueue c o x).lastRing = m.lastRing := rfl
@[simp] theorem M.setQueue_scripts : (m.setQueue c o x).scripts = m.scripts := rfl
@[simp] theorem M.setQueue_waits : (m.setQueue c o x).waits = m.waits := rfl
@[simp] theorem M.setQueue_attn : (m.setQueue c o x).attn = m.attn := rfl
@[simp] theorem M.setQueue_rhs : (m.setQueue c o x).rhs = m.rhs := rfl
@[simp] theorem M.setQueue_chans : (m.setQueue c o x).chans = m.chans := rfl
@[simp] theorem M.setQueue_eng : (m.setQueue c o x).eng = m.eng := rfl
@[simp] theorem M.setQueue_cpus : (m.setQueue c o x).cpus = m.cpus := rfl
@[simp] theorem M.setQueue_served : (m.setQueue c o x).served = m.served := rfl
@[simp] theorem M.setQueue_scratch : (m.setQueue c o x).scratch = m.scratch := rfl
@[simp] theorem M.setQueue_stage : (m.setQueue c o x).stage = m.stage := rfl
@[simp] theorem M.setQueue_div : (m.setQueue c o x).div = m.div := rfl
@[simp] theorem M.setQueue_links : (m.setQueue c o x).links = m.links := rfl
@[simp] theorem M.setQueue_sec : (m.setQueue c o x).sec = m.sec := rfl
@[simp] theorem M.setQueue_voteDead : (m.setQueue c o x).voteDead = m.voteDead := rfl
@[simp] theorem M.setQueue_upset : (m.setQueue c o x).upset = m.upset := rfl
@[simp] theorem M.setQueue_glitch : (m.setQueue c o x).glitch = m.glitch := rfl
@[simp] theorem M.setQueue_mem : (m.setQueue c o x).mem = m.mem := rfl
@[simp] theorem M.setQueue_mbx : (m.setQueue c o x).mbx = m.mbx := rfl
@[simp] theorem M.setQueue_evt : (m.setQueue c o x).evt = m.evt := rfl
@[simp] theorem M.setQueue_trc : (m.setQueue c o x).trc = m.trc := rfl
@[simp] theorem M.setQueue_mgt : (m.setQueue c o x).mgt = m.mgt := rfl
@[simp] theorem M.setQueue_fld (G : Fld) (j : Nat) : (m.setQueue c o x).fld G j = m.fld G j := rfl
@[simp] theorem M.setQueue_flag (G : Fld) (j : Nat) : (m.setQueue c o x).flag G j = m.flag G j := rfl
@[simp] theorem M.setQueue_hostOf (q : Nat) : (m.setQueue c o x).hostOf q = m.hostOf q := rfl
@[simp] theorem M.setQueue_ring (q j : Nat) : (m.setQueue c o x).ring q j = m.ring q j := rfl
@[simp] theorem M.setQueue_chan (j : Nat) : (m.setQueue c o x).chan j = m.chan j := rfl
@[simp] theorem M.setQueue_cpu (j : Key) : (m.setQueue c o x).cpu j = m.cpu j := rfl
@[simp] theorem M.setQueue_link (j : Nat) : (m.setQueue c o x).link j = m.link j := rfl
@[simp] theorem M.setQueue_script (q j : Nat) : (m.setQueue c o x).script q j = m.script q j := rfl
@[simp] theorem M.setQueue_rh (q j : Nat) : (m.setQueue c o x).rh q j = m.rh q j := rfl
@[simp] theorem M.setQueue_mbxOf (q j : Nat) : (m.setQueue c o x).mbxOf q j = m.mbxOf q j := rfl
@[simp] theorem M.setQueue_inForce (a j : Nat) : (m.setQueue c o x).inForce a j = m.inForce a j := rfl
@[simp] theorem M.setQueue_left (a j : Nat) : (m.setQueue c o x).left a j = m.left a j := rfl
@[simp] theorem M.setQueue_inReset (a j : Nat) : (m.setQueue c o x).inReset a j = m.inReset a j := rfl
@[simp] theorem M.setQueue_lastServed (j : Nat) : (m.setQueue c o x).lastServed j = m.lastServed j := rfl

end

/-! ### setMbx -/

section

variable (m : M) (p d : Nat) (x : Mbx)

@[simp] theorem M.setMbx_f : (m.setMbx p d x).f = m.f := rfl
@[simp] theorem M.setMbx_cyc : (m.setMbx p d x).cyc = m.cyc := rfl
@[simp] theorem M.setMbx_now : (m.setMbx p d x).now = m.now := rfl
@[simp] theorem M.setMbx_fresh : (m.setMbx p d x).fresh = m.fresh := rfl
@[simp] theorem M.setMbx_out : (m.setMbx p d x).out = m.out := rfl
@[simp] theorem M.setMbx_react : (m.setMbx p d x).react = m.react := rfl
@[simp] theorem M.setMbx_boot : (m.setMbx p d x).boot = m.boot := rfl
@[simp] theorem M.setMbx_pins : (m.setMbx p d x).pins = m.pins := rfl
@[simp] theorem M.setMbx_tick : (m.setMbx p d x).tick = m.tick := rfl
@[simp] theorem M.setMbx_bud : (m.setMbx p d x).bud = m.bud := rfl
@[simp] theorem M.setMbx_brst : (m.setMbx p d x).brst = m.brst := rfl
@[simp] theorem M.setMbx_quiet : (m.setMbx p d x).quiet = m.quiet := rfl
@[simp] theorem M.setMbx_held : (m.setMbx p d x).held = m.held := rfl
@[simp] theorem M.setMbx_asks : (m.setMbx p d x).asks = m.asks := rfl
@[simp] theorem M.setMbx_irq : (m.setMbx p d x).irq = m.irq := rfl
@[simp] theorem M.setMbx_host : (m.setMbx p d x).host = m.host := rfl
@[simp] theorem M.setMbx_rings : (m.setMbx p d x).rings = m.rings := rfl
@[simp] theorem M.setMbx_dispq : (m.setMbx p d x).dispq = m.dispq := rfl
@[simp] theorem M.setMbx_lastRing : (m.setMbx p d x).lastRing = m.lastRing := rfl
@[simp] theorem M.setMbx_scripts : (m.setMbx p d x).scripts = m.scripts := rfl
@[simp] theorem M.setMbx_waits : (m.setMbx p d x).waits = m.waits := rfl
@[simp] theorem M.setMbx_attn : (m.setMbx p d x).attn = m.attn := rfl
@[simp] theorem M.setMbx_rhs : (m.setMbx p d x).rhs = m.rhs := rfl
@[simp] theorem M.setMbx_chans : (m.setMbx p d x).chans = m.chans := rfl
@[simp] theorem M.setMbx_subq : (m.setMbx p d x).subq = m.subq := rfl
@[simp] theorem M.setMbx_eng : (m.setMbx p d x).eng = m.eng := rfl
@[simp] theorem M.setMbx_cpus : (m.setMbx p d x).cpus = m.cpus := rfl
@[simp] theorem M.setMbx_served : (m.setMbx p d x).served = m.served := rfl
@[simp] theorem M.setMbx_scratch : (m.setMbx p d x).scratch = m.scratch := rfl
@[simp] theorem M.setMbx_stage : (m.setMbx p d x).stage = m.stage := rfl
@[simp] theorem M.setMbx_div : (m.setMbx p d x).div = m.div := rfl
@[simp] theorem M.setMbx_links : (m.setMbx p d x).links = m.links := rfl
@[simp] theorem M.setMbx_sec : (m.setMbx p d x).sec = m.sec := rfl
@[simp] theorem M.setMbx_voteDead : (m.setMbx p d x).voteDead = m.voteDead := rfl
@[simp] theorem M.setMbx_upset : (m.setMbx p d x).upset = m.upset := rfl
@[simp] theorem M.setMbx_glitch : (m.setMbx p d x).glitch = m.glitch := rfl
@[simp] theorem M.setMbx_mem : (m.setMbx p d x).mem = m.mem := rfl
@[simp] theorem M.setMbx_evt : (m.setMbx p d x).evt = m.evt := rfl
@[simp] theorem M.setMbx_trc : (m.setMbx p d x).trc = m.trc := rfl
@[simp] theorem M.setMbx_mgt : (m.setMbx p d x).mgt = m.mgt := rfl
@[simp] theorem M.setMbx_fld (G : Fld) (j : Nat) : (m.setMbx p d x).fld G j = m.fld G j := rfl
@[simp] theorem M.setMbx_flag (G : Fld) (j : Nat) : (m.setMbx p d x).flag G j = m.flag G j := rfl
@[simp] theorem M.setMbx_hostOf (q : Nat) : (m.setMbx p d x).hostOf q = m.hostOf q := rfl
@[simp] theorem M.setMbx_ring (q j : Nat) : (m.setMbx p d x).ring q j = m.ring q j := rfl
@[simp] theorem M.setMbx_chan (j : Nat) : (m.setMbx p d x).chan j = m.chan j := rfl
@[simp] theorem M.setMbx_cpu (j : Key) : (m.setMbx p d x).cpu j = m.cpu j := rfl
@[simp] theorem M.setMbx_link (j : Nat) : (m.setMbx p d x).link j = m.link j := rfl
@[simp] theorem M.setMbx_script (q j : Nat) : (m.setMbx p d x).script q j = m.script q j := rfl
@[simp] theorem M.setMbx_rh (q j : Nat) : (m.setMbx p d x).rh q j = m.rh q j := rfl
@[simp] theorem M.setMbx_queue (q j : Nat) : (m.setMbx p d x).queue q j = m.queue q j := rfl
@[simp] theorem M.setMbx_inForce (a j : Nat) : (m.setMbx p d x).inForce a j = m.inForce a j := rfl
@[simp] theorem M.setMbx_left (a j : Nat) : (m.setMbx p d x).left a j = m.left a j := rfl
@[simp] theorem M.setMbx_inReset (a j : Nat) : (m.setMbx p d x).inReset a j = m.inReset a j := rfl
@[simp] theorem M.setMbx_lastServed (j : Nat) : (m.setMbx p d x).lastServed j = m.lastServed j := rfl

end

/-! ### charge -/

section

variable (m : M) (k i v n : Nat)

@[simp] theorem M.charge_f : (m.charge k i v n).f = m.f := rfl
@[simp] theorem M.charge_cyc : (m.charge k i v n).cyc = m.cyc := rfl
@[simp] theorem M.charge_now : (m.charge k i v n).now = m.now := rfl
@[simp] theorem M.charge_fresh : (m.charge k i v n).fresh = m.fresh := rfl
@[simp] theorem M.charge_out : (m.charge k i v n).out = m.out := rfl
@[simp] theorem M.charge_react : (m.charge k i v n).react = m.react := rfl
@[simp] theorem M.charge_boot : (m.charge k i v n).boot = m.boot := rfl
@[simp] theorem M.charge_pins : (m.charge k i v n).pins = m.pins := rfl
@[simp] theorem M.charge_tick : (m.charge k i v n).tick = m.tick := rfl
@[simp] theorem M.charge_brst : (m.charge k i v n).brst = m.brst := rfl
@[simp] theorem M.charge_quiet : (m.charge k i v n).quiet = m.quiet := rfl
@[simp] theorem M.charge_held : (m.charge k i v n).held = m.held := rfl
@[simp] theorem M.charge_asks : (m.charge k i v n).asks = m.asks := rfl
@[simp] theorem M.charge_irq : (m.charge k i v n).irq = m.irq := rfl
@[simp] theorem M.charge_host : (m.charge k i v n).host = m.host := rfl
@[simp] theorem M.charge_rings : (m.charge k i v n).rings = m.rings := rfl
@[simp] theorem M.charge_dispq : (m.charge k i v n).dispq = m.dispq := rfl
@[simp] theorem M.charge_lastRing : (m.charge k i v n).lastRing = m.lastRing := rfl
@[simp] theorem M.charge_scripts : (m.charge k i v n).scripts = m.scripts := rfl
@[simp] theorem M.charge_waits : (m.charge k i v n).waits = m.waits := rfl
@[simp] theorem M.charge_attn : (m.charge k i v n).attn = m.attn := rfl
@[simp] theorem M.charge_rhs : (m.charge k i v n).rhs = m.rhs := rfl
@[simp] theorem M.charge_chans : (m.charge k i v n).chans = m.chans := rfl
@[simp] theorem M.charge_subq : (m.charge k i v n).subq = m.subq := rfl
@[simp] theorem M.charge_eng : (m.charge k i v n).eng = m.eng := rfl
@[simp] theorem M.charge_cpus : (m.charge k i v n).cpus = m.cpus := rfl
@[simp] theorem M.charge_served : (m.charge k i v n).served = m.served := rfl
@[simp] theorem M.charge_scratch : (m.charge k i v n).scratch = m.scratch := rfl
@[simp] theorem M.charge_stage : (m.charge k i v n).stage = m.stage := rfl
@[simp] theorem M.charge_div : (m.charge k i v n).div = m.div := rfl
@[simp] theorem M.charge_links : (m.charge k i v n).links = m.links := rfl
@[simp] theorem M.charge_sec : (m.charge k i v n).sec = m.sec := rfl
@[simp] theorem M.charge_voteDead : (m.charge k i v n).voteDead = m.voteDead := rfl
@[simp] theorem M.charge_upset : (m.charge k i v n).upset = m.upset := rfl
@[simp] theorem M.charge_glitch : (m.charge k i v n).glitch = m.glitch := rfl
@[simp] theorem M.charge_mem : (m.charge k i v n).mem = m.mem := rfl
@[simp] theorem M.charge_mbx : (m.charge k i v n).mbx = m.mbx := rfl
@[simp] theorem M.charge_evt : (m.charge k i v n).evt = m.evt := rfl
@[simp] theorem M.charge_trc : (m.charge k i v n).trc = m.trc := rfl
@[simp] theorem M.charge_mgt : (m.charge k i v n).mgt = m.mgt := rfl
@[simp] theorem M.charge_fld (G : Fld) (j : Nat) : (m.charge k i v n).fld G j = m.fld G j := rfl
@[simp] theorem M.charge_flag (G : Fld) (j : Nat) : (m.charge k i v n).flag G j = m.flag G j := rfl
@[simp] theorem M.charge_hostOf (q : Nat) : (m.charge k i v n).hostOf q = m.hostOf q := rfl
@[simp] theorem M.charge_ring (q j : Nat) : (m.charge k i v n).ring q j = m.ring q j := rfl
@[simp] theorem M.charge_chan (j : Nat) : (m.charge k i v n).chan j = m.chan j := rfl
@[simp] theorem M.charge_cpu (j : Key) : (m.charge k i v n).cpu j = m.cpu j := rfl
@[simp] theorem M.charge_link (j : Nat) : (m.charge k i v n).link j = m.link j := rfl
@[simp] theorem M.charge_script (q j : Nat) : (m.charge k i v n).script q j = m.script q j := rfl
@[simp] theorem M.charge_rh (q j : Nat) : (m.charge k i v n).rh q j = m.rh q j := rfl
@[simp] theorem M.charge_queue (q j : Nat) : (m.charge k i v n).queue q j = m.queue q j := rfl
@[simp] theorem M.charge_mbxOf (q j : Nat) : (m.charge k i v n).mbxOf q j = m.mbxOf q j := rfl
@[simp] theorem M.charge_inReset (a j : Nat) : (m.charge k i v n).inReset a j = m.inReset a j := rfl
@[simp] theorem M.charge_lastServed (j : Nat) : (m.charge k i v n).lastServed j = m.lastServed j := rfl

end

/-! ### serveThread -/

section

variable (m : M) (t : Nat)

@[simp] theorem M.serveThread_f : (m.serveThread t).f = m.f := rfl
@[simp] theorem M.serveThread_cyc : (m.serveThread t).cyc = m.cyc := rfl
@[simp] theorem M.serveThread_now : (m.serveThread t).now = m.now := rfl
@[simp] theorem M.serveThread_fresh : (m.serveThread t).fresh = m.fresh := rfl
@[simp] theorem M.serveThread_out : (m.serveThread t).out = m.out := rfl
@[simp] theorem M.serveThread_react : (m.serveThread t).react = m.react := rfl
@[simp] theorem M.serveThread_boot : (m.serveThread t).boot = m.boot := rfl
@[simp] theorem M.serveThread_pins : (m.serveThread t).pins = m.pins := rfl
@[simp] theorem M.serveThread_tick : (m.serveThread t).tick = m.tick := rfl
@[simp] theorem M.serveThread_bud : (m.serveThread t).bud = m.bud := rfl
@[simp] theorem M.serveThread_brst : (m.serveThread t).brst = m.brst := rfl
@[simp] theorem M.serveThread_quiet : (m.serveThread t).quiet = m.quiet := rfl
@[simp] theorem M.serveThread_held : (m.serveThread t).held = m.held := rfl
@[simp] theorem M.serveThread_asks : (m.serveThread t).asks = m.asks := rfl
@[simp] theorem M.serveThread_irq : (m.serveThread t).irq = m.irq := rfl
@[simp] theorem M.serveThread_host : (m.serveThread t).host = m.host := rfl
@[simp] theorem M.serveThread_rings : (m.serveThread t).rings = m.rings := rfl
@[simp] theorem M.serveThread_dispq : (m.serveThread t).dispq = m.dispq := rfl
@[simp] theorem M.serveThread_lastRing : (m.serveThread t).lastRing = m.lastRing := rfl
@[simp] theorem M.serveThread_scripts : (m.serveThread t).scripts = m.scripts := rfl
@[simp] theorem M.serveThread_waits : (m.serveThread t).waits = m.waits := rfl
@[simp] theorem M.serveThread_attn : (m.serveThread t).attn = m.attn := rfl
@[simp] theorem M.serveThread_rhs : (m.serveThread t).rhs = m.rhs := rfl
@[simp] theorem M.serveThread_chans : (m.serveThread t).chans = m.chans := rfl
@[simp] theorem M.serveThread_subq : (m.serveThread t).subq = m.subq := rfl
@[simp] theorem M.serveThread_eng : (m.serveThread t).eng = m.eng := rfl
@[simp] theorem M.serveThread_cpus : (m.serveThread t).cpus = m.cpus := rfl
@[simp] theorem M.serveThread_scratch : (m.serveThread t).scratch = m.scratch := rfl
@[simp] theorem M.serveThread_stage : (m.serveThread t).stage = m.stage := rfl
@[simp] theorem M.serveThread_div : (m.serveThread t).div = m.div := rfl
@[simp] theorem M.serveThread_links : (m.serveThread t).links = m.links := rfl
@[simp] theorem M.serveThread_sec : (m.serveThread t).sec = m.sec := rfl
@[simp] theorem M.serveThread_voteDead : (m.serveThread t).voteDead = m.voteDead := rfl
@[simp] theorem M.serveThread_upset : (m.serveThread t).upset = m.upset := rfl
@[simp] theorem M.serveThread_glitch : (m.serveThread t).glitch = m.glitch := rfl
@[simp] theorem M.serveThread_mem : (m.serveThread t).mem = m.mem := rfl
@[simp] theorem M.serveThread_mbx : (m.serveThread t).mbx = m.mbx := rfl
@[simp] theorem M.serveThread_evt : (m.serveThread t).evt = m.evt := rfl
@[simp] theorem M.serveThread_trc : (m.serveThread t).trc = m.trc := rfl
@[simp] theorem M.serveThread_mgt : (m.serveThread t).mgt = m.mgt := rfl
@[simp] theorem M.serveThread_fld (G : Fld) (j : Nat) : (m.serveThread t).fld G j = m.fld G j := rfl
@[simp] theorem M.serveThread_flag (G : Fld) (j : Nat) : (m.serveThread t).flag G j = m.flag G j := rfl
@[simp] theorem M.serveThread_hostOf (q : Nat) : (m.serveThread t).hostOf q = m.hostOf q := rfl
@[simp] theorem M.serveThread_ring (q j : Nat) : (m.serveThread t).ring q j = m.ring q j := rfl
@[simp] theorem M.serveThread_chan (j : Nat) : (m.serveThread t).chan j = m.chan j := rfl
@[simp] theorem M.serveThread_cpu (j : Key) : (m.serveThread t).cpu j = m.cpu j := rfl
@[simp] theorem M.serveThread_link (j : Nat) : (m.serveThread t).link j = m.link j := rfl
@[simp] theorem M.serveThread_script (q j : Nat) : (m.serveThread t).script q j = m.script q j := rfl
@[simp] theorem M.serveThread_rh (q j : Nat) : (m.serveThread t).rh q j = m.rh q j := rfl
@[simp] theorem M.serveThread_queue (q j : Nat) : (m.serveThread t).queue q j = m.queue q j := rfl
@[simp] theorem M.serveThread_mbxOf (q j : Nat) : (m.serveThread t).mbxOf q j = m.mbxOf q j := rfl
@[simp] theorem M.serveThread_inForce (a j : Nat) : (m.serveThread t).inForce a j = m.inForce a j := rfl
@[simp] theorem M.serveThread_left (a j : Nat) : (m.serveThread t).left a j = m.left a j := rfl
@[simp] theorem M.serveThread_inReset (a j : Nat) : (m.serveThread t).inReset a j = m.inReset a j := rfl

end

/-! ### passTurn -/

section

variable (m : M) (t : Nat)

@[simp] theorem M.passTurn_f : (m.passTurn t).f = m.f := rfl
@[simp] theorem M.passTurn_cyc : (m.passTurn t).cyc = m.cyc := rfl
@[simp] theorem M.passTurn_now : (m.passTurn t).now = m.now := rfl
@[simp] theorem M.passTurn_fresh : (m.passTurn t).fresh = m.fresh := rfl
@[simp] theorem M.passTurn_out : (m.passTurn t).out = m.out := rfl
@[simp] theorem M.passTurn_react : (m.passTurn t).react = m.react := rfl
@[simp] theorem M.passTurn_boot : (m.passTurn t).boot = m.boot := rfl
@[simp] theorem M.passTurn_pins : (m.passTurn t).pins = m.pins := rfl
@[simp] theorem M.passTurn_tick : (m.passTurn t).tick = m.tick := rfl
@[simp] theorem M.passTurn_bud : (m.passTurn t).bud = m.bud := rfl
@[simp] theorem M.passTurn_brst : (m.passTurn t).brst = m.brst := rfl
@[simp] theorem M.passTurn_quiet : (m.passTurn t).quiet = m.quiet := rfl
@[simp] theorem M.passTurn_held : (m.passTurn t).held = m.held := rfl
@[simp] theorem M.passTurn_asks : (m.passTurn t).asks = m.asks := rfl
@[simp] theorem M.passTurn_irq : (m.passTurn t).irq = m.irq := rfl
@[simp] theorem M.passTurn_host : (m.passTurn t).host = m.host := rfl
@[simp] theorem M.passTurn_rings : (m.passTurn t).rings = m.rings := rfl
@[simp] theorem M.passTurn_dispq : (m.passTurn t).dispq = m.dispq := rfl
@[simp] theorem M.passTurn_lastRing : (m.passTurn t).lastRing = m.lastRing := rfl
@[simp] theorem M.passTurn_scripts : (m.passTurn t).scripts = m.scripts := rfl
@[simp] theorem M.passTurn_waits : (m.passTurn t).waits = m.waits := rfl
@[simp] theorem M.passTurn_attn : (m.passTurn t).attn = m.attn := rfl
@[simp] theorem M.passTurn_rhs : (m.passTurn t).rhs = m.rhs := rfl
@[simp] theorem M.passTurn_chans : (m.passTurn t).chans = m.chans := rfl
@[simp] theorem M.passTurn_subq : (m.passTurn t).subq = m.subq := rfl
@[simp] theorem M.passTurn_eng : (m.passTurn t).eng = m.eng := rfl
@[simp] theorem M.passTurn_cpus : (m.passTurn t).cpus = m.cpus := rfl
@[simp] theorem M.passTurn_scratch : (m.passTurn t).scratch = m.scratch := rfl
@[simp] theorem M.passTurn_stage : (m.passTurn t).stage = m.stage := rfl
@[simp] theorem M.passTurn_div : (m.passTurn t).div = m.div := rfl
@[simp] theorem M.passTurn_links : (m.passTurn t).links = m.links := rfl
@[simp] theorem M.passTurn_sec : (m.passTurn t).sec = m.sec := rfl
@[simp] theorem M.passTurn_voteDead : (m.passTurn t).voteDead = m.voteDead := rfl
@[simp] theorem M.passTurn_upset : (m.passTurn t).upset = m.upset := rfl
@[simp] theorem M.passTurn_glitch : (m.passTurn t).glitch = m.glitch := rfl
@[simp] theorem M.passTurn_mem : (m.passTurn t).mem = m.mem := rfl
@[simp] theorem M.passTurn_mbx : (m.passTurn t).mbx = m.mbx := rfl
@[simp] theorem M.passTurn_evt : (m.passTurn t).evt = m.evt := rfl
@[simp] theorem M.passTurn_trc : (m.passTurn t).trc = m.trc := rfl
@[simp] theorem M.passTurn_mgt : (m.passTurn t).mgt = m.mgt := rfl
@[simp] theorem M.passTurn_fld (G : Fld) (j : Nat) : (m.passTurn t).fld G j = m.fld G j := rfl
@[simp] theorem M.passTurn_flag (G : Fld) (j : Nat) : (m.passTurn t).flag G j = m.flag G j := rfl
@[simp] theorem M.passTurn_hostOf (q : Nat) : (m.passTurn t).hostOf q = m.hostOf q := rfl
@[simp] theorem M.passTurn_ring (q j : Nat) : (m.passTurn t).ring q j = m.ring q j := rfl
@[simp] theorem M.passTurn_chan (j : Nat) : (m.passTurn t).chan j = m.chan j := rfl
@[simp] theorem M.passTurn_cpu (j : Key) : (m.passTurn t).cpu j = m.cpu j := rfl
@[simp] theorem M.passTurn_link (j : Nat) : (m.passTurn t).link j = m.link j := rfl
@[simp] theorem M.passTurn_script (q j : Nat) : (m.passTurn t).script q j = m.script q j := rfl
@[simp] theorem M.passTurn_rh (q j : Nat) : (m.passTurn t).rh q j = m.rh q j := rfl
@[simp] theorem M.passTurn_queue (q j : Nat) : (m.passTurn t).queue q j = m.queue q j := rfl
@[simp] theorem M.passTurn_mbxOf (q j : Nat) : (m.passTurn t).mbxOf q j = m.mbxOf q j := rfl
@[simp] theorem M.passTurn_inForce (a j : Nat) : (m.passTurn t).inForce a j = m.inForce a j := rfl
@[simp] theorem M.passTurn_left (a j : Nat) : (m.passTurn t).left a j = m.left a j := rfl
@[simp] theorem M.passTurn_inReset (a j : Nat) : (m.passTurn t).inReset a j = m.inReset a j := rfl

end

/-! ### stageTake -/

section

variable (m : M) (p n : Nat)

@[simp] theorem M.stageTake_f : (m.stageTake p n).f = m.f := rfl
@[simp] theorem M.stageTake_cyc : (m.stageTake p n).cyc = m.cyc := rfl
@[simp] theorem M.stageTake_now : (m.stageTake p n).now = m.now := rfl
@[simp] theorem M.stageTake_fresh : (m.stageTake p n).fresh = m.fresh := rfl
@[simp] theorem M.stageTake_out : (m.stageTake p n).out = m.out := rfl
@[simp] theorem M.stageTake_react : (m.stageTake p n).react = m.react := rfl
@[simp] theorem M.stageTake_boot : (m.stageTake p n).boot = m.boot := rfl
@[simp] theorem M.stageTake_pins : (m.stageTake p n).pins = m.pins := rfl
@[simp] theorem M.stageTake_tick : (m.stageTake p n).tick = m.tick := rfl
@[simp] theorem M.stageTake_brst : (m.stageTake p n).brst = m.brst := rfl
@[simp] theorem M.stageTake_quiet : (m.stageTake p n).quiet = m.quiet := rfl
@[simp] theorem M.stageTake_held : (m.stageTake p n).held = m.held := rfl
@[simp] theorem M.stageTake_asks : (m.stageTake p n).asks = m.asks := rfl
@[simp] theorem M.stageTake_irq : (m.stageTake p n).irq = m.irq := rfl
@[simp] theorem M.stageTake_host : (m.stageTake p n).host = m.host := rfl
@[simp] theorem M.stageTake_rings : (m.stageTake p n).rings = m.rings := rfl
@[simp] theorem M.stageTake_dispq : (m.stageTake p n).dispq = m.dispq := rfl
@[simp] theorem M.stageTake_lastRing : (m.stageTake p n).lastRing = m.lastRing := rfl
@[simp] theorem M.stageTake_scripts : (m.stageTake p n).scripts = m.scripts := rfl
@[simp] theorem M.stageTake_waits : (m.stageTake p n).waits = m.waits := rfl
@[simp] theorem M.stageTake_attn : (m.stageTake p n).attn = m.attn := rfl
@[simp] theorem M.stageTake_rhs : (m.stageTake p n).rhs = m.rhs := rfl
@[simp] theorem M.stageTake_chans : (m.stageTake p n).chans = m.chans := rfl
@[simp] theorem M.stageTake_subq : (m.stageTake p n).subq = m.subq := rfl
@[simp] theorem M.stageTake_eng : (m.stageTake p n).eng = m.eng := rfl
@[simp] theorem M.stageTake_cpus : (m.stageTake p n).cpus = m.cpus := rfl
@[simp] theorem M.stageTake_served : (m.stageTake p n).served = m.served := rfl
@[simp] theorem M.stageTake_scratch : (m.stageTake p n).scratch = m.scratch := rfl
@[simp] theorem M.stageTake_stage : (m.stageTake p n).stage = m.stage := rfl
@[simp] theorem M.stageTake_div : (m.stageTake p n).div = m.div := rfl
@[simp] theorem M.stageTake_links : (m.stageTake p n).links = m.links := rfl
@[simp] theorem M.stageTake_sec : (m.stageTake p n).sec = m.sec := rfl
@[simp] theorem M.stageTake_voteDead : (m.stageTake p n).voteDead = m.voteDead := rfl
@[simp] theorem M.stageTake_upset : (m.stageTake p n).upset = m.upset := rfl
@[simp] theorem M.stageTake_glitch : (m.stageTake p n).glitch = m.glitch := rfl
@[simp] theorem M.stageTake_mem : (m.stageTake p n).mem = m.mem := rfl
@[simp] theorem M.stageTake_mbx : (m.stageTake p n).mbx = m.mbx := rfl
@[simp] theorem M.stageTake_evt : (m.stageTake p n).evt = m.evt := rfl
@[simp] theorem M.stageTake_trc : (m.stageTake p n).trc = m.trc := rfl
@[simp] theorem M.stageTake_mgt : (m.stageTake p n).mgt = m.mgt := rfl
@[simp] theorem M.stageTake_fld (G : Fld) (j : Nat) : (m.stageTake p n).fld G j = m.fld G j := rfl
@[simp] theorem M.stageTake_flag (G : Fld) (j : Nat) : (m.stageTake p n).flag G j = m.flag G j := rfl
@[simp] theorem M.stageTake_hostOf (q : Nat) : (m.stageTake p n).hostOf q = m.hostOf q := rfl
@[simp] theorem M.stageTake_ring (q j : Nat) : (m.stageTake p n).ring q j = m.ring q j := rfl
@[simp] theorem M.stageTake_chan (j : Nat) : (m.stageTake p n).chan j = m.chan j := rfl
@[simp] theorem M.stageTake_cpu (j : Key) : (m.stageTake p n).cpu j = m.cpu j := rfl
@[simp] theorem M.stageTake_link (j : Nat) : (m.stageTake p n).link j = m.link j := rfl
@[simp] theorem M.stageTake_script (q j : Nat) : (m.stageTake p n).script q j = m.script q j := rfl
@[simp] theorem M.stageTake_rh (q j : Nat) : (m.stageTake p n).rh q j = m.rh q j := rfl
@[simp] theorem M.stageTake_queue (q j : Nat) : (m.stageTake p n).queue q j = m.queue q j := rfl
@[simp] theorem M.stageTake_mbxOf (q j : Nat) : (m.stageTake p n).mbxOf q j = m.mbxOf q j := rfl
@[simp] theorem M.stageTake_inReset (a j : Nat) : (m.stageTake p n).inReset a j = m.inReset a j := rfl
@[simp] theorem M.stageTake_lastServed (j : Nat) : (m.stageTake p n).lastServed j = m.lastServed j := rfl

end

/-! ### stageFree -/

section

variable (m : M) (p n : Nat)

@[simp] theorem M.stageFree_f : (m.stageFree p n).f = m.f := rfl
@[simp] theorem M.stageFree_cyc : (m.stageFree p n).cyc = m.cyc := rfl
@[simp] theorem M.stageFree_now : (m.stageFree p n).now = m.now := rfl
@[simp] theorem M.stageFree_fresh : (m.stageFree p n).fresh = m.fresh := rfl
@[simp] theorem M.stageFree_out : (m.stageFree p n).out = m.out := rfl
@[simp] theorem M.stageFree_react : (m.stageFree p n).react = m.react := rfl
@[simp] theorem M.stageFree_boot : (m.stageFree p n).boot = m.boot := rfl
@[simp] theorem M.stageFree_pins : (m.stageFree p n).pins = m.pins := rfl
@[simp] theorem M.stageFree_tick : (m.stageFree p n).tick = m.tick := rfl
@[simp] theorem M.stageFree_brst : (m.stageFree p n).brst = m.brst := rfl
@[simp] theorem M.stageFree_quiet : (m.stageFree p n).quiet = m.quiet := rfl
@[simp] theorem M.stageFree_held : (m.stageFree p n).held = m.held := rfl
@[simp] theorem M.stageFree_asks : (m.stageFree p n).asks = m.asks := rfl
@[simp] theorem M.stageFree_irq : (m.stageFree p n).irq = m.irq := rfl
@[simp] theorem M.stageFree_host : (m.stageFree p n).host = m.host := rfl
@[simp] theorem M.stageFree_rings : (m.stageFree p n).rings = m.rings := rfl
@[simp] theorem M.stageFree_dispq : (m.stageFree p n).dispq = m.dispq := rfl
@[simp] theorem M.stageFree_lastRing : (m.stageFree p n).lastRing = m.lastRing := rfl
@[simp] theorem M.stageFree_scripts : (m.stageFree p n).scripts = m.scripts := rfl
@[simp] theorem M.stageFree_waits : (m.stageFree p n).waits = m.waits := rfl
@[simp] theorem M.stageFree_attn : (m.stageFree p n).attn = m.attn := rfl
@[simp] theorem M.stageFree_rhs : (m.stageFree p n).rhs = m.rhs := rfl
@[simp] theorem M.stageFree_chans : (m.stageFree p n).chans = m.chans := rfl
@[simp] theorem M.stageFree_subq : (m.stageFree p n).subq = m.subq := rfl
@[simp] theorem M.stageFree_eng : (m.stageFree p n).eng = m.eng := rfl
@[simp] theorem M.stageFree_cpus : (m.stageFree p n).cpus = m.cpus := rfl
@[simp] theorem M.stageFree_served : (m.stageFree p n).served = m.served := rfl
@[simp] theorem M.stageFree_scratch : (m.stageFree p n).scratch = m.scratch := rfl
@[simp] theorem M.stageFree_stage : (m.stageFree p n).stage = m.stage := rfl
@[simp] theorem M.stageFree_div : (m.stageFree p n).div = m.div := rfl
@[simp] theorem M.stageFree_links : (m.stageFree p n).links = m.links := rfl
@[simp] theorem M.stageFree_sec : (m.stageFree p n).sec = m.sec := rfl
@[simp] theorem M.stageFree_voteDead : (m.stageFree p n).voteDead = m.voteDead := rfl
@[simp] theorem M.stageFree_upset : (m.stageFree p n).upset = m.upset := rfl
@[simp] theorem M.stageFree_glitch : (m.stageFree p n).glitch = m.glitch := rfl
@[simp] theorem M.stageFree_mem : (m.stageFree p n).mem = m.mem := rfl
@[simp] theorem M.stageFree_mbx : (m.stageFree p n).mbx = m.mbx := rfl
@[simp] theorem M.stageFree_evt : (m.stageFree p n).evt = m.evt := rfl
@[simp] theorem M.stageFree_trc : (m.stageFree p n).trc = m.trc := rfl
@[simp] theorem M.stageFree_mgt : (m.stageFree p n).mgt = m.mgt := rfl
@[simp] theorem M.stageFree_fld (G : Fld) (j : Nat) : (m.stageFree p n).fld G j = m.fld G j := rfl
@[simp] theorem M.stageFree_flag (G : Fld) (j : Nat) : (m.stageFree p n).flag G j = m.flag G j := rfl
@[simp] theorem M.stageFree_hostOf (q : Nat) : (m.stageFree p n).hostOf q = m.hostOf q := rfl
@[simp] theorem M.stageFree_ring (q j : Nat) : (m.stageFree p n).ring q j = m.ring q j := rfl
@[simp] theorem M.stageFree_chan (j : Nat) : (m.stageFree p n).chan j = m.chan j := rfl
@[simp] theorem M.stageFree_cpu (j : Key) : (m.stageFree p n).cpu j = m.cpu j := rfl
@[simp] theorem M.stageFree_link (j : Nat) : (m.stageFree p n).link j = m.link j := rfl
@[simp] theorem M.stageFree_script (q j : Nat) : (m.stageFree p n).script q j = m.script q j := rfl
@[simp] theorem M.stageFree_rh (q j : Nat) : (m.stageFree p n).rh q j = m.rh q j := rfl
@[simp] theorem M.stageFree_queue (q j : Nat) : (m.stageFree p n).queue q j = m.queue q j := rfl
@[simp] theorem M.stageFree_mbxOf (q j : Nat) : (m.stageFree p n).mbxOf q j = m.mbxOf q j := rfl
@[simp] theorem M.stageFree_inReset (a j : Nat) : (m.stageFree p n).inReset a j = m.inReset a j := rfl
@[simp] theorem M.stageFree_lastServed (j : Nat) : (m.stageFree p n).lastServed j = m.lastServed j := rfl

end

/-! ### Owner work is charged to nothing -/

theorem M.chargeO_part (m : M) {k o : Nat} (sv n : Nat) (h : o ≠ 8) : m.chargeO k o sv n = m.charge k o sv n := by
  simp [M.chargeO, h]

/-- Charging changes budgets only. -/
theorem M.chargeO_frame (m : M) (k o sv n : Nat) :
    m.chargeO k o sv n = { m with bud := (m.chargeO k o sv n).bud } := by
  unfold M.chargeO
  split <;> rfl

/-- Owner work leaves every allowance as it is. -/
@[simp] theorem M.chargeO_owner_left (m : M) (k sv n a j : Nat) : (m.chargeO k 8 sv n).left a j = m.left a j := rfl

/-! ### Register fields -/

theorem Fld.num_inj {a b : Fld} (h : a.num = b.num) : a = b := by
  rw [← Fld.ofNat_ctorIdx a, ← Fld.ofNat_ctorIdx b]
  exact congrArg Fld.ofNat h

/-- Fields depend on the field map alone. -/
theorem M.fld_congr {a b : M} (h : a.f = b.f) (F : Fld) (i : Nat) : a.fld F i = b.fld F i := by
  simp [M.fld, h]

@[simp] theorem M.fld_setFld_same (m : M) (F : Fld) (i v : Nat) : (m.setFld F i v).fld F i = v % 2 ^ (fldSpec F).w := by
  simp [M.fld, M.setFld]

theorem M.fld_setFld_ne (m : M) {F G : Fld} {i j : Nat} (v : Nat) (h : ¬ (G = F ∧ j = i)) :
    (m.setFld F i v).fld G j = m.fld G j := by
  have : (G.num, j) ≠ (F.num, i) := by
    intro e
    exact h ⟨Fld.num_inj (Prod.mk.inj e).1, (Prod.mk.inj e).2⟩
  simp only [M.fld, M.setFld, mapGet_put_ne _ _ _ this]

/-- Reading any field after writing one. -/
theorem M.fld_setFld (m : M) (F G : Fld) (i j v : Nat) :
    (m.setFld F i v).fld G j = if G = F ∧ j = i then v % 2 ^ (fldSpec F).w else m.fld G j := by
  split
  · rename_i h
    obtain ⟨rfl, rfl⟩ := h
    simp
  · rename_i h
    exact M.fld_setFld_ne m v h

theorem M.fld_setFlag (m : M) (F G : Fld) (i j : Nat) (b : Bool) :
    (m.setFlag F i b).fld G j = if G = F ∧ j = i then b.toNat % 2 ^ (fldSpec F).w else m.fld G j := by
  rw [show (m.setFlag F i b).fld G j = (m.setFld F i (if b then 1 else 0)).fld G j from rfl, M.fld_setFld]
  cases b <;> rfl

theorem M.fld_bumpN (m : M) (F G : Fld) (i j n : Nat) :
    (m.bumpN F i n).fld G j =
      if G = F ∧ j = i then satAdd (fldSpec F).w (m.fld F i) n % 2 ^ (fldSpec F).w else m.fld G j := by
  rw [show (m.bumpN F i n).fld G j = (m.setFld F i (satAdd (fldSpec F).w (m.fld F i) n)).fld G j from rfl, M.fld_setFld]

theorem M.fld_rstFld (m : M) (F G : Fld) (i j : Nat) :
    (m.rstFld F i).fld G j = if G = F ∧ j = i then rstVal F else m.fld G j := by
  split
  · rename_i h
    obtain ⟨rfl, rfl⟩ := h
    simp [M.fld, M.rstFld]
  · rename_i h
    have : (G.num, j) ≠ (F.num, i) := by
      intro e
      exact h ⟨Fld.num_inj (Prod.mk.inj e).1, (Prod.mk.inj e).2⟩
    simp [M.fld, M.rstFld, mapGet_del_ne _ _ this]

/-! ### Records -/

@[simp] theorem M.hostOf_setHost (m : M) (p : Nat) (h : HostSt) : (m.setHost p h).hostOf p = h := by
  simp [M.hostOf, M.setHost]

theorem M.hostOf_setHost_ne (m : M) {p q : Nat} (h : HostSt) (n : q ≠ p) : (m.setHost p h).hostOf q = m.hostOf q := by
  simp only [M.hostOf, M.setHost]
  exact mapGet_put_ne _ _ _ (by simpa using n)

@[simp] theorem M.ring_setRing (m : M) (p r : Nat) (x : RingSt) : (m.setRing p r x).ring p r = x := by
  simp [M.ring, M.setRing]

@[simp] theorem M.chan_setChan (m : M) (n : Nat) (c : ChanSt) : (m.setChan n c).chan n = c := by
  simp [M.chan, M.setChan]

theorem M.chan_setChan_ne (m : M) {n k : Nat} (c : ChanSt) (h : k ≠ n) : (m.setChan n c).chan k = m.chan k := by
  simp only [M.chan, M.setChan]
  exact mapGet_put_ne _ _ _ (by simpa using h)

@[simp] theorem M.cpu_setCpu (m : M) (k : Key) (x : Cpu) : (m.setCpu k x).cpu k = x := by
  simp [M.cpu, M.setCpu]

theorem M.cpu_setCpu_ne (m : M) {k j : Key} (x : Cpu) (h : j ≠ k) : (m.setCpu k x).cpu j = m.cpu j := by
  simp [M.cpu, M.setCpu, mapGet_put_ne _ _ _ h]

@[simp] theorem M.link_setLink (m : M) (l : Nat) (x : LinkSt) : (m.setLink l x).link l = x := by
  simp [M.link, M.setLink]

theorem M.link_setLink_ne (m : M) {l k : Nat} (x : LinkSt) (h : k ≠ l) : (m.setLink l x).link k = m.link k := by
  simp only [M.link, M.setLink]
  exact mapGet_put_ne _ _ _ (by simpa using h)

@[simp] theorem M.script_setScript (m : M) (s : Script) : (m.setScript s).script s.part s.tag = some s := by
  simp [M.script, M.setScript]

@[simp] theorem M.script_delScript (m : M) (p t : Nat) : (m.delScript p t).script p t = none := by
  simp [M.script, M.delScript]

@[simp] theorem M.rh_setRh (m : M) (l n : Nat) (r : Rehearsal) : (m.setRh l n r).rh l n = some r := by
  simp [M.rh, M.setRh]

@[simp] theorem M.rh_delRh (m : M) (l n : Nat) : (m.delRh l n).rh l n = none := by
  simp [M.rh, M.delRh]

@[simp] theorem M.queue_setQueue (m : M) (c o : Nat) (q : List Xfer) : (m.setQueue c o q).queue c o = q := by
  simp [M.queue, M.setQueue]

@[simp] theorem M.mbxOf_setMbx (m : M) (p d : Nat) (x : Mbx) : (m.setMbx p d x).mbxOf p d = x := by
  simp [M.mbxOf, M.setMbx]

theorem BudSt.markOut_rem (b : BudSt) (k i : Nat) : (b.markOut k i).rem = b.rem := by
  unfold BudSt.markOut
  split <;> rfl

theorem BudSt.markStop_rem (b : BudSt) (k i : Nat) : (b.markStop k i).rem = b.rem := by
  unfold BudSt.markStop
  split <;> rfl

/-- A charge deducts its cost from its own allowance. -/
@[simp] theorem M.left_charge (m : M) (k i sv n : Nat) : (m.charge k i sv n).left k i = m.left k i - n := by
  simp only [M.left, M.charge, BudSt.markStop_rem]
  split <;> simp [BudSt.markOut_rem]

/-- A charge leaves every other allowance. -/
theorem M.left_charge_ne (m : M) {k i a j : Nat} (sv n : Nat) (h : (a, j) ≠ (k, i)) :
    (m.charge k i sv n).left a j = m.left a j := by
  simp only [M.left, M.charge, BudSt.markStop_rem]
  split <;> simp [BudSt.markOut_rem, mapGet_put_ne _ _ _ h]

/-! ### What a meaning does around its operation -/

namespace Machine

/-- With nothing asked for, no reaction follows. -/
theorem settle_calm (im : Image) (n : Nat) {m : M} (h : m.react = []) : settle im n m = m := by
  cases n with
  | zero => rfl
  | succ n => simp [settle, h]

@[simp] theorem State.upd_pending (s : State) (f : Image → M → M) : (s.upd f).pending = s.pending := rfl
@[simp] theorem State.upd_fuses (s : State) (f : Image → M → M) : (s.upd f).fuses = s.fuses := rfl
@[simp] theorem State.upd_img (s : State) (f : Image → M → M) : (s.upd f).img = s.img := rfl

/-- An operation after which no reaction waits. -/
theorem State.upd_calm (s : State) (f : Image → M → M) (h : (f s.inForce s.m).react = []) :
    s.upd f = { s with m := f s.inForce s.m } := by
  simp [State.upd, settle_calm _ _ h]

theorem State.updImg_pending (s : State) (f : Image → M → Option Image × M) : (s.updImg f).pending = s.pending := by
  unfold State.updImg
  split <;> rfl

theorem State.updImg_fuses (s : State) (f : Image → M → Option Image × M) : (s.updImg f).fuses = s.fuses := by
  unfold State.updImg
  split <;> rfl

@[simp] theorem State.updFuses_pending (s : State) (f : Image → M → Fuses × M) : (s.updFuses f).pending = s.pending := rfl
@[simp] theorem State.updFuses_img (s : State) (f : Image → M → Fuses × M) : (s.updFuses f).img = s.img := rfl
@[simp] theorem State.updFuses_fuses (s : State) (f : Image → M → Fuses × M) :
    (s.updFuses f).fuses = (f s.inForce s.m).1 := rfl

end Machine

end Sys2Proof
end

