-- ==== Sys2Proof/Laws/Issue.lean ====
section
/-! SUPPORT. Processors: registers of a processor, what issuing an instruction does, and the end of an instruction in
sequence. -/

namespace Sys2Proof

/-! ### Registers of a processor -/

theorem Cpu.g_setG (k : Cpu) (rd n : Nat) (v : Word) : (k.setG rd v).g n = if n = rd ∧ n ≠ 0 then v else k.g n := by
  by_cases h0 : rd = 0
  · subst h0
    simp only [Cpu.setG, if_true]
    split
    · omega
    · rfl
  · have hb : (k.setG rd v).bank = k.bank := by
      simp only [Cpu.setG, h0, if_false]
      rfl
    simp only [Cpu.g, hb]
    by_cases hn : n = 0
    · simp [hn]
    · by_cases e : n = rd
      · subst e
        simp [Cpu.setG, hn]
      · have : ((k.bank, n) : Key) ≠ (k.bank, rd) := by simpa using e
        simp [Cpu.setG, h0, hn, e, mapGet_put_ne _ _ _ this]

theorem Cpu.setG_other (k : Cpu) (rd b n : Nat) (v : Word) (h : b ≠ k.bank) :
    mapGet 0 (k.setG rd v).regs (b, n) = mapGet 0 k.regs (b, n) := by
  simp only [Cpu.setG]
  split
  · rfl
  · exact mapGet_put_ne _ _ _ (by simp [h])

/-- Writing a register changes the register map alone. -/
theorem Cpu.setG_frame (k : Cpu) (rd : Nat) (v : Word) : k.setG rd v = { k with regs := (k.setG rd v).regs } := by
  simp only [Cpu.setG]
  split <;> rfl

/-! ### Issue -/

/-- A step owed to the debug port is the only thing `endStep` changes. -/
theorem endStep_frame (x : Proc) (m : M) :
    endStep x m = { m with mgt := { m.mgt with wdbg := (endStep x m).mgt.wdbg } } := by
  cases x with
  | thread t => rfl
  | core c =>
    simp only [endStep]
    split <;> rfl

@[simp] theorem endStep_cpu (x : Proc) (m : M) (k : Key) : (endStep x m).cpu k = m.cpu k := by
  rw [endStep_frame]
  rfl

/-- What the charge of an issue changes. -/
theorem chargeIssue_frame (x : Proc) (m : M) : ∃ b v, chargeIssue x m = { m with bud := b, served := v } := by
  cases x with
  | thread t =>
    refine ⟨(m.chargeO 0 (m.cpu (thr t.val)).own (t.val / 4) 1).bud, (m.serveThread t.val).served, ?_⟩
    simp only [chargeIssue]
    rw [M.chargeO_frame]
    rfl
  | core c => exact ⟨m.bud, m.served, rfl⟩

@[simp] theorem chargeIssue_cpu (x : Proc) (m : M) (k : Key) : (chargeIssue x m).cpu k = m.cpu k := by
  obtain ⟨b, v, h⟩ := chargeIssue_frame x m
  rw [h]
  rfl

namespace Machine

/-- An instruction that may issue runs, after the step that the debug port asked for is used up. -/
theorem issueOp_runs {s : State} {i : Issue} {o : Op} (h : MayIssue s i o) (want : Op → Bool) (w : want o = true)
    (run : M → M) : issueOp s.inForce i want run s.m = run (endStep i.x s.m) := by
  obtain ⟨_, h1, h2, h3, h4, h5, h6⟩ := h
  cases hx : i.x with
  | thread t =>
    rw [hx] at h6 h1 h2 h3
    simp only at h6
    simp [issueOp, takenFirst, hx, h1, h2, h3, h4, h5, h6, stageEcc, w]
  | core c =>
    rw [hx] at h6 h1 h2 h3
    simp only at h6
    obtain ⟨h6, h7⟩ := h6
    simp [issueOp, hx, h1, h2, h3, h4, h5, h6, h7, stageEcc, w]

/-- The end of an instruction in sequence. -/
theorem finishRd_wrote (x : Proc) (rd : Nat) (v : Word) (lat : Nat) (m : M) :
    Wrote m.now (m.cpu x.key) ((finishRd x rd v lat m).cpu x.key) rd v lat := by
  simp only [finishRd, M.cpu_setCpu]
  refine ⟨fun n => Cpu.g_setG .., fun b n h => Cpu.setG_other _ _ _ _ _ h, ?_⟩
  rw [Cpu.setG_frame]
  rfl

/-- Only processors change at the end of an instruction. -/
theorem finishRd_frame (x : Proc) (rd : Nat) (v : Word) (lat : Nat) (m : M) :
    finishRd x rd v lat m = { m with cpus := (finishRd x rd v lat m).cpus } := rfl

theorem finishRd_cpu_ne (x : Proc) (rd : Nat) (v : Word) (lat : Nat) (m : M) {j : Key} (h : j ≠ x.key) :
    (finishRd x rd v lat m).cpu j = m.cpu j := by
  simp only [finishRd]
  exact M.cpu_setCpu_ne _ _ h

/-- What every instruction leaves alone, when after its charge it changes processors and dividers only. -/
theorem issued_of {x : Proc} {a b : M} (d : Map Nat)
    (h : b = { chargeIssue x (endStep x a) with cpus := b.cpus, div := d }) (k : CpusKept a b x.key) : Issued a b x := by
  refine ⟨k, ?_, ?_⟩
  · cases x with
    | thread t =>
      obtain ⟨bud, v, e⟩ := chargeIssue_frame (.thread t) (endStep (.thread t) a)
      rw [e] at h
      rw [h]
      rfl
    | core c =>
      rw [h]
      have := endStep_frame (.core c) a
      simp only [chargeIssue]
      rw [this]
  · cases x with
    | core c =>
      rw [h]
      simp only [chargeIssue]
      rw [endStep_frame]
      exact ⟨rfl, rfl⟩
    | thread t =>
      rw [h]
      refine ⟨?_, ?_, ?_⟩
      · simp only [chargeIssue, endStep]
        rw [M.chargeO_frame]
        rfl
      · simp only [chargeIssue, endStep]
        rw [M.chargeO_frame]
        rfl
      · simp only [chargeIssue, endStep]
        split
        · rename_i o
          simp [o, M.chargeO]
        · rename_i o
          simp [o, M.chargeO]

/-- The state an instruction acts in differs from the one before in the charge and in the step owed to the debug port. -/
theorem afterIssue_frame (s : State) (i : Issue) :
    ∃ b v, afterIssue s i =
      { s.m with bud := b, served := v, mgt := { s.m.mgt with wdbg := (endStep i.x s.m).mgt.wdbg } } := by
  obtain ⟨b, v, h⟩ := chargeIssue_frame i.x (endStep i.x s.m)
  refine ⟨b, v, ?_⟩
  rw [afterIssue, h]
  have hf := endStep_frame i.x s.m
  rw [hf]

/-- Everything an integer instruction does when it may issue and its divider is free. -/
theorem runAlu_next {s : State} {i : Issue} {o : Op} {v : Word} (h : MayIssue s i o) (d : DividerFree s.m i.x o)
    (hv : aluVal o ((s.m.cpu i.x.key).g (fRa i.word)) ((s.m.cpu i.x.key).g (fRb i.word)) i.word = some v) :
    ∃ t, (.next (s.upd fun im m => opAlu im o i m) : Host.Outcome State Fault Refusal) = .next t ∧ t = { s with m := t.m } ∧
      Issued s.m t.m i.x ∧ Wrote s.m.now (s.m.cpu i.x.key) (t.m.cpu i.x.key) (fRd i.word) v (aluLatency o) ∧
      (usesDivider o = false → t.m.div = s.m.div) ∧
      (usesDivider o = true → t.m.div = mapPut s.m.div (dividerKey i.x) (s.m.now + 18)) := by
  have e : opAlu s.inForce o i s.m = runAlu i o (endStep i.x s.m) := issueOp_runs h _ (by simp) _
  obtain ⟨bud, srv, hb⟩ := chargeIssue_frame i.x (endStep i.x s.m)
  have hf := endStep_frame i.x s.m
  have hd : (endStep i.x s.m).div = s.m.div := by rw [hf]
  have hn : (endStep i.x s.m).now = s.m.now := by rw [hf]
  obtain ⟨w, hw⟩ : ∃ w : M, w = { chargeIssue i.x (endStep i.x s.m) with
      div := if usesDivider o then mapPut s.m.div (dividerKey i.x) (s.m.now + 18) else s.m.div } := ⟨_, rfl⟩
  have hr : runAlu i o (endStep i.x s.m) = finishRd i.x (fRd i.word) v (aluLatency o) w := by
    simp only [runAlu, endStep_cpu, hv, hd, hn, hw]
    cases hu : usesDivider o with
    | false => simp [hb, hd]
    | true => simp [hb, hd, hn, Nat.not_lt.2 (d hu)]
  have wc : w.cpu i.x.key = s.m.cpu i.x.key := by rw [hw, hb, hf]; rfl
  have wn : w.now = s.m.now := by rw [hw, hb, hf]
  rw [State.upd_calm _ _ (by
    rw [e, hr, finishRd_frame, hw]; simp only [hb]; rw [hf]; exact h.1)]
  refine ⟨_, rfl, rfl, ?_, ?_, ?_, ?_⟩
  · simp only
    rw [e, hr]
    refine issued_of _ (by rw [hw]; rfl) ?_
    intro j hj
    rw [finishRd_cpu_ne _ _ _ _ _ hj, hw, hb, hf]
    rfl
  · simp only
    rw [e, hr]
    have f := finishRd_wrote i.x (fRd i.word) v (aluLatency o) w
    rw [wc, wn] at f
    exact f
  · intro hu
    simp only
    rw [e, hr, finishRd_frame, hw]
    simp [hu]
  · intro hu
    simp only
    rw [e, hr, finishRd_frame, hw]
    simp [hu]

/-- Everything a branch or jump does when it may issue. -/
theorem runJump_next {s : State} {i : Issue} {o : Op} {tk : Bool} {tg lk : Nat} (h : MayIssue s i o)
    (hj : jumpOf o (s.m.cpu i.x.key) i.word = (tk, tg, lk)) :
    ∃ t, (.next (s.upd fun im m => opJump im o i m) : Host.Outcome State Fault Refusal) = .next t ∧ t = { s with m := t.m } ∧
      Issued s.m t.m i.x ∧ t.m.div = s.m.div ∧ Jumped s.m.now (s.m.cpu i.x.key) (t.m.cpu i.x.key) lk tk tg := by
  have e : opJump s.inForce o i s.m = runJump i o (endStep i.x s.m) := issueOp_runs h _ (by simp) _
  obtain ⟨b, srv, hb⟩ := afterIssue_frame s i
  obtain ⟨k, hk⟩ : ∃ k : Cpu, k = { (s.m.cpu i.x.key).setG lk (BitVec.ofNat 64 ((s.m.cpu i.x.key).pc + 4)) with
      pc := if tk then tg else nextPc (s.m.cpu i.x.key).pc
      ready := s.m.now + (if tk then 2 else 1) } := ⟨_, rfl⟩
  have hr : runJump i o (endStep i.x s.m) = (afterIssue s i).setCpu i.x.key k := by
    have : (chargeIssue i.x (endStep i.x s.m)).now = s.m.now := by
      have h := congrArg M.now hb
      exact h
    simp only [runJump, chargeIssue_cpu, endStep_cpu, hj, this, hk]
    rfl
  rw [State.upd_calm _ _ (by rw [e, hr, hb]; exact h.1)]
  refine ⟨_, rfl, rfl, ?_, ?_, ?_⟩
  · simp only
    rw [e, hr]
    refine issued_of s.m.div ?_ ?_
    · show (afterIssue s i).setCpu i.x.key k =
        { afterIssue s i with cpus := ((afterIssue s i).setCpu i.x.key k).cpus, div := s.m.div }
      rw [hb]
      rfl
    · intro j hj
      rw [M.cpu_setCpu_ne _ _ hj, hb]
      rfl
  · simp only
    rw [e, hr, hb]
    rfl
  · simp only
    rw [e, hr, M.cpu_setCpu, hk]
    refine ⟨fun n => Cpu.g_setG .., fun b n hh => Cpu.setG_other _ _ _ _ _ hh, ?_⟩
    rw [Cpu.setG_frame]
    rfl

end Machine

end Sys2Proof
end

