-- ==== Sys2Proof/Laws/Rows.lean ====
section
/-! SUPPORT. Register rows, interrupts, mailboxes and fault events: what the shared operations do and leave alone. -/

namespace Sys2Proof

theorem bitsAt_eq (x k w : Nat) : bitsAt x k w = x / 2 ^ k % 2 ^ w := by
  simp [bitsAt, Nat.shiftRight_eq_div_pow]

theorem fldList_eq : fldList = (List.range 405).map Fld.ofNat := by
  decide +kernel

theorem Fld.ctorIdx_small (F : Fld) : F.ctorIdx < 405 := by
  cases F <;> decide

/-- The table entry of a field's number is the field's. -/
@[simp] theorem fldSpecAt_num (F : Fld) : fldSpecAt F.num = fldSpec F := by
  have h := F.ctorIdx_small
  simp [fldSpecAt, fldList_eq, Fld.num, h, Fld.ofNat_ctorIdx]

/-! ### Rows -/

/-- A register row that reaches its register acts as the register does. -/
theorem opRow_taken {s : Machine.State} {a : Access} (h : Machine.RowTaken s a) :
    opRow s.inForce a s.m = runRow s.inForce a (touchRow s.inForce a s.m) := by
  obtain ⟨h1, h2⟩ := h
  have e : rowHeld s.inForce (touchRow s.inForce a s.m) a = rowHeld s.inForce s.m a := by
    unfold touchRow
    split <;> rfl
  simp [opRow, h1, holdRow, e, h2]

/-- A row through a closed function does no more than arrive. -/
theorem opRow_closed {s : Machine.State} {a : Access} (h : rowOpen s.inForce s.m a = false) :
    opRow s.inForce a s.m = touchRow s.inForce a s.m := by
  simp [opRow, h]

/-- A row's arrival changes at most the port's time of its last TLP. -/
theorem touchRow_frame (im : Image) (a : Access) (m : M) : touchRow im a m = { m with host := (touchRow im a m).host } := by
  unfold touchRow
  split <;> rfl

/-- An owner-view row of no function is no TLP. -/
theorem touchRow_none {im : Image} {a : Access} (h : rowPart im a = none) (m : M) : touchRow im a m = m := by
  simp [touchRow, h]

/-! ### Interrupts -/

/-- What the latches and signals of the interrupt controller change: register fields, recorded signals, the bits with which
sources began the cycle, and what the next cycle brings. -/
def IrqMoved (a b : M) : Prop :=
  ∃ f c q t l, b = { a with f := f, cyc := c, irq := { a.irq with sig := q, start := t, later := l } }

theorem IrqMoved.refl (m : M) : IrqMoved m m := ⟨m.f, m.cyc, m.irq.sig, m.irq.start, m.irq.later, rfl⟩

theorem IrqMoved.trans {a b c : M} (h : IrqMoved a b) (k : IrqMoved b c) : IrqMoved a c := by
  obtain ⟨_, _, _, _, _, rfl⟩ := h
  obtain ⟨g, c, r, u, l, rfl⟩ := k
  exact ⟨g, c, r, u, l, rfl⟩

theorem setSrcBit_moved (im : Image) (k : BankReg) (o src : Nat) (v : Bool) (m : M) : IrqMoved m (setSrcBit im k o src v m) :=
  ⟨_, _, _, _, _, rfl⟩

theorem irqLatch_moved (im : Image) (o src : Nat) (m : M) : IrqMoved m (irqLatch im o src m) := by
  unfold irqLatch
  split
  · exact setSrcBit_moved ..
  · exact .refl m

theorem irqEvent_moved (im : Image) (o src : Nat) (m : M) : IrqMoved m (irqEvent im o src m) := by
  unfold irqEvent
  split
  · exact ⟨_, _, _, _, _, rfl⟩
  · exact .refl m

theorem irqPulse_moved (im : Image) (o src : Nat) (m : M) : IrqMoved m (irqPulse im o src m) := by
  unfold irqPulse
  split
  · exact ⟨_, _, _, _, _, rfl⟩
  · exact irqEvent_moved ..

theorem irqSync_moved (im : Image) (o src : Nat) (m : M) : IrqMoved m (irqSync im o src m) := by
  unfold irqSync
  extract_lets old new q m' s ev
  have h : IrqMoved m m' := ⟨_, _, _, _, _, rfl⟩
  split
  · split
    · exact h.trans (irqLatch_moved ..)
    · exact h.trans (irqEvent_moved ..)
  · exact h

/-- A fold of steps that each move interrupt state only does so too. -/
theorem IrqMoved.foldl {α : Type} (g : M → α → M) (h : ∀ m a, IrqMoved m (g m a)) (l : List α) (m : M) :
    IrqMoved m (l.foldl g m) := by
  induction l generalizing m with
  | nil => exact .refl m
  | cons a l ih => exact (h m a).trans (ih (g m a))

theorem irqRelevel_moved (im : Image) (o : Nat) (m : M) : IrqMoved m (irqRelevel im o m) := by
  refine IrqMoved.foldl _ (fun m e => ?_) _ m
  split
  · exact irqLatch_moved ..
  · exact .refl m

theorem commitSrc_moved (im : Image) (o src : Nat) (m : M) : IrqMoved m (commitSrc im o src m) := ⟨_, _, _, _, _, rfl⟩

/-! ### Mailboxes -/

/-- Bringing a partition's mailbox status up to date moves interrupt state and register fields alone. -/
theorem mbxSync_moved (im : Image) (p : Nat) (m : M) : IrqMoved m (mbxSync im p m) := by
  unfold mbxSync
  extract_lets a b i m1 m2 m3 m4
  have h : IrqMoved m m4 := ⟨_, _, _, _, _, rfl⟩
  exact (((h.trans (irqSync_moved ..)).trans (irqSync_moved ..)).trans (irqSync_moved ..)).trans (irqSync_moved ..)

@[simp] theorem mbxSync_mbxOf (im : Image) (p q d : Nat) (m : M) : (mbxSync im p m).mbxOf q d = m.mbxOf q d := by
  obtain ⟨_, _, _, _, _, h⟩ := mbxSync_moved im p m
  rw [h]
  rfl

/-! ### Fault events -/

/-- What the reactions of a fault event can change. -/
theorem reactions_frame (im : Image) (f set : Nat) (ps : List Nat) (core : Nat) (m : M) :
    ∃ g y q t l c p o r, reactions im f set ps core m =
      { m with f := g, cyc := y, irq := { m.irq with sig := q, start := t, later := l }, cpus := c, pins := p, out := o,
               react := r } := by
  obtain ⟨a, y, q, t, l, ha⟩ : IrqMoved m (if bitAt set 0 then
      ps.foldl (fun m p => irqPulse im p (0x1000 + f) m) (irqPulse im 8 (0x1000 + f) m) else m) := by
    split
    · exact (irqPulse_moved ..).trans (IrqMoved.foldl _ (fun m p => irqPulse_moved ..) _ _)
    · exact .refl m
  simp only [reactions]
  rw [ha]
  obtain ⟨n, hn⟩ : ∃ n, n = { m with f := a, cyc := y, irq := { m.irq with sig := q, start := t, later := l } } := ⟨_, rfl⟩
  rw [← hn]
  obtain ⟨b, z, c, hb⟩ : ∃ b z c, (if bitAt set 1 then sendNmt im f n else n) = { n with f := b, cyc := z, cpus := c } := by
    split
    · simp only [sendNmt]
      split
      · exact ⟨n.f, n.cyc, _, rfl⟩
      · exact ⟨_, _, n.cpus, rfl⟩
    · exact ⟨n.f, n.cyc, n.cpus, rfl⟩
  rw [hb]
  obtain ⟨d, p, o, hd⟩ : ∃ d p o, (if bitAt set 4 then pinReaction f { n with f := b, cyc := z, cpus := c } else
      { n with f := b, cyc := z, cpus := c }) = { n with f := d, cyc := z, cpus := c, pins := p, out := o } := by
    split
    · simp only [pinReaction]
      split <;> exact ⟨_, _, _, rfl⟩
    · exact ⟨b, n.pins, n.out, rfl⟩
  rw [hd, hn]
  split <;> split <;> exact ⟨d, z, q, t, l, c, p, o, _, rfl⟩

end Sys2Proof
end

