-- ==== Sys2Proof/WellFormed.lean ====
section
/-! DEFINITION. Well-formed commands: the operands that the types of `Syntax` do not already bound, as the row's
rule bounds them. A sender makes only well-formed commands; the meanings are total, and no statement rests on this. -/

namespace Sys2Proof

/-- Sizes of a register access a sender can make: a request carries 1 to 4,096 bytes (R7). -/
def accessSizeOk (n : Nat) : Bool := decide (1 ≤ n) && decide (n ≤ 4096)

/-- Sizes of an inline-window write (R145). -/
def winSizeOk (n : Nat) : Bool := n == 4 || n == 8 || n == 16 || n == 32 || n == 64

/-- A server is a spindle, an engine, a direction of a port, or a side of a link (R64). -/
def Server.wf (x : Server) : Bool :=
  decide (x.n < (if x.kind.val = 0 then 128 else if x.kind.val ≤ 2 then 16 else 96))

/-- A received flit is 256 bytes and carries a 248-byte frame area (R225). -/
def RxFlit.wf (f : RxFlit) : Bool := f.raw.length == 256 && f.area.length == 248

/-- Well-formedness of a command's operands. -/
def Instr.wf : Instr → Bool
  | .registerWrite _ _ data => accessSizeOk data.bytes.length
  | .rcFieldRead _ _ size => accessSizeOk size
  | .fabricTransfer t => decide (t.data.length ≤ 256) && decide (t.len ≤ 256)
  | .slotReadComplete bytes _ _ => decide (bytes.length ≤ 2 ^ 24)
  | .imgCheckDone (some bytes) _ _ _ _ => decide (bytes.length ≤ 2 ^ 24)
  | .flashWindowRead _ size bytes => (size == 4 || size == 8) && bytes.length == size
  | .tickEdge busy _ => busy.all Server.wf
  | .inlineWindowWrite _ _ off data => winSizeOk data.length && off % data.length == 0 && decide (off + data.length ≤ 64)
  | .flitReceive _ f => f.wf
  | .lineWrite _ _ off bytes _ _ _ => decide (1 ≤ bytes.length) && decide (off + bytes.length ≤ 64)
  | .mbxRx _ _ size _ => accessSizeOk size
  | .samplePreload levels bits => levels.length == 670 && bits.length == 2010
  | .extest levels bits => levels.length == 670 && bits.length == 2010
  | .token bytes _ => bytes.length == 7275
  | .sensorReadingsValid temps => temps.length == 16
  | _ => true

end Sys2Proof
end

