-- ==== Sys2Proof/Tests/Slice0.lean ====
section
/-! SUPPORT. Tests: ill-formed commands, words written out from the encoding tables, single steps against the spec's own
examples, and for every statement a state that meets its hypotheses, clause by clause. -/

set_option Elab.async false

namespace Sys2Proof.Tests

open Sys2Proof Sys2Proof.Machine

/-! ### Small images and states -/

/-- Partition 0 on host port 0, with two rings, eight vectors and one window on local memory, one on the host. -/
def part0 : Part :=
  ⟨0, 0, 16, 5, 8, 8, 0, 2, 0x100000, 0x100000, 0, [⟨0x1000, 0x1000, 0, 1, 15⟩, ⟨0x10000, 0x10000, 0x10000, 0, 15⟩]⟩

/-- A small image: partition 0, link 0 of eight lanes, local memory on channel 0, one routine, four cores. -/
def imgT : Image :=
  { Image.empty with
    tickPeriod := 2000
    ownerStage := 1
    qdepth := 8
    ownerDram := 1
    mem := [⟨1, 1, 8800, 64⟩]
    spindleMap := List.replicate 128 0
    moverMap := List.replicate 64 0
    parts := [part0]
    links := [⟨0, 8⟩]
    rights := [⟨0, 0, 15⟩]
    budget := [⟨1000, 100000, 100000, 64⟩]
    frames := [⟨0, 0, 100⟩]
    policy := List.replicate 16 0
    holdoff := List.replicate 2048 1
    whold := List.replicate 256 1
    maps := [⟨0, 3, false, 0x801, 2⟩, ⟨0, 0, true, 0x800, 1⟩, ⟨8, 0, false, 0x810, 0⟩]
    routines := [⟨0, 1, 1, 4, List.replicate 64 0, 0x1000⟩]
    cores := List.replicate 4 ⟨0, 0⟩
    loadArea := List.replicate 64 0 }

/-- The loom running that image. -/
def runM : M :=
  { State.reset.m with
    boot := { State.reset.m.boot with phase := .run, entropy := true }
    host := mapPut [] (0, 0) { HostSt.init with up := true, mse := true, bme := true } }

/-- A state of the running loom. -/
def sRun (m : M) : State := { State.reset with img := imgT, m := m }

/-- A word of a format, its fields from bit 31 down: R, K and S words, I, M and P words, B words, J words. -/
def wR (major rd ra rb low : Nat) : BitVec 32 := BitVec.ofNat 32 (major * 2 ^ 26 + rd * 2 ^ 21 + ra * 2 ^ 16 + rb * 2 ^ 11 + low)
/-- An I word. -/
def wI (major rd ra imm : Nat) : BitVec 32 := BitVec.ofNat 32 (major * 2 ^ 26 + rd * 2 ^ 21 + ra * 2 ^ 16 + imm)
/-- An M word. -/
def wM (major rt ra space size off : Nat) : BitVec 32 :=
  BitVec.ofNat 32 (major * 2 ^ 26 + rt * 2 ^ 21 + ra * 2 ^ 16 + space * 2 ^ 14 + size * 2 ^ 12 + off)

/-- A word that spells an operation, by the tables of R188 to R190, R192, R194, R197 and R199: rd g3, ra g1, rb g2. -/
def wordOf : Op → BitVec 32
  | .add => wR 0 3 1 2 0x00
  | .addw => wR 0 3 1 2 0x40
  | .sub => wR 0 3 1 2 0x01
  | .subw => wR 0 3 1 2 0x41
  | .and => wR 0 3 1 2 0x02
  | .or => wR 0 3 1 2 0x03
  | .xor => wR 0 3 1 2 0x04
  | .andn => wR 0 3 1 2 0x05
  | .neg => wR 0 3 1 0 0x06
  | .negw => wR 0 3 1 0 0x46
  | .sll => wR 0 3 1 2 0x08
  | .sllw => wR 0 3 1 2 0x48
  | .srl => wR 0 3 1 2 0x09
  | .srlw => wR 0 3 1 2 0x49
  | .sra => wR 0 3 1 2 0x0A
  | .sraw => wR 0 3 1 2 0x4A
  | .rol => wR 0 3 1 2 0x0B
  | .rolw => wR 0 3 1 2 0x4B
  | .ror => wR 0 3 1 2 0x0C
  | .rorw => wR 0 3 1 2 0x4C
  | .mul => wR 0 3 1 2 0x10
  | .mulw => wR 0 3 1 2 0x50
  | .mulh => wR 0 3 1 2 0x11
  | .mulhu => wR 0 3 1 2 0x12
  | .div => wR 0 3 1 2 0x14
  | .divw => wR 0 3 1 2 0x54
  | .divu => wR 0 3 1 2 0x15
  | .divuw => wR 0 3 1 2 0x55
  | .rem => wR 0 3 1 2 0x16
  | .remw => wR 0 3 1 2 0x56
  | .remu => wR 0 3 1 2 0x17
  | .remuw => wR 0 3 1 2 0x57
  | .seq => wR 0 3 1 2 0x18
  | .sne => wR 0 3 1 2 0x19
  | .slt => wR 0 3 1 2 0x1A
  | .sltu => wR 0 3 1 2 0x1B
  | .sge => wR 0 3 1 2 0x1C
  | .sgeu => wR 0 3 1 2 0x1D
  | .addi => wI 0x01 3 1 0xFFFF
  | .addiw => wI 0x02 3 1 0xFFFF
  | .andi => wI 0x03 3 1 0xFFFF
  | .ori => wI 0x04 3 1 0xFFFF
  | .xori => wI 0x05 3 1 0xFFFF
  | .lui => wI 0x06 3 0 0x8000
  | .slli => wI 0x07 3 1 0x003F
  | .srli => wI 0x07 3 1 0x103F
  | .srai => wI 0x07 3 1 0x203F
  | .roli => wI 0x07 3 1 0x303F
  | .slliw => wI 0x07 3 1 0x401F
  | .srliw => wI 0x07 3 1 0x501F
  | .sraiw => wI 0x07 3 1 0x601F
  | .roliw => wI 0x07 3 1 0x701F
  | .seqi => wI 0x08 3 1 0xFFFF
  | .snei => wI 0x09 3 1 0xFFFF
  | .slti => wI 0x0A 3 1 0xFFFF
  | .sltiu => wI 0x0B 3 1 0xFFFF
  | .sgei => wI 0x0C 3 1 0xFFFF
  | .sgeiu => wI 0x0D 3 1 0xFFFF
  | .ld => wM 0x10 3 1 0 3 0x008
  | .ldu => wM 0x11 3 1 0 0 0xFFF
  | .st => wM 0x12 3 1 0 2 0x004
  | .bz => wI 0x18 3 0x1F 0xFFFF
  | .bnz => wI 0x19 3 0 0x0004
  | .j => wI 0x1A 0x1F 0x1F 0xFFFF
  | .jal => wI 0x1B 0 0 0x0010
  | .jr => wI 0x1C 3 1 0
  | .movb => wR 0x20 3 1 2 0
  | .filb => wR 0x20 3 1 2 1
  | .cmpb => wR 0x20 3 1 2 2
  | .scnb => wR 0x20 3 1 2 3
  | .send => wR 0x21 0 1 0 0
  | .post => wR 0x21 0 1 2 1
  | .waitev => wR 0x21 3 1 2 2
  | .yield => wR 0x21 0 0 0 3
  | .rtn => wR 0x21 0 0 0 4
  | .rdtk => wR 0x21 3 0 0 5
  | .rdcy => wR 0x21 3 0 0 6
  | .prv => wI 0x30 3 1 0x0010

/-- Arithmetic of registers. -/
def opsR : List Op :=
  [.add, .addw, .sub, .subw, .and, .or, .xor, .andn, .neg, .negw, .sll, .sllw, .srl, .srlw, .sra, .sraw, .rol, .rolw, .ror,
    .rorw, .mul, .mulw, .mulh, .mulhu, .div, .divw, .divu, .divuw, .rem, .remw, .remu, .remuw, .seq, .sne, .slt, .sltu, .sge, .sgeu]

/-- Everything else. -/
def opsI : List Op :=
  [.addi, .addiw, .andi, .ori, .xori, .lui, .slli, .srli, .srai, .roli, .slliw, .srliw, .sraiw, .roliw, .seqi, .snei, .slti,
    .sltiu, .sgei, .sgeiu, .ld, .ldu, .st, .bz, .bnz, .j, .jal, .jr, .movb, .filb, .cmpb, .scnb, .send, .post, .waitev, .yield,
    .rtn, .rdtk, .rdcy, .prv]

/-- Every word of the encoding tables decodes to its operation (R187 to R199). -/
theorem test_words : (opsR.all (fun o => decodeOp (wordOf o) == some o) && opsI.all (fun o => decodeOp (wordOf o) == some o)) = true := by
  decide +kernel

/-- Words that R187 to R190 and R197 make ILLEGAL: a W form that does not exist, a reserved bit, KIND 8, a count of 32 in a W
kind, a changed register g0, one named twice, an undefined major. -/
theorem test_illegal_words : ([wR 0 3 1 2 0x42, wR 0 3 1 2 0x80, wI 0x07 3 1 0x8000, wI 0x07 3 1 0x4020, wR 0x20 0 1 2 0,
    wR 0x20 3 1 3 1, wI 0x3F 0 0 0, wI 0x06 3 1 0] : List (BitVec 32)).all (fun w => decodeOp w == none) = true := by
  decide +kernel

/-- A core 0 about to issue word w, with registers g. -/
def coreM (w : BitVec 32) (g : List (Nat × Word)) : M :=
  { runM with
    cpus := mapPut [] (1, 0) { Cpu.init with running := true, regs := g.map (fun e => ((0, e.1), e.2)) }
    stage := memWrite [] 0 (leBytes 4 w.toNat) }

/-- Thread 4, of partition 0, in routine 0, about to issue word w. -/
def thrM (w : BitVec 32) (g : List (Nat × Word)) : M :=
  { runM with
    cpus := mapPut [] (0, 4) { Cpu.init with rout := some ⟨0, 0, 5, 0, 0, 0, none⟩, regs := g.map (fun e => ((0, e.1), e.2)) }
    bud := { runM.bud with inf := [((0, 0), 1000)], rem := [((0, 0), 1000)] }
    stage := memWrite [] 0x1000 (leBytes 4 w.toNat) }

/-- Core 0 issues w. -/
def cI (w : BitVec 32) : Issue := ⟨.core 0, w, .ok, .ok, []⟩
/-- Thread 4 issues w. -/
def tI (w : BitVec 32) : Issue := ⟨.thread 4, w, .ok, .ok, []⟩

/-- `MayIssue` as a computation. -/
def mayB (s : State) (i : Issue) (o : Op) : Bool :=
  s.m.react.isEmpty && canIssue s.m i.x && fetchOk s.inForce s.m i.x && fetchWord s.inForce s.m i.x == i.word.toNat &&
  i.fetch == .ok && decodeOp i.word == some o &&
  match i.x with
  | .core _ => (takenFirst s.inForce i.x s.m).isNone && !(wingsIllegal o)
  | .thread _ => o != .prv

theorem mayIssue_of {s : State} {i : Issue} {o : Op} (h : mayB s i o = true) : MayIssue s i o := by
  cases hx : i.x <;> simp [mayB, hx] at h <;> simp_all [MayIssue]

/-- The state of core 0 at word w. -/
def cS (w : BitVec 32) (g : List (Nat × Word)) : State := sRun (coreM w g)
/-- The state of thread 4 at word w. -/
def tS (w : BitVec 32) (g : List (Nat × Word)) : State := sRun (thrM w g)

/-! ### Ill-formed commands -/

/-- For each check of `Instr.wf`, a command it refuses, and beside it one it takes. -/
theorem test_ill_formed :
    Instr.wf (.registerWrite .owner 0 ⟨[], false⟩) = false ∧ Instr.wf (.registerWrite .owner 0 ⟨[0], true⟩) = true ∧
    Instr.wf (.rcFieldRead .owner 0 4097) = false ∧ Instr.wf (.rcFieldRead .owner 0 4096) = true ∧
    Instr.wf (.fabricTransfer ⟨0, 20, 8, true, 0, List.replicate 257 0, 0, 8, ⟨true, true⟩⟩) = false ∧
    Instr.wf (.fabricTransfer ⟨0, 20, 8, false, 0, [], 257, 8, ⟨true, true⟩⟩) = false ∧
    Instr.wf (.fabricTransfer ⟨0, 20, 8, false, 0, [], 256, 8, ⟨true, true⟩⟩) = true ∧
    Instr.wf (.flashWindowRead 0 2 [0, 0]) = false ∧ Instr.wf (.flashWindowRead 0 4 [0, 0]) = false ∧
    Instr.wf (.flashWindowRead 0 4 [0, 0, 0, 0]) = true ∧
    Instr.wf (.tickEdge [⟨0, 128⟩] []) = false ∧ Instr.wf (.tickEdge [⟨1, 16⟩] []) = false ∧
    Instr.wf (.tickEdge [⟨3, 96⟩] []) = false ∧ Instr.wf (.tickEdge [⟨0, 127⟩, ⟨1, 15⟩, ⟨2, 15⟩, ⟨4, 95⟩] []) = true ∧
    Instr.wf (.inlineWindowWrite 0 0 0 [0, 0, 0]) = false ∧ Instr.wf (.inlineWindowWrite 0 0 2 [0, 0, 0, 0]) = false ∧
    Instr.wf (.inlineWindowWrite 0 0 64 [0, 0, 0, 0]) = false ∧ Instr.wf (.inlineWindowWrite 0 0 60 [0, 0, 0, 0]) = true ∧
    Instr.wf (.flitReceive 0 ⟨[], true, [], List.replicate 248 0, true⟩) = false ∧
    Instr.wf (.flitReceive 0 ⟨List.replicate 256 0, true, [], [], true⟩) = false ∧
    Instr.wf (.lineWrite 0 0 0 [] ⟨8, false⟩ 0 0) = false ∧ Instr.wf (.lineWrite 0 0 64 [0] ⟨8, false⟩ 0 0) = false ∧
    Instr.wf (.mbxRx .host 0 0 0) = false ∧ Instr.wf (.samplePreload [] [true]) = false ∧ Instr.wf (.extest [] []) = false ∧
    Instr.wf (.token [] ⟨⟨true, true⟩, ⟨⟨⟨true, true⟩, ⟨true, true⟩⟩, ⟨⟨true, true⟩, ⟨true, true⟩⟩⟩, []⟩) = false ∧
    Instr.wf (.sensorReadingsValid [0]) = false ∧ Instr.wf .bypass = true := by
  decide +kernel

/-- A slot of more than 2^24 bytes is refused. -/
theorem test_ill_formed_slot (b : List Byte) (h : 2 ^ 24 < b.length) (u : FuseSense) (k g : Verdict) :
    Instr.wf (.slotReadComplete b true u) = false ∧ Instr.wf (.imgCheckDone (some b) true k g true) = false :=
  ⟨decide_eq_false (by omega), decide_eq_false (by omega)⟩

/-- No word spells a command (the table gives no row any bits), so the queue stays as it is. -/
theorem test_no_word (n w : Nat) : decodeTableWord n w = none ∧ State.reset.withFetchWord n w = State.reset := ⟨rfl, rfl⟩

/-! ### Single steps, against the spec's tables and worked examples -/

/-- The registers after a command: the state of the machine it leaves. -/
def after (c : Instr) (m : M) : M := match exec c (sRun m) with | .next t => t.m | _ => m

/-- Register n of core 0 after it issues a word as an instruction. -/
def g0 (f : Issue → Instr) (w : BitVec 32) (g : List (Nat × Word)) (n : Nat) : Nat :=
  (((after (f (cI w)) (coreM w g)).cpu (wng 0)).g n).toNat

/-- Routine 0x0012 of chapter 08: its words spell the instructions its table names, and its first ones compute what it says. -/
theorem test_routine_words :
    (([0x05000100, 0x1D430020, 0x01295003, 0x49283000, 0x84080000, 0x858D0002, 0x45C83018, 0x0DCE000F, 0x21CE0001, 0x61C00007,
      0x808B1803] : List (BitVec 32)).map decodeOp) =
      [.addi, .slli, .or, .st, .send, .waitev, .ldu, .andi, .seqi, .bz, .scnb].map some := by decide +kernel

theorem test_addi_routine : g0 .addi 0x05000100 [] 8 = 0x100 := by decide +kernel
theorem test_slli_routine : g0 .slli 0x1D430020 [(3, 0x1000)] 10 = 0x100000000000 := by decide +kernel
theorem test_or_routine : g0 .opOr 0x01295003 [(9, 0x101), (10, 0x100000000000)] 9 = 0x100000000101 := by decide +kernel
/-- LUI with 0x8000 (chapter 08, R189). -/
theorem test_lui_sign : g0 .lui (wordOf .lui) [] 3 = 0xFFFFFFFF80000000 := by decide +kernel
/-- A destination that is also a source, wrapping. -/
theorem test_add_wraps : g0 .add (wR 0 1 1 2 0) [(1, 0xFFFFFFFFFFFFFFFF), (2, 2)] 1 = 1 := by decide +kernel
/-- R191: a division by zero gives −1, the most negative number by −1 itself, its remainder 0. -/
theorem test_div_zero : g0 .div (wordOf .div) [(1, 7)] 3 = 0xFFFFFFFFFFFFFFFF := by decide +kernel
theorem test_div_overflow : g0 .div (wordOf .div) [(1, 0x8000000000000000), (2, 0xFFFFFFFFFFFFFFFF)] 3 = 0x8000000000000000 := by
  decide +kernel
theorem test_rem_overflow : g0 .rem (wordOf .rem) [(1, 0x8000000000000000), (2, 0xFFFFFFFFFFFFFFFF)] 3 = 0 := by decide +kernel
theorem test_remw_zero : g0 .remw (wordOf .remw) [(1, 0x180000000)] 3 = 0xFFFFFFFF80000000 := by decide +kernel
/-- Shifts by more than the width (R191). -/
theorem test_sra_wide : g0 .sra (wordOf .sra) [(1, 0x8000000000000000), (2, 64)] 3 = 0xFFFFFFFFFFFFFFFF := by decide +kernel
theorem test_sll_wide : g0 .sll (wordOf .sll) [(1, 1), (2, 64)] 3 = 0 := by decide +kernel
theorem test_mulhu : g0 .mulhu (wordOf .mulhu) [(1, 0xFFFFFFFFFFFFFFFF), (2, 0xFFFFFFFFFFFFFFFF)] 3 = 0xFFFFFFFFFFFFFFFE := by
  decide +kernel
theorem test_slt_sign : g0 .slt (wordOf .slt) [(1, 0x8000000000000000), (2, 0)] 3 = 1 := by decide +kernel
/-- g0 discards writes (R184). -/
theorem test_g0 : g0 .addi 0x05000100 [] 0 = 0 ∧ g0 .addi (wI 0x01 0 0 5) [] 0 = 0 := by decide +kernel
/-- BZ +7 at 0x38 goes to 0x54: from 0, to 0x1C (R192). -/
theorem test_bz_taken : ((after (.bz (cI 0x61C00007)) (coreM 0x61C00007 [])).cpu (wng 0)).pc = 0x1C := by decide +kernel
theorem test_bz_not_taken : ((after (.bz (cI 0x61C00007)) (coreM 0x61C00007 [(14, 1)])).cpu (wng 0)).pc = 4 := by decide +kernel
/-- JAL links in g31 (R192). -/
theorem test_jal_links : g0 .jal (wordOf .jal) [] 31 = 4 := by decide +kernel
/-- A 4-byte store then a sign-extending load of scratch. -/
theorem test_store : memRead (after (.st (cI (wordOf .st))) (coreM (wordOf .st) [(1, 0), (3, 0x1122334488)])).scratch (512 * 65536 + 4) 4
    = [0x88, 0x44, 0x33, 0x22] := by decide +kernel

/-- The mailbox of chapter 14: a header of three words, then its flush by the wings, then a payload word without item. -/
theorem test_mailbox_example :
    let m := after (.mbxTxHead .host 0 0x2A21) runM
    (m.mbxOf 0 (txFifo .host)).opened = some (3, [0x8000000000002A21]) ∧
    (after (.mbxTxData .host 0 7) (after (.flushRx .wings 0) m)).fld .MBX_STS_TORN (pinst 0 0) = 1 := by decide +kernel

/-- The offsets of chapter 16's example. -/
theorem test_register_offsets :
    (regAt (.bar0 0) 0x100090).map (fun x => (x.1.reg, x.2)) = some (.RNG_STS, 4) ∧
    (regAt (.bar0 0) 0x304B10).map (fun x => (x.1.reg, x.2)) = some (.MOV_CTL, 300) ∧
    (regAt (.bar0 0) 0x408000).map (fun x => (x.1.reg, x.2)) = some (.IRQ_RACT, 0) ∧
    regOff .owner .MEM_SCRUB_RANGE 1 = 0x150138 ∧ regOff .owner .MEM_SCRUB_CTL 1 = 0x150130 := by decide +kernel

/-- A 4-byte doorbell, as in the example of chapter 16 but for ring 1: RNG_BSTS of the function, and not the owner's. -/
theorem test_small_doorbell :
    let m := after (.registerWrite (.bar2 0) 0x1000 ⟨[0, 0, 0, 0], false⟩) { runM with host := mapPut [] (0, 0) { HostSt.init with up := true, mse := true } }
    regVal m .BSTS (0 * 65536 + 6) = 0x0000090000100001 ∧ regVal m .BSTS (8 * 65536 + 6) = 0 := by decide +kernel

/-- The address of chapter 12's example: channel M1, offset 0x7_0000_0940, tag line. -/
theorem test_local_address :
    let im := { imgT with mem := [⟨1, 1, 8800, 64⟩, ⟨1, 1, 8800, 64⟩, ⟨1, 1, 8800, 32⟩] }
    chanAddr im 0x1500001340 = some (1, 0x700000940) ∧ localAddr im 1 0x700000940 = some 0x1500001340 ∧
    tagLine im 1 0x1C000025 * 64 = 0xEE0000100 := by decide +kernel

/-- One wrong chip is corrected and named, two are not (R310, R311). -/
theorem test_symbol_code : decodeBurst (encodeLine 0x1234 ^^^ 0x80) = .fixed (encodeLine 0x1234) 1 ∧
    decodeBurst (encodeLine 0x1234 ^^^ 0x8080) = .uncorr := by decide +kernel

/-- The machine after one idle cycle. -/
def idle (m : M) : M := match step (sRun m) with | .next t => t.m | _ => m

/-- A level interrupt that is acknowledged while its signal is high is pending again in the next cycle (R330, chapter 13's
example). -/
theorem test_level_again :
    let m := { runM with irq := { runM.irq with sig := [((0, 0x802), 1)] } }
    let m := idle (setSrcBit imgT .act 0 0x802 true (m.setMbx 0 1 ⟨[[7]], none⟩))
    let m := after (.acknowledge 0 .n 32 4) m
    srcBit imgT m .act 0 0x802 = false ∧ srcBit imgT (idle m) .pend 0 0x802 = true := by decide +kernel

/-- An empty queue idles for one cycle; reset keeps no time. -/
theorem test_idle : (match step State.reset with | .next t => t.m.now | _ => 0) = 1 := by decide +kernel

/-! ### Statements O1 to O12: processors -/

theorem witness_IntegerRuns :
    (∀ r ∈ aluBasic ++ aluShifts ++ aluProducts ++ aluCompares ++ aluImmediates,
      MayIssue (cS (wordOf r.op) []) (cI (wordOf r.op)) r.op ∧ DividerFree (cS (wordOf r.op) []).m (.core 0) r.op) ∧
    (∀ r ∈ aluBasic ++ aluShifts ++ aluProducts ++ aluCompares ++ aluImmediates,
      MayIssue (tS (wordOf r.op) []) (tI (wordOf r.op)) r.op) ∧
    (∀ r ∈ aluProducts, usesDivider r.op = true →
      MayIssue (sRun { coreM (wordOf r.op) [] with div := [(dividerKey (.core 0), 1)] }) (cI (wordOf r.op)) r.op ∧
      (coreM (wordOf r.op) []).now < mapGet 0 [(dividerKey (.core 0), 1)] (dividerKey (.core 0))) := by
  have h : (aluBasic ++ aluShifts ++ aluProducts ++ aluCompares ++ aluImmediates).all (fun r =>
      mayB (cS (wordOf r.op) []) (cI (wordOf r.op)) r.op && mayB (tS (wordOf r.op) []) (tI (wordOf r.op)) r.op &&
      decide (mapGet 0 (cS (wordOf r.op) []).m.div (dividerKey (.core 0)) ≤ (cS (wordOf r.op) []).m.now) &&
      mayB (sRun { coreM (wordOf r.op) [] with div := [(dividerKey (.core 0), 1)] }) (cI (wordOf r.op)) r.op) = true := by
    decide +kernel
  simp only [List.all_eq_true, Bool.and_eq_true] at h
  refine ⟨fun r hr => ⟨mayIssue_of (h r hr).1.1.1, fun _ => of_decide_eq_true (h r hr).1.2⟩,
    fun r hr => mayIssue_of (h r hr).1.1.2, fun r hr _ => ⟨mayIssue_of (h r ?_).2, ?_⟩⟩
  · simp [hr]
  · show (0 : Nat) < mapGet 0 [(dividerKey (.core 0), 1)] (dividerKey (.core 0))
    decide

/-- No voted word is disturbed in the states of this file (R279). -/
theorem witness_Undisturbed (w : BitVec 32) (g : List (Nat × Word)) :
    Undisturbed runM ∧ Undisturbed (cS w g).m ∧ Undisturbed (tS w g).m := ⟨⟨rfl, rfl, rfl, rfl⟩, ⟨rfl, rfl, rfl, rfl⟩, ⟨rfl, rfl, rfl, rfl⟩⟩

theorem witness_JumpsRun :
    (([.bz, .bnz, .j, .jal, .jr] : List Op).all (fun o => mayB (cS (wordOf o) []) (cI (wordOf o)) o &&
      mayB (tS (wordOf o) [(3, 1)]) (tI (wordOf o)) o) = true) ∧
    (∃ s : State, canIssue s.m (.core 0) = true ∧ (∀ k, Proc.core 0 = .core k → (s.m.cpu (wng k.val)).pend = []) ∧
      (s.m.cpu (wng 0)).pc % 4 ≠ 0) ∧
    (∃ s : State, canIssue s.m (.core 0) = true ∧ (∀ k, Proc.core 0 = .core k → (s.m.cpu (wng k.val)).pend = []) ∧
      (s.m.cpu (wng 0)).pc % 4 = 0 ∧ (codeArea s.inForce s.m (.core 0)).2 ≤ (s.m.cpu (wng 0)).pc) := by
  refine ⟨by decide +kernel, ⟨sRun { runM with cpus := mapPut [] (1, 0) { Cpu.init with running := true, pc := 2 } }, ?_⟩,
    ⟨sRun { runM with cpus := mapPut [] (1, 0) { Cpu.init with running := true, pc := 64 } }, ?_⟩⟩ <;>
  refine ⟨by decide +kernel, fun k hk => ?_, by decide +kernel⟩ <;> cases hk <;> rfl

/-- A load without a place: an address beyond scratch, misaligned. -/
theorem witness_PlacesOfSpaces :
    mayB (cS (wordOf .ld) [(1, 0x4000)]) (cI (wordOf .ld)) .ld = true ∧
    placeOf (cS (wordOf .ld) [(1, 0x4000)]) (cI (wordOf .ld)) false = none ∧ fSpace (wordOf .ld) = 0 ∧
    mayB (cS (wordOf .ldu) [(1, 0)]) (cI (wordOf .ldu)) .ldu = true ∧
    placeOf (cS (wordOf .ldu) [(1, 0)]) (cI (wordOf .ldu)) false = none ∧
    mayB (cS (wordOf .st) [(1, 1)]) (cI (wordOf .st)) .st = true ∧
    placeOf (cS (wordOf .st) [(1, 1)]) (cI (wordOf .st)) true = none ∧
    partRoutine (thrM 0 []) (.thread 4) = some ⟨0, 0, 5, 0, 0, 0, none⟩ ∧ partRoutine (coreM 0 []) (.core 0) = none ∧
    fSpace (wM 0x10 3 1 1 0 0) = 1 ∧ fSpace (wM 0x10 3 1 2 0 0) = 2 ∧
    placeOf (cS (wordOf .ld) [(1, 0x3FF0)]) (cI (wordOf .ld)) false = some ⟨.scratch 512, 0x3FF8, 8⟩ ∧
    placeOf (cS (wM 0x12 3 1 2 3 0) [(1, 0x1038)]) (cI (wM 0x12 3 1 2 3 0)) true = none ∧
    placeOf (cS (wM 0x12 3 1 2 3 0) [(1, 0x1040)]) (cI (wM 0x12 3 1 2 3 0)) true = some ⟨.ownerStage, 0x1040, 8⟩ := by
  decide +kernel

theorem witness_LoadsOnDie :
    mayB (cS (wordOf .ld) [(1, 8)]) (cI (wordOf .ld)) .ld = true ∧
    placeOf (cS (wordOf .ld) [(1, 8)]) (cI (wordOf .ld)) false = some ⟨.scratch 512, 16, 8⟩ ∧
    mayB (cS (wordOf .ldu) [(1, 8)]) (cI (wordOf .ldu)) .ldu = true ∧
    placeOf (cS (wordOf .ldu) [(1, 8)]) (cI (wordOf .ldu)) false = some ⟨.scratch 512, 7, 1⟩ ∧
    fSpace (wordOf .ld) ≠ 3 ∧ onDie (.scratch 512) = true ∧ onDie .ownerStage = true := by
  decide +kernel

/-- A thread of partition 0 that loads through its windows, and a core from local memory and from a register. -/
theorem witness_LoadsElsewhere :
    mayB (tS (wM 0x11 3 1 1 0 0) [(1, 0x10000)]) (tI (wM 0x11 3 1 1 0 0)) .ldu = true ∧
    (placeOf (tS (wM 0x11 3 1 1 0 0) [(1, 0x10000)]) (tI (wM 0x11 3 1 1 0 0)) false).map (·.sp) = some (.host 0) ∧
    mayB (cS (wM 0x10 3 1 1 3 0) [(1, 0x100)]) (cI (wM 0x10 3 1 1 3 0)) .ld = true ∧
    (placeOf (cS (wM 0x10 3 1 1 3 0) [(1, 0x100)]) (cI (wM 0x10 3 1 1 3 0)) false).map (·.sp) = some .dram ∧
    mayB (cS (wM 0x10 3 1 3 3 0) [(1, 8)]) (cI (wM 0x10 3 1 3 3 0)) .ld = true ∧ fSpace (wM 0x10 3 1 3 3 0) = 3 ∧
    addrOf (cS (wM 0x10 3 1 3 3 0) [(1, 8)]) (cI (wM 0x10 3 1 3 3 0)) + 8 ≤ 0x8000000 ∧
    readHeld imgT (afterIssue (cS (wM 0x10 3 1 3 3 0) [(1, 8)]) (cI (wM 0x10 3 1 3 3 0))) .owner 8 8 = false ∧
    flashRead (afterIssue (cS (wM 0x10 3 1 3 3 0) [(1, 8)]) (cI (wM 0x10 3 1 3 3 0))) 8 8 = false ∧
    loadAtHost (coreM 0 []) (.core 0) = false := by
  decide +kernel

theorem witness_StoresRun :
    mayB (cS (wordOf .st) [(1, 0)]) (cI (wordOf .st)) .st = true ∧
    placeOf (cS (wordOf .st) [(1, 0)]) (cI (wordOf .st)) true = some ⟨.scratch 512, 4, 4⟩ ∧
    mayB (cS (wM 0x12 3 1 2 3 0) [(1, 0x1040)]) (cI (wM 0x12 3 1 2 3 0)) .st = true ∧
    placeOf (cS (wM 0x12 3 1 2 3 0) [(1, 0x1040)]) (cI (wM 0x12 3 1 2 3 0)) true = some ⟨.ownerStage, 0x1040, 8⟩ ∧
    mayB (cS (wM 0x12 3 1 3 3 0) [(1, 8)]) (cI (wM 0x12 3 1 3 3 0)) .st = true ∧
    offHeld imgT (afterIssue (cS (wM 0x12 3 1 3 3 0) [(1, 8)]) (cI (wM 0x12 3 1 3 3 0))) .owner 8 = false := by
  decide +kernel

theorem witness_TrapEntry : (7 : Nat) < 2 ^ 64 ∧ ((coreM 0 []).cpu (wng 0)).pc < 2 ^ 64 := by
  decide +kernel

/-- Counts of 0, 32 and 33, in the last bytes of scratch. -/
theorem witness_BlockRepeatRuns : ([.movb, .filb, .cmpb, .scnb] : List Op).all (fun o => [0, 32, 33].all (fun c =>
    mayB (cS (wordOf o) [(3, 0x3FE0), (1, 0x3FE0), (2, c)]) (cI (wordOf o)) o &&
    !(fDsp (wordOf o)) && !(fSsp (wordOf o)) && decide (0x3FE0 + min c.toNat 32 ≤ 0x4000))) = true := by
  decide +kernel

theorem witness_ThreadOpsRun :
    mayB (tS (wordOf .send) [(1, 0x3FE0)]) (tI (wordOf .send)) .send = true ∧ (sendsOf (thrM 0 []) 4).all (fun _ => false) = true ∧
    queueRoom imgT (thrM (wordOf .send) []) 0 0 = true ∧
    mayB (tS (wordOf .waitev) [(1, 255)]) (tI (wordOf .waitev)) .waitev = true ∧
    mayB (tS (wordOf .waitev) [(1, 1)]) (tI (wordOf .waitev)) .waitev = true ∧
    ((thrM 0 []).cpu (thr 4)).ev &&& 255 = 0 ∧
    mayB (tS (wordOf .yield) []) (tI (wordOf .yield)) .yield = true ∧ mayB (tS (wordOf .rtn) []) (tI (wordOf .rtn)) .rtn = true := by
  decide +kernel

/-- A finished transfer of thread 4 with event bit 2. -/
def doneSend : Xfer := ⟨0, 0, .send 4 0x20 2, [], [], [], 0, 0, 0, [], 0, 0, none, 0, 0, false, []⟩

/-- The states of ThreadOpsRun that hold an event or wait for one. -/
theorem witness_ThreadOpsRun_events :
    (∃ s : State, mayB s (tI (wordOf .waitev)) .waitev = true ∧ (s.m.cpu (thr 4)).ev &&& 1 ≠ 0 ∧ (s.m.cpu (thr 4)).g 1 = 1) ∧
    (∃ (s : State) (x : Xfer), s.m.react = [] ∧ (s.m.cpu (thr 4)).wait = .none ∧
      (s.m.queue 0 (s.m.cpu (thr 4)).own).find? (fun x => (match x.who with
        | .send j _ e => j == 4 && e == 2
        | _ => false) && x.finished) = some x ∧ x.who = .send 4 0x20 2) ∧
    (∃ s : State, (s.m.cpu (thr 4)).wait = .ev 3 1 (some 0) ∧ 0 ≤ s.m.fld .TCK_COUNT_COUNT 0) := by
  refine ⟨⟨sRun { thrM (wordOf .waitev) [(1, 1)] with
    cpus := mapPut [] (0, 4) { (thrM (wordOf .waitev) [(1, 1)]).cpu (0, 4) with ev := 3 } }, by decide +kernel⟩, ?_,
    ⟨sRun { thrM 0 [] with cpus := mapPut [] (0, 4) { Cpu.init with wait := .ev 3 1 (some 0) } }, by decide +kernel⟩⟩
  exact ⟨sRun { thrM 0 [] with subq := mapPut [] (0, 0) [doneSend] }, doneSend, by decide +kernel⟩

theorem witness_StageOpsRun :
    mayB (tS (wR 0x21 0 1 0 1) []) (tI (wR 0x21 0 1 0 1)) .post = true ∧
    (partRoutine (thrM 0 []) (.thread 4)).map (·.part) = some 0 ∧ fRb (wR 0x21 0 1 0 1) = 0 ∧
    mayB (cS (wordOf .post) []) (cI (wordOf .post)) .post = true ∧ partRoutine (coreM 0 []) (.core 0) = none ∧
    imgT.enabled 0 = true ∧
    mayB (cS (wordOf .rdtk) []) (cI (wordOf .rdtk)) .rdtk = true ∧ mayB (cS (wordOf .rdcy) []) (cI (wordOf .rdcy)) .rdcy = true := by
  decide +kernel

/-- A core with control registers c about to issue a P word. -/
def prvS (w : BitVec 32) (g c : List (Nat × Word)) : State :=
  sRun { coreM w g with
    cpus := mapPut [] (1, 0) { (coreM w g).cpu (1, 0) with cr := c.map (fun e => ((e.1, 0), e.2)) } }

/-- P words of one shape, one for each value of POP. -/
def prvW (rd ra cr : Nat) (p : Fin 16) : BitVec 32 := wI 0x30 rd ra (cr * 16 + p.val)

/-- Whatever numbering POP has, each privileged operation has a word of a shape, and one value names none (R187). -/
theorem popOf_exists (rd ra cr : Nat) (h : ∀ p, Fin.ofNat 16 (prvW rd ra cr p).toNat = p) :
    (∃ p, popOf (prvW rd ra cr p) = some .crd) ∧ (∃ p, popOf (prvW rd ra cr p) = some .cwr) ∧
    (∃ p, popOf (prvW rd ra cr p) = some .crs) ∧ (∃ p, popOf (prvW rd ra cr p) = some .crc) ∧
    (∃ p, popOf (prvW rd ra cr p) = some .rte) ∧ (∃ p, popOf (prvW rd ra cr p) = some .wfi) ∧
    (∃ p, popOf (prvW rd ra cr p) = some .callr) ∧ (∃ p, popOf (prvW rd ra cr p) = none) :=
  ⟨⟨Config.popCode 0, by unfold popOf; rw [h]; simp⟩,
    ⟨Config.popCode 1, by unfold popOf; rw [h]; simp⟩,
    ⟨Config.popCode 2, by unfold popOf; rw [h]; simp⟩,
    ⟨Config.popCode 3, by unfold popOf; rw [h]; simp⟩,
    ⟨Config.popCode 4, by unfold popOf; rw [h]; simp⟩,
    ⟨Config.popCode 5, by unfold popOf; rw [h]; simp⟩,
    ⟨Config.popCode 6, by unfold popOf; rw [h]; simp⟩,
    ⟨Config.popCode 7, by unfold popOf; rw [h]; simp⟩⟩

/-- The shapes of the next theorem take POP in bits 3 to 0. -/
theorem pop_field : ∀ x ∈ ([(3, 0, 4), (0, 1, 4), (3, 1, 4), (3, 1, 10), (0, 0, 0), (3, 1, 0)] : List (Nat × Nat × Nat)),
    ∀ p, Fin.ofNat 16 (prvW x.1 x.2.1 x.2.2 p).toNat = p := by
  decide +kernel

/-- P words, whatever POP their operation has (`popOf_exists`): a control register operation on CR n; RTE, WFI; CALLR. -/
theorem witness_PrivilegedRun : ∀ p : Fin 16,
    mayB (prvS (prvW 3 0 4 p) [] []) (cI (prvW 3 0 4 p)) .prv = true ∧ prvLegal .crd (prvW 3 0 4 p) = true ∧
    mayB (prvS (prvW 0 1 4 p) [] []) (cI (prvW 0 1 4 p)) .prv = true ∧ prvLegal .cwr (prvW 0 1 4 p) = true ∧
    mayB (prvS (prvW 3 1 4 p) [] []) (cI (prvW 3 1 4 p)) .prv = true ∧
    prvLegal .crs (prvW 3 1 4 p) = true ∧ prvLegal .crc (prvW 3 1 4 p) = true ∧ fCr (prvW 3 1 4 p) ≠ 0x00A ∧
    mayB (prvS (prvW 3 1 10 p) [] []) (cI (prvW 3 1 10 p)) .prv = true ∧
    prvLegal .crs (prvW 3 1 10 p) = true ∧ prvLegal .crc (prvW 3 1 10 p) = true ∧ fCr (prvW 3 1 10 p) = 0x00A ∧
    prvLegal .rte (prvW 0 0 0 p) = true ∧ prvLegal .wfi (prvW 0 0 0 p) = true ∧ prvLegal .callr (prvW 3 1 0 p) = true ∧
    ([0, 0x10, 0x08, 0x20] : List Nat).all (fun st =>
      mayB (prvS (prvW 0 0 0 p) [] [(0, BitVec.ofNat 64 st)]) (cI (prvW 0 0 0 p)) .prv) = true ∧
    canTake imgT (endStep (.core 0) (prvS (prvW 0 0 0 p) [] []).m) 0 = false ∧
    mayB (prvS (prvW 3 1 0 p) [(1, 7)] []) (cI (prvW 3 1 0 p)) .prv = true ∧ imgT.routine 7 = none ∧
    (let s := { prvS (prvW 3 1 0 p) [] [] with img := { imgT with spindleMap := [8] } }
     mayB s (cI (prvW 3 1 0 p)) .prv = true ∧ idleOwnerThread s.inForce (endStep (.core 0) s.m) = some 0 ∧
     (s.inForce.routine 0).map (fun q => bitAt q.rflags 0) = some true) := by
  decide +kernel

/-- The levels RTE leaves, and a free call number. -/
theorem witness_PrivilegedRun_levels :
    ((prvS 0 [] [(0, 0x10)]).m.cpu (wng 0)).inLevel 4 = true ∧ ((prvS 0 [] [(0, 0x10)]).m.cpu (wng 0)).inLevel 5 = false ∧
    ((prvS 0 [] [(0, 0x08)]).m.cpu (wng 0)).inLevel 3 = true ∧ ((prvS 0 [] [(0, 0x08)]).m.cpu (wng 0)).inLevel 4 = false ∧
    ((prvS 0 [] [(0, 0x08)]).m.cpu (wng 0)).inLevel 5 = false ∧ ((prvS 0 [] [(0, 0x20)]).m.cpu (wng 0)).inLevel 5 = true ∧
    (List.range 16).find? (fun n => !(bitAt ((coreM 0 []).cpu (wng 0)).calls n)) = some 0 := by
  decide +kernel

/-- A core whose IE_N is set, with source 0x810 pending for it. -/
def offerM : M :=
  let m := setSrcBit imgT .pend 8 0x810 true
    { coreM 0 [] with cpus := mapPut [] (1, 0) { Cpu.init with running := true, cr := [((0, 0), 1)] } }
  { m with irq := { m.irq with start := [] } }

theorem witness_CoresStart :
    (runM.inReset 22 3 = false ∧ runM.flag .WNG_CTL_RUNNING 3 = false ∧ runM.flag .WNG_CTL_HALTED 3 = false ∧
      (60 : Nat) % 4 = 0 ∧ 60 < imgT.loadArea.length ∧ imgT.loadArea.length ≤ 64) ∧
    (runM.setFlag .WNG_CTL_RUNNING 3 true).flag .WNG_CTL_RUNNING 3 = true ∧
    (let m := offerM
     atBoundary m.now (m.cpu (wng 0)) = true ∧ m.inReset 22 0 = false ∧ m.irq.maskq = [] ∧ (m.cpu (wng 0)).pend = [] ∧
      (m.cpu (wng 0)).inLevel 5 = false ∧ (m.cpu (wng 0)).inLevel 4 = false ∧ (m.cpu (wng 0)).inLevel 3 = false ∧
      bitAt ((m.cpu (wng 0)).crv 0) 1 = false ∧ bitAt ((m.cpu (wng 0)).crv 0) 0 = true ∧
      wOffer imgT m 0 false = some 0x810) := by
  decide +kernel

theorem witness_CoresStart_overrun : ∃ (s : State) (r : RoutCtx) (q : Rout),
    (s.m.cpu (thr 4)).rout = some r ∧ s.inForce.routine r.index = some q ∧
    (∀ a b c d, (s.m.cpu (thr 4)).wait ≠ .ending a b c d) ∧ r.edge + q.maxTicks + 1 ≤ s.m.fld .TCK_COUNT_COUNT 0 ∧ r.part ≠ 8 := by
  refine ⟨sRun ((thrM 0 []).setFld .TCK_COUNT_COUNT 0 5), ⟨0, 0, 5, 0, 0, 0, none⟩, _, by decide +kernel, rfl, ?_, by decide +kernel,
    by decide⟩
  intro a b c d h
  cases h

/-- A core that waits for eight bytes of local memory. -/
theorem witness_LoadAnswerWrites : ∃ (s : State) (l : LoadWait) (b : List Byte),
    s.m.react = [] ∧ (s.m.cpu (wng 0)).wait = .load l ∧ (s.m.cpu (wng 0)).loadDrop = 0 ∧ loadAtHost s.m (.core 0) = false ∧
    b.length = l.size :=
  ⟨sRun { coreM 0 [] with cpus := mapPut [] (1, 0) { Cpu.init with running := true, wait := .load ⟨3, 8, false, 1, 0x100⟩ } },
    ⟨3, 8, false, 1, 0x100⟩, List.replicate 8 0, by decide +kernel⟩

/-- The places of one element, at the first byte of scratch and at its last. -/
theorem witness_BlockElement :
    (elemAt imgT (coreM (wordOf .movb) [(3, 0x3FFF)]) (.core 0) (fSsp (wordOf .movb)) 0 false).isSome = true ∧
    (elemAt imgT (coreM (wordOf .movb) [(3, 0x3FFF)]) (.core 0) (fDsp (wordOf .movb)) 0x3FFF true).isSome = true ∧
    (elemAt imgT (coreM (wordOf .filb) [(3, 0x3FFF)]) (.core 0) (fDsp (wordOf .filb)) 0x3FFF true).isSome = true ∧
    (elemAt imgT (coreM (wordOf .cmpb) [(3, 0x3FFF)]) (.core 0) (fDsp (wordOf .cmpb)) 0x3FFF false).isSome = true ∧
    (elemAt imgT (coreM (wordOf .cmpb) [(3, 0x3FFF)]) (.core 0) (fSsp (wordOf .cmpb)) 0 false).isSome = true ∧
    (elemAt imgT (coreM (wordOf .scnb) []) (.core 0) (fSsp (wordOf .scnb)) 0 false).isSome = true := by
  decide +kernel

/-- A thread whose sub-queue is full. -/
theorem witness_ThreadOpsRun_full :
    (let s := sRun { thrM (wordOf .send) [] with subq := mapPut [] (0, 0) (List.replicate 256 doneSend) }
     mayB s (tI (wordOf .send)) .send = true ∧ queueRoom s.inForce s.m 0 (s.m.cpu (thr 4)).own = false) := by
  decide +kernel

/-! ### Statements O13 to O18: start-up -/

/-- The machine with its boot in a phase. -/
def bootM (f : BootSt → BootSt) : M := { State.reset.m with boot := f State.reset.m.boot }

theorem witness_ResetsOfThePart :
    runM.react = [] ∧ (9 : Nat) < 10 ∧ (20 : Nat) ≤ 20 ∧ (3 : Nat) < 4 ∧ runM.boot.phase ≠ .porst ∧ runM.boot.phase ≠ .rstLow := by
  decide +kernel

theorem witness_StartUpBegins :
    State.reset.m.boot.phase = .porst ∧ (bootM (fun b => { b with phase := .rstLow })).boot.phase = .rstLow ∧
    (let m := { bootM (fun b => { b with phase := .pll, cold := true, porAt := 0 }) with now := 2000000 }
     m.boot.phase = .pll ∧ m.boot.cold = true ∧ m.boot.porAt + 2000000 ≤ m.now) ∧
    (let m := { bootM (fun b => { b with phase := .wait5, step5At := 7 }) with now := 200000007 }
     m.boot.phase = .wait5 ∧ m.boot.step5At + 200000000 ≤ m.now) := by
  decide +kernel

/-- The bytes of a HEADER that the read checks accept, the shortest image, and one with a wrong MAGIC. -/
def hdrOk : List Byte := leBytes 32 1 ++ imgMagic ++ List.replicate 16 0 ++ leBytes 8 8704

theorem witness_SlotsAreTried :
    (let m := bootM (fun b => { b with phase := .read, sensed := true, second := false })
     m.react = [] ∧ m.boot.phase = .read ∧ m.boot.sensed = true ∧ m.boot.second = false) ∧
    (bootM (fun b => { b with phase := .read, sensed := true, second := true })).boot.second = true ∧
    imgReadCheck hdrOk = none ∧ imgReadCheck [] = some resBadMagic ∧ endsBoot resBadMagic = false := by
  decide +kernel

theorem witness_VerifiedImageApplies :
    (let m := bootM (fun b => { b with phase := .verify, entropy := true, second := false })
     m.react = [] ∧ m.boot.phase = .verify ∧ m.boot.entropy = true ∧ m.boot.second = false) ∧
    (let m := bootM (fun b => { b with phase := .verify, entropy := false })
     m.boot.entropy = false ∧ (entropyBack Image.empty m).boot.phase ≠ .wait5) ∧
    (let m := bootM (fun b => { b with phase := .wait5, entropy := false })
     m.boot.entropy = false ∧ (entropyBack Image.empty m).boot.phase = .wait5) := by
  decide +kernel

/-! A whole image, byte by byte from the section tables of R33: partition 0 on port 0 with spindle 0, one channel of 8 GiB, no link, a
window of the host, every fault source with N 1 and W 1, four bytes of code for the wings. -/

/-- A section of n bytes: the common header, its body from byte 0x20, and z zeros (R33). -/
def sectOf (ty n : Nat) (body : List Byte) (z : Nat) : List Byte :=
  leBytes 2 ty ++ leBytes 6 1 ++ leBytes 24 n ++ body ++ List.replicate z 0
def iH : List Byte := sectOf 1 128 (imgMagic ++ leBytes 2 0x9624 ++ leBytes 2 0xFF00 ++ leBytes 2 0 ++ leBytes 2 11 ++ leBytes 8 7 ++
  leBytes 4 16832) 68
def iS : List Byte := sectOf 2 1280 (leBytes 2 512 ++ leBytes 2 0 ++ leBytes 2 8 ++ leBytes 2 16 ++ leBytes 8 512 ++
  leBytes 8 (1 + 2 ^ 8 + 4800 * 2 ^ 16 + 8 * 2 ^ 32) ++ List.replicate 72 0 ++ (0 : Byte) :: List.replicate 1151 0xFF) 0
def iP : List Byte := sectOf 3 128 (leBytes 4 (1 * 2 ^ 8 + 5 * 2 ^ 16) ++ leBytes 2 8 ++ leBytes 2 1 ++ leBytes 4 0 ++ leBytes 4 1 ++
  List.replicate 24 0 ++ leBytes 24 1 ++ leBytes 8 0 ++ leBytes 8 4096 ++ leBytes 8 0 ++ leBytes 8 (15 * 2 ^ 8)) 0
def iL : List Byte := sectOf 4 64 [] 32
def iB : List Byte := sectOf 5 320 [] 288
def iI : List Byte := sectOf 6 4224 [] 4192
def iF : List Byte :=
  sectOf 7 3072 (leBytes 16 187 ++ faultList.flatMap (fun f => leBytes 8 (f + 2 ^ 16) ++ leBytes 8 1)) 32
def iR : List Byte := sectOf 8 64 [] 32
def iW : List Byte := sectOf 9 192 (leBytes 64 1 ++ leBytes 4 4) 92
def iK : List Byte := sectOf 10 64 [20] 31
def iG : List Byte := sectOf 11 7296 [] 7264
def imgBytes : List Byte := iH ++ (iS ++ (iP ++ (iL ++ (iB ++ (iI ++ (iF ++ (iR ++ (iW ++ (iK ++ iG)))))))))

/-- Its sections. -/
def imgSects : List Sect :=
  [⟨1, 0, 1, 0, 128⟩, ⟨2, 0, 1, 128, 1280⟩, ⟨3, 0, 1, 1408, 128⟩, ⟨4, 0, 1, 1536, 64⟩, ⟨5, 0, 1, 1600, 320⟩, ⟨6, 0, 1, 1920, 4224⟩,
    ⟨7, 0, 1, 6144, 3072⟩, ⟨8, 0, 1, 9216, 64⟩, ⟨9, 0, 1, 9280, 192⟩, ⟨10, 0, 1, 9472, 64⟩, ⟨11, 0, 1, 9536, 7296⟩]

/-- What it says. -/
def imgRead : Image :=
  { Image.empty with
    seq := 7, tickPeriod := 512, ownerStage := 8, qdepth := 16, ownerDram := 512
    mem := ⟨1, 1, 4800, 8⟩ :: List.replicate 3 ⟨0, 0, 0, 0⟩
    spindleMap := 0 :: List.replicate 127 9
    moverMap := List.replicate 1024 9
    parts := [⟨0, 0, 1, 5, 8, 1, 0, 1, 0, 0, 0, [⟨0, 4096, 0, 0, 15⟩]⟩]
    budget := List.replicate 8 ⟨0, 0, 0, 0⟩
    policy := List.replicate 8 0
    holdoff := List.replicate 2048 0
    whold := List.replicate 16 0
    faults := faultList.map (fun f => ⟨f, 1, 0, 0, 1⟩)
    cores := ⟨1, 0⟩ :: List.replicate 3 ⟨0, 0⟩
    loadArea := List.replicate 4 0
    rekeyLog2 := 20
    rootHash := leBytes 48 (Config.sha384 (imgMessage imgBytes)).toNat }

theorem imgBytes_walk : sectWalk imgBytes 264 0 16832 = some imgSects ∧ imgLen imgBytes = 16832 := by decide +kernel

/-- The bytes at a place of a concatenation. -/
theorem sect_at {pre x post : List Byte} {a n : Nat} (ha : pre.length = a) (hn : x.length = n) :
    ((pre ++ (x ++ post)).drop a).take n = x := by
  subst ha hn; simp

theorem imgSect_2 : imgSect imgBytes imgSects 2 = iS := by decide +kernel
theorem imgSect_4 : imgSect imgBytes imgSects 4 = iL := by decide +kernel
theorem imgSect_5 : imgSect imgBytes imgSects 5 = iB := by decide +kernel
theorem imgSect_6 : imgSect imgBytes imgSects 6 = iI := by
  show (imgBytes.drop 1920).take 4224 = iI
  rw [show imgBytes = (iH ++ iS ++ iP ++ iL ++ iB) ++ (iI ++ (iF ++ (iR ++ (iW ++ (iK ++ iG))))) by simp [imgBytes]]
  exact sect_at (by decide +kernel) (by decide +kernel)
theorem imgSect_7 : imgSect imgBytes imgSects 7 = iF := by decide +kernel
theorem imgSect_8 : imgSect imgBytes imgSects 8 = iR := by decide +kernel
theorem imgSect_9 : imgSect imgBytes imgSects 9 = iW := by decide +kernel
theorem imgSect_10 : imgSect imgBytes imgSects 10 = iK := by decide +kernel
theorem imgSect_11 : imgSect imgBytes imgSects 11 = iG := by
  show (imgBytes.drop 9536).take 7296 = iG
  rw [show imgBytes = (iH ++ iS ++ iP ++ iL ++ iB ++ iI ++ iF ++ iR ++ iW ++ iK) ++ (iG ++ []) by simp [imgBytes]]
  exact sect_at (by decide +kernel) (by decide +kernel)
theorem imgBytes_parts : (imgSects.filter (fun s => s.type == 3)).map (fun s => parsePart s.inst (sectBytes imgBytes s)) =
    imgRead.parts := by
  decide +kernel

theorem imgBytes_parse : imgParse imgBytes imgSects = imgRead := by
  simp only [imgParse, imgSect_2, imgSect_4, imgSect_5, imgSect_6, imgSect_7, imgSect_8, imgSect_9, imgSect_10, imgBytes_parts,
    imgRead, Image.empty, Image.mk.injEq, and_true, true_and]
  and_intros <;> decide +kernel

theorem imgBytes_fields : imgFieldsOk imgBytes imgSects imgRead = true := by
  simp only [imgFieldsOk, imgSect_2, imgSect_4, imgSect_5, imgSect_6, imgSect_7, imgSect_8, imgSect_9, imgSect_10, imgSect_11]
  decide +kernel

/-- The image passes the read checks and every check of step 4, on every die (R33 to R39, R69). -/
theorem test_image_accepted (serial : Nat) :
    imgReadCheck imgBytes = none ∧ imgStep4 imgBytes 0 serial = (resAccepted, imgRead) := by
  refine ⟨by decide +kernel, ?_⟩
  unfold imgStep4
  rw [if_neg (by decide +kernel), if_neg (fun h => absurd h.1 (by decide +kernel)), if_neg (by decide +kernel), imgBytes_walk.2]
  simp only [show 16832 / 64 + 1 = 264 from rfl, imgBytes_walk.1, imgBytes_parse, imgBytes_fields, imgSect_8, imgSect_10]
  rw [if_neg (by decide +kernel), if_neg (by decide +kernel), if_neg (by decide),
    if_neg (by rw [show leAt iK 0x24 4 = 0 by decide +kernel]; decide +kernel)]

/-- Paths that compute rightly give a decision d on both, turned ones its opposite, and one of each a disagreement. -/
theorem pathsOf_cases (d : Bool) : pathsOf ⟨d, d⟩ d = ⟨true, true⟩ ∧ pathsOf ⟨!d, !d⟩ d = ⟨false, false⟩ ∧
    (pathsOf ⟨d, !d⟩ d).a ≠ (pathsOf ⟨d, !d⟩ d).b := by
  cases d <;> decide

/-- A boot that holds an accepted image at its verification, and one whose image is for another part. -/
theorem witness_VerifiedImageApplies_accepted : ∃ s : State,
    s.m.react = [] ∧ s.m.boot.phase = .verify ∧ s.m.boot.entropy = true ∧
    (imgStep4 s.m.boot.copy (svnSteps s.m.sec.sensed) serialNat).1 = resAccepted ∧
    (∃ key, pathsOf key (imgKeyOk s.m.boot.copy s.m.sec.sensed.hash) = ⟨true, true⟩) ∧
    (∃ sig, pathsOf sig (imgSigOk s.m.boot.copy) = ⟨true, true⟩) :=
  ⟨{ State.reset with m := bootM (fun b => { b with phase := .verify, entropy := true, copy := imgBytes }) }, rfl, rfl, rfl,
    congrArg Prod.fst (test_image_accepted serialNat).2, ⟨_, (pathsOf_cases _).1⟩, ⟨_, (pathsOf_cases _).1⟩⟩

theorem witness_VerifiedImageApplies_refused : ∃ s : State,
    s.m.react = [] ∧ s.m.boot.phase = .verify ∧ s.m.boot.entropy = true ∧ s.m.boot.second = false ∧
    (imgStep4 s.m.boot.copy (svnSteps s.m.sec.sensed) serialNat).1 = resWrongPart ∧
    (∃ key, pathsOf key (imgKeyOk s.m.boot.copy s.m.sec.sensed.hash) = ⟨true, true⟩) ∧
    (∃ key, pathsOf key (imgKeyOk s.m.boot.copy s.m.sec.sensed.hash) = ⟨false, false⟩) ∧
    (∃ sig, pathsOf sig (imgSigOk s.m.boot.copy) = ⟨true, true⟩) ∧
    (∃ sig, pathsOf sig (imgSigOk s.m.boot.copy) = ⟨false, false⟩) :=
  ⟨{ State.reset with m := bootM (fun b => { b with phase := .verify, entropy := true, second := false }) }, rfl, rfl, rfl, rfl,
    by decide +kernel, ⟨_, (pathsOf_cases _).1⟩, ⟨_, (pathsOf_cases _).2.1⟩, ⟨_, (pathsOf_cases _).1⟩, ⟨_, (pathsOf_cases _).2.1⟩⟩

/-- A HEADER for another part is WRONG_PART, and one for this part without sections BAD_LAYOUT (R38). -/
theorem test_step4_order :
    (imgStep4 hdrOk 0 0).1 = resWrongPart ∧ (imgStep4 (hdrOk.take 40 ++ [0x24, 0x96, 0, 255] ++ hdrOk.drop 44) 0 0).1 = resBadLayout := by
  decide +kernel

/-- Every channel trained and octet 0 calibrated. -/
def readyM : M := (runM.setFlag .MEM_CH_STS_TRAINED 0 true).setFlag .LNK_OCT_STS_CAL_DONE 0 true

theorem witness_ReleaseAndReady :
    mayRelease imgT readyM 0 = true ∧ imgT.enabled 0 = true ∧ memReady imgT readyM = true ∧ octReady imgT readyM = true ∧
    released readyM 0 = false ∧ released (readyM.setFld .IMG_PORT_CTL_RELEASE 0 1) 0 = true ∧
    mayRelease imgT (readyM.setFld .IMG_PORT_CTL_RELEASE 0 1) 0 = true ∧ mayRelease imgT runM 0 = false ∧ mayRelease imgT readyM 7 = false ∧
    (let m := { runM with boot := { runM.boot with releaseAt := [((0, 0), 5)] }, now := 1800000005 }
     mapFind m.boot.releaseAt (0, 0) = some 5 ∧ isReady m 0 = false ∧ bitAt m.boot.overdue 0 = false ∧
     5 + 1800000000 ≤ m.now) := by
  decide +kernel

theorem witness_FlashAndChecks :
    (runM.boot.phase = .run ∧ runM.flag .IMG_FLASH_STS_BUSY 0 = false ∧ runM.flag .IMG_CHECK_BUSY 0 = false ∧
      runM.fld .IMG_BOOT_STS_SLOT 0 = 0 ∧ (0x1FF0000 : Nat) / 0x1000000 ≠ 0 ∧ (0x1FF0000 : Nat) % 65536 = 0 ∧
      (0x1FFFF00 : Nat) % 256 = 0 ∧ (4095 : Nat) * 256 + 256 ≤ ({ imgT with ownerStage := 1 } : Image).ownerStageBytes ∧
      (0xFFFFFF : Nat) / 0x1000000 = 0) ∧
    (let m := { runM.setFlag .IMG_FLASH_STS_BUSY 0 true with
        boot := { runM.boot with flashOp := some (1, 0x1000000, []), chkWait := some 1 } }
     m.boot.flashOp = some (1, 0x1000000, []) ∧ m.flag .IMG_FLASH_STS_BUSY 0 = true ∧ m.boot.chkWait = some 1 ∧
     m.boot.phase ≠ .failed) ∧
    (let m := { runM with boot := { runM.boot with chkWait := some 1, chkSlot := some 1 } }
     m.boot.chkWait = some 1 ∧ m.flag .IMG_FLASH_STS_BUSY 0 = false ∧ m.boot.chkSlot = some 1 ∧
     checkSlot imgT none true ⟨true, true⟩ ⟨true, true⟩ true m = (resFlashError, m)) ∧
    (0x1FFFFF8 : Nat) % 8 = 0 ∧ (0x1FFFFFC : Nat) % 4 = 0 := by
  decide +kernel

/-! ### Statements O19 to O27: registers and the tick -/

/-- A field of each access code, and the ring enable of R4. -/
theorem witness_AccessCodes :
    (fldSpec .IRQ_MASK_N_MASK).acc = .rw ∧ (fldSpec .IRQ_MASK_N_MASK).own = false ∧
    (fldSpec .TCK_CAP_A_SPINDLE_CYCLES).acc = .rw ∧ (fldSpec .TCK_CAP_A_SPINDLE_CYCLES).own = false ∧
    (fldSpec .BSTS_RSVD_WR).acc = .rw1c ∧ (fldSpec .RNG_CFG_A_BASE).acc = .rwl ∧ (fldSpec .RNG_CFG_A_BASE).own = false ∧
    (fldSpec .TCK_COUNT_COUNT).acc = .ro ∧ runM.flag .RNG_ENABLE_ENABLED (pinst 0 0) = false ∧
    (runM.setFlag .RNG_ENABLE_ENABLED (pinst 0 0) true).flag .RNG_ENABLE_ENABLED (pinst 0 0) = true ∧
    (List.range 405).any (fun n => (fldSpecAt n).acc == .rc) = true ∧
    (List.range 405).all (fun n => (fldSpecAt n).acc != .rw1s || (fldSpecAt n).own) = true ∧
    (List.range 405).any (fun n => (fldSpecAt n).own) = true := by
  decide +kernel

/-- A closed and an open function; registers of the owner view without a function and a cap; sizes 1, 4 misaligned and 7. -/
theorem witness_RegisterAccesses :
    viewOpen imgT State.reset.m (.bar0 0) = false ∧ viewOpen imgT runM (.bar0 0) = true ∧ viewOpen imgT runM .owner = true ∧
    (let v := View.owner
     let off := regOff .owner .TCK_COUNT 0
     off % 8 = 0 ∧ off + 8 ≤ viewSize imgT v ∧ inWindow v off 8 = false ∧ inFlash v off = false ∧ inMsix v off = false ∧
     inCmdBuf v off = false ∧ (accReg imgT v off).map (fun x => (x.1.reg, x.2)) = some (.TCK_COUNT, 0, 0) ∧
     (accReg imgT v off).map (fun x => x.1.mirror) = some false ∧
     accessHeld runM .TCK_COUNT 0 = false ∧ regLive imgT v .TCK_COUNT 0 = true) ∧
    (runM.react = [] ∧ imgT.enabled 0 = true ∧ accessHeld runM .TCK_CAP_A 0 = false) ∧
    (0x7FFFFF9 + 7 ≤ viewSize imgT .owner ∧ inWindow .owner 0x7FFFFF9 7 = false ∧ offHeld imgT runM .owner 0x7FFFFF9 = false ∧
      (2 : Nat) % 4 ≠ 0 ∧ offHeld imgT runM .owner 2 = false) := by
  decide +kernel

/-- The premises of FabricTags on a transfer in imgT. -/
def fabB (t : Fabric) : Bool :=
  decide (1 ≤ t.size) && decide (t.addr.toNat % 256 + t.size ≤ 256) &&
  (!(decide (20 ≤ t.dst.val) && decide (t.dst.val < 52)) || t.dst.val == 20 + t.addr.toNat / 256 % 32) &&
  (!(decide (68 ≤ t.dst.val) && decide (t.dst.val < 72)) || (chanAddr imgT t.addr.toNat).all (fun x => 68 + x.1 == t.dst.val))

/-- Transfers of 1 and 256 bytes, at the end of a block, with the owner's tag and a foreign one, to the first and last stage port, to
local memory, a cluster and an octet; and paths that differ. -/
theorem witness_FabricTags :
    (let t : Fabric := ⟨0, 51, 8, true, 7936, List.replicate 256 0, 0, 8, ⟨true, true⟩⟩
     fabB t = true ∧ fabricOwner imgT t = some t.tag.val ∧ runM.react = []) ∧
    (let t : Fabric := ⟨0, 20, 8, false, 255, [], 1, 8, ⟨true, true⟩⟩
     fabB t = true ∧ fabricOwner imgT t = some t.tag.val) ∧
    (let t : Fabric := ⟨0, 68, 8, false, 0, [], 64, 8, ⟨true, true⟩⟩
     fabB t = true ∧ fabricOwner imgT t = some t.tag.val) ∧
    (let t : Fabric := ⟨0, 0, 0, true, 4, [1], 0, 8, ⟨true, true⟩⟩
     fabB t = true ∧ fabricOwner imgT t = some t.tag.val) ∧
    (let t : Fabric := ⟨0, 20, 3, true, 255, [1], 0, 8, ⟨true, true⟩⟩
     fabB t = true ∧ fabricOwner imgT t ≠ some t.tag.val) ∧
    (let t : Fabric := ⟨0, 51, 7, false, 7936, [], 256, 8, ⟨true, true⟩⟩
     fabB t = true ∧ fabricOwner imgT t ≠ some t.tag.val) ∧
    (let t : Fabric := ⟨0, 51, 8, false, 7936, [], 256, 8, ⟨true, false⟩⟩
     fabB t = true ∧ t.paths.a ≠ t.paths.b) := by
  decide +kernel

theorem witness_VotedReads :
    runM.upset = [] ∧ runM.voteDead.contains (.rootHash 5) = false ∧
    ({ runM with voteDead := [.rootHash 5] } : M).voteDead.contains (.rootHash 5) = true := by
  decide +kernel

/-- The cycle before the edge, the edge cycle, and the four after it. -/
theorem witness_TickEdgeSteps :
    (let m := { runM with tick := { runM.tick with on := true, next := 2000 }, now := 1999 }
     m.now ≠ m.tick.next) ∧
    (let m := { runM with tick := { runM.tick with on := true, next := 2000 }, now := 2000 }
     m.tick.on = true ∧ m.now = m.tick.next) ∧
    (List.range 4).all (fun k =>
      let m := { runM with tick := { runM.tick with on := true, edge := 2000, next := 4000, phase := k + 1 }, now := 2001 + k }
      m.tick.on && m.tick.phase == k + 1 && m.now == m.tick.edge + k + 1 && m.now != m.tick.next) = true ∧
    0 ∈ imgT.enabledParts ∧ ((runM.setFld .TCK_COUNT_COUNT 0 128).fld .TCK_COUNT_COUNT 0 + 1) % 2 ^ 64 % 128 = 1 ∧
    runM.flag .PWR_PIN_ALIVE_FROZEN 0 = false := by
  decide +kernel

theorem witness_ChargesDeduct : (thrM 0 []).covers 0 0 1000 = true ∧ (thrM 0 []).covers 0 0 1001 = false ∧
    (thrM 0 []).beforeReload = false ∧ ({ thrM 0 [] with tick := { runM.tick with on := true, phase := 1 } } : M).beforeReload = true := by
  decide +kernel

theorem witness_TickInput :
    (let s : State := { sRun { runM with tick := { runM.tick with on := true, edge := 4000, taken := false, closed := true }, now := 5000 } with
        img := { imgT with tickSource := 1 } }
     s.m.tick.on = true ∧ s.inForce.tickSource = 1 ∧ s.m.now ≤ s.m.tick.edge + s.inForce.tickPeriod / 2 ∧
     s.m.tick.edge < s.m.now + s.inForce.tickPeriod / 2 ∧ s.m.tick.taken = false) ∧
    (let s : State := { sRun { runM with
          tick := { runM.tick with on := true, edge := 4000, next := 6010, taken := false, closed := true }, now := 5001 } with
        img := { imgT with tickSource := 1 } }
     s.m.tick.closed = true ∧ s.m.tick.edge + s.inForce.tickPeriod / 2 < s.m.now ∧
     s.m.now + s.inForce.tickPeriod / 2 ≤ s.m.tick.next) ∧
    (let m := (runM.setFlag .TCK_STS_LOCKED 0 true).setFld .TCK_STS_MISS_RUN 0 8
     let s : State := { sRun { m with tick := { m.tick with on := true, edge := 4000 }, now := 4000 } with
        img := { imgT with tickSource := 1 } }
     s.m.tick.on = true ∧ s.inForce.tickSource = 1 ∧ s.m.now ≤ s.m.tick.edge + s.inForce.tickPeriod / 2 ∧
     s.m.flag .TCK_STS_LOCKED 0 = true ∧ 8 ≤ s.m.fld .TCK_STS_MISS_RUN 0) := by
  decide +kernel

theorem witness_WindowsAndHush :
    runM.react = [] ∧ ({ runM with tick := { runM.tick with due := [303] } } : M).tick.due.contains 303 = true := by
  decide +kernel

theorem witness_ClocksThatStop : (sRun runM).inForce.partOfPort 0 = some 0 ∧ (sRun runM).inForce.partOfPort 7 = none ∧
    runM.boot.phase = .run := by decide +kernel

/-! ### Statements O28 to O37: interrupts, mailboxes, trace, faults -/

/-- `RowTaken` as a computation. -/
def rowB (s : State) (a : Access) : Bool :=
  rowOpen s.inForce s.m a && !(rowHeld s.inForce s.m a)

theorem rowTaken_of {s : State} {a : Access} (h : rowB s a = true) : RowTaken s a := by
  simpa [rowB, RowTaken] using h

/-- Partition 0 with its masks open and PEND bits of the normal and the fast bank. -/
def irqM (n f : Bool) : M :=
  let m := { runM with irq := { runM.irq with eff := [((1000, 1), 0), ((1000, 2), 0), ((1002, 0), 1)] } }
  let m := if n then setSrcBit imgT .pend 0 0x801 true m else m
  let m := if f then setSrcBit imgT .pend 0 0x800 true m else m
  { m with irq := { m.irq with start := [] } }

/-- Nothing eligible, a fast source alone, a normal group alone and with a fast source, at once and under EXACT. -/
theorem witness_CommitMoves :
    let src := fun m => ((candSources imgT m 0 .f).filter (eligible imgT m 0),
      (candSources imgT m 0 .n ++ candSources imgT m 0 .r).filter (eligible imgT m 0))
    src (irqM false false) = ([], []) ∧ src (irqM false true) = ([0x800], []) ∧ src (irqM true false) = ([], [0x801]) ∧
    src (irqM true true) = ([0x800], [0x801]) ∧ (irqM true true).irq.did.contains 0 = false ∧
    ({ irqM true true with irq := { (irqM true true).irq with did := [0] } } : M).irq.did.contains 0 = true ∧
    srcRoute imgT (irqM true true) 0 0x801 = some (2, 3) ∧ nextGroup (irqM true true) 0 [3] = some 3 ∧
    imgT.exact 0 = false ∧
    (let im : Image := { imgT with policy := List.replicate 16 255 }
     im.exact 0 = true ∧ (candSources im (irqM false true) 0 .f).filter (eligible im (irqM false true) 0) = [0x800] ∧
     (candSources im (irqM true true) 0 .n).filter (eligible im (irqM true true) 0) = [0x801]) ∧ (8 : Nat) ≤ 8 := by
  decide +kernel

theorem witness_RecheckAndMasks :
    (let m := { irqM true true with now := 108
                                    irq := { (irqM true true).irq with prov := [⟨0, 100, [(1, 0x800)], none⟩] } }
     m.irq.maskq = [] ∧ m.irq.prov.find? (fun c => c.part == 0) = some ⟨0, 100, [(1, 0x800)], none⟩ ∧ (100 : Nat) + 8 ≤ m.now ∧
     [(1, 0x800)].all (provKept imgT { m with now := 100 + 8 } 0) = true ∧ ({ m with now := 107 } : M).now < 100 + 8) ∧
    (let m := { irqM true true with now := 108
                                    irq := { (irqM true true).irq with
                                      eff := [((1002, 0), 1)]
                                      prov := [⟨0, 100, [(0, 0x801)], some (3, none)⟩] } }
     m.irq.maskq = [] ∧ m.irq.prov.find? (fun c => c.part == 0) = some ⟨0, 100, [(0, 0x801)], some (3, none)⟩ ∧
     (100 : Nat) + 8 ≤ m.now ∧ provKept imgT { m with now := 100 + 8 } 0 (0, 0x801) = false) ∧
    (let m := { runM with now := 8, irq := { runM.irq with maskq := [⟨8, (1001, 0), 1⟩], hold := [((8, 255), 7), ((0, 0), 8)] } }
     m.react = [] ∧ m.irq.maskq = [⟨8, (1001, 0), 1⟩] ∧ (8 : Nat) ≤ m.now ∧ ({ m with now := 7 } : M).now < 8 ∧
     mapFind m.irq.hold (8, 255) = some 7 ∧ 7 < m.now ∧ mapFind m.irq.hold (0, 0) = some 8 ∧ m.now ≤ 8) := by
  decide +kernel

/-- An acknowledgement of the wings, one without and one with stray bits under either policy, and a PEND clear. -/
theorem witness_AcknowledgeClears :
    rowB (sRun runM) (.acknowledge 8 .n 0 1) = true ∧ rowB (sRun runM) (.acknowledge 0 .f 127 1) = true ∧
    rowB (sRun runM) (.acknowledge 0 .r 1023 1) = true ∧ rowB (sRun runM) (.pendClear 8 .f 127 1) = true ∧
    imgT.enabled 0 = true ∧ runM.flag .IRQ_CFG_STRAY_ACK (pinst 0 0) = false ∧
    (runM.setFlag .IRQ_CFG_STRAY_ACK (pinst 0 0) true).flag .IRQ_CFG_STRAY_ACK (pinst 0 0) = true ∧
    clearBits 1 (runM.fld (bankFld .act 0 .f) (bankInst 0 127)) ≠ 0 ∧
    clearBits 0 (runM.fld (bankFld .act 0 .f) (bankInst 0 127)) = 0 := by
  decide +kernel

/-- The running loom with one mailbox of partition 0. -/
def mbxM (x : Mbx) : M := (runM.setMbx 0 0 x).setMbx 0 1 x

/-- An item that fits exactly, 64 items, 512 words, an open item one word short and two short, none; reads of an empty and a
filled FIFO and of other sizes. -/
theorem witness_MailboxesRun :
    imgT.enabled 0 = true ∧
    rowB (sRun (mbxM ⟨List.replicate 63 [0, 0, 0, 0, 0, 0, 0, 0], none⟩)) (.mbxTxHead .wings 0 0x700) = true ∧
    ((mbxM ⟨List.replicate 63 [0, 0, 0, 0, 0, 0, 0, 0], none⟩).mbxOf 0 (txFifo .wings)).items.length < 64 ∧
    (((mbxM ⟨List.replicate 63 [0, 0, 0, 0, 0, 0, 0, 0], none⟩).mbxOf 0 (txFifo .wings)).items.map List.length).sum + 8 ≤ 512 ∧
    64 ≤ ((mbxM ⟨List.replicate 64 [0], none⟩).mbxOf 0 (txFifo .host)).items.length ∧
    rowB (sRun (mbxM ⟨[], some (2, [0])⟩)) (.mbxTxData .host 0 5) = true ∧
    ((mbxM ⟨[], some (2, [0])⟩).mbxOf 0 (txFifo .host)).opened = some (2, [0]) ∧
    ((mbxM ⟨[], none⟩).mbxOf 0 (txFifo .host)).opened = none ∧
    rowB (sRun (mbxM ⟨[[7]], none⟩)) (.mbxRx .host 0 8 0) = true ∧ rowB (sRun (mbxM ⟨[[7]], none⟩)) (.mbxRx .wings 0 8 0) = true ∧
    ((mbxM ⟨[[7]], none⟩).mbxOf 0 (rxFifo .wings)).items = (7 :: []) :: [] ∧
    ((mbxM ⟨[[7, 8]], none⟩).mbxOf 0 (rxFifo .wings)).items = (7 :: [8]) :: [] ∧
    ((mbxM ⟨[], none⟩).mbxOf 0 (rxFifo .wings)).items = [] ∧ rowB (sRun runM) (.mbxRx .host 0 4 4) = true ∧ (4 : Nat) ≠ 8 ∧
    rowB (sRun runM) (.flushTx .host 0) = true ∧ rowB (sRun runM) (.flushRx .wings 0) = true ∧ runM.inReset 27 0 = false := by
  decide +kernel

theorem witness_MailboxesStayBounded :
    runM.react = [] ∧ (∀ p d, MbxOk (runM.mbxOf p d)) ∧
    ∃ t, exec (.mbxTxHead .wings 0 0x700) (sRun runM) = .next t := by
  refine ⟨rfl, fun p d => ?_, ⟨_, rfl⟩⟩
  have : runM.mbxOf p d = ⟨[], none⟩ := rfl
  rw [this]
  simp [MbxOk, Mbx.count, Mbx.words]

/-- A trace with words, some read, and its last word at the end of storage. -/
def trcM (n rd : Nat) : M := { runM with trc := ⟨List.replicate n (2 ^ 63), rd⟩ }

theorem witness_EventsAndTrace :
    runM.react = [] ∧ mapGet [] runM.evt (95, 0) = [] ∧
    mapGet [] ({ runM with evt := [((95, 0), [3, 4])] } : M).evt (95, 0) = 3 :: [4] ∧
    rowB (sRun (trcM 2 1)) (.trcPut 5) = true ∧ (trcM 2 1).trc.words.length < 131072 ∧ rowB (sRun (trcM 2 1)) (.trcGet .ok) = true ∧
    (trcM 2 1).trc.words[(trcM 2 1).trc.rd]? = some (2 ^ 63) ∧ (trcM 2 2).trc.words.length ≤ (trcM 2 2).trc.rd ∧
    rowB (sRun (trcM 2 1)) (.trcGet .corrected) = true ∧ rowB (sRun (trcM 2 1)) (.trcGet .uncorr) = true ∧
    rowB (sRun (trcM 2 1)) (.traceMark 1) = true ∧ (1 : Nat).testBit 0 = true ∧ (1 : Nat).testBit 1 = false ∧
    rowB (sRun (trcM 2 1)) (.rewind 2) = true ∧ (2 : Nat).testBit 0 = false ∧ (2 : Nat).testBit 1 = true ∧
    (runM.setFlag .TRC_STS_MARK_VALID 0 true).flag .TRC_STS_MARK_VALID 0 = true ∧ runM.flag .TRC_STS_MARK_VALID 0 = false ∧
    rowB (sRun (trcM 2 1)) (.rewind 3) = true ∧ runM.inReset 28 0 = false := by
  decide +kernel

/-- A full trace. -/
theorem witness_EventsAndTrace_full : rowB (sRun (trcM 131072 0)) (.trcPut 5) = true ∧ (trcM 131072 0).trc.words.length = 131072 :=
  ⟨by rfl, List.length_replicate ..⟩

theorem witness_FaultEventCounts :
    faultInst 0x000 = some 0 ∧ faultInst 0x3FF = none ∧ runM.tick.due.contains 0 = false ∧
    (faultEntry { imgT with faults := [⟨0, 1, 0, 0, 0⟩] } 0).n ≤ runM.fld .FLT_SRC_COUNT 0 + 1 ∧
    ¬ ((faultEntry { imgT with faults := [⟨0, 255, 0, 0, 0⟩] } 0).n ≤ runM.fld .FLT_SRC_COUNT 0 + 1) ∧
    runM.flag .FLT_STS_ACTIVE 0 = false ∧ (runM.setFlag .FLT_STS_ACTIVE 0 true).flag .FLT_STS_ACTIVE 0 = true ∧
    beforeStep3 runM = false ∧
    (let m := { runM.setFld .FLT_SRC_COUNT 0 3 with tick := { runM.tick with on := true, phase := 1 } }
     beforeStep3 m = true ∧ m.tick.aged.contains 0 = false ∧ m.fld .FLT_SRC_COUNT 0 ≠ 0) := by
  decide +kernel

theorem witness_BlockResets :
    (0x12C : Nat).testBit 8 = true ∧ (0x12C : Nat) % 256 ≤ 44 ∧ noBlockReset 44 = false ∧ (0x1FF : Nat).testBit 8 = true ∧
    44 < (0x1FF : Nat) % 256 ∧ noBlockReset 0 = true ∧
    resetDone { runM with brst := [((28, 0), 0)], now := 1000000 } 28 0 = true ∧ resetDone runM 28 0 = false ∧
    runM.flag .SEC_STS_FACTORY_OPEN 0 = false ∧
    (runM.setFlag .SEC_STS_FACTORY_OPEN 0 true).flag .SEC_STS_FACTORY_OPEN 0 = true ∧
    faultList.find? (fun f => faultInst f == some 28 && faultLocal f == (0x100 : Nat) % 32) = some 0x0A0 ∧ (0xA0 : Nat) ≠ 0x016 := by
  decide +kernel

/-- A load of a thread and of a core, a descriptor read and a cue fetch, each asked for at 0 and unanswered 131,072 sc, and one sc less. -/
theorem witness_InterfaceTimeouts :
    let m := { runM with
      now := 131072
      asks := [((0, 511), (0, 24)), ((0, 515), (0, 24)), ((1, 1023), (0, 24)), ((2, 4), (0, 24))]
      cpus := [((0, 511), { Cpu.init with wait := .load ⟨3, 8, false, 1, 0⟩ }), ((1, 3), { Cpu.init with wait := .load ⟨3, 8, false, 1, 0⟩ })] }
    (m.cpu (thr 511)).wait = .load ⟨3, 8, false, 1, 0⟩ ∧ (m.cpu (thr 511)).loadDrop = 0 ∧ loadAtHost m (.thread 511) = false ∧
    overdue m (0, 511) = true ∧ ({ m with now := 131071 } : M).now < 0 + 131072 ∧ overdue { m with now := 131071 } (0, 511) = false ∧
    (m.cpu (wng 3)).wait = .load ⟨3, 8, false, 1, 0⟩ ∧ (m.cpu (wng 3)).loadDrop = 0 ∧ loadAtHost m (.core 3) = false ∧
    overdue m (0, (Proc.core 3).num) = true ∧
    (m.cpu (Proc.thread 0).key).wait = .none ∧ (m.cpu (Proc.thread 0).key).loadDrop = 0 ∧
    ((m.setChan 1023 { ChanSt.init with reading := some 0 }).chan 1023).reading.isSome = true ∧ overdue m (1, 1023) = true ∧
    overdue m (1, 0) = false ∧ fetchAtHost m 4 = false ∧ overdue m (2, 4) = true ∧ overdue m (2, 5) = false ∧
    mapFind m.asks (0, 511) = some (0, 24) ∧ mapFind m.quiet (24, 0) = none ∧ mapFind m.asks (0, 0) = none := by
  decide +kernel

theorem witness_Temperatures :
    runM.boot.phase ≠ .porst ∧ (105 : Int) * 16 ≤ (1680 : BitVec 16).toInt ∧ ¬ ((105 : Int) * 16 ≤ (1679 : BitVec 16).toInt) ∧
    runM.pins.warnArmed = true ∧ runM.flag .PWR_THERM_VALID 0 = false ∧
    ({ runM with pins := { runM.pins with warnArmed := false } } : M).pins.warnArmed = false ∧
    (120 : Int) * 16 ≤ (1920 : BitVec 16).toInt ∧ runM.pins.thermTrip = false ∧ (1599 : BitVec 16).toInt < 100 * 16 ∧
    (List.replicate 16 (400 : BitVec 16)).length = 16 ∧ runM.boot.porAt + 2000000 ≤ ({ runM with now := 2000000 } : M).now := by
  decide +kernel

/-! ### Statements O38 to O42: scripts, rings, movers -/

/-- A script of partition 0 with a window. -/
def scr (st : SSt) (win : List PCue) : Script :=
  { part := 0, tag := 5, ring := 0, inl := false, first := 0x1000, icues := [], payload := [], st := st, thread := none,
    parked := none, resume := false, loops := 0, dev := 0, side := false, attn := false, skipped := false, win := win,
    next := some (0x1000, false), fetching := false, ahead := [], sn := 1, bufs := [], wait := .nothing,
    run := { (default : CueRun) with confirmed := true }, halting := false, done := none, last := false }

/-- A cue at the head of a window: opcode, COUNT, SLOT, ARG, word 3. -/
def pc (op count slot arg w3 : Nat) : PCue :=
  { sn := 0, ptr := 0x1000, inl := false, cue := ⟨op + count * 2 ^ 32, 0x1000, slot + arg * 2 ^ 16, w3⟩, chk := .pass, list := [],
    listOut := false, rhs := none, rq := false, runits := 0, wunits := 0, newBuf := none, sent := false, lost := false }

/-- The running loom with a script on thread 4, budgets left and link 0 up with a device in slot 0. -/
def scrM (x : Script) : M :=
  let m := { runM.setFld .LNK_STS_STATE 0 lsActive with
    links := mapPut [] (0, 0) { LinkSt.init with caps := [⟨0, true, true, 5⟩] }
    bud := { runM.bud with
      inf := [((0, 0), 1000), ((5, 0), 64)]
      rem := [((0, 0), 1000), ((1, 0), 100000), ((2, 0), 100000), ((3, 0), 1000)] } }
  m.setScript { x with thread := some 4 }

/-- Dispatch of a queued script, parking, a context that returns or is lost, a fetch and its answers. -/
theorem witness_ScriptsMove :
    (let m := { scrM (scr .queued []) with dispq := [((0, 0), [5])], scripts := [((0, 5), scr .queued [])] }
     m.script 0 5 = some (scr .queued []) ∧ nextDispatch m 0 = some 5 ∧ imgT.spindleOwner (511 / 4) = 0 ∧ threadIdle m 511 = true ∧
     m.inForce 0 0 ≠ 0) ∧
    (let x := { scr .waiting [] with thread := some 4 }
     (scrM x).script 0 5 = some x ∧ x.parked = none ∧ x.fetching = false ∧ x.win.any (fun c => c.listOut) = false) ∧
    (scrM (scr .waiting [])).scripts.any (fun e => e.2.parked == some 65535) = false ∧
    (let x := { scr .running [] with thread := some 4 }
     (scrM x).script 0 5 = some x) ∧
    (let x := { scr .waiting [] with parked := some 65535 }
     let m := { scrM x with scripts := [((0, 5), x)] }
     m.script 0 5 = some x ∧ threadIdle m 4 = true ∧ imgT.spindleOwner (4 / 4) = 0) ∧
    (let x := { scr .running [] with thread := some 4, fetching := true }
     (scrM x).scriptOn 4 = some x ∧ x.next = some (0x1000, false) ∧ ((scrM x).cpu (thr 4)).fetchDrop = 0) ∧
    (let x := { scr .running [{ pc 1 64 0 0 0 with listOut := true }] with thread := some 4 }
     (scrM x).scriptOn 4 = some x ∧ x.win.any (fun c => c.listOut) = true ∧ ((scrM x).cpu (thr 4)).listDrop = 0) := by
  decide +kernel

/-- Fetches in local memory and of a host, with prefetch right. -/
theorem witness_ScriptsMove_fetch :
    (let x := { scr .running [] with thread := some 4 }
     let m := scrM x
     m.scriptOn 4 = some x ∧ x.ahead = [] ∧ mayGrow x = true ∧ spindleBudget m 0 = true ∧ (0x1000 : Nat) % 32 = 0 ∧
     winCheck imgT m 0 0x1000 32 rScript = 0 ∧ winPrefetch imgT m 0 0x1000 = true ∧ (winMap imgT m 0 0x1000).map (·.1) = some .dram ∧
     m.upset = [] ∧ m.glitch = [] ∧ m.voteDead = []) ∧
    (let x := { scr .running [] with thread := some 4, next := some (0x10000, false) }
     let m := scrM x
     m.scriptOn 4 = some x ∧ winCheck imgT m 0 0x10000 32 rScript = 0 ∧ winPrefetch imgT m 0 0x10000 = true ∧
     (winMap imgT m 0 0x10000).map (·.1) = some (.host 0)) := by
  decide +kernel

/-- Every device cue without and with data work, the cues that complete at once, WAIT met and unmet, CALL of a routine and of none. -/
theorem witness_CuesRun :
    (([1, 2, 3, 4, 5] : List Nat).all (fun op => ([0, 64] : List Nat).all (fun n =>
      let c := { pc op n 0 0 0 with wunits := 1 }
      let x := { scr .running [c] with thread := some 4 }
      let m0 := cueStep x (scrM x)
      let m2 := if needsItem x c then enqFrame (slotLink c.cue.slot) (.cmd 0 5 false) (postXfer x.cluster 0 (keptXfer x (groupXfer imgT m0 x x.head c)) m0)
        else enqFrame (slotLink c.cue.slot) (.cmd 0 5 false) m0
      let y := { x with run := if needsItem x c then { x.run with kept := [], begun := true } else { x.run with begun := true } }
      let m3 := (if op = 5 then enqFrame (slotLink c.cue.dstSlot) (.cmd 0 5 true) m2 else m2).setScript y
      decide (readyCue 4 op (scrM x) = some (x, c)) && x.run.begun == false && (linkRefusal (scrM x) c.cue).isNone && (ungranted x).isNone &&
      decide (spaceNeed imgT x c = 0) && c.rhs.isNone && queueRoom imgT (scrM x) x.cluster 0 &&
      (cueXfer (scrM x) 0 5 0).isNone && (cueXfer m0 0 5 0).isNone && decide (m3.scriptOn 4 = some y)))) = true ∧
    (([8, 9, 12, 13] : List Nat).all (fun op =>
      let c := pc op 0 0 0 0
      let x := { scr .running [c] with thread := some 4 }
      decide (readyCue 4 op (scrM x) = some (x, c)))) = true ∧
    (let c := pc 10 0 0 2 63
     let x := { scr .running [c] with thread := some 4 }
     let m := (scrM x).setFld .CUE_EVENT_EVENT (pinst 0 0) (2 ^ 63)
     readyCue 4 10 (scrM x) = some (x, c) ∧ waitMet (cueStep x (scrM x)) 0 2 63 = false ∧ readyCue 4 10 m = some (x, c) ∧
     waitMet (cueStep x m) 0 2 63 = true) ∧
    (let x := { scr .waiting [pc 10 0 0 0 0] with wait := .cue 0 0 7 3, thread := some 4 }
     let m := (scrM x).setFld .TCK_COUNT_COUNT 0 10
     m.scriptOn 4 = some x ∧ x.wait = .cue 0 0 7 3 ∧ 3 + 7 ≤ m.fld .TCK_COUNT_COUNT 0) ∧
    (let x := { scr .waiting [pc 10 0 0 1 0] with wait := .cue 1 0 7 3, thread := some 4 }
     let m := (scrM x).setFld .TCK_COUNT_COUNT 0 10
     m.scriptOn 4 = some x ∧ x.wait = .cue 1 0 7 3 ∧ 3 + 7 ≤ m.fld .TCK_COUNT_COUNT 0) ∧
    (let c := pc 11 0 0 0 0
     let x := { scr .running [c] with thread := some 4 }
     readyCue 4 11 (scrM x) = some (x, c) ∧ x.run.begun = false ∧ (imgT.routine c.cue.arg).isSome = true ∧
     ((scrM x).cpu (thr 4)).ready ≤ (scrM x).now ∧
     (imgT.routine c.cue.arg).map (fun q => bitAt q.callers 0) = some true) ∧
    (let c := pc 11 0 0 255 0
     let x := { scr .running [c] with thread := some 4 }
     readyCue 4 11 (scrM x) = some (x, c) ∧ c.cue.arg = 255 ∧ imgT.routine 255 = none) ∧
    (let x := scr .waiting []
     let m := { scrM x with bud := { (scrM x).bud with stageq := [⟨0, 5, none, 64⟩] } }
     m.bud.stageq.find? (fun w => w.part == 0) = some ⟨0, 5, none, 64⟩ ∧ m.stageFits 0 64 = true ∧ (m.script 0 5).isSome = true) ∧
    imgT.enabled 0 = true ∧ barOpen imgT runM 0 = true := by
  decide +kernel

/-- A device cue that takes space before it begins: an indirect write of 64 bytes (R410). -/
theorem witness_CuesRun_space :
    (let c := { pc (5) 64 0 0 0 with wunits := 0 }
     let x := { scr .running [c] with thread := some 4 }
     readyCue 4 5 (scrM x) = some (x, c) ∧ spaceNeed imgT x c ≠ 0 ∧ stageNow (scrM x) 0 (spaceNeed imgT x c) = true) := by
  decide +kernel

/-- Partition 0 with a request ring 0 and a status ring 1 of 64 units. -/
def ringM (on : Bool) : M :=
  (((((runM.setFld .RNG_CFG_B_KIND (pinst 0 0) 1).setFld .RNG_CFG_B_SIZE_LOG2 (pinst 0 0) 6).setFld .RNG_CFG_B_STATUS_RING
    (pinst 0 0) 1).setFld .RNG_CFG_B_KIND (pinst 0 1) 2).setFld .RNG_CFG_B_SIZE_LOG2 (pinst 0 1) 6).setFlag .RNG_ENABLE_ENABLED
    (pinst 0 0) on

theorem witness_RingsRun :
    barOpen imgT (ringM true) 0 = true ∧ imgT.enabled 0 = true ∧ (ringM false).flag .RNG_ENABLE_ENABLED (pinst 0 0) = false ∧
    imgT.partN 0 (·.ringCount) = 2 ∧ ringReason imgT (ringM false) 0 0 = 0 ∧ ringReason imgT (ringM false) 0 1 = 0 ∧
    ringReason imgT ((ringM false).setFld .RNG_CFG_B_KIND (pinst 0 1) 3) 0 1 = 1 ∧
    ringReason imgT ((ringM false).setFld .RNG_CFG_B_SIZE_LOG2 (pinst 0 0) 5) 0 0 = 2 ∧
    ringLive imgT (ringM false) 0 1 = false ∧ ringLive imgT (ringM true) 0 0 = true ∧ ringKind (ringM true) 0 0 = 1 ∧
    ringLive imgT (ringM true) 0 1 = true ∧ ringKind (ringM true) 0 1 = 2 ∧
    (2 : Nat) ^ (ringM true).fld .RNG_CFG_B_SIZE_LOG2 (pinst 0 0) ≤ 64 ∧ (63 : Nat) < 2 ^ (ringM true).fld .RNG_CFG_B_SIZE_LOG2 (pinst 0 0) ∧
    (ringM true).fld .RNG_STS_TAIL (pinst 0 0) < 63 ∧ (63 : Nat) % 2 = 1 ∧ (64 : Nat) / 2 ^ 16 % 2 ^ 47 = 0 ∧
    (let m := (ringM true).setRing 0 1 { RingSt.init with used := 62 }
     (62 + 64 - m.fld .RNG_STS_HEAD (pinst 0 1)) % 64 ≤ (m.ring 0 1).used ∧ (m.ring 0 1).held = []) ∧
    (64 : Nat) % 64 = 0 ∧ 0 + (List.replicate 64 (0 : Byte)).length ≤ 64 ∧ 60 + (List.replicate 4 (0 : Byte)).length ≤ 64 ∧
    (((ringM true).setRing 0 0 { RingSt.init with fetch := some (3, 1, 4, true) }).ring 0 0).fetch = some (3, 1, 4, true) ∧
    (3 : BitVec 16).toNat < 4 ∧ (4 : BitVec 16).toNat ≥ 4 ∧
    (((ringM true).setRing 0 0 { RingSt.init with fetch := some (4, 1, 4, true) }).ring 0 0).fetch = some (4, 1, 4, true) ∧
    entryReady { ringM true with bud := { (ringM true).bud with rem := [((2, 0), 32)] } } 0 = true ∧
    entryReady { ringM true with bud := { (ringM true).bud with rem := [((2, 0), 31)] } } 0 = false ∧
    ((ringM true).hostOf 0).d3q = [] := by
  decide +kernel

/-- A channel of partition 0 in a state. -/
def chanM (st : Nat) : M := runM.setFld .MOV_STS_STATE 63 st

/-- Every action in every state, both settings registers in every state, triggers at their time, answers of a descriptor read. -/
theorem witness_ChannelsRun :
    chanSeen imgT (.bar0 0) 63 = true ∧ chanSeen imgT .owner 63 = true ∧
    ([0, 1, 2, 3].all (fun st => rowB (sRun (chanM st)) (.movStart (.bar0 0) 63 1) && rowB (sRun (chanM st)) (.movStop (.bar0 0) 63 2) &&
      rowB (sRun (chanM st)) (.movClear .owner 63 4) && rowB (sRun (chanM st)) (.movCfgWrite .owner 63 true 0xFFFFFFFFFFFFFFEF) &&
      rowB (sRun (chanM st)) (.movCfgWrite (.bar0 0) 63 false 0) && (chanM st).fld .MOV_STS_STATE 63 == st)) = true ∧
    (0xFFFFF00000000 + 1 : Nat) % 8 = 1 ∧ (0xFFFFF00000000 + 1 : Nat) / 8 % 2 ^ 29 = 0 ∧ (0xFFFFF00000000 + 1 : Nat) / 2 ^ 52 = 0 ∧
    (0xFFFFFFFFFFFFFFEF : Nat).testBit 4 = false ∧
    cfgRefused imgT (chanM 0) 63 false 0 = false ∧ cfgRefused imgT (chanM 0) 63 false 1 = true ∧
    ((chanM 0).setFlag .MOV_CFG_ARM 63 true).flag .MOV_CFG_ARM 63 = true ∧ imgT.chanOwner 63 = 0 ∧
    (let m := (((((chanM 0).setFld .TCK_COUNT_COUNT 0 7).setFlag .MOV_CFG_ARM 63 true).setFld .MOV_CFG_PERIOD 63 5).setFld .MOV_CFG_TRIG 63 1).setChan 63
       { ChanSt.init with trigFrom := 2 }
     m.flag .MOV_CFG_ARM 63 = true ∧ m.fld .MOV_CFG_PERIOD 63 ≠ 0 ∧ m.fld .MOV_CFG_TRIG 63 = 1 ∧
     (m.chan 63).trigFrom + m.fld .MOV_CFG_PERIOD 63 ≤ m.fld .TCK_COUNT_COUNT 0) ∧
    (let m := { (((chanM 0).setFlag .MOV_CFG_ARM 63 true).setFld .MOV_CFG_PERIOD 63 5).setFld .MOV_CFG_TRIG 63 2 with now := 320 }
     m.flag .MOV_CFG_ARM 63 = true ∧ m.fld .MOV_CFG_TRIG 63 = 2 ∧ (m.chan 63).armedAt + 64 * m.fld .MOV_CFG_PERIOD 63 ≤ m.now) ∧
    (let im := { imgT with moverMap := List.replicate 64 8 }
     let m := ((chanM 1).setFld .MOV_CFG_AS_PART 63 8).setChan 63 { ChanSt.init with reading := some 7 }
     chanSeen im .owner 63 = true ∧ (m.chan 63).reading = some 7 ∧ asPart im m 63 = 8 ∧ m.fld .MOV_STS_STATE 63 = 1) := by
  decide +kernel

/-- An owner's transfer of 300 bytes within the stage buffer, its destination 16 bytes short of a boundary. -/
def stageX : Xfer :=
  Xfer.make 8 8 (.chan 0 0) [⟨.ownerStage, 0x100, 300⟩] [⟨.ownerStage, 0x20F0, 300⟩] [] 300 300

theorem witness_ElementsMove :
    (let x := { stageX with pos := 284 }
     x.src = [⟨.ownerStage, 0x100, 300⟩] ∧ x.dst = [⟨.ownerStage, 0x20F0, 300⟩] ∧ x.stopped = false ∧ x.err = 0 ∧ x.pos < 300 ∧
     x.total = 300 ∧ x.avail = 300 ∧ x.owner = 8) ∧
    runM.inReset 24 0 = false ∧ ({ runM with brst := [((24, 0), 0)] } : M).inReset 24 0 = true ∧ pickReq imgT runM 15 ≠ some (.chan 0) ∧
    (let im := { imgT with moverMap := List.replicate 64 8 }
     let m := runM.setQueue 0 8 [stageX]
     pickReq im m 0 = some (.queue 8) ∧
     (queueStart (noteServed im 0 (.queue 8) m) ((noteServed im 0 (.queue 8) m).queue 0 8)).isSome = true) ∧
    (let d : DescRun := ⟨0, [0, 0, 0, 0], stageX, 0, false, some (some 9), false, false⟩
     let m := dropElem 0 63 9 (runM.setChan 63 { ChanSt.init with descs := [d] })
     chanDrains imgT m 63 = false ∧ (m.chan 63).descs.find? (fun r => r.wb == some (some 9)) = some d) ∧
    (let m := dropElem 0 (4096 + 8) 9 (runM.setQueue 0 8 [{ stageX with flush := 2 }])
     m.queue 0 8 = [{ stageX with flush := 2 }]) ∧
    (let m := (List.range 8).foldl (fun m p => dropPurp p (.flush 0 (4096 + 8) 3) m) (runM.setQueue 0 8 [{ stageX with flush := 2 }])
     m.queue 0 8 = [{ stageX with flush := 2 }] ∧ ({ stageX with flush := 2 } : Xfer).flush = 2) := by
  decide +kernel

/-- A channel whose turn it is. -/
theorem witness_ElementsMove_channel :
    (let m := (chanM 1).setChan 63 { ChanSt.init with
       descs := [⟨0, [0, 0, 0, 0], { stageX with owner := 0, asPart := 0 }, 0, false, none, false, false⟩] }
     let m := { m with bud := { m.bud with inf := [((1, 0), 100000)], rem := [((1, 0), 100000)] } }
     pickReq imgT m 0 = some (.chan 63) ∨ (List.range 16).any (fun e => pickReq imgT m e == some (.chan 63)) = true) := by
  decide +kernel

/-! ### Statements O43 to O49: links and host ports -/

/-- Link 0 in a state, its octet calibrated. -/
def lnkM (st : Nat) (k : LinkSt) : M :=
  let m := ((runM.setFld .LNK_STS_STATE 0 st).setFlag .LNK_OCT_STS_CAL_DONE 0 true).setFlag .LNK_OCT_STS_HOLDS_LINK 0 true
  { m with
    links := mapPut [] (0, 0) k
    bud := { m.bud with inf := [((3, 0), 1000)], rem := [((3, 0), 1000)] } }

/-- A link with credit and keys. -/
def actL : LinkSt := { LinkSt.init with cr := [4, 4, 4, 4], keyLimit := 2 ^ 20 }

/-- Every state a clause asks for, every limit of time just passed and just not. -/
theorem witness_LinkStatesMove :
    isLink imgT 0 = true ∧ lsActive ≠ lsDisabled ∧ lsActive ≠ lsOff ∧ rowB (sRun (lnkM lsActive actL)) (.disable 0 true) = true ∧
    rowB (sRun (lnkM lsDisabled actL)) (.disable 0 false) = true ∧ (lnkM lsDisabled actL).linkState 0 = lsDisabled ∧
    rowB (sRun (lnkM lsWait actL)) (.retryNow 0) = true ∧ octetReady (lnkM lsWait actL) 0 = true ∧
    ((lnkM lsWait actL).link 0).retryAt ≤ (lnkM lsWait actL).now ∧
    (lnkM lsWait { actL with retryAt := 1 }).now < ((lnkM lsWait { actL with retryAt := 1 }).link 0).retryAt ∧
    (lnkM lsWait actL).flag .LNK_CTL_RETRY_NOW 0 = false ∧
    (List.range 8).all (fun k => !((0 : BitVec 8).getLsbD k)) = true ∧
    ({ imgT with links := [⟨95, 1⟩] } : Image).linkWidth 95 = 1 ∧ (1 : BitVec 8).getLsbD 0 = true ∧
    (1 + 2 ^ 24 : Nat) / 2 ^ 24 % 8 = 1 ∧ (5 * 2 ^ 24 + 0x4E4C : Nat) / 2 ^ 24 % 8 = 5 ∧ (5 * 2 ^ 24 + 0x4E4C : Nat) % 65536 = 0x4E4C ∧
    laneState (lnkM lsTrain actL) 7 ≤ 1 ∧
    ((lnkM lsTrain actL).link 0).since + 20 * 2000000 ≤ ({ lnkM lsTrain actL with now := 40000000 } : M).now ∧
    ({ lnkM lsTrain actL with now := 39999999 } : M).now < ((lnkM lsTrain actL).link 0).since + 20 * 2000000 ∧
    crossedNow imgT (lnkM lsTrain { actL with trn := List.replicate 8 { (default : LaneTr) with term := true } }) 0 = true ∧
    crossedNow imgT (lnkM lsTrain actL) 0 = false ∧ noLanes imgT (lnkM lsTrain actL) 0 = false ∧
    noLanes imgT ((List.range 8).foldl (fun m k => m.setFld .LNK_LANE_STATE k 3) (lnkM lsTrain actL)) 0 = true ∧
    (lnkM lsActive { actL with keyLimit := 0 }).linkState 0 = lsActive ∧
    ((lnkM lsActive { actL with keyLimit := 0 }).link 0).keyLimit ≤ (lnkM lsActive actL).fld .LNK_STS_TX_GROUPS 0 ∧
    rowB (sRun (lnkM lsActive actL)) (.rewiden 0) = true ∧ rowB (sRun (lnkM lsActive actL)) (.rekeyNow 0) = true ∧
    2 ^ ({ imgT with rekeyLog2 := 20 } : Image).rekeyLog2 - 2 ^ 16 ≤
      ((lnkM lsActive actL).setFld .LNK_STS_TX_GROUPS 0 (2 ^ 20 - 2 ^ 16)).fld .LNK_STS_TX_GROUPS 0 ∧
    imgT.linkOfLane 7 = some 0 ∧ laneActive ((lnkM lsActive actL).setFlag .LNK_LANE_ACTIVE 7 true) 7 = true ∧
    laneActive (lnkM lsActive actL) 7 = false ∧
    (let m := (lnkM lsWait actL).setFlag .LNK_OCT_STS_CAL_DONE 0 false
     m.flag .LNK_OCT_STS_HOLDS_LINK 0 = true ∧ rowB (sRun m) (.cal 0) = true ∧ m.flag .LNK_OCT_STS_CALIBRATING 0 = false ∧
     m.flag .LNK_OCT_STS_CAL_DONE 0 = false ∧ (m.setFlag .LNK_OCT_STS_CALIBRATING 0 true).flag .LNK_OCT_STS_CALIBRATING 0 = true ∧
     bitAt m.pins.onAbsent 0 = false) := by
  decide +kernel

/-- Groups of n flits that wait for their end. -/
def openL (n : Nat) : LinkSt := { actL with txOpen := List.replicate n ⟨0, 0, 0, false, false, [], []⟩ }

/-- Groups that close and that do not, with and without a rekey that waits. -/
theorem witness_FlitsAreNumbered :
    (lnkM lsActive (openL 15)).linkState 0 = lsActive ∧ ((lnkM lsActive (openL 15)).link 0).txOpen.length = 15 ∧
    ((lnkM lsActive (openL 14)).link 0).txOpen.length ≠ 15 ∧ (lnkM lsHand actL).linkState 0 ≠ lsActive ∧
    ((lnkM lsActive { openL 15 with txSwitch := true }).link 0).txSwitch = true ∧ actL.txSwitch = false := by
  decide +kernel

/-- A frame of each kind at the front of the queue, its credit and budget there; a link that may send nothing. -/
theorem witness_LinksTransmit :
    (([.clear 0 0, .cmd 0 5 false, .go 0 1, .strike 0 (2 ^ 63), .rehearse 0 5 0] : List QFrame).all (fun f =>
      let m := lnkM lsActive { actL with cmdq := [f] }
      m.linkState 0 == lsActive && mayFlit m 0 && decide (0 < txCredit m 0 0) && decide ((m.link 0).cmdq = [f]) &&
      m.covers 3 (fidx 0 0) 1)) = true ∧
    mayFlit (lnkM lsActive { actL with keyLimit := 0 }) 0 = false ∧
    (let r : Rehearsal := ⟨0, 5, 0, 0, .confirmed, false, 1, 64, [], false, 10, none, 0, 0, 0, none, 9, false⟩
     let m := { lnkM lsActive { actL with cmdq := [.go 0 1] } with rhs := [((0, 0), r)] }
     setBits 1 64 = [0] ∧ m.rh 0 0 = some r ∧ edgeCount m < r.start + 224 ∧
     r.start + 224 ≤ edgeCount (m.setFld .TCK_COUNT_COUNT 0 234)) ∧
    (freeTagOf (lnkM lsActive actL) 0) = some 64 ∧ freeRhs (lnkM lsActive actL) 0 = some 0 ∧
    freeRhs { lnkM lsActive actL with rhs := (List.range 64).map (fun h => ((0, h), (⟨0, 5, 0, 0, .out, false, 1, 64, [], false, 0,
      none, 0, 0, 0, none, 9, false⟩ : Rehearsal))) } 0 = none ∧ (lnkM lsActive actL).scripts = [] ∧
    (let c : Cmd := ⟨64, 0, 5, false, 1, 0, 300, 0, false, 0, false, 0, 0, false, false, none, 9, false⟩
     let m := (lnkM lsActive { actL with cmds := [c] }).setScript (scr .running [pc 1 300 0 0 0])
     let x : Xfer := { Xfer.make 0 0 (.cue 0 5 0) [] [] [] 300 300 with elems := [⟨1, 0, 16, .ok, List.replicate 16 7⟩] }
     let m := m.setQueue 0 0 [x]
     findCmd m 0 64 = some c ∧ c.dead = false ∧ c.clear = false ∧ c.sentLast = false ∧ c.opc = 1 ∧ m.covers 3 (fidx 0 0) 1 = true ∧
     cmdXfer m c = some (0, x) ∧ (readyBytes c.sent x.elems).take (if closesGroup m 0 false then 224 else 240) = List.replicate 16 7 ∧ mayFlit m 0 = true ∧
     0 < txCredit m 0 1) ∧
    (let c : Cmd := ⟨64, 0, 5, false, 2, 0, 64, 0, false, 0, false, 0, 0, false, false, none, 9, false⟩
     let m := (lnkM lsActive actL).setScript (scr .running [pc 2 64 0 0 0])
     ((m.script 0 5).map (fun x => x.win.map (fun c => c.cue.op))) = some [2] ∧ groupAt 0 [pc 2 64 0 0 0] = [pc 2 64 0 0 0] ∧
     ((lnkM lsActive { actL with caps := [⟨0, true, true, 1⟩] }).capOf 0).isSome = true ∧ c.opc = 2) ∧
    (let r : Rehearsal := ⟨0, 5, 0, 0, .out, false, 1, 64, [], false, 0, some 100, 0, 0, 0, none, 9, false⟩
     let m := { lnkM lsActive actL with rhs := [((0, 63), r)] }
     m.rh 0 63 = some r ∧ r.st = .out ∧ 0 + 224 ≤ (m.setFld .TCK_COUNT_COUNT 0 224).fld .TCK_COUNT_COUNT 0 ∧
     m.fld .TCK_COUNT_COUNT 0 < 0 + 224 ∧ r.freeAt = some 100 ∧ 100 ≤ (m.setFld .TCK_COUNT_COUNT 0 100).fld .TCK_COUNT_COUNT 0) ∧
    ((lnkM lsActive actL).link 0).nakDue = false ∧
    ((lnkM lsActive actL).link 0).lastTx + 20000 ≤ ({ lnkM lsActive actL with now := 20000 } : M).now ∧
    rowB (sRun (lnkM lsActive actL)) (.ownerMessageSend 0) = true ∧ (lnkM lsActive actL).flag .LNK_OWN_TX_SEND 0 = false ∧
    1 ≤ ((lnkM lsActive actL).setFld .LNK_OWN_TX_LEN 0 57344).fld .LNK_OWN_TX_LEN 0 ∧
    57344 < ((lnkM lsActive actL).setFld .LNK_OWN_TX_LEN 0 57345).fld .LNK_OWN_TX_LEN 0 ∧
    ((lnkM lsActive actL).setFlag .LNK_OWN_TX_SEND 0 true).flag .LNK_OWN_TX_SEND 0 = true ∧ (actL.mgmtq = []) ∧
    (let c : Cmd := ⟨64, 0, 5, false, 2, 0, 64, 0, false, 0, false, 0, 0, false, false, some 7, 9, false⟩
     let m := { lnkM lsActive { actL with cmds := [c] } with now := 10 ^ 12 }
     findCmd m 0 64 = some c ∧ c.dead = false ∧ c.clear = false ∧ 64 ≤ (64 : BitVec 12).toNat ∧ c.timer + c.limit < m.now ∧
     ({ m with now := 9 } : M).now ≤ c.timer + c.limit ∧ c.abortTick = some 7 ∧
     7 + 256 ≤ (m.setFld .TCK_COUNT_COUNT 0 263).fld .TCK_COUNT_COUNT 0) := by
  decide +kernel

/-- A HELLO_R of R238 without certificate and signature. -/
def helloT : List Byte := leBytes 2 1 ++ List.replicate 1717 0

/-- A raw flit of zeros: CRC 0 does not match, and one of which it does. -/
def rawBad : List Byte := List.replicate 252 0 ++ [1, 2, 3, 4]
/-- Its CRC appended. -/
def rawOk (seq : Nat) : List Byte :=
  let b := leBytes 4 (seq * 2 ^ 16) ++ List.replicate 248 0
  b ++ leBytes 4 (crc32 b)

/-- Bad codes, bad checks, the next, a later and an earlier SEQ, a failed tag, and a handshake at each of its steps. -/
theorem witness_LinksReceive :
    (lnkM lsWait actL).linkState 0 ≠ lsActive ∧ (lnkM lsWait actL).linkState 0 ≠ lsHand ∧ (lnkM lsHand actL).linkState 0 = lsHand ∧
    flitCrcOk rawBad = false ∧ flitCrcOk (rawOk 0) = true ∧ flitCrcOk (rawOk 32767) = true ∧ flitCrcOk (rawOk 32768) = true ∧
    leAt (rawOk 0) 2 2 = actL.rxSeq ∧ leAt (rawOk 32767) 2 2 ≠ actL.rxSeq ∧ (leAt (rawOk 32767) 2 2 + 65536 - actL.rxSeq) % 65536 < 32768 ∧
    32768 ≤ (leAt (rawOk 32768) 2 2 + 65536 - actL.rxSeq) % 65536 ∧ actL.rxBad = false ∧
    bitAt (leAt [0x40] 0 1) 7 = actL.kRx ∧ bitAt (leAt [0x40] 0 1) 6 = true ∧
    (lnkM lsHand actL).react = [] ∧
    rowB (sRun (lnkM lsActive actL)) (.rxAck 0) = true ∧
    ((irqSync imgT 8 0x980 ((lnkM lsActive actL).setFlag .LNK_OWN_RX_RX_FULL 0 false)).link 0).ownHeld = [] := by
  decide +kernel

/-- A handshake at step 2 with a sound HELLO_R, and at step 4 with a FINISH, under any verdicts. -/
theorem witness_LinksReceive_handshake :
    (∃ m : M, m.linkState 0 = lsHand ∧ (m.link 0).hs = 2 ∧ helloRSound (m.link 0).helloR = true ∧ m.flag .SEC_STS_DS_OK 0 = true ∧
      m.flag .SEC_STS_CERT_MISMATCH 0 = false ∧ (m.link 0).share = some 7 ∧ m.sec.derived = some 0) ∧
    (lnkM lsHand actL).flag .SEC_STS_DS_OK 0 = false ∧
    (let m := lnkM lsHand { actL with hs := 4, fin := List.replicate 48 0 }
     m.linkState 0 = lsHand ∧ (m.link 0).hs = 4 ∧ (m.link 0).fin.length = 48 ∧ m.react = []) ∧
    (∀ d : Bool, (∃ v, pathsOf v d = ⟨true, true⟩) ∧ (∃ v, pathsOf v d = ⟨false, false⟩) ∧ (∃ v, (pathsOf v d).a ≠ (pathsOf v d).b)) := by
  refine ⟨⟨{ (lnkM lsHand { actL with hs := 2, helloR := helloT, share := some 7 }).setFlag .SEC_STS_DS_OK 0 true with
    sec := { SecSt.init with derived := some 0 } }, by decide +kernel⟩, by decide +kernel, by decide +kernel, fun d => ?_⟩
  exact ⟨⟨⟨d, d⟩, by cases d <;> rfl⟩, ⟨⟨!d, !d⟩, by cases d <;> rfl⟩, ⟨⟨d, !d⟩, by cases d <;> decide⟩⟩

/-- A rehearsal at the front of the queue, its script's speculative work done, a number free. -/
theorem witness_LinksTransmit_rehearse :
    (let x := { scr .running [{ pc 2 64 0 0 0 with rq := true, runits := 1 }] with thread := some 4 }
     let m := (lnkM lsActive { actL with cmdq := [.rehearse 0 5 0] }).setScript x
     let m := m.scripts.foldl (fun m e => specWork imgT e.1.1 e.1.2 m) m
     m.linkState 0 = lsActive ∧ mayFlit m 0 = true ∧ 0 < txCredit m 0 0 ∧ (m.link 0).cmdq = [.rehearse 0 5 0] ∧
     m.covers 3 (fidx 0 0) 1 = true ∧ (m.script 0 5).isSome = true ∧ freeRhs m 0 = some 0 ∧
     (m.script 0 5).map (fun x => (groupAt 0 x.win).isEmpty) = some false) := by
  decide +kernel

/-- Partition 0 released, ready and up, or not. -/
def hostM (up ready drains : Bool) : M :=
  let m := (runM.setFlag .HPT_STS_DRAINING (pinst 0 0) drains).setHost 0 { HostSt.init with up := up, mse := true, bme := true }
  (m.setFld .IMG_PORT_CTL_RELEASE 0 1).setFld .IMG_PORT_CTL_READY 0 (if ready then 1 else 0)

theorem witness_HostConfiguration :
    imgT.enabled 0 = true ∧ ((hostM false true false).hostOf 0).up = false ∧ ((hostM true false false).hostOf 0).up = true ∧
    isReady (hostM true false false) 0 = false ∧ isReady (hostM true true false) 0 = true ∧
    (hostM true true true).flag .HPT_STS_DRAINING (pinst 0 0) = true ∧ (hostM true true false).flag .HPT_STS_DRAINING (pinst 0 0) = false ∧
    (3 : BitVec 12).toNat / 4 = 0 ∧ (11 : BitVec 12).toNat / 4 = 2 ∧ (0x10 : BitVec 12).toNat / 4 = 4 ∧ (0x14 : BitVec 12).toNat / 4 = 5 ∧
    (0x23 : BitVec 12).toNat / 4 = 8 ∧ (0x2F : BitVec 12).toNat / 4 = 11 ∧ (0x30 : BitVec 12).toNat / 4 = 12 ∧
    (0x27 : BitVec 12).toNat / 4 = 9 ∧ portTerm imgT (hostM false true false) 0 = true ∧
    portTerm imgT runM 0 = false ∧ (hostM false true false).react = [] ∧ imgT.partN 0 (·.maxRate) = 5 ∧
    ({ imgT with parts := [{ part0 with maxRate := 6, maxWidth := 16 }] } : Image).partN 0 (·.maxWidth) ≤ 16 ∧
    (16 ∈ [1, 2, 4, 8, 16]) ∧ ((hostM false true false).hostOf 0).waitq = [] ∧ ((hostM false true false).hostOf 0).msgq = [] := by
  decide +kernel

theorem witness_HostPowerStates :
    imgT.enabled 0 = true ∧ ((hostM true true false).hostOf 0).up = true ∧ isReady (hostM true true false) 0 = true ∧
    isReady (hostM true false false) 0 = false ∧ ((hostM false true false).hostOf 0).up = false ∧
    (hostM true true false).flag .HPT_STS_D3HOT (pinst 0 0) = false ∧
    ((hostM true true false).setFlag .HPT_STS_D3HOT (pinst 0 0) true).flag .HPT_STS_D3HOT (pinst 0 0) = true ∧
    ((hostM true true false).hostOf 0).waitq = [] ∧ ((hostM true true false).hostOf 0).d3q = [] ∧ HostSt.init.ltrEn = false ∧
    (let m := { (hostM true true false).setHost 0 { HostSt.init with up := true, pmeStatus := true, pmeEn := true, pmeAt := 5 } with
       now := 190000005 }
     (m.hostOf 0).pmeAt + 190000000 ≤ m.now ∧ ({ m with now := 190000004 } : M).now < (m.hostOf 0).pmeAt + 190000000) ∧
    (let m := { (hostM true true false).setHost 0 { HostSt.init with up := true, aspmL1 := true } with now := 32000 }
     (m.hostOf 0).aspmL1 = true ∧ m.fld .HPT_STS_LSTATE (pinst 0 0) = 0 ∧ portQuiet m 0 = true ∧ (m.hostOf 0).lastTlp + 32000 ≤ m.now ∧
     ({ m with now := 31999 } : M).now < (m.hostOf 0).lastTlp + 32000 ∧
     (m.setFld .HPT_STS_LSTATE (pinst 0 0) 3).fld .HPT_STS_LSTATE (pinst 0 0) ≠ 0) ∧
    (let m := (hostM true true false).setHost 0 { HostSt.init with up := true, bme := true, msgq := [⟨0, 1, true, 0⟩] }
     tlpWaits m 0 = true ∧ tlpLate { m with now := 64 } 0 = true ∧ tlpLate { m with now := 63 } 0 = false ∧ (m.setFld .HPT_STS_WIDTH (pinst 0 0) 16).fld .HPT_STS_CUR_WIDTH (pinst 0 0) <
       (m.setFld .HPT_STS_WIDTH (pinst 0 0) 16).fld .HPT_STS_WIDTH (pinst 0 0)) ∧
    (16 : Nat) ≤ (runM.setFld .HPT_STS_WIDTH (pinst 0 0) 16).fld .HPT_STS_WIDTH (pinst 0 0) ∧
    (runM.setFlag .HPT_STS_FLIT (pinst 0 0) true).flag .HPT_STS_FLIT (pinst 0 0) = true := by
  decide +kernel

theorem witness_PartitionResets :
    imgT.enabled 0 = true ∧ ((hostM true true false).hostOf 0).up = true ∧ isReady (hostM true true false) 0 = true ∧
    isReady (hostM true false false) 0 = false ∧ (hostM true true true).flag .HPT_STS_DRAINING (pinst 0 0) = true ∧
    (hostM true true false).flag .HPT_STS_DRAINING (pinst 0 0) = false ∧ imgT.partOfPort 0 = some 0 ∧
    bitAt (hostM true true false).pins.perst 0 = false ∧ bitAt (setPerst 0 true (hostM true true false)).pins.perst 0 = true ∧
    imgT.partOfPort 7 = none ∧ bitAt (setPerst 7 true runM).pins.perst 7 = true ∧ bitAt runM.pins.perst 7 = false ∧
    drainBusy imgT (hostM true true true) 0 = false ∧ ((hostM true true true).hostOf 0).drainOwn = false ∧
    (hostM true true true).sec.erase = [] ∧
    drainBusy imgT ((hostM true true true).setQueue 0 0 [{ stageX with elems := [⟨0, 0, 16, .reading, []⟩] }]) 0 = true ∧
    (let n : NP := ⟨0, .load 0, 3, 0, 8, 100000, [], none⟩
     let h := { HostSt.init with up := true, quar := [(1023, 7)], np := [n] }
     let m := (hostM true true false).setHost 0 h
     h.quar.any (fun q => q.1 == 1023) = true ∧ h.quar.any (fun q => q.1 == 0) = false ∧
     npOf m 0 0 = some n ∧ n.purp.joint = true ∧ (Purp.lost).joint = false ∧ Purp.isDead m n.purp = false ∧ Purp.isDead m (.dead 5) = true ∧
     n.issued + n.cto ≤ ({ m with now := 100003 } : M).now ∧ ({ m with now := 100002 } : M).now < n.issued + n.cto ∧
     h.quar.find? (fun q => q.1 == 1023) = some (1023, 7) ∧
     (7 : Nat) ≤ ({ m with now := 7 } : M).now ∧ ({ m with now := 6 } : M).now < 7) := by
  decide +kernel

/-- An element of two MemRd: the first completion leaves one to wait for, the second none. -/
theorem witness_PartitionResets_joint :
    (let n : NP := ⟨0, .elem 0 4104 1, 3, 0, 256, 100000, [], none⟩
     let k : NP := ⟨1, .elem 0 4104 1, 3, 256, 256, 100000, [], none⟩
     let wait := fun (l : List NP) => ((l.map (fun k => if k.tag = 0 ∧ k.res.isNone then { k with res := some (.data []) } else k)).filter
       (fun j => j.purp == n.purp)).any (fun k => k.res.isNone)
     n.purp.joint = true ∧ wait [n, k] = true ∧ wait [n, { k with res := some (.data []) }] = false ∧
     npOf (runM.setHost 0 { HostSt.init with np := [n, k] }) 0 0 = some n ∧
     (runM.hostOf 0).waitq = []) := by
  decide +kernel

/-! ### Statements O50 to O60: security, local memory, management, the block as a whole -/

/-- A message of a type with a DIE field and one payload byte. -/
def msgT (ct die pay : Nat) : List Byte :=
  leBytes 6 0 ++ leBytes 2 ct ++ leBytes 8 0 ++ leBytes 16 die ++ List.replicate 32 0 ++ leBytes 1 pay ++ [0]

/-- A command of source 0 at the front. -/
def secM (b : List Byte) : M := { runM with sec := { runM.sec with cmds := [(0, b)], derived := some 0 } }

/-- A RESET_PARTITION with its ERASE byte. -/
def msgE (e : Byte) : List Byte := (msgT 0x101 0 0).dropLast ++ [e]

/-- Whatever the four checks decide, their paths can give any results. -/
theorem witness_OwnerCommands_paths (d n k g : Bool) (vd vn vk vg : Verdict) :
    ∃ x : CmdPaths, pathsOf x.die d = vd ∧ pathsOf x.nonce n = vn ∧ pathsOf x.key k = vk ∧ pathsOf x.sig g = vg :=
  ⟨⟨⟨pathsOf vd d, pathsOf vn n⟩, ⟨pathsOf vk k, pathsOf vg g⟩⟩, by simp⟩

/-- Each type at the front, with every word of OWNER_HASH sound and with a dead one; every ERASE byte; SUBMIT with BUSY and
without; FIRMWARE running, to be finished, timed out or not. -/
theorem witness_OwnerCommands :
    (([0x101, 0x102, 0x103, 0x104, 0x105, 1, 2] : List Nat).all (fun ct =>
      let m := secM (msgT ct 0 0)
      m.inReset 3 0 == false && decide (m.sec.cmds = [(0, msgT ct 0 0)]) && m.sec.fw.isNone && ctypeOf (msgT ct 0 0) == ct &&
      (voteReads imgT (hashWords []) m).1 && !(voteReads imgT (hashWords []) { m with voteDead := [.fuse 0] }).1)) = true ∧
    imgT.enabled (leAt (msgE 0) 0x40 1) = true ∧ ctypeOf (msgE 2) = 0x101 ∧ leAt (msgE 0) 0x41 1 = 0 ∧ leAt (msgE 1) 0x41 1 = 1 ∧
    leAt (msgE 2) 0x41 1 = 2 ∧ (endCmd imgT 1 [] (countAccepted (secM (msgE 1)))).sec.erase.contains (leAt (msgE 1) 0x40 1) = false ∧
    leAt (msgT 0x103 0 64) 0x40 1 ≤ 64 ∧ leAt (msgT 0x103 0 64) 0x40 1 ≤ ({ imgT with svn := 64 } : Image).svn ∧
    imgT.svn < leAt (msgT 0x103 0 255) 0x40 1 ∧
    (voteReads imgT (hashWords []) ((secM (msgT 0x105 0 0)).setFlag .SEC_FWCMD_ARMED 0 true)).2.flag .SEC_FWCMD_ARMED 0 = true ∧
    (voteReads imgT (hashWords []) (secM (msgT 0x105 0 0))).2.flag .SEC_FWCMD_ARMED 0 = false ∧
    imgT.partOfPort 0 = some 0 ∧ rowB (sRun runM) (.submit (.port 0) 1) = true ∧ runM.fld .OCMD_STS_BUSY 0 = 0 ∧
    (runM.setFld .OCMD_STS_BUSY 0 1).fld .OCMD_STS_BUSY 0 ≠ 0 ∧
    rowB (sRun runM) (.submit .wings 1) = true ∧ runM.fld .SEC_WSTS_BUSY 0 = 0 ∧
    (runM.setFld .SEC_WSTS_BUSY 0 1).fld .SEC_WSTS_BUSY 0 ≠ 0 ∧
    (let m := { runM with sec := { runM.sec with fw := some (7, 3) }, now := 2000000003 }
     rowB (sRun m) (.finishFirmwareCommand 0x8000000) = true ∧ m.sec.fw = some (7, 3) ∧ (0x8000000 : Nat).testBit 27 = true ∧
     (0x8000000 : Nat).testBit 28 = false ∧ 3 + 2000000000 ≤ m.now ∧ ({ m with now := 2000000002 } : M).now < 3 + 2000000000) ∧
    ((secM []).setFlag .SEC_STS_DS_OK 0 true).flag .SEC_STS_DS_OK 0 = true ∧ (secM []).flag .SEC_STS_DS_OK 0 = false ∧
    (secM []).sec.derived = some 0 ∧ leAt (msgT 2 0 0) 0x40 1 = 0 ∧ leAt (msgT 2 0 1) 0x40 1 = 1 ∧ 2 ≤ leAt (msgT 2 0 2) 0x40 1 ∧
    (voteReads imgT ((List.range 6).map (fun i => (VWord.rootHash (Fin.ofNat 6 i), Vote.agree)) ++ hashWords []) (secM [])).1 = true ∧
    (voteReads imgT ((List.range 6).map (fun i => (VWord.rootHash (Fin.ofNat 6 i), Vote.agree)) ++ hashWords []) (secM [])).2.sec.derived
      = some 0 := by
  decide +kernel

theorem witness_SecurityEvents :
    imgT.partOfPort 7 = none ∧ (ctypeOf (msgT 1 0 0) = 1 ∨ ctypeOf (msgT 2 0 0) = 2) ∧ (List.replicate 4095 (0 : Byte)).length < 4096 ∧
    (let m := { runM with sec := { runM.sec with chipResetAt := some 2000000 }, now := 2000000 }
     m.sec.chipResetAt = some 2000000 ∧ 2000000 ≤ m.now ∧ ({ m with now := 1999999 } : M).now < 2000000) ∧
    runM.sec.chipResetAt = none ∧ runM.voteDead = [] ∧ runM.upset = [] ∧ runM.sec.sweepDue = false ∧
    ({ runM with sec := { runM.sec with sweepDue := true } } : M).sec.sweepDue = true ∧ runM.boot.entropy = true ∧
    ({ runM with boot := { runM.boot with entropy := false } } : M).boot.entropy = false := by
  decide +kernel

/-- A line of a trained channel with its tag in the tag cache. -/
def memM (tag : Nat) : M :=
  let m := runM.setFlag .MEM_CH_STS_TRAINED 0 true
  { m with mem := { m.mem with lines := [((0, 0), encodeLine 0)], tags := [((0, tagLine imgT 0 0), BitVec.ofNat 512 tag)] } }

theorem witness_MemoryRuns_read (e : BitVec 640) (he : decodeBurst (encodeLine 0 ^^^ e) = .good 0) :
    ∃ t d, lineTurn (memM t) 0 8 = true ∧ trained (memM t) 0 = true ∧
      readLine imgT (lineServed 0 8 (memM t)) 0 0 0 8 e 0 = (.data d, 0) := by
  refine ⟨tagFor 0 0 0, (Config.xts 0 0).symm 0, rfl, by decide +kernel, ?_⟩
  have ht : tagFor 0 0 0 < 2 ^ 64 := by
    show (if (Config.cmac 0 0 0).toNat = 0 then 1 else (Config.cmac 0 0 0).toNat) < 2 ^ 64
    have := (Config.cmac 0 0 0).isLt
    split <;> omega
  have hl : mapFind (lineServed 0 8 (memM (tagFor 0 0 0))).mem.lines (0, 0) = some (encodeLine 0) := rfl
  have hv : tagView imgT (lineServed 0 8 (memM (tagFor 0 0 0))) 0 0 0 = (some (BitVec.ofNat 512 (tagFor 0 0 0)), false) := by
    unfold tagView
    have : mapFind (lineServed 0 8 (memM (tagFor 0 0 0))).mem.tags (0, tagLine imgT 0 0) = some (BitVec.ofNat 512 (tagFor 0 0 0)) := by
      simp [memM, lineServed, mapFind]
    rw [this]
  have hk : keyOf (lineServed 0 8 (memM (tagFor 0 0 0))) 8 = 0 := rfl
  unfold readLine
  rw [hl]
  simp only [he, hv, hk, Dec.data?, Dec.corrected, tagCheck, bitsAt]
  have : (BitVec.ofNat 512 (tagFor 0 0 0)).toNat = tagFor 0 0 0 := by
    rw [BitVec.toNat_ofNat, Nat.mod_eq_of_lt (lt_trans ht (by decide +kernel))]
  rw [if_pos (by rw [this]; exact Nat.mod_eq_of_lt ht)]
  rfl

/-- The lines of every kind of answer, training, the bucket at its edge, a sound scrub and a refused one. -/
theorem witness_MemoryRuns :
    decodeBurst (encodeLine 0 ^^^ 0) = .good 0 ∧ decodeBurst (poison ^^^ 0) = .poison ∧
    rowB (sRun runM) (.train 3) = true ∧ (runM.setFlag .MEM_CH_STS_PRESENT 3 true).flag .MEM_CH_STS_PRESENT 3 = true ∧
    runM.flag .MEM_CH_STS_TRAINING 3 = false ∧ (runM.setFlag .MEM_CH_STS_TRAINING 3 true).flag .MEM_CH_STS_TRAINING 3 = true ∧
    runM.react = [] ∧ runM.inReset 29 0 = false ∧ localAddr imgT 0 0 = some 0 ∧ regionOf imgT 0 = some 8 ∧
    trained (memM 0) 0 = true ∧ trained runM 0 = false ∧
    (readLine imgT (lineServed 0 8 { memM 0 with mem := { (memM 0).mem with lines := [((0, 0), poison)] } }) 0 0 0 8 0 0).1 = .poison ∧
    (List.replicate 64 (0 : Byte)).length = 64 ∧ 63 + ([0] : List Byte).length ≤ 64 ∧
    (mapFind (memM 5).mem.tags (0, tagLine imgT 0 0)).isSome = true ∧
    lineTurn { runM with mem := { runM.mem with pend := [((0, 1), 1)] } } 0 8 = false ∧
    lineTurn { runM with mem := { runM.mem with pend := [((0, 1), 1)], since := [((0, 0), 3)] } } 0 8 = true ∧
    lineTurn { runM with mem := { runM.mem with pend := [((0, 1), 1)], turn := [((0, 0), 0)] } } 0 2 = false ∧
    (let m := { runM.setFld .TCK_COUNT_COUNT 0 (2 ^ runM.fld .MEM_BUCKET_LEAK_LOG2 0 - 1) with
       now := 2, tick := { runM.tick with on := true, edge := 0, phase := 2 } }
     let t := m.fld .TCK_COUNT_COUNT 0 + 1
     m.tick.on = true ∧ m.now = m.tick.edge + 2 ∧ (m.tick.phase = 2 ∨ m.tick.phase = 3) ∧
     t % 2 ^ m.fld .MEM_BUCKET_LEAK_LOG2 0 = 0 ∧ mapGet 0 m.mem.leakAt (0, 0) ≠ t) ∧ runM.tick.on = false ∧
    rowB (sRun runM) (.memBucketWrite 0 0) = true ∧ rowB (sRun runM) (.scrubStart 0 0x1901) = true ∧
    (0x1901 : Nat) % 2 = 1 ∧ (0x1901 : Nat) / 2 % 2 = 0 ∧ (0x1901 : Nat) / 8 % 4 = 0 ∧ (0x1901 : Nat) / 2 ^ 8 % 32 = 25 ∧
    (let m := memM 0
     m.flag .MEM_SCRUB_CTL_BUSY 0 = false ∧ trained m 0 = true ∧ m.fld .MEM_SCRUB_RANGE_FIRST 0 ≤ m.fld .MEM_SCRUB_RANGE_LAST 0 ∧
     m.fld .MEM_SCRUB_RANGE_LAST 0 < capLines imgT 0) ∧
    rowB (sRun runM) (.scrubStop 0) = true ∧ (runM.setFlag .MEM_SCRUB_CTL_BUSY 0 true).flag .MEM_SCRUB_CTL_BUSY 0 = true ∧
    (([(0, 1), (0, 0)] : List (Nat × Nat)).all (fun x =>
      let m := ({ memM 0 with mem := { (memM 0).mem with scrub := [((0, 0), x)] } } : M).setFld .MEM_SCRUB_CTL_RATE 0 25
      m.inReset 29 0 == false && mapFind m.mem.scrub (0, 0) == some x && scrubMay m 0 2 && lineTurn m 0 8 &&
      decide (0 + m.fld .MEM_SCRUB_SUM_A_LINES 0 = 0) && m.flag .MEM_SCRUB_SUM_C_FAIL_VALID 0 == false &&
      mapFind m.mem.lines (0, 0 + m.fld .MEM_SCRUB_SUM_A_LINES 0) == some (encodeLine 0))) = true ∧
    scrubMay ((memM 0).setFld .MEM_SCRUB_CTL_RATE 0 0) 0 1 = false ∧ mapFind runM.mem.lines (0, 0) = none := by
  decide +kernel

/-- Errors that one chip gives. -/
theorem witness_SymbolCodeCorrects : ∃ x : Fin 8 → Fin 256, ∃ j, x j ≠ 0 := ⟨fun _ => 255, 7, by decide⟩

/-- A target 1 ms after the release of PORST_N and one just before, with and without a dynamic address. -/
theorem witness_ManagementBus :
    (let m : M := { runM with boot := { runM.boot with porAt := 7 }, now := 2000007 }
     m.boot.phase ≠ .porst ∧ m.boot.porAt + 2000000 ≤ m.now ∧ ¬ m.boot.porAt + 2000000 ≤ m.now - 1) ∧
    runM.mgt.i3cAddr = none ∧ ({ runM with mgt := { runM.mgt with i3cAddr := some 8 } } : M).mgt.i3cAddr ≠ none ∧
    ([0xF8, 0xFF, 0xFF, 0xFF] : List Byte).length = 4 ∧ leVal [0xF8, 0xFF, 0xFF, 0xFF] % 8 = 0 ∧ ([] : List Byte).length ≠ 4 ∧
    (0 : BitVec 7) ≠ 0x34 ∧ (regAt .owner runM.mgt.i3cOff).isSome = true ∧ runM.mgt.i3cOff < 2 ^ 32 := by
  decide +kernel

/-! ### The balls (R384 to R388, R402) -/

/-- The spec's examples: L24_TXP is B37, L24_RXP is G37, HP5_TX9_P is AJ69, M1A_DQS_T3 is T58, M1A_DQS_C3 is T59. -/
theorem test_balls :
    ballAt 2 37 = .lane false 24 false ∧ ballAt 2 38 = .lane false 24 true ∧ ballAt 7 37 = .lane true 24 false ∧
    rowLetters 28 = ['A', 'J'] ∧ ballAt 28 69 = .host false 5 9 false ∧ ballAt 29 69 = .host false 5 9 true ∧
    rowLetters 15 = ['T'] ∧ ballAt 15 58 = .dqs 1 false 3 false ∧ ballAt 15 59 = .dqs 1 false 3 true ∧
    rowLetters 72 = ['C', 'T'] ∧ rowLetters 37 = ['A', 'W'] := by decide +kernel

/-- How many balls of the array satisfy a test. -/
def countBalls (f : Ball → Bool) : Nat :=
  ((List.range 72).map (fun r => ((List.range 72).filter (fun c => f (ballAt (r + 1) (c + 1)))).length)).sum

/-- The counts of R388: 2,499 VSS, the rails, 1,617 signals. -/
theorem test_ball_counts :
    countBalls (fun b => decide (b = .vss)) = 2499 ∧
    [Rail.core, .sram, .ln075, .ln090, .ln120, .hp075, .hp120, .ddr, .io].map (fun r => countBalls (fun b => decide (b = .rail r))) =
      [360, 240, 108, 96, 48, 96, 56, 56, 8] := by decide +kernel

/-- R402: the boundary register covers 670 pins. -/
theorem test_chain : chain.length = 670 := by decide +kernel

/-- A token with a serial and a challenge, every scope, before its key and signature. -/
def tokT (serial chal rest : List Byte) : List Byte := [0x54, 0x44, 0x42, 0x47, 1, 0, 15, 0] ++ (serial ++ (chal ++ rest))

/-- Every scope held and not held, factory test mode and not, a halted and a running core, a token refused for its length. -/
theorem witness_JtagRuns :
    ([0, 1, 2, 3].all (fun n => scopeOk runM n == false &&
      scopeOk ((runM.setFlag .SEC_STS_DEBUG_ACTIVE 0 true).setFld .SEC_STS_DEBUG_SCOPE 0 (2 ^ n)) n)) = true ∧
    runM.boot.phase ≠ .porst ∧ (List.replicate 2010 true).length = 2010 ∧ ((coreM 0 []).cpu (wng 0)).running = true ∧ (runM.cpu (wng 0)).running = false ∧
    (({ runM with cpus := [((1, 3), { Cpu.init with dbgHalt := true })] } : M).cpu (wng 3)).dbgHalt = true ∧
    (runM.cpu (wng 3)).dbgHalt = false ∧ rowB (sRun runM) (.trace .ok) = true ∧
    rowB (sRun runM) (.reg (BitVec.ofNat 96 (2 ^ 91))) = true ∧ (BitVec.ofNat 96 (2 ^ 91)).toNat.testBit 91 = true ∧
    runM.inReset 3 0 = false ∧ ({ runM with brst := [((3, 0), 0)] } : M).inReset 3 0 = true ∧
    (voteReads imgT (tokenWords []) runM).1 = true ∧ (voteReads imgT (tokenWords []) { runM with voteDead := [.fuse 8] }).1 = false ∧
    factoryMode runM = false ∧ factoryMode (runM.setFlag .SEC_STS_FACTORY_OPEN 0 true) = true ∧
    (let d : BitVec 24 := BitVec.ofNat 24 (2 ^ 13 + 2 + 4 * 2 + 16 * 63)
     d.toNat.testBit 13 = true ∧ d.toNat % 4 < 3 ∧ d.toNat / 4 % 4 = 2 ∧ d.toNat / 16 % 512 < 64) ∧ runM.react = [] := by
  decide +kernel

/-- Whatever the five checks of a token decide, their paths can give any results. -/
theorem witness_JtagRuns_token (m : M) (b : List Byte) (u0 u1 u2 u3 u4 : Verdict) : ∃ (v : Verdict) (x : CmdPaths),
    [pathsOf v (tokenForm m b), pathsOf x.die (tokenDie b), pathsOf x.nonce (tokenNonce m b), pathsOf x.key (tokenKey m b),
      pathsOf x.sig (tokenSig b)] = [u0, u1, u2, u3, u4] :=
  ⟨pathsOf u0 (tokenForm m b),
    ⟨⟨pathsOf u1 (tokenDie b), pathsOf u2 (tokenNonce m b)⟩, ⟨pathsOf u3 (tokenKey m b), pathsOf u4 (tokenSig b)⟩⟩,
    by simp⟩

/-- A token that passes every check of R300 before its signature, of any die that has a serial. -/
theorem test_token_checks (h0 : serialNat ≠ 0) : ∃ (m : M) (b : List Byte),
    tokenForm m b = true ∧ tokenDie b = true ∧ tokenNonce m b = true ∧ tokenKey m b = true := by
  obtain ⟨z, hz⟩ : ∃ z : List Byte, z.length = 7219 := ⟨List.replicate 7219 0, List.length_replicate ..⟩
  let b := tokT (leBytes 16 serialNat) (leBytes 32 (Config.draw 0).toNat) z
  let m : M := { runM with sec := { runM.sec with
    chalOwed := false, challenge := 0, sensed := { FuseCopy.blank with hash := Config.sha384 (bytesAt b 0x38 2592) } } }
  have h1 : leAt b 8 16 = serialNat :=
    leAt_mid [0x54, 0x44, 0x42, 0x47, 1, 0, 15, 0] _ 16 serialNat (by have := Config.dieSerial.isLt; unfold serialNat; omega)
  have h2 : leAt b 0x18 32 = (Config.draw 0).toNat := by
    have := leAt_mid ([0x54, 0x44, 0x42, 0x47, 1, 0, 15, 0] ++ leBytes 16 serialNat) z 32 (Config.draw 0).toNat
      (by have := (Config.draw 0).isLt; omega)
    rw [List.append_assoc] at this
    exact this
  have h3 : b.length = 7275 := by simp [b, tokT, hz]
  have h7 : m.flag .SEC_STS_DEBUG_DISABLE 0 = false := rfl
  refine ⟨m, b, ?_, ?_, ?_, decide_eq_true rfl⟩
  · rw [tokenForm, h3, h7]
    rfl
  · rw [tokenDie, h1]
    simpa using h0
  · rw [tokenNonce, h2]
    simp [m, challengeVal]

/-! ### The block as a whole -/

/-- A queue of two commands, an empty one, and a loom that has nothing to do. -/
theorem witness_StepTakesTheFront : ({ State.reset with pending := [.bypass, .commit 0] } : State).pending = .bypass :: [.commit 0] ∧
    State.reset.pending = [] ∧ State.reset.m.tick.on = false ∧ State.reset.m.scripts = [] ∧ State.reset.m.irq.prov = [] ∧
    State.reset.m.irq.maskq = [] ∧ State.reset.m.irq.sig = [] ∧ State.reset.m.react = [] := by decide +kernel

/-- A step from a state with a blown fuse, of a command that blows none. -/
theorem witness_FusesOnlyBlow : ∃ s t : State, step s = .next t ∧ (s.fuses.copy 2).bit .svn 63 = true ∧ s.pending.head? = some .bypass :=
  ⟨{ State.reset with fuses := Fuses.blank.blow 2 .svn 63, pending := [.bypass] }, _, rfl, by decide +kernel, rfl⟩

theorem witness_OnlyVerifiedImages : ∃ s t : State, step s = .next t ∧ s.pending = [.bypass] ∧ t.img = imgT :=
  ⟨{ State.reset with img := imgT, pending := [.bypass] }, _, rfl, rfl, rfl⟩

/-! ### Further clauses, each at the boundary of its ranges -/

/-- A register in reset that a core loads from: the load waits. -/
theorem witness_LoadsElsewhere_held :
    (let s := sRun { coreM (wM 0x10 3 1 3 3 0) [(1, regOff .owner .TRC_CNT 0)] with brst := [((28, 0), 0)] }
     let i := cI (wM 0x10 3 1 3 3 0)
     mayB s i .ld = true ∧ addrOf s i + 8 ≤ 0x8000000 ∧ readHeld s.inForce (afterIssue s i) .owner (addrOf s i) 8 = true) := by
  decide +kernel

/-- A routine whose RFLAGS keep it from CALLR, no idle thread, and no free call number. -/
theorem witness_PrivilegedRun_callr :
    (let q : Rout := ⟨0, 1, 1, 4, List.replicate 64 0, 0x1000⟩
     let im : Image := { imgT with spindleMap := [8], routines := [{ q with rflags := 0 }] }
     (im.routine 0).map (fun q => bitAt q.rflags 0) = some false ∧ (imgT.routine 0).map (fun q => bitAt q.rflags 0) = some true ∧
     idleOwnerThread imgT (coreM 0 []) = none ∧
     (List.range 16).all (fun n => bitAt ({ Cpu.init with calls := 65535 } : Cpu).calls n) = true) := by
  decide +kernel

/-- A part that RESET_N holds, one that a reaction holds, and its release. -/
theorem witness_ResetsOfThePart_release :
    (bootM (fun b => { b with phase := .rstLow })).boot.relAt = none ∧
    (bootM (fun b => { b with phase := .rstLow, relAt := some 2000 })).boot.relAt = some 2000 := by
  decide +kernel

/-- The first slot, before the fuses are sensed. -/
theorem witness_SlotsAreTried_sense :
    (let m := bootM (fun b => { b with phase := .read })
     m.react = [] ∧ m.boot.phase = .read ∧ m.boot.sensed = false ∧ Undisturbed m) ∧ imgReadCheck hdrOk = none ∧
    (votedFuses State.reset.fuses).set = false := by
  exact ⟨⟨rfl, rfl, rfl, rfl, rfl, rfl, rfl⟩, by decide +kernel, by decide +kernel⟩

/-- Commands that are refused, each for one reason, at the borders of a sector, a page and the reserve. -/
theorem witness_FlashAndChecks_refused :
    (0x1FF0100 : Nat) % 65536 ≠ 0 ∧ (0x1FFFF01 : Nat) % 256 ≠ 0 ∧ (0x1FFFF00 : Nat) / 0x1000000 ≠ runM.fld .IMG_BOOT_STS_SLOT 0 ∧
    imgT.ownerStageBytes < 65535 * 256 + 256 ∧ (runM.setFlag .IMG_FLASH_STS_BUSY 0 true).flag .IMG_FLASH_STS_BUSY 0 = true ∧
    (runM.setFlag .IMG_CHECK_BUSY 0 true).flag .IMG_CHECK_BUSY 0 = true ∧ imgReadCheck hdrOk = none ∧ imgReadCheck [] = some resBadMagic ∧
    ({ runM with sec := { runM.sec with sensed := { runM.sec.sensed with set := true } } } : M).sec.sensed.set = true := by
  decide +kernel

/-- Halves of a register, of one that needs 8 bytes and of one that pops, and an access of 16 bytes. -/
theorem witness_RegisterAccesses_halves :
    ([(Reg.TCK_COUNT, false, false), (.MOV_CTL, true, false), (.TRC_GET, false, true)] : List (Reg × Bool × Bool)).all (fun x =>
      let off := regOff .owner x.1 0 + 4
      off % 4 == 0 && decide (off + 4 ≤ viewSize imgT .owner) && !(inWindow .owner off 4) && !(inFlash .owner off) && !(inMsix .owner off) &&
      !(inCmdBuf .owner off) && decide ((accReg imgT .owner off).map (fun y => (y.1.reg, y.2)) = some (x.1, 0, 0)) &&
      needs8 x.1 == x.2.1 && popReg x.1 == x.2.2 && !(accessHeld runM x.1 0)) = true ∧
    regLive imgT .owner .TCK_COUNT 0 = true ∧ regLive imgT .owner .MOV_CTL 63 = true ∧ regLive imgT .owner .TRC_GET 0 = true ∧
    regOff .owner .TCK_COUNT 0 + 8 + 8 ≤ viewSize imgT .owner ∧ readHeld imgT runM .owner (regOff .owner .TCK_COUNT 0) (8 + 8) = false := by
  decide +kernel

/-- Hush in force, a link in WAIT; a fast and a normal source of one provisional commit of which one remains. -/
theorem witness_RecheckAndMasks_kept :
    (runM.setFlag .PWR_CTL_HUSH_ACTIVE 0 true).flag .PWR_CTL_HUSH_ACTIVE 0 = true ∧ runM.linkLive 95 = false ∧
    runM.linkState 95 ≠ lsTrain ∧ runM.linkState 95 ≠ lsHand ∧
    (let m := { irqM true true with now := 108
                                    irq := { (irqM true true).irq with
                                      eff := [((1000, 1), 0), ((1002, 0), 1)]
                                      prov := [⟨0, 100, [(1, 0x800), (0, 0x801)], some (3, none)⟩] } }
     (100 : Nat) + 8 ≤ m.now ∧ provKept imgT { m with now := 100 + 8 } 0 (1, 0x800) = true ∧
     provKept imgT { m with now := 100 + 8 } 0 (0, 0x801) = false) := by
  decide +kernel

/-- A full event FIFO, one of the same cycle on both sides of a code, a number that is no link, a full trace read and unread. -/
theorem witness_EventsAndTrace_events :
    (let m := { runM with now := 7, evt := [((0, 0), [(5, 9), (7, 1), (7, 4)])] }
     (mapGet [] m.evt (0, 0)) = [(5, 9), (7, 1)] ++ [(7, 4)] ∧ (7, 4).1 = m.now ∧ 2 % 256 < 4 % 256) ∧
    (mapGet [] ({ runM with evt := [((0, 0), List.replicate 32 (5, 9))] } : M).evt (0, 0)).length = 32 ∧ isLink imgT 0 = true ∧
    isLink imgT 95 = false ∧ (255 : Nat) < 256 := by
  decide +kernel

/-- A block that is not in reset. -/
theorem witness_BlockResets_start : runM.inReset 28 0 = false ∧ runM.inReset 22 3 = false ∧ holdKey .TRC_CNT 0 = some (28, 0) ∧
    holdKey .WNG_CTL 3 = some (22, 3) ∧ 0 ∈ imgT.enabledParts ∧
    (List.range 405).any (fun n => (fldSpecAt n).b) = true := by
  decide +kernel

/-- A list read, an element and a status writeback unanswered 131,072 sc, and QUIET of the block asked. -/
theorem witness_InterfaceTimeouts_more :
    let x := { stageX with elems := [⟨9, 0, 16, .reading, []⟩] }
    let d : DescRun := ⟨0, [0, 0, 0, 0], x, 0, false, none, false, false⟩
    let m := { (runM.setChan 63 { ChanSt.init with descs := [d] }).setQueue 0 8 [x] with
      now := 131072, asks := [((3, 4), (0, 24)), ((4, 9), (0, 24))], quiet := [((24, 0), 131071)] }
    mapFind m.asks (4, 9) = some (0, 24) ∧ mapFind m.quiet (24, 0) = some 131071 ∧ 0 + 131072 ≤ m.now ∧ 131071 < m.now ∧
    overdue m (4, 9) = true ∧ overdue { m with quiet := [((24, 0), 131072)] } (4, 9) = false ∧ listAtHost m 4 = false ∧
    overdue m (3, 4) = true ∧ overdue m (3, 5) = false ∧ (m.chan 63).descs = [d] ∧ d.wb ≠ some (some 9) ∧
    x.elems.find? (fun y => y.id == 9) = some ⟨9, 0, 16, .reading, []⟩ ∧ d.x.speculative m = false ∧ m.queue 0 8 = [x] ∧
    ({ d with wb := some (some 9) } : DescRun).wb = some (some 9) := by
  decide +kernel

/-- Warning and trip with readings valid; an earlier warning, an earlier trip. -/
theorem witness_Temperatures_valid :
    (runM.setFlag .PWR_THERM_VALID 0 true).flag .PWR_THERM_VALID 0 = true ∧ (105 : Int) * 16 ≤ (1680 : BitVec 16).toInt ∧
    runM.pins.warnArmed = true ∧ (120 : Int) * 16 ≤ (1920 : BitVec 16).toInt ∧ runM.pins.thermTrip = false ∧
    ({ runM with pins := { runM.pins with thermTrip := true } } : M).pins.thermTrip = true ∧
    (List.range 16).all (fun k => decide (runM.fld (tempFld k) (k / 4) < 2 ^ 16)) = true := by
  decide +kernel

/-- The rings of `ringM` under the script of `scrM`. -/
def rgM (x : Script) : M :=
  ((((scrM x).setFld .RNG_CFG_B_KIND (pinst 0 0) 1).setFld .RNG_CFG_B_STATUS_RING (pinst 0 0) 1).setFld .RNG_CFG_B_KIND
    (pinst 0 1) 2).setFld .RNG_CFG_B_SIZE_LOG2 (pinst 0 1) 6

/-- A MARK with CC and one without, a cue that is skipped with a younger one, a squash of a queued and of a rehearsed cue. -/
theorem witness_CuesRun_moves :
    ([0, 2 ^ 17] : List Nat).all (fun f =>
      let c := { pc 12 0 0 0 0 with cue := { (pc 12 0 0 0 0).cue with w0 := 12 + f } }
      let x := { scr .running [c, pc 9 0 0 0 0] with thread := some 4 }
      let m := rgM x
      let y : Script := { x with skipped := false, run := default, win := { c with wunits := 0 } :: [pc 9 0 0 0 0] }
      decide (m.script 0 5 = some x) && c.cue.op == 12 && !(c.cue.cd) && c.cue.cc == (f != 0) && !(x.run.cleared) && !(x.halting) &&
      !((postEntry imgT 0 (mkEntry y 0x01 0 0 c.ptr c.cue.userTag c.inl false)
        (discardXfer 0 x.tag c.sn (m.stageFree 0 c.wunits))).1)) = true ∧
    (let c := { pc 9 0 0 0 0 with cue := { (pc 9 0 0 0 0).cue with w0 := 9 + 2 ^ 17 } }
     let x := { scr .running [c, pc 9 0 0 0 0] with thread := some 4 }
     (rgM x).script 0 5 = some x ∧ c.cue.isLast = false ∧ c.cue.cd = false ∧ c.cue.op ≠ 12 ∧ c.cue.post = false ∧ c.inl = false) ∧
    (let r : Rehearsal := ⟨0, 5, 1, 0, .out, false, 1, 64, [7], false, 10, none, 0, 0, 0, none, 9, false⟩
     let x := { scr .running [pc 9 0 0 0 0, { pc 2 64 0 0 0 with sn := 1, rq := true, rhs := some 3 }] with thread := some 4 }
     1 < x.win.length ∧ (({ scrM x with rhs := [((0, 3), r)] } : M).rh (slotLink 0) 3) = some r ∧
     (x.win.drop 1).all (fun d => d.rq && d.rhs == some 3) = true) ∧
    (let x := { scr .waiting [pc 5 64 0 0 0] with wait := .stage 2 }
     let m := { scrM x with bud := { (scrM x).bud with stageq := [⟨0, 5, none, 2⟩] } }
     m.bud.stageq.find? (fun w => w.part == 0) = some ⟨0, 5, none, 2⟩ ∧ m.stageFits 0 2 = true ∧ m.stageFits 0 65 = false ∧
     x.st = .waiting ∧ x.wait = .stage 2) := by
  decide +kernel

/-- A descriptor with FENCE behind another. -/
theorem witness_ChannelsRun_fence :
    (let d : DescRun := ⟨0, [0, 0, 0, 0], stageX, 0, false, none, false, false⟩
     let m := (chanM 1).setChan 63 { ChanSt.init with descs := [d], reading := some 1 }
     let b := leBytes 8 (2 ^ 11) ++ List.replicate 24 0
     (m.chan 63).reread = false ∧ (m.chan 63).descs ≠ [] ∧ (leAt (descData m 63 1 32 b) 0 8).testBit 11 = true) := by
  decide +kernel

/-- Lanes that hush powered down, a receive side that alone is at its limit, a rekey asked for twice, a calibration that ends. -/
theorem witness_LinkStatesMove_lanes :
    (lnkM lsTrain { actL with lanesAt := 20000 }).now < ((lnkM lsTrain { actL with lanesAt := 20000 }).link 0).lanesAt ∧
    pmaDown (lnkM lsTrain { actL with lanesAt := 20000 }) 0 7 = true ∧ pmaDown (lnkM lsTrain actL) 0 7 = false ∧
    (lnkM lsActive actL).fld .LNK_STS_TX_GROUPS 0 < actL.keyLimit ∧
    ((lnkM lsActive { actL with rxGroups := 2 ^ 20 }).link 0).keyLimit ≤ ((lnkM lsActive { actL with rxGroups := 2 ^ 20 }).link 0).rxGroups ∧
    actL.rxGroups < actL.keyLimit ∧ ((lnkM lsActive actL).setFlag .LNK_CTL_REKEY_NOW 0 true).flag .LNK_CTL_REKEY_NOW 0 = true ∧
    (let m := ((lnkM lsWait actL).setFlag .LNK_OCT_STS_CAL_DONE 0 false).setFlag .LNK_OCT_STS_CALIBRATING 0 true
     m.flag .LNK_OCT_STS_CALIBRATING 0 = true ∧ bitAt m.pins.onAbsent 0 = false ∧ bitAt m.pins.calBad 0 = false ∧
     m.askedAgain .LNK_OCT_CTL_CAL 0 = false ∧ 0 ∈ imgT.linksOfOctet 0 ∧ m.linkState 0 = lsWait ∧ octReady imgT m = false ∧
     octReady imgT (m.setFlag .LNK_OCT_STS_CAL_DONE 0 true) = true ∧ m.fld .IMG_BOOT_STS_LAST_STEP 0 < 9) := by
  decide +kernel

/-- Committed rehearsals at their limit, one whose ABORT stayed unanswered, a queued REHEARSE that may and that may not start. -/
theorem witness_LinksTransmit_rehearsals :
    (let r : Rehearsal := ⟨0, 5, 0, 0, .committed, false, 1, 64, [], false, 0, none, 0, 0, 10, some 7, 9, false⟩
     let m := { lnkM lsActive actL with rhs := [((0, 63), r)], now := 20 }
     m.rh 0 63 = some r ∧ r.st = .committed ∧ r.detached = false ∧ r.timer + r.limit < m.now ∧ ({ m with now := 19 } : M).now ≤ r.timer + r.limit ∧
     findCmd m 0 63 = none ∧ r.abortTick = some 7 ∧ r.stuck = false ∧ 7 + 256 ≤ edgeCount (m.setFld .TCK_COUNT_COUNT 0 263) ∧
     edgeCount (m.setFld .TCK_COUNT_COUNT 0 262) < 7 + 256) ∧
    (let c : Cmd := ⟨64, 0, 5, false, 2, 0, 64, 0, false, 0, false, 0, 0, false, false, some 7, 9, true⟩
     findCmd (lnkM lsActive { actL with cmds := [c] }) 0 64 = some c ∧ c.stuck = true) ∧
    (let x := scr .running [pc 2 64 0 0 0]
     stillRehearses (lnkM lsActive { actL with caps := [⟨0, true, true, 1⟩] }) x (pc 2 64 0 0 0) = true ∧
     stillRehearses (lnkM lsActive { actL with caps := [⟨0, true, false, 1⟩] }) x (pc 2 64 0 0 0) = false) ∧
    dataCut (lnkM lsActive actL) 0 64 0 300 true = (240, true) ∧ (dataCut (lnkM lsActive actL) 0 64 0 0 true).1 = 0 := by
  decide +kernel

/-- A drain that is over by time, one that is not, and a completion of 3 of 64 bytes. -/
theorem witness_PartitionResets_bounds :
    (let m := (hostM true true true).setQueue 0 0 [{ stageX with elems := [⟨0, 0, 16, .reading, []⟩] }]
     let m := { m.setHost 0 { m.hostOf 0 with drain := some 5 } with now := 2000005 }
     drainBusy imgT m 0 = true ∧ (m.hostOf 0).drain = some 5 ∧ 5 + 2000000 ≤ m.now ∧ ({ m with now := 2000004 } : M).now < 5 + 2000000 ∧
     (m.hostOf 0).drainOwn = false ∧ m.sec.erase = []) ∧
    (let n : NP := ⟨0, .load 0, 3, 0, 64, 100000, [1], none⟩
     let np := fun r => [n].map (fun k => if k.tag = n.tag ∧ k.res.isNone then { k with res := some r } else k)
     n.got.length + ([1, 2, 3] : List Byte).length < n.len ∧ n.len ≤ n.got.length + (List.replicate 63 (0 : Byte)).length ∧
     n.purp.joint = true ∧ ((np .timeout).filter (fun k => k.purp == n.purp)).any (fun k => k.res.isNone) = false) ∧
    ((5 : Nat) ∈ [2, 3, 4, 5] ∧ (4 : Nat) ∈ [2, 3, 4]) ∧ isReady (hostM true false false) 0 = false := by
  decide +kernel

/-- A controller in reset, a line whose key is owed, a CAL ball that is open, devices in self-refresh. -/
theorem witness_MemoryRuns_waits :
    ({ runM with brst := [((29, 0), 0)] } : M).inReset 29 0 = true ∧
    keyWanting imgT { runM with sec := { runM.sec with keyOwed := [8] } } 0 0 = true ∧ keyWanting imgT runM 0 0 = false ∧
    bitAt ({ runM with pins := { runM.pins with calBad := 4 } } : M).pins.calBad 2 = true ∧ bitAt runM.pins.calBad 2 = false ∧
    runM.askedAgain .MEM_CH_CTL_TRAIN 0 = false ∧ 0 ∉ runM.mem.selfRef ∧
    0 ∈ ({ runM with mem := { runM.mem with selfRef := [0] } } : M).mem.selfRef := by
  decide +kernel

/-- A boot without entropy whose copy passes its checks comes to the wait of step 5. -/
theorem sigVerify_waits (b : List Byte) (x : Image) (hs : imgStep4 b 0 serialNat = (resAccepted, x)) (m : M)
    (hp : m.boot.phase = .verify) (he : m.boot.entropy = false) (hc : m.boot.copy = b) (hv : svnSteps m.sec.sensed = 0) (hr : m.react = []) :
    ∃ t, opSigVerify Image.empty ⟨imgKeyOk b m.sec.sensed.hash, imgKeyOk b m.sec.sensed.hash⟩ ⟨imgSigOk b, imgSigOk b⟩ true true m =
      (none, t) ∧ t.react = [] ∧ t.boot.phase = .wait5 := by
  have h4 : ∀ k : M, k.boot = m.boot → k.sec.sensed = m.sec.sensed → k.react = [] →
      ∃ t, bootStep4 Image.empty true k = (none, t) ∧ t.react = [] ∧ t.boot.phase = .wait5 := by
    intro k hb hk h0
    unfold bootStep4
    rw [hb, hk, hc, hv, hs]
    dsimp only
    rw [if_neg (by decide), if_neg (by decide), if_neg (by decide)]
    have e : ∀ n, (stepDone 4 ((setResult n resAccepted k).setFld .IMG_BOOT_STS_SLOT 0 n)).boot.entropy = false ∧
        (stepDone 4 ((setResult n resAccepted k).setFld .IMG_BOOT_STS_SLOT 0 n)).react = [] :=
      fun _ => ⟨(congrArg BootSt.entropy hb).trans he, h0⟩
    rw [if_neg (by rw [(e _).1]; decide)]
    exact ⟨_, rfl, (e m.boot.slot).2, rfl⟩
  unfold opSigVerify
  simp only [hp, hc, pathsOf, ne_eq, not_true_eq_false, ite_false, ite_true, beq_self_eq_true, Bool.true_eq_false]
  have hw : ∀ w : List Byte, ({ m with sec := { m.sec with ownerKey := w } } : M).sec.sensed = m.sec.sensed := fun _ => rfl
  obtain ⟨k, hk, h1, h2, h3⟩ : ∃ k : M, k = { m with sec := { m.sec with ownerKey := imgPubkey b } } ∧ k.boot = m.boot ∧
      k.sec.sensed = m.sec.sensed ∧ k.react = [] := ⟨_, rfl, rfl, hw _, hr⟩
  rw [← hk]
  exact h4 (stepDone 3 k) h1 h2 h3

theorem waits_of (b : List Byte) (x : Image) (hs : imgStep4 b 0 serialNat = (resAccepted, x)) (m : M)
    (hp : m.boot.phase = .verify) (he : m.boot.entropy = false) (hc : m.boot.copy = b) (hv : svnSteps m.sec.sensed = 0) (hr : m.react = []) :
    ∃ (s t : State) (key sig : Verdict), exec (.signatureVerifyComplete key sig true true) s = .next t ∧ s.m.react = [] ∧
      s.m.boot.phase = .verify ∧ t.m.boot.phase = .wait5 := by
  obtain ⟨t, ht, h0, h1⟩ := sigVerify_waits b x hs m hp he hc hv hr
  refine ⟨{ State.reset with m := m }, { State.reset with m := t }, ⟨imgKeyOk b m.sec.sensed.hash, imgKeyOk b m.sec.sensed.hash⟩,
    ⟨imgSigOk b, imgSigOk b⟩, ?_, hr, hp, h1⟩
  have hi : ({ State.reset with m := m } : State).inForce = Image.empty := by simp [State.inForce, hp]
  show execSignatureVerifyComplete _ _ _ _ _ = _
  simp only [execSignatureVerifyComplete, State.updImg, hi, ht, settle_calm _ _ h0]

/-- A boot without entropy that comes from its checks to the wait of step 5. -/
theorem witness_OnlyVerifiedImages_wait : ∃ (s t : State) (key sig : Verdict),
    exec (.signatureVerifyComplete key sig true true) s = .next t ∧ s.m.react = [] ∧ s.m.boot.phase = .verify ∧
    t.m.boot.phase = .wait5 :=
  waits_of imgBytes imgRead (test_image_accepted serialNat).2
    (bootM (fun k => { k with phase := .verify, entropy := false, copy := imgBytes })) rfl rfl rfl (by decide +kernel) rfl

end Sys2Proof.Tests
end

section
/-! PROOFS. The word operations of the integer instructions (`Flags`), for words of every width, in integer arithmetic (08,
R189 to R191). -/

namespace Sys2Proof

section

variable {n : Nat} (x y : BitVec n) (c : Nat)

/-! ### Sums, products and bitwise operations -/

theorem add_eq_ofInt : x + y = BitVec.ofInt n (x.toInt + y.toInt) := by
  rw [BitVec.ofInt_add, BitVec.ofInt_toInt, BitVec.ofInt_toInt]

theorem sub_eq_ofInt : x - y = BitVec.ofInt n (x.toInt - y.toInt) := by
  rw [Int.sub_eq_add_neg, BitVec.ofInt_add, BitVec.ofInt_neg, BitVec.ofInt_toInt, BitVec.ofInt_toInt, BitVec.sub_eq_add_neg]

theorem mul_eq_ofInt : x * y = BitVec.ofInt n (x.toInt * y.toInt) := by
  rw [BitVec.ofInt_mul, BitVec.ofInt_toInt, BitVec.ofInt_toInt]

theorem zero_sub_eq_ofInt : 0 - x = BitVec.ofInt n (-x.toInt) := by
  rw [BitVec.ofInt_neg, BitVec.ofInt_toInt]
  exact BitVec.zero_sub x

theorem and_eq_ofNat : x &&& y = BitVec.ofNat n (x.toNat &&& y.toNat) := by
  simp only [BitVec.ofNat_and, BitVec.ofNat_toNat, BitVec.setWidth_eq]

theorem or_eq_ofNat : x ||| y = BitVec.ofNat n (x.toNat ||| y.toNat) := by
  simp only [BitVec.ofNat_or, BitVec.ofNat_toNat, BitVec.setWidth_eq]

theorem xor_eq_ofNat : x ^^^ y = BitVec.ofNat n (x.toNat ^^^ y.toNat) := by
  simp only [BitVec.ofNat_xor, BitVec.ofNat_toNat, BitVec.setWidth_eq]

theorem andn_eq_ofNat : x &&& ~~~y = BitVec.ofNat n (x.toNat &&& (2 ^ n - 1 - y.toNat)) := by
  rw [← BitVec.toNat_not, ← and_eq_ofNat]

/-! ### Shifts -/

theorem shl_eq_ofNat : shl x c = BitVec.ofNat n (x.toNat * 2 ^ c) := by
  apply BitVec.eq_of_toNat_eq
  unfold shl
  split
  · rename_i h
    have : 2 ^ n ∣ x.toNat * 2 ^ c := (Nat.pow_dvd_pow 2 h).mul_left _
    simp [Nat.mod_eq_zero_of_dvd this]
  · simp [Nat.shiftLeft_eq]

theorem shr_eq_ofNat : shr x c = BitVec.ofNat n (x.toNat / 2 ^ c) := by
  apply BitVec.eq_of_toNat_eq
  unfold shr
  split
  · rename_i h
    have : x.toNat < 2 ^ c := x.isLt.trans_le (Nat.pow_le_pow_right (by decide) h)
    simp [Nat.div_eq_of_lt this]
  · have : x.toNat / 2 ^ c < 2 ^ n := (Nat.div_le_self ..).trans_lt x.isLt
    simp [Nat.shiftRight_eq_div_pow, Nat.mod_eq_of_lt this]

/-- From a count of one less than the width on, only the sign is left. -/
theorem toInt_ediv_of_le {c : Nat} (h : n ≤ c + 1) : x.toInt / (2 ^ c : Nat) = if x.toInt < 0 then -1 else 0 := by
  have hp : (2 : Int) ^ (n - 1) ≤ 2 ^ c := pow_le_pow_right₀ (by decide) (by omega)
  have hl := x.le_toInt
  have hu := x.toInt_lt
  rw [Nat.cast_pow, Nat.cast_ofNat]
  split
  next hneg => exact Int.ediv_eq_neg_one_of_neg_of_le hneg (by omega)
  next hpos => exact Int.ediv_eq_zero_of_lt (Int.not_lt.1 hpos) (by omega)

/-- Counts that agree below the last place shift alike. -/
theorem toInt_ediv_congr {c d : Nat} (h : min c (n - 1) = min d (n - 1)) :
    x.toInt / (2 ^ c : Nat) = x.toInt / (2 ^ d : Nat) := by
  by_cases hc : n ≤ c + 1
  · rw [toInt_ediv_of_le x hc, toInt_ediv_of_le x (by omega)]
  · rw [show c = d by omega]

theorem sar_eq_ofInt_of {d : Nat} (h : min c (n - 1) = min d (n - 1)) : sar x c = BitVec.ofInt n (x.toInt / (2 ^ d : Nat)) :=
  calc sar x c = BitVec.ofInt n (x.sshiftRight (min c n)).toInt := BitVec.ofInt_toInt.symm
    _ = BitVec.ofInt n (x.toInt / (2 ^ min c n : Nat)) := by rw [BitVec.toInt_sshiftRight, Int.shiftRight_eq_div_pow]
    _ = BitVec.ofInt n (x.toInt / (2 ^ d : Nat)) := by rw [toInt_ediv_congr x (c := min c n) (d := d) (by omega)]

theorem sar_eq_ofInt : sar x c = BitVec.ofInt n (x.toInt / (2 ^ c : Nat)) := sar_eq_ofInt_of x c rfl

theorem sar_eq_ofInt_min : sar x c = BitVec.ofInt n (x.toInt / (2 ^ min c (n - 1) : Nat)) := sar_eq_ofInt_of x c (by omega)

/-! ### Rotates -/

/-- The two parts of a rotated word share no bit, and what one side shifts out is a multiple of the word's range. -/
theorem shiftLeft_mod_or_eq_add {m k j : Nat} (hm : m < 2 ^ (k + j)) :
    m <<< k % 2 ^ (k + j) ||| m >>> j = (m * 2 ^ k + m / 2 ^ j) % 2 ^ (k + j) := by
  have hq : m / 2 ^ j < 2 ^ k := Nat.div_lt_of_lt_mul (by rwa [← pow_add, Nat.add_comm])
  have hs : m * 2 ^ k % 2 ^ (k + j) = m % 2 ^ j * 2 ^ k := by
    rw [pow_add, Nat.mul_comm (2 ^ k), Nat.mul_mod_mul_right]
  have hr : m % 2 ^ j * 2 ^ k + m / 2 ^ j < 2 ^ (k + j) :=
    calc m % 2 ^ j * 2 ^ k + m / 2 ^ j < (m % 2 ^ j + 1) * 2 ^ k := by rw [Nat.add_one_mul]; omega
      _ ≤ 2 ^ j * 2 ^ k := Nat.mul_le_mul_right _ (Nat.mod_lt _ (Nat.two_pow_pos j))
      _ = 2 ^ (k + j) := by rw [← pow_add, Nat.add_comm]
  have hn : m / 2 ^ j < 2 ^ (k + j) := hq.trans_le (Nat.pow_le_pow_right (by decide) (by omega))
  calc m <<< k % 2 ^ (k + j) ||| m >>> j
      = (m % 2 ^ j) <<< k ||| m / 2 ^ j := by
        rw [Nat.shiftLeft_eq, hs, Nat.shiftLeft_eq, Nat.shiftRight_eq_div_pow]
    _ = m % 2 ^ j * 2 ^ k + m / 2 ^ j := by rw [← Nat.shiftLeft_add_eq_or_of_lt hq, Nat.shiftLeft_eq]
    _ = (m * 2 ^ k + m / 2 ^ j) % 2 ^ (k + j) := by
        rw [Nat.add_mod, hs, Nat.mod_eq_of_lt hn, Nat.mod_eq_of_lt hr]

theorem rotl_eq_ofNat (h : 0 < n) : rotl x c = BitVec.ofNat n (x.toNat * 2 ^ (c % n) + x.toNat / 2 ^ (n - c % n)) := by
  obtain ⟨j, hj⟩ := Nat.exists_eq_add_of_le (Nat.mod_lt c h).le
  have hm : x.toNat < 2 ^ (c % n + j) := hj ▸ x.isLt
  apply BitVec.eq_of_toNat_eq
  rw [rotl, BitVec.toNat_rotateLeft, Nat.mod_mod, BitVec.toNat_ofNat, show n - c % n = j by omega,
    show 2 ^ n = 2 ^ (c % n + j) by rw [← hj], shiftLeft_mod_or_eq_add hm]

theorem rotr_eq_ofNat (h : 0 < n) : rotr x c = BitVec.ofNat n (x.toNat / 2 ^ (c % n) + x.toNat * 2 ^ (n - c % n)) := by
  obtain ⟨k, hk⟩ := Nat.exists_eq_add_of_le' (Nat.mod_lt c h).le
  have hm : x.toNat < 2 ^ (k + c % n) := hk ▸ x.isLt
  apply BitVec.eq_of_toNat_eq
  rw [rotr, BitVec.toNat_rotateRight, Nat.mod_mod, BitVec.toNat_ofNat, show n - c % n = k by omega,
    show 2 ^ n = 2 ^ (k + c % n) by rw [← hk], Nat.or_comm, shiftLeft_mod_or_eq_add hm, Nat.add_comm]

/-! ### Quotients and remainders -/

theorem ofInt_neg_one : BitVec.ofInt n (-1) = BitVec.allOnes n := by
  rw [BitVec.ofInt_neg, ← BitVec.neg_one_eq_allOnes]
  rfl

theorem sdiv_eq_ofInt : x.sdiv y = BitVec.ofInt n (x.toInt.tdiv y.toInt) :=
  BitVec.eq_of_toInt_eq (by rw [BitVec.toInt_sdiv, BitVec.toInt_ofInt])

/-- The remainder that goes with the quotient rounded toward zero. -/
theorem sub_mul_sdiv_eq_ofInt : x - y * x.sdiv y = BitVec.ofInt n (x.toInt.tmod y.toInt) := by
  rw [Int.tmod_def, Int.sub_eq_add_neg, BitVec.ofInt_add, BitVec.ofInt_neg, BitVec.ofInt_mul, ← sdiv_eq_ofInt,
    BitVec.ofInt_toInt, BitVec.ofInt_toInt, BitVec.sub_eq_add_neg]

theorem udiv_eq_ofNat : x / y = BitVec.ofNat n (x.toNat / y.toNat) := by
  apply BitVec.eq_of_toNat_eq
  rw [BitVec.toNat_udiv, BitVec.toNat_ofNat, Nat.mod_eq_of_lt ((Nat.div_le_self ..).trans_lt x.isLt)]

theorem sub_mul_udiv_eq_ofNat : x - y * (x / y) = BitVec.ofNat n (x.toNat % y.toNat) := by
  rw [eq_comm, BitVec.eq_sub_iff_add_eq]
  calc BitVec.ofNat n (x.toNat % y.toNat) + y * (x / y)
      = BitVec.ofNat n (x.toNat % y.toNat + y.toNat * (x.toNat / y.toNat)) := by
        rw [BitVec.ofNat_add, BitVec.ofNat_mul, ← udiv_eq_ofNat, BitVec.ofNat_toNat, BitVec.setWidth_eq]
    _ = x := by rw [Nat.mod_add_div, BitVec.ofNat_toNat, BitVec.setWidth_eq]

/-! ### Results with an edge case (R191) -/

theorem shl_eq_ite : shl x c = if n ≤ c then 0 else BitVec.ofNat n (x.toNat * 2 ^ c) :=
  ite_congr rfl (fun _ => rfl) (fun h => (if_neg h).symm.trans (shl_eq_ofNat x c))

theorem shr_eq_ite : shr x c = if n ≤ c then 0 else BitVec.ofNat n (x.toNat / 2 ^ c) :=
  ite_congr rfl (fun _ => rfl) (fun h => (if_neg h).symm.trans (shr_eq_ofNat x c))

theorem quoS_eq_ite : quoS x y = if y = 0 then BitVec.ofInt n (-1) else BitVec.ofInt n (x.toInt.tdiv y.toInt) :=
  ite_congr rfl (fun _ => ofInt_neg_one.symm) (fun _ => sdiv_eq_ofInt x y)

theorem quoU_eq_ite : quoU x y = if y = 0 then BitVec.ofInt n (-1) else BitVec.ofNat n (x.toNat / y.toNat) :=
  ite_congr rfl (fun _ => ofInt_neg_one.symm) (fun _ => udiv_eq_ofNat x y)

theorem remS_eq_ite : remS x y = if y = 0 then x else BitVec.ofInt n (x.toInt.tmod y.toInt) :=
  ite_congr rfl (fun _ => rfl) (fun _ => sub_mul_sdiv_eq_ofInt x y)

theorem remU_eq_ite : remU x y = if y = 0 then x else BitVec.ofNat n (x.toNat % y.toNat) :=
  ite_congr rfl (fun _ => rfl) (fun _ => sub_mul_udiv_eq_ofNat x y)

end

end Sys2Proof
end

section
/-! PROOFS. The integer instructions (08, R189 to R191): the value of each row of the tables, its command, and a divide that
finds its divider busy. -/

namespace Sys2Proof.Machine

theorem MayIssue.calm {s : State} {i : Issue} {o : Op} (h : MayIssue s i o) : s.m.react = [] := h.1

theorem MayIssue.decodes {s : State} {i : Issue} {o : Op} (h : MayIssue s i o) : decodeOp i.word = some o := by
  obtain ⟨_, _, _, _, _, hd, _⟩ := h
  exact hd

/-! ### W forms -/

theorem toNat_low32 (a : Word) : (low32 a).toNat = un32 a := BitVec.toNat_setWidth ..

theorem low32_eq_zero_iff_lo32 (a : Word) : low32 a = 0 ↔ lo32 a = 0 := by
  rw [← BitVec.toInt_inj]
  rfl

theorem low32_eq_zero_iff_un32 (a : Word) : low32 a = 0 ↔ un32 a = 0 := by
  rw [← BitVec.toNat_inj, toNat_low32]
  rfl

/-- The low half of a multiple is that of the low half's multiple. -/
theorem ofNat_un32_mul (a : Word) (k : Nat) : BitVec.ofNat 32 (un32 a * k) = BitVec.ofNat 32 (a.toNat * k) :=
  BitVec.eq_of_toNat_eq (by simp only [BitVec.toNat_ofNat, un32, Nat.mod_mul_mod])

/-- A W result whose low half is an integer modulo 2^32. -/
theorem sext32_eq_w32 {x : BitVec 32} {z : Int} (h : x = BitVec.ofInt 32 z) : sext32 x = w32 z := by
  rw [h]
  rfl

/-- A W result with an edge case (R191). -/
theorem sext32_ite {p q : Prop} [Decidable p] [Decidable q] (h : p ↔ q) {x y : BitVec 32} {v : Word} {z : Int}
    (hx : sext32 x = v) (hy : y = BitVec.ofInt 32 z) : sext32 (if p then x else y) = if q then v else w32 z := by
  by_cases hp : p
  · rw [if_pos hp, if_pos (h.1 hp), hx]
  · rw [if_neg hp, if_neg (fun k => hp (h.2 k)), sext32_eq_w32 hy]

section
variable (a b : Word) (c : Nat)

theorem sext32_shl : sext32 (shl (low32 a) c) = w32 (a.toNat * 2 ^ c : Nat) :=
  sext32_eq_w32 (by rw [shl_eq_ofNat, toNat_low32, ofNat_un32_mul]; rfl)

theorem sext32_shr : sext32 (shr (low32 a) c) = w32 (un32 a / 2 ^ c : Nat) :=
  sext32_eq_w32 (by rw [shr_eq_ofNat, toNat_low32]; rfl)

theorem sext32_sar : sext32 (sar (low32 a) c) = w32 (lo32 a / (2 ^ c : Nat)) := sext32_eq_w32 (sar_eq_ofInt _ _)

theorem sext32_rotl : sext32 (rotl (low32 a) c) = w32 (un32 a * 2 ^ (c % 32) + un32 a / 2 ^ (32 - c % 32) : Nat) :=
  sext32_eq_w32 (by rw [rotl_eq_ofNat _ _ (by decide), toNat_low32]; rfl)

theorem sext32_rotr : sext32 (rotr (low32 a) c) = w32 (un32 a / 2 ^ (c % 32) + un32 a * 2 ^ (32 - c % 32) : Nat) :=
  sext32_eq_w32 (by rw [rotr_eq_ofNat _ _ (by decide), toNat_low32]; rfl)

/-- A rotate takes its count modulo 32, so it does not matter that only rb[31:0] is read. -/
theorem toNat_low32_mod : (low32 b).toNat % 32 = b.toNat % 32 := by
  rw [toNat_low32, un32, Nat.mod_mod_of_dvd _ (by decide)]

theorem sext32_rotl_low32 : sext32 (rotl (low32 a) (low32 b).toNat) =
    w32 (un32 a * 2 ^ (b.toNat % 32) + un32 a / 2 ^ (32 - b.toNat % 32) : Nat) := by
  rw [sext32_rotl, toNat_low32_mod]

theorem sext32_rotr_low32 : sext32 (rotr (low32 a) (low32 b).toNat) =
    w32 (un32 a / 2 ^ (b.toNat % 32) + un32 a * 2 ^ (32 - b.toNat % 32) : Nat) := by
  rw [sext32_rotr, toNat_low32_mod]

/-- Both logical shifts and SRAW take the count from rb[31:0], the model's choice (log entry 24). -/
theorem sext32_shl_low32 :
    sext32 (shl (low32 a) (low32 b).toNat) = if 32 ≤ un32 b then 0 else w32 (a.toNat * 2 ^ un32 b : Nat) := by
  rw [shl_eq_ite, toNat_low32 a, toNat_low32 b, ofNat_un32_mul]
  exact sext32_ite .rfl rfl rfl

theorem sext32_shr_low32 :
    sext32 (shr (low32 a) (low32 b).toNat) = if 32 ≤ un32 b then 0 else w32 (un32 a / 2 ^ un32 b : Nat) := by
  rw [shr_eq_ite, toNat_low32 a, toNat_low32 b]
  exact sext32_ite .rfl rfl rfl

theorem sext32_sar_low32 : sext32 (sar (low32 a) (low32 b).toNat) = w32 (lo32 a / (2 ^ min (un32 b) 31 : Nat)) :=
  sext32_eq_w32 (by rw [sar_eq_ofInt_min, toNat_low32]; rfl)

theorem sext32_quoS : sext32 (quoS (low32 a) (low32 b)) =
    if lo32 b = 0 then BitVec.ofInt 64 (-1) else w32 ((lo32 a).tdiv (lo32 b)) := by
  rw [quoS_eq_ite]
  exact sext32_ite (low32_eq_zero_iff_lo32 b) rfl rfl

theorem sext32_quoU : sext32 (quoU (low32 a) (low32 b)) =
    if un32 b = 0 then BitVec.ofInt 64 (-1) else w32 (un32 a / un32 b : Nat) := by
  rw [quoU_eq_ite, toNat_low32, toNat_low32]
  exact sext32_ite (low32_eq_zero_iff_un32 b) rfl rfl

theorem sext32_low32 : sext32 (low32 a) = w32 (lo32 a) := sext32_eq_w32 BitVec.ofInt_toInt.symm

theorem sext32_remS : sext32 (remS (low32 a) (low32 b)) =
    if lo32 b = 0 then w32 (lo32 a) else w32 ((lo32 a).tmod (lo32 b)) := by
  rw [remS_eq_ite]
  exact sext32_ite (low32_eq_zero_iff_lo32 b) (sext32_low32 a) rfl

theorem sext32_remU : sext32 (remU (low32 a) (low32 b)) =
    if un32 b = 0 then w32 (lo32 a) else w32 (un32 a % un32 b : Nat) := by
  rw [remU_eq_ite, toNat_low32, toNat_low32]
  exact sext32_ite (low32_eq_zero_iff_un32 b) (sext32_low32 a) rfl

end

/-! ### Compares -/

theorem bool64_eq_oneIf {b : Bool} {p : Prop} [Decidable p] (h : b = true ↔ p) : bool64 b = oneIf p := by
  by_cases hp : p <;> simp [bool64, oneIf, h, hp]

section
variable (a b : Word)

theorem bool64_beq : bool64 (a == b) = oneIf (a.toNat = b.toNat) :=
  bool64_eq_oneIf (by rw [beq_iff_eq, BitVec.toNat_inj])

theorem bool64_bne : bool64 (a != b) = oneIf (a.toNat ≠ b.toNat) :=
  bool64_eq_oneIf (by rw [bne_iff_ne, Ne, Ne, BitVec.toNat_inj])

theorem bool64_slt : bool64 (a.slt b) = oneIf (a.toInt < b.toInt) := bool64_eq_oneIf BitVec.slt_iff_toInt_lt

theorem bool64_not_slt : bool64 (!a.slt b) = oneIf (b.toInt ≤ a.toInt) :=
  bool64_eq_oneIf (by rw [Bool.not_eq_true', ← Bool.not_eq_true, BitVec.slt_iff_toInt_lt, Int.not_lt])

theorem bool64_ult : bool64 (a.ult b) = oneIf (a.toNat < b.toNat) := bool64_eq_oneIf BitVec.ult_iff_toNat_lt

theorem bool64_not_ult : bool64 (!a.ult b) = oneIf (b.toNat ≤ a.toNat) :=
  bool64_eq_oneIf (by rw [Bool.not_eq_true', ← Bool.not_eq_true, BitVec.ult_iff_toNat_lt, Nat.not_lt])

end

/-! ### Immediates (R190) -/

theorem toInt_immS (w : BitVec 32) : (immS w).toInt = imS w := BitVec.toInt_signExtend_of_le (by decide)

theorem toNat_fImm (w : BitVec 32) : (fImm w).toNat = imZ w := by
  simp [fImm, imZ]

theorem toNat_immZ (w : BitVec 32) : (immZ w).toNat = imZ w := by
  rw [← toNat_fImm]
  exact BitVec.toNat_setWidth_of_le (by decide)

theorem fCount_eq_imC (w : BitVec 32) : fCount w = imC w := by
  simp [fCount, imC, bitsAt]

theorem oprFn_ne_roliw (k : Nat) (b : Bool) : oprFn k b ≠ some .roliw := by
  unfold oprFn
  split <;> decide

theorem decodeR_ne_roliw (w : BitVec 32) : decodeR w ≠ some .roliw := by
  intro h
  simp only [decodeR] at h
  split at h
  · cases h
  · split at h
    · rename_i o ho
      split at h
      · cases h
      · exact oprFn_ne_roliw _ _ (ho.trans h)
    · cases h

theorem decodeK_ne_roliw (w : BitVec 32) : decodeK w ≠ some .roliw := by
  simp only [decodeK]
  repeat' split
  all_goals decide

theorem decodeS_ne_roliw (w : BitVec 32) : decodeS w ≠ some .roliw := by
  simp only [decodeS]
  repeat' split
  all_goals decide

/-- ROLIW is one of the immediate shifts: majors 0x00, 0x20 and 0x21 (h_1, h_23, h_24) have functions of their own, LUI and JR
(h_7, h_22) a reserved field, and each other major one operation. -/
theorem decodeShi_of_roliw {w : BitVec 32} (h : decodeOp w = some .roliw) : decodeShi w = some .roliw := by
  unfold decodeOp at h
  split at h
  case h_1 => exact absurd h (decodeR_ne_roliw w)
  case h_8 => exact h
  case h_23 => exact absurd h (decodeK_ne_roliw w)
  case h_24 => exact absurd h (decodeS_ne_roliw w)
  case h_7 | h_22 => split at h <;> cases h
  all_goals cases h

/-- A count with bit 5 set is ILLEGAL in a W kind (R190). -/
theorem imC_lt_of_roliw {w : BitVec 32} (h : decodeOp w = some .roliw) : imC w < 32 := by
  have hs := decodeShi_of_roliw h
  simp only [decodeShi] at hs
  split at hs
  · cases hs
  · rename_i hn
    have hk : 4 ≤ bitsAt w.toNat 12 4 := by
      split at hs <;> cases hs
      omega
    have hb : w.toNat / 2 ^ 5 % 2 ≠ 1 := by
      intro hb
      exact hn (.inr ⟨hk, by rw [bitAt, Nat.testBit_eq_decide_div_mod_eq, hb]; rfl⟩)
    simp only [imC]
    omega

section
variable (a : Word) (w : BitVec 32)

theorem add_immS : a + immS w = BitVec.ofInt 64 (a.toInt + imS w) := by rw [add_eq_ofInt, toInt_immS]

theorem low32_ofInt (z : Int) : low32 (BitVec.ofInt 64 z) = BitVec.ofInt 32 z := by
  apply BitVec.eq_of_toNat_eq
  rw [toNat_low32, un32, BitVec.toNat_ofInt, BitVec.toNat_ofInt]
  omega

theorem sext32_low32_add_immS : sext32 (low32 (a + immS w)) = w32 (a.toInt + imS w) :=
  sext32_eq_w32 (by rw [add_immS, low32_ofInt])

theorem and_immZ : a &&& immZ w = BitVec.ofNat 64 (a.toNat &&& imZ w) := by rw [and_eq_ofNat, toNat_immZ]

theorem or_immZ : a ||| immZ w = BitVec.ofNat 64 (a.toNat ||| imZ w) := by rw [or_eq_ofNat, toNat_immZ]

theorem xor_immZ : a ^^^ immZ w = BitVec.ofNat 64 (a.toNat ^^^ imZ w) := by rw [xor_eq_ofNat, toNat_immZ]

theorem sext32_fImm : sext32 (BitVec.ofNat 32 ((fImm w).toNat * 2 ^ 16)) = w32 (imZ w * 2 ^ 16 : Nat) :=
  sext32_eq_w32 (by rw [toNat_fImm]; rfl)

theorem rotl_imC : rotl a (imC w) = BitVec.ofNat 64 (a.toNat * 2 ^ imC w + a.toNat / 2 ^ (64 - imC w)) := by
  rw [rotl_eq_ofNat _ _ (by decide), show imC w % 64 = imC w from Nat.mod_mod _ (2 ^ 6)]

theorem sext32_rotl_imC (h : decodeOp w = some .roliw) :
    sext32 (rotl (low32 a) (imC w)) = w32 (un32 a * 2 ^ imC w + un32 a / 2 ^ (32 - imC w) : Nat) := by
  rw [sext32_rotl, Nat.mod_eq_of_lt (imC_lt_of_roliw h)]

theorem bool64_beq_immS : bool64 (a == immS w) = oneIf (a.toInt = imS w) :=
  bool64_eq_oneIf (by rw [beq_iff_eq, ← toInt_immS, BitVec.toInt_inj])

theorem bool64_bne_immS : bool64 (a != immS w) = oneIf (a.toInt ≠ imS w) :=
  bool64_eq_oneIf (by rw [bne_iff_ne, Ne, Ne, ← toInt_immS, BitVec.toInt_inj])

theorem bool64_slt_immS : bool64 (a.slt (immS w)) = oneIf (a.toInt < imS w) := by
  simp only [bool64_slt, toInt_immS]

theorem bool64_not_slt_immS : bool64 (!a.slt (immS w)) = oneIf (imS w ≤ a.toInt) := by
  simp only [bool64_not_slt, toInt_immS]

end

/-! ### Rows -/

/-- What a row's operation computes is the row's result. -/
def AluRow.Computes (r : AluRow) : Prop := ∀ a b w, decodeOp w = some r.op → aluVal r.op a b w = some (r.val a b w)

/-- A row's command is the integer instruction of its operation. -/
def AluRow.IsAlu (r : AluRow) : Prop := ∀ i s, exec (r.cmd i) s = .next (s.upd fun im m => opAlu im r.op i m)

theorem aluBasic_computes : ∀ r ∈ aluBasic, r.Computes := by
  simp only [aluBasic, List.forall_mem_cons]
  exact ⟨fun _ _ _ _ => congrArg some (add_eq_ofInt _ _),
    fun _ _ _ _ => congrArg some (sext32_eq_w32 (add_eq_ofInt _ _)),
    fun _ _ _ _ => congrArg some (sub_eq_ofInt _ _),
    fun _ _ _ _ => congrArg some (sext32_eq_w32 (sub_eq_ofInt _ _)),
    fun _ _ _ _ => congrArg some (and_eq_ofNat _ _),
    fun _ _ _ _ => congrArg some (or_eq_ofNat _ _),
    fun _ _ _ _ => congrArg some (xor_eq_ofNat _ _),
    fun _ _ _ _ => congrArg some (andn_eq_ofNat _ _),
    fun _ _ _ _ => congrArg some (zero_sub_eq_ofInt _),
    fun _ _ _ _ => congrArg some (sext32_eq_w32 (zero_sub_eq_ofInt _)), List.forall_mem_nil _⟩

theorem aluShifts_computes : ∀ r ∈ aluShifts, r.Computes := by
  simp only [aluShifts, List.forall_mem_cons]
  exact ⟨fun _ _ _ _ => congrArg some (shl_eq_ite _ _),
    fun _ _ _ _ => congrArg some (sext32_shl_low32 _ _),
    fun _ _ _ _ => congrArg some (shr_eq_ite _ _),
    fun _ _ _ _ => congrArg some (sext32_shr_low32 _ _),
    fun _ _ _ _ => congrArg some (sar_eq_ofInt_min _ _),
    fun _ _ _ _ => congrArg some (sext32_sar_low32 _ _),
    fun _ _ _ _ => congrArg some (rotl_eq_ofNat _ _ (by decide)),
    fun _ _ _ _ => congrArg some (sext32_rotl_low32 _ _),
    fun _ _ _ _ => congrArg some (rotr_eq_ofNat _ _ (by decide)),
    fun _ _ _ _ => congrArg some (sext32_rotr_low32 _ _), List.forall_mem_nil _⟩

theorem aluProducts_computes : ∀ r ∈ aluProducts, r.Computes := by
  simp only [aluProducts, List.forall_mem_cons]
  exact ⟨fun _ _ _ _ => congrArg some (mul_eq_ofInt _ _),
    fun _ _ _ _ => congrArg some (sext32_eq_w32 (mul_eq_ofInt _ _)),
    fun _ _ _ _ => rfl,
    fun _ _ _ _ => rfl,
    fun _ _ _ _ => congrArg some (quoS_eq_ite _ _),
    fun _ _ _ _ => congrArg some (sext32_quoS _ _),
    fun _ _ _ _ => congrArg some (quoU_eq_ite _ _),
    fun _ _ _ _ => congrArg some (sext32_quoU _ _),
    fun _ _ _ _ => congrArg some (remS_eq_ite _ _),
    fun _ _ _ _ => congrArg some (sext32_remS _ _),
    fun _ _ _ _ => congrArg some (remU_eq_ite _ _),
    fun _ _ _ _ => congrArg some (sext32_remU _ _), List.forall_mem_nil _⟩

theorem aluCompares_computes : ∀ r ∈ aluCompares, r.Computes := by
  simp only [aluCompares, List.forall_mem_cons]
  exact ⟨fun _ _ _ _ => congrArg some (bool64_beq _ _),
    fun _ _ _ _ => congrArg some (bool64_bne _ _),
    fun _ _ _ _ => congrArg some (bool64_slt _ _),
    fun _ _ _ _ => congrArg some (bool64_ult _ _),
    fun _ _ _ _ => congrArg some (bool64_not_slt _ _),
    fun _ _ _ _ => congrArg some (bool64_not_ult _ _),
    fun _ _ _ _ => congrArg some (bool64_beq_immS _ _),
    fun _ _ _ _ => congrArg some (bool64_bne_immS _ _),
    fun _ _ _ _ => congrArg some (bool64_slt_immS _ _),
    fun _ _ _ _ => congrArg some (bool64_ult _ _),
    fun _ _ _ _ => congrArg some (bool64_not_slt_immS _ _),
    fun _ _ _ _ => congrArg some (bool64_not_ult _ _), List.forall_mem_nil _⟩

/-- ROLIW alone rests on its decoding: with bit 5 of the count set, the word would be another rotate than the row's. -/
theorem aluImmediates_computes : ∀ r ∈ aluImmediates, r.Computes := by
  simp only [aluImmediates, List.forall_mem_cons, AluRow.Computes, aluVal, fCount_eq_imC]
  exact ⟨fun _ _ _ _ => congrArg some (add_immS _ _),
    fun _ _ _ _ => congrArg some (sext32_low32_add_immS _ _),
    fun _ _ _ _ => congrArg some (and_immZ _ _),
    fun _ _ _ _ => congrArg some (or_immZ _ _),
    fun _ _ _ _ => congrArg some (xor_immZ _ _),
    fun _ _ _ _ => congrArg some (sext32_fImm _),
    fun _ _ _ _ => congrArg some (shl_eq_ofNat _ _),
    fun _ _ _ _ => congrArg some (shr_eq_ofNat _ _),
    fun _ _ _ _ => congrArg some (sar_eq_ofInt _ _),
    fun _ _ _ _ => congrArg some (rotl_imC _ _),
    fun _ _ _ _ => congrArg some (sext32_shl _ _),
    fun _ _ _ _ => congrArg some (sext32_shr _ _),
    fun _ _ _ _ => congrArg some (sext32_sar _ _),
    fun _ _ _ h => congrArg some (sext32_rotl_imC _ _ h), List.forall_mem_nil _⟩

theorem aluRows_isAlu :
    ∀ r ∈ aluBasic ++ aluShifts ++ aluProducts ++ aluCompares ++ aluImmediates, r.IsAlu := by
  intro r h
  fin_cases h <;> exact fun _ _ => rfl

theorem aluRows_computes :
    ∀ r ∈ aluBasic ++ aluShifts ++ aluProducts ++ aluCompares ++ aluImmediates, r.Computes := by
  simp only [List.forall_mem_append]
  exact ⟨⟨⟨⟨aluBasic_computes, aluShifts_computes⟩, aluProducts_computes⟩, aluCompares_computes⟩, aluImmediates_computes⟩

/-- Rows whose commands are integer instructions that compute their results complete. -/
theorem aluRuns_of {l : List AluRow} (hc : ∀ r ∈ l, r.Computes) (hi : ∀ r ∈ l, r.IsAlu) : AluRuns l := by
  intro r hr s i h d
  rw [hi r hr i s]
  exact runAlu_next h d (hc r hr _ _ _ h.decodes)

/-! ### A busy divider (R184, R185) -/

/-- What a processor does when it finds its divider busy: a thread lets its turn pass, a core has taken the step that the
debug port asked for. -/
def awaitDivider : Proc → M → M
  | .thread t, m => m.passTurn t.val
  | .core c, m => endStep (.core c) m

theorem awaitDivider_frame (x : Proc) (m : M) :
    awaitDivider x m = { m with
      served := (awaitDivider x m).served
      mgt := { m.mgt with wdbg := (awaitDivider x m).mgt.wdbg } } := by
  cases x with
  | thread t => rfl
  | core c => simp only [awaitDivider]; rw [endStep_frame]

theorem awaitDivider_core_served (c : Fin 4) (m : M) : (awaitDivider (.core c) m).served = m.served := by
  simp only [awaitDivider]
  rw [endStep_frame]

/-- A divide that finds its divider busy does not issue. -/
theorem opAlu_busy {s : State} {i : Issue} {o : Op} {v : Word} (h : MayIssue s i o)
    (hv : aluVal o ((s.m.cpu i.x.key).g (fRa i.word)) ((s.m.cpu i.x.key).g (fRb i.word)) i.word = some v)
    (hu : usesDivider o = true) (hb : s.m.now < mapGet 0 s.m.div (dividerKey i.x)) :
    opAlu s.inForce o i s.m = awaitDivider i.x s.m := by
  have hd : (endStep i.x s.m).div = s.m.div := by rw [endStep_frame]
  have hn : (endStep i.x s.m).now = s.m.now := by rw [endStep_frame]
  calc opAlu s.inForce o i s.m = runAlu i o (endStep i.x s.m) := issueOp_runs h _ (by simp) _
    _ = awaitDivider i.x s.m := by
      simp only [runAlu, endStep_cpu, hv, hu, hd, hn, hb, and_self, if_true]
      cases i.x <;> rfl

/-! ### The statement -/

/-- Settles O1: every row of the tables computes its result, so it runs as `runAlu_next` says; a divide that finds its
divider busy does as `opAlu_busy` says. -/
theorem integerRuns : Obligations.IntegerRuns := by
  refine ⟨aluRuns_of aluRows_computes aluRows_isAlu, fun r hr hu s i h hb => ?_⟩
  have hall : r ∈ aluBasic ++ aluShifts ++ aluProducts ++ aluCompares ++ aluImmediates := by simp [hr]
  have hm := opAlu_busy h (aluRows_computes r hall _ _ _ h.decodes) hu hb
  have hf := awaitDivider_frame i.x s.m
  refine ⟨{ s with m := awaitDivider i.x s.m }, ?_, ?_, ?_⟩
  · rw [aluRows_isAlu r hall, State.upd_calm _ _ (by rw [hm, hf]; exact h.calm), hm]
  · exact congrArg (fun m => { s with m := m }) hf
  · cases i.x with
    | thread k => rfl
    | core c => exact awaitDivider_core_served c s.m

end Sys2Proof.Machine
end

section
/-! PROOFS. Branches and jumps (08, R192): what each row takes PC and the link register to, and a fetch that fails. -/

namespace Sys2Proof.Machine

/-- A branch that is taken when rs is 0 (R192). -/
theorem jumpOf_bz (k : Cpu) (w : BitVec 32) :
    jumpOf .bz k w = (decide (k.g (fRd w) = 0), pcPlus k (4 * (w.extractLsb' 0 21).toInt), 0) := rfl

theorem jumpOf_bnz (k : Cpu) (w : BitVec 32) :
    jumpOf .bnz k w = (decide (k.g (fRd w) ≠ 0), pcPlus k (4 * (w.extractLsb' 0 21).toInt), 0) := by
  rw [decide_not]
  rfl

theorem jumpOf_j (k : Cpu) (w : BitVec 32) : jumpOf .j k w = (true, pcPlus k (4 * (w.extractLsb' 0 26).toInt), 0) := rfl

theorem jumpOf_jal (k : Cpu) (w : BitVec 32) : jumpOf .jal k w = (true, pcPlus k (4 * (w.extractLsb' 0 26).toInt), 31) := rfl

theorem jumpOf_jr (k : Cpu) (w : BitVec 32) : jumpOf .jr k w = (true, (k.g (fRa w)).toNat, fRd w) := rfl

/-- A PC that is no multiple of 4 or lies outside the code cannot be fetched (R192, R207). -/
theorem fetchOk_eq_false {im : Image} {m : M} {x : Proc}
    (h : (m.cpu x.key).pc % 4 ≠ 0 ∨ (codeArea im m x).2 ≤ (m.cpu x.key).pc) : fetchOk im m x = false := by
  rcases h with h | h
  · simp [fetchOk, h]
  · cases x <;> simp [fetchOk] <;> omega

/-- Whatever the command, a fetch that fails ends as ACCESS with the PC (R192). -/
theorem issueOp_badFetch {s : State} {i : Issue} (want : Op → Bool) (run : M → M) (hc : canIssue s.m i.x = true)
    (ht : takenFirst s.inForce i.x s.m = none) (hf : fetchOk s.inForce s.m i.x = false) :
    issueOp s.inForce i want run s.m = raiseAccess s.inForce i.x (s.m.cpu i.x.key).pc (afterIssue s i) := by
  simp [issueOp, hc, ht, hf, afterIssue]

/-- A branch or jump at a PC that cannot be fetched. -/
theorem completes_of_badFetch {s : State} {i : Issue} {o : Op} {c : Instr}
    (he : exec c s = .next (s.upd fun im m => opJump im o i m)) (hc : canIssue s.m i.x = true)
    (ht : takenFirst s.inForce i.x s.m = none) (hf : fetchOk s.inForce s.m i.x = false) :
    Completes c s (raiseAccess s.inForce i.x (s.m.cpu i.x.key).pc (afterIssue s i)) := by
  rw [Completes, he, State.upd, opJump, issueOp_badFetch _ _ hc ht hf]

/-! ### The statement -/

/-- Settles O2: a branch or jump does as `runJump_next` says with the target and link of its row; a PC that cannot be
fetched fails before the command matters. -/
theorem jumpsRun : Obligations.JumpsRun := by
  intro s i
  refine ⟨fun h => runJump_next h (jumpOf_bz _ _), fun h => runJump_next h (jumpOf_bnz _ _),
    fun h => runJump_next h (jumpOf_j _ _), fun h => runJump_next h (jumpOf_jal _ _),
    fun h => runJump_next h (jumpOf_jr _ _), fun c hm hc ht hp => ?_⟩
  have hf := fetchOk_eq_false hp
  simp only [List.mem_cons, List.not_mem_nil, or_false] at hm
  rcases hm with rfl | rfl | rfl | rfl | rfl
  · exact completes_of_badFetch (o := .bz) rfl hc ht hf
  · exact completes_of_badFetch (o := .bnz) rfl hc ht hf
  · exact completes_of_badFetch (o := .j) rfl hc ht hf
  · exact completes_of_badFetch (o := .jal) rfl hc ht hf
  · exact completes_of_badFetch (o := .jr) rfl hc ht hf

end Sys2Proof.Machine
end

section
/-! PROOFS. Bits of numbers: writing one bit, the numbers of the set bits, and a number given by its set bits. -/

namespace Sys2Proof

/-- Adding 2^b where bit b is clear sets that bit alone: no carry leaves it. -/
theorem bitAt_add_two_pow {x b : Nat} (h : bitAt x b = false) (n : Nat) :
    bitAt (x + 2 ^ b) n = if n = b then true else bitAt x n := by
  rw [Nat.add_comm]
  rcases Nat.lt_trichotomy n b with hn | rfl | hn
  · rw [if_neg hn.ne]
    exact Nat.testBit_two_pow_add_gt hn x
  · rw [if_pos rfl, bitAt, Nat.testBit_two_pow_add_eq]
    exact congrArg not h
  · obtain ⟨k, rfl⟩ := Nat.exists_eq_add_of_lt hn
    have heven : x / 2 ^ b % 2 = 0 := by simpa [bitAt, Nat.testBit_eq_decide_div_mod_eq] using h
    have hshift (y : Nat) : y.testBit (b + k + 1) = (y / 2 ^ b / 2).testBit k := by
      rw [← Nat.testBit_succ, Nat.testBit_div_two_pow]
      congr 1
      omega
    rw [if_neg hn.ne', bitAt, bitAt, hshift, hshift, Nat.add_div_left _ (Nat.two_pow_pos b)]
    congr 1
    omega

/-- A written bit reads back, and every other bit is as before. -/
theorem bitAt_putBit (x b n : Nat) (v : Bool) : bitAt (putBit x b v) n = if n = b then v else bitAt x n := by
  by_cases hx : bitAt x b = v
  · rw [putBit, if_pos hx]
    split
    next e => rw [e, hx]
    next => rfl
  · cases v with
    | true => rw [putBit, if_neg hx, if_pos rfl, bitAt_add_two_pow (Bool.eq_false_of_not_eq_true hx)]
    | false =>
      have hset : bitAt x b = true := Bool.eq_true_of_not_eq_false hx
      have hsum : x - 2 ^ b + 2 ^ b = x := Nat.sub_add_cancel (Nat.ge_two_pow_of_testBit hset)
      have hclear : bitAt (x - 2 ^ b) b = false := by
        rwa [← hsum, Nat.add_comm, bitAt, Nat.testBit_two_pow_add_eq, Bool.not_eq_true'] at hset
      have hback := bitAt_add_two_pow hclear n
      rw [hsum] at hback
      rw [putBit, if_neg hx, if_neg Bool.false_ne_true, hback]
      split
      next e => rw [e, hclear]
      next => rfl

theorem bitAt_mod_two_pow (x : Nat) {n w : Nat} (h : n < w) : bitAt (x % 2 ^ w) n = bitAt x n := by
  simp [bitAt, Nat.testBit_mod_two_pow, h]

theorem mem_setBits {x w n : Nat} : n ∈ setBits x w ↔ n < w ∧ bitAt x n = true := by
  simp [setBits]

/-- The number whose set bits are those of x among the low w that p keeps. -/
theorem bitAt_sum_filter_setBits (x w : Nat) (p : Nat → Bool) (n : Nat) :
    bitAt (((setBits x w).filter p).map (2 ^ ·)).sum n = decide (n ∈ (setBits x w).filter p) := by
  have hs : ((setBits x w).filter p).SortedLT := ((List.pairwise_lt_range.filter _).filter _).sortedLT
  rw [Bool.eq_iff_iff, decide_eq_true_iff, bitAt, ← Nat.mem_bitIndices, Nat.bitIndices_sum_map_two_pow hs]

end Sys2Proof
end

section
/-! PROOFS. Acknowledging and clearing interrupt bits (13, R330, R331, R339): what writing a source's bit does to the bank
registers, and what a write of 1 to ACT or PEND bits does. -/

namespace Sys2Proof

/-! ### Bank registers -/

/-- A bank register has a bit for each of its 64 sources. -/
theorem bankFld_width (k : BankReg) (o : Nat) (b : Bank) : (fldSpec (bankFld k o b)).w = 64 := by
  by_cases h : o = 8
  · rw [h]
    cases k <;> cases b <;> rfl
  · cases k <;> cases b <;> simp only [bankFld, if_neg h] <;> rfl

theorem bankFld_act_ne_strayPolicy (o : Nat) (b : Bank) : Fld.IRQ_CFG_STRAY_ACK ≠ bankFld .act o b := by
  by_cases h : o = 8
  · rw [h]
    cases b <;> decide
  · cases b <;> simp only [bankFld, if_neg h] <;> decide

/-- An owner has register i of a bank: the owner is there, the wings have no rings, and a numbered bank has 128 registers. -/
def HasBank (im : Image) (o : Nat) (b : Bank) (i : Nat) : Prop :=
  (o = 8 ∨ im.enabled o = true) ∧ ¬(o = 8 ∧ b = .r) ∧ (b = .r ∨ i < 128)

/-- The test with which a write of ACT or PEND bits is ignored. -/
theorem HasBank.not_ignored {im : Image} {o : Nat} {b : Bank} {i : Nat} (h : HasBank im o b i) :
    ¬((o ≠ 8 ∧ im.enabled o = false) ∨ (o = 8 ∧ b = .r) ∨ (b ≠ .r ∧ 128 ≤ i)) := by
  obtain ⟨howner, hring, hreg⟩ := h
  rintro (⟨h8, hoff⟩ | hwings | ⟨hb, hi⟩)
  · exact howner.elim h8 (by simp [hoff])
  · exact hring hwings
  · exact hreg.elim hb (by omega)

/-- Bit n of bank register i stands for a source whose register is i. -/
theorem srcIdx_bankSrc (b : Bank) {i n : Nat} (hi : i < 1024) (hn : n < 64) :
    srcIdx (bankSrc b i n) = i := by
  simp only [srcIdx, bankSrc]
  split <;> omega

theorem bankSrc_mod (b : Bank) (i : Nat) {n : Nat} (hn : n < 64) : bankSrc b i n % 64 = n := by
  simp only [bankSrc]
  split <;> omega

/-! ### Writing a source's bit -/

section
variable (im : Image) (k : BankReg) (o src : Nat) (v : Bool) (m : M)

/-- Every other register field keeps its value. -/
theorem setSrcBit_fld_ne {G : Fld} (j : Nat) (h : G ≠ bankFld k o (srcBank im o src)) :
    (setSrcBit im k o src v m).fld G j = m.fld G j :=
  M.fld_setFld_ne _ _ fun e => h e.1

/-- The register of the source keeps its other bits. -/
theorem bitAt_setSrcBit {n : Nat} (hn : n < 64) :
    bitAt ((setSrcBit im k o src v m).fld (bankFld k o (srcBank im o src)) (bankInst o (srcIdx src))) n =
      if n = src % 64 then v else bitAt (m.fld (bankFld k o (srcBank im o src)) (bankInst o (srcIdx src))) n := by
  rw [setSrcBit, M.fld_setFld_same, bankFld_width, bitAt_mod_two_pow _ hn, bitAt_putBit]

end

/-! ### What a row's arrival leaves alone -/

@[simp] theorem touchRow_fld (im : Image) (a : Access) (m : M) (F : Fld) (i : Nat) :
    (touchRow im a m).fld F i = m.fld F i := by
  rw [touchRow_frame]
  rfl

@[simp] theorem touchRow_flag (im : Image) (a : Access) (m : M) (F : Fld) (i : Nat) :
    (touchRow im a m).flag F i = m.flag F i := by
  rw [touchRow_frame]
  rfl

@[simp] theorem touchRow_startBits (im im' : Image) (a : Access) (m : M) (o src : Nat) :
    startBits im (touchRow im' a m) o src = startBits im m o src := by
  rw [touchRow_frame]
  rfl

/-! ### Acknowledging -/

/-- The sources of an ACT register that are active and were so when the cycle began, as bits. -/
def ackLive (im : Image) (m : M) (o : Nat) (b : Bank) (i : Nat) : Nat :=
  (((setBits (m.fld (bankFld .act o b) (bankInst o i)) 64).filter
    (fun n => bitAt (startBits im m o (bankSrc b i n)) 1)).map (2 ^ ·)).sum

/-- Clears the ACT bits of the sources that the low 64 bits of x stand for. -/
def ackClear (im : Image) (o : Nat) (b : Bank) (i x : Nat) (m : M) : M :=
  (setBits x 64).foldl (fun m n => setSrcBit im .act o (bankSrc b i n) false m) m

@[simp] theorem ackLive_touchRow (im im' : Image) (a : Access) (m : M) (o : Nat) (b : Bank) (i : Nat) :
    ackLive im (touchRow im' a m) o b i = ackLive im m o b i := by
  simp [ackLive]

theorem bitAt_ackLive (im : Image) (m : M) (o : Nat) (b : Bank) (i : Nat) {n : Nat} (hn : n < 64) :
    bitAt (ackLive im m o b i) n =
      (bitAt (m.fld (bankFld .act o b) (bankInst o i)) n && bitAt (startBits im m o (bankSrc b i n)) 1) := by
  rw [ackLive, bitAt_sum_filter_setBits, Bool.eq_iff_iff]
  simp [mem_setBits, hn]

/-- Clearing ACT bits writes ACT registers only. -/
theorem foldl_clearAct_fld (im : Image) (o : Nat) (b : Bank) (i : Nat) {G : Fld} (j : Nat)
    (h : ∀ c, G ≠ bankFld .act o c) (l : List Nat) (m : M) :
    (l.foldl (fun m n => setSrcBit im .act o (bankSrc b i n) false m) m).fld G j = m.fld G j := by
  induction l generalizing m with
  | nil => rfl
  | cons n l ih => rw [List.foldl_cons, ih, setSrcBit_fld_ne _ _ _ _ _ _ _ (h _)]

theorem ackClear_strayPolicy (im : Image) (o : Nat) (b : Bank) (i x : Nat) (m : M) (j : Nat) :
    (ackClear im o b i x m).flag .IRQ_CFG_STRAY_ACK j = m.flag .IRQ_CFG_STRAY_ACK j :=
  congrArg (· != 0) (foldl_clearAct_fld im o b i j (bankFld_act_ne_strayPolicy o) _ m)

/-- When the bits of a register are sources of its bank, each of them that is cleared reads 0 and the others are as before. -/
theorem bitAt_foldl_clearAct {im : Image} {o : Nat} {b : Bank} {i : Nat} (hi : i < 1024)
    (hs : ∀ n, n < 64 → srcBank im o (bankSrc b i n) = b) {n : Nat} (hn : n < 64) (l : List Nat) (hl : ∀ k ∈ l, k < 64)
    (m : M) :
    bitAt ((l.foldl (fun m n => setSrcBit im .act o (bankSrc b i n) false m) m).fld (bankFld .act o b) (bankInst o i)) n =
      (bitAt (m.fld (bankFld .act o b) (bankInst o i)) n && decide (n ∉ l)) := by
  induction l generalizing m with
  | nil => simp
  | cons k l ih =>
    obtain ⟨hk, hl⟩ := List.forall_mem_cons.1 hl
    have hbit := bitAt_setSrcBit im .act o (bankSrc b i k) false m hn
    rw [hs k hk, srcIdx_bankSrc b hi hk, bankSrc_mod b i hk] at hbit
    rw [List.foldl_cons, ih hl, hbit]
    by_cases e : n = k <;> simp [e]

/-- The ACT register after the write: the bits written 1 that were active when the cycle began are cleared. -/
theorem bitAt_ackClear {im : Image} {o : Nat} {b : Bank} {i : Nat} (hi : i < 1024)
    (hs : ∀ n, n < 64 → srcBank im o (bankSrc b i n) = b) (bits : Nat) (m : M) {n : Nat} (hn : n < 64) :
    bitAt ((ackClear im o b i (bits &&& ackLive im m o b i) m).fld (bankFld .act o b) (bankInst o i)) n =
      (bitAt (m.fld (bankFld .act o b) (bankInst o i)) n &&
        !(bits.testBit n && bitAt (startBits im m o (bankSrc b i n)) 1)) := by
  have hwritten : decide (n ∉ setBits (bits &&& ackLive im m o b i) 64) =
      !(bits.testBit n && bitAt (ackLive im m o b i) n) := by
    rw [Bool.eq_iff_iff]
    simp [mem_setBits, hn, bitAt]
  rw [ackClear, bitAt_foldl_clearAct hi hs hn _ (fun k hk => (mem_setBits.1 hk).1), hwritten, bitAt_ackLive _ _ _ _ _ hn]
  cases bitAt (m.fld (bankFld .act o b) (bankInst o i)) n <;> simp

section
variable {im : Image} {o : Nat} {b : Bank} {i : Nat} (bits : Nat) (m : M)

/-- The wings' strays are counted and fire nothing (R339). -/
theorem opAcknowledge_wings (h : HasBank im o b i) (ho : o = 8) :
    opAcknowledge im o b i bits m = (ackClear im o b i (bits &&& ackLive im m o b i) m).bumpN .IRQ_WSTRAY_COUNT 0
      (popCount (clearBits bits (ackLive im m o b i)) 64) := by
  rw [opAcknowledge, if_neg h.not_ignored]
  simp only [ho, ne_eq, not_true_eq_false, false_and, if_false, if_true]
  rfl

/-- A partition's strays are counted, and under the FAULT policy a write with any of them fires once (R339). -/
theorem opAcknowledge_part (h : HasBank im o b i) (ho : o ≠ 8) :
    opAcknowledge im o b i bits m =
      if clearBits bits (ackLive im m o b i) ≠ 0 ∧ m.flag .IRQ_CFG_STRAY_ACK (pinst o 0) = true then
        fireP im (0x078 + o) i o ((ackClear im o b i (bits &&& ackLive im m o b i) m).bumpN .IRQ_STRAY_ACK_COUNT (pinst o 0)
          (popCount (clearBits bits (ackLive im m o b i)) 64))
      else (ackClear im o b i (bits &&& ackLive im m o b i) m).bumpN .IRQ_STRAY_ACK_COUNT (pinst o 0)
        (popCount (clearBits bits (ackLive im m o b i)) 64) := by
  have hpolicy (n : Nat) : ((ackClear im o b i (bits &&& ackLive im m o b i) m).bumpN .IRQ_STRAY_ACK_COUNT (pinst o 0) n).flag
      .IRQ_CFG_STRAY_ACK (pinst o 0) = m.flag .IRQ_CFG_STRAY_ACK (pinst o 0) := by
    rw [M.flag, M.fld_bumpN, if_neg (by simp)]
    exact ackClear_strayPolicy ..
  rw [← hpolicy, opAcknowledge, if_neg h.not_ignored]
  simp only [ho, ne_eq, not_false_eq_true, true_and, if_false]
  rfl

/-- Each set PEND bit that is written 1 clears unless its source has an edge or a pulse in this cycle, and then high level
sources give their events again (R330, R331). -/
theorem opPendClear_of_hasBank (h : HasBank im o b i) :
    opPendClear im o b i bits m = irqRelevel im o ((setBits (bits &&& m.fld (bankFld .pend o b) (bankInst o i)) 64).foldl
      (fun m n => setSrcBit im .pend o (bankSrc b i n) (bitAt (startBits im m o (bankSrc b i n)) 2) m) m) := by
  rw [opPendClear, if_neg h.not_ignored]

end

namespace Machine

/-- A register row that reaches its register completes with what the register does. -/
theorem completes_of_rowTaken {s : State} {a : Access} {c : Instr} {m' : M} (h : RowTaken s a)
    (hc : exec c s = .next (s.upd fun im m => opRow im a m))
    (hm : runRow s.inForce a (touchRow s.inForce a s.m) = m') : Completes c s m' := by
  rw [Completes, hc, State.upd, opRow_taken h, hm]

/-! ### The statement -/

/-- Settles O30: a row that reaches its register does as `opAcknowledge_wings`, `opAcknowledge_part` and `opPendClear_of_hasBank`
say, its arrival changing no field; the bits left are those of `bitAt_ackClear`. -/
theorem acknowledgeClears : Obligations.AcknowledgeClears := by
  intro s o b i bits im howner hring hreg F P k ack clr cur live stray m
  have hbank : HasBank im o.val b i.val := ⟨howner, hring, hreg⟩
  have hlive : ackLive im (touchRow im ack s.m) o.val b i.val = live := ackLive_touchRow ..
  have hm : ackClear im o.val b i.val (bits.toNat &&& live) (touchRow im ack s.m) = m := rfl
  refine ⟨fun ht ho => completes_of_rowTaken ht rfl ?_, fun ht ho hcount => completes_of_rowTaken ht rfl ?_,
    fun ht ho hfault hstray => completes_of_rowTaken ht rfl ?_, fun hs n hn => ?_,
    fun ht => completes_of_rowTaken ht rfl ?_⟩
  · exact (opAcknowledge_wings _ _ hbank ho).trans (by rw [hlive, hm])
  · refine (opAcknowledge_part _ _ hbank ho).trans ?_
    rw [hlive, hm, touchRow_flag]
    refine if_neg fun ⟨hstray, hfault⟩ => ?_
    exact hcount.elim (fun hf => by simp [hf] at hfault) hstray
  · refine (opAcknowledge_part _ _ hbank ho).trans ?_
    rw [hlive, hm, touchRow_flag]
    exact if_pos ⟨hstray, hfault⟩
  · have hbit := bitAt_ackClear i.isLt hs bits.toNat (touchRow im ack s.m) hn
    rwa [hlive, hm, touchRow_fld, touchRow_startBits] at hbit
  · exact (opPendClear_of_hasBank _ _ hbank).trans (by rw [touchRow_fld])

end Machine

end Sys2Proof
end

section
/-! PROOFS. Mailboxes (14, R346 to R348, R351): what a header, a payload word, a read, a flush and a pointer mismatch do to a
partition's FIFOs. -/

namespace Sys2Proof

@[simp] theorem touchRow_mbxOf (im : Image) (a : Access) (m : M) (p d : Nat) : (touchRow im a m).mbxOf p d = m.mbxOf p d := by
  rw [touchRow_frame]
  rfl

theorem bitsAt_zero (x w : Nat) : bitsAt x 0 w = x % 2 ^ w := by rw [bitsAt_eq, pow_zero, Nat.div_one]

/-! ### A FIFO -/

@[simp] theorem Mbx.count_closed (l : List (List Nat)) : (⟨l, none⟩ : Mbx).count = l.length := rfl

@[simp] theorem Mbx.words_closed (l : List (List Nat)) : (⟨l, none⟩ : Mbx).words = (l.map List.length).sum := rfl

/-- A FIFO after a header that it has room for: the item is complete at once when the header is its only word. -/
def Mbx.putHead (x : Mbx) (w : Nat) : Mbx :=
  if w / 256 % 8 + 1 = 1 then ⟨x.items ++ [[w % 2 ^ 63 + 2 ^ 63]], none⟩
  else ⟨x.items, some (w / 256 % 8 + 1, [w % 2 ^ 63 + 2 ^ 63])⟩

theorem Mbx.pop_of_empty {x : Mbx} (h : x.items = []) : x.pop = (0xE0, x) := by
  rw [Mbx.pop, h]
  rfl

/-- The oldest item loses its first word, and leaves with its last. -/
theorem Mbx.pop_of_cons {x : Mbx} {y : Nat} {l : List Nat} {u : List (List Nat)} (h : x.items = (y :: l) :: u) :
    x.pop = (y, { x with items := if l = [] then u else l :: u }) := by
  rw [Mbx.pop, h]
  cases l <;> rfl

/-! ### Sending -/

/-- Counts the words of the item still open in the FIFO that a side writes (R346). -/
def countTorn (e : Side) (p : Nat) (m : M) : M :=
  match (m.mbxOf p (txFifo e)).opened with
  | none => m
  | some (_, l) => m.bumpN (tornFld e) (pinst p 0) l.length

/-- What is still open when a row arrives was open before. -/
theorem countTorn_touchRow (im : Image) (a : Access) (e : Side) (p : Nat) (m : M) :
    countTorn e p (touchRow im a m) = match (m.mbxOf p (txFifo e)).opened with
      | none => touchRow im a m
      | some (_, l) => (touchRow im a m).bumpN (tornFld e) (pinst p 0) l.length := by
  rw [countTorn, touchRow_mbxOf]

section
variable {im : Image} {p : Nat} (h : im.enabled p = true) (e : Side) (m : M)
include h

/-- A header: what is still open is counted and discarded, and the rest of the FIFO decides whether the new item opens. -/
theorem opTxHead_eq (w : Nat) :
    opTxHead im e p w m = mbxSync im p
      (if 64 ≤ (m.mbxOf p (txFifo e)).items.length ∨
          512 < ((m.mbxOf p (txFifo e)).items.map List.length).sum + (w / 256 % 8 + 1) then
        ((countTorn e p m).setMbx p (txFifo e) ⟨(m.mbxOf p (txFifo e)).items, none⟩).setFlag (overFld e) (pinst p 0) true
      else (countTorn e p m).setMbx p (txFifo e) ((m.mbxOf p (txFifo e)).putHead w)) := by
  have hroom (s n : Nat) : 512 - s < n + 1 ↔ 512 < s + (n + 1) := by omega
  have htorn : (match (m.mbxOf p (txFifo e)).opened with
      | some (_, l) => m.bumpN (tornFld e) (pinst p 0) l.length
      | none => m) = countTorn e p m := by
    rw [countTorn]
    cases (m.mbxOf p (txFifo e)).opened <;> rfl
  rw [opTxHead, if_neg (by simp [h]), ← htorn]
  simp only [bitsAt_zero, bitsAt_eq w 8 3, Mbx.count_closed, Mbx.words_closed, hroom, Mbx.putHead,
    apply_ite (M.setMbx _ _ _)]
  rfl

theorem opTxHead_fits {w : Nat} (hi : (m.mbxOf p (txFifo e)).items.length < 64)
    (hw : ((m.mbxOf p (txFifo e)).items.map List.length).sum + (w / 256 % 8 + 1) ≤ 512) :
    opTxHead im e p w m =
      mbxSync im p ((countTorn e p m).setMbx p (txFifo e) ((m.mbxOf p (txFifo e)).putHead w)) := by
  rw [opTxHead_eq h, if_neg (by omega)]

theorem opTxHead_overruns {w : Nat} (hfull : 64 ≤ (m.mbxOf p (txFifo e)).items.length ∨
      512 < ((m.mbxOf p (txFifo e)).items.map List.length).sum + (w / 256 % 8 + 1)) :
    opTxHead im e p w m = mbxSync im p
      (((countTorn e p m).setMbx p (txFifo e) ⟨(m.mbxOf p (txFifo e)).items, none⟩).setFlag (overFld e) (pinst p 0) true) := by
  rw [opTxHead_eq h, if_pos hfull]

theorem opTxData_of_open {w k : Nat} {l : List Nat} (hw : w < 2 ^ 64) (ho : (m.mbxOf p (txFifo e)).opened = some (k, l)) :
    opTxData im e p w m = mbxSync im p (m.setMbx p (txFifo e)
      (if l.length + 1 = k then ⟨(m.mbxOf p (txFifo e)).items ++ [l ++ [w]], none⟩
      else ⟨(m.mbxOf p (txFifo e)).items, some (k, l ++ [w])⟩)) := by
  rw [opTxData, if_neg (by simp [h])]
  simp only [ho, bitsAt_zero, Nat.mod_eq_of_lt hw, List.length_append, List.length_singleton]

theorem opTxData_of_closed (w : Nat) (ho : (m.mbxOf p (txFifo e)).opened = none) :
    opTxData im e p w m = m.bump (tornFld e) (pinst p 0) := by
  rw [opTxData, if_neg (by simp [h])]
  simp only [ho]

/-! ### Receiving -/

/-- An aligned read of 8 bytes takes what `Mbx.pop` takes. -/
theorem opMbxRx_aligned {y : Nat} {x : Mbx} (hpop : (m.mbxOf p (rxFifo e)).pop = (y, x)) :
    opMbxRx im e p 8 0 m = (mbxSync im p (m.setMbx p (rxFifo e) x)).emit
      (.regData (rxPort e p).1 (rxPort e p).2 (leBytes 8 y)) := by
  simp [opMbxRx, h, mbxPop, hpop]

theorem opMbxRx_other {n off : Nat} (hn : n ≠ 8 ∨ off ≠ 0) :
    opMbxRx im e p n off m = (setRsvd (rxPort e p).1 bkMbx ((rxPort e p).2 + off) m).emit
      (.regData (rxPort e p).1 ((rxPort e p).2 + off) (List.replicate n 0)) := by
  simp [opMbxRx, h, hn]

/-! ### Emptying -/

theorem opFlushTx_of_enabled : opFlushTx im e p m = mbxSync im p (m.setMbx p (txFifo e) ⟨[], none⟩) := if_pos h

theorem opFlushRx_of_enabled : opFlushRx im e p m = mbxSync im p (m.setMbx p (rxFifo e) ⟨[], none⟩) := if_pos h

/-- A pointer mismatch of the FIFO to the wings: the host's side transmits there. -/
theorem opMbxMismatch_toWings : opMbxMismatch im p false m = fireP im (0x090 + p) 0 p
    (((mbxSync im p (m.setMbx p 0 ⟨[], none⟩)).setFlag .MBX_STS_PTR_ERR_TX (pinst p 0) true).setFlag
      .MBX_WSTS_PTR_ERR_RX (pinst p 0) true) := by
  rw [opMbxMismatch, if_neg (by simp [h])]
  rfl

/-- A pointer mismatch of the FIFO from the wings. -/
theorem opMbxMismatch_fromWings : opMbxMismatch im p true m = fireP im (0x090 + p) 1 p
    (((mbxSync im p (m.setMbx p 1 ⟨[], none⟩)).setFlag .MBX_STS_PTR_ERR_RX (pinst p 0) true).setFlag
      .MBX_WSTS_PTR_ERR_TX (pinst p 0) true) := by
  rw [opMbxMismatch, if_neg (by simp [h])]
  rfl

end

namespace Machine

/-! ### Commands that complete -/

/-- A command whose operation comes to m' completes with m'. -/
theorem completes_of_upd {s : State} {c : Instr} {f : Image → M → M} {m' : M} (hc : exec c s = .next (s.upd f))
    (hm : f s.inForce s.m = m') : Completes c s m' := by
  rw [Completes, hc, State.upd, hm]

/-- A read row that reaches its register completes with what the register does. -/
theorem completes_of_rowTaken_read {s : State} {a : Access} {c : Instr} {v : View} {off : Nat} {m' : M} (h : RowTaken s a)
    (hc : exec c s = .next (s.upd fun im m => opRowRead im a v off m))
    (hm : runRow s.inForce a (touchRow s.inForce a s.m) = m') : Completes c s m' := by
  have hread : opRowRead s.inForce a v off s.m = opRow s.inForce a s.m := by
    rw [opRowRead, opRow, if_pos h.1, if_pos h.1]
  exact completes_of_upd hc (hread.trans ((opRow_taken h).trans hm))

/-! ### The statement -/

/-- Settles O31: each row that reaches its register, and each pointer mismatch, does as the equation of its operation says, its
arrival leaving the FIFOs as they are. -/
theorem mailboxesRun : Obligations.MailboxesRun := by
  refine ⟨fun s e p w hp => ?_, fun s e p hp => ?_⟩
  · intro im x n h y m0 m1 m
    have hx (a : Access) : (touchRow im a s.m).mbxOf p.val (txFifo e) = x := touchRow_mbxOf ..
    have hm : countTorn e p.val m0 = m := countTorn_touchRow ..
    refine ⟨fun ht hi hw => completes_of_rowTaken ht rfl ?_, fun ht hfull => completes_of_rowTaken ht rfl ?_,
      fun k l ht ho => completes_of_rowTaken ht rfl ?_, fun ht ho => completes_of_rowTaken ht rfl ?_⟩
    · refine (opTxHead_fits hp e m0 (by rwa [hx]) (by rwa [hx])).trans ?_
      rw [hx, hm]
      rfl
    · refine (opTxHead_overruns hp e m0 (by rwa [hx])).trans ?_
      rw [hx, hm]
    · refine (opTxData_of_open hp e m1 w.isLt (by rwa [hx])).trans ?_
      rw [hx]
    · exact opTxData_of_closed hp e m1 _ (by rwa [hx])
  · intro im x v a t
    have hx (r : Access) : (t r).mbxOf p.val (rxFifo e) = x := touchRow_mbxOf ..
    refine ⟨fun ht hi => completes_of_rowTaken_read ht rfl ?_, fun y l u ht hi => completes_of_rowTaken_read ht rfl ?_,
      fun k off ht hk => completes_of_rowTaken_read ht rfl ?_, fun ht => completes_of_rowTaken ht rfl ?_,
      fun ht => completes_of_rowTaken ht rfl ?_, completes_of_upd rfl ?_, completes_of_upd rfl ?_⟩
    · exact opMbxRx_aligned hp e _ ((congrArg Mbx.pop (hx _)).trans (Mbx.pop_of_empty hi))
    · exact opMbxRx_aligned hp e _ ((congrArg Mbx.pop (hx _)).trans (Mbx.pop_of_cons hi))
    · exact opMbxRx_other hp e _ hk
    · exact opFlushTx_of_enabled hp e _
    · exact opFlushRx_of_enabled hp e _
    · exact opMbxMismatch_toWings hp _
    · exact opMbxMismatch_fromWings hp _

end Machine

end Sys2Proof
end

section
/-! PROOFS. Link event FIFOs and the trace FIFO (14, R353 to R358, R377): what an event, a read and a pointer mismatch do to a
link's events, and what PUT, GET, MARK and REWIND do to the trace. -/

namespace Sys2Proof

/-! ### An event entry -/

/-- Entries are ordered by the low byte of their code. -/
theorem evtWord_code (m : M) (code a b : Nat) : evtWord m code a b % 256 = code % 256 := by
  rw [evtWord]
  omega

/-- An entry holds what R353 lists. -/
theorem evtWord_fields (m : M) {code : Nat} (a b : Nat) (h : code < 256) :
    evtWord m code a b % 2 ^ 8 = code ∧ evtWord m code a b / 2 ^ 8 % 2 ^ 8 = a % 256 ∧
      evtWord m code a b / 2 ^ 16 % 2 ^ 16 = b % 256 ∧
      evtWord m code a b / 2 ^ 32 % 2 ^ 31 = m.fld .TCK_COUNT_COUNT 0 % 2 ^ 31 ∧ evtWord m code a b / 2 ^ 63 = 1 := by
  rw [evtWord]
  omega

/-- An entry goes behind those it need not precede. -/
theorem evtAdd_append (t w : Nat) (r1 r2 : List (Nat × Nat)) (hbefore : ∀ e ∈ r1, e.1 = t → e.2 % 256 ≤ w % 256)
    (hafter : ∀ e r, r2 = e :: r → e.1 = t ∧ w % 256 < e.2 % 256) : evtAdd t w (r1 ++ r2) = r1 ++ (t, w) :: r2 := by
  induction r1 with
  | nil =>
    cases r2 with
    | nil => rfl
    | cons e r => exact if_pos (hafter e r rfl)
  | cons e r1 ih =>
    obtain ⟨he, hr1⟩ := List.forall_mem_cons.1 hbefore
    have hstays : ¬(e.1 = t ∧ w % 256 < e.2 % 256) := fun ⟨ht, hlt⟩ => absurd (he ht) (by omega)
    rw [List.cons_append, evtAdd, if_neg hstays, ih hr1, List.cons_append]

/-- An event takes its place among the entries that a full FIFO keeps, and counts the one that is lost. -/
theorem evtPush_place (l code a b : Nat) (m : M) {r1 r2 : List (Nat × Nat)}
    (hq : (if (mapGet [] m.evt (l, 0)).length < 32 then mapGet [] m.evt (l, 0) else (mapGet [] m.evt (l, 0)).tail) = r1 ++ r2)
    (hbefore : ∀ e ∈ r1, e.1 = m.now → e.2 % 256 ≤ code % 256)
    (hafter : ∀ e r, r2 = e :: r → e.1 = m.now ∧ code % 256 < e.2 % 256) :
    evtPush l code a b m =
      if (mapGet [] m.evt (l, 0)).length < 32 then
        ({ m with evt := mapPut m.evt (l, 0) (r1 ++ (m.now, evtWord m code a b) :: r2) } : M).setFld .TRC_EVT_STS_COUNT l
          (r1.length + 1 + r2.length)
      else
        (({ m with evt := mapPut m.evt (l, 0) (r1 ++ (m.now, evtWord m code a b) :: r2) } : M).setFld .TRC_EVT_STS_COUNT l
          (r1.length + 1 + r2.length)).bump .TRC_EVT_STS_LOST l := by
  have hkept : (if 32 ≤ (mapGet [] m.evt (l, 0)).length then (mapGet [] m.evt (l, 0)).drop 1 else mapGet [] m.evt (l, 0)) =
      r1 ++ r2 := by
    rw [← hq, ← ite_not]
    simp only [Nat.not_le, List.drop_one]
  have hadd : evtAdd m.now (evtWord m code a b) (r1 ++ r2) = r1 ++ (m.now, evtWord m code a b) :: r2 :=
    evtAdd_append _ _ _ _ (by rwa [evtWord_code]) (by rwa [evtWord_code])
  have hlen : (r1 ++ (m.now, evtWord m code a b) :: r2).length = r1.length + 1 + r2.length := by
    rw [List.length_append, List.length_cons]
    omega
  simp only [evtPush, hkept, hadd, hlen]
  rw [← ite_not]
  simp only [Nat.not_le]

/-! ### Reading events -/

section
variable {im : Image} {l : Nat} (m : M)

theorem opEvtRead_of_empty (hl : isLink im l = true) (hq : mapGet [] m.evt (l, 0) = []) :
    opEvtRead im l m = m.emit (.regData .owner (regOff .owner .TRC_EVT l) (leBytes 8 0xE0)) := by
  simp only [opEvtRead, evtPop, hl, hq]
  rfl

theorem opEvtRead_of_cons {w : Nat × Nat} {r : List (Nat × Nat)} (hl : isLink im l = true)
    (hq : mapGet [] m.evt (l, 0) = w :: r) :
    opEvtRead im l m = (({ m with evt := mapPut m.evt (l, 0) r } : M).setFld .TRC_EVT_STS_COUNT l r.length).emit
      (.regData .owner (regOff .owner .TRC_EVT l) (leBytes 8 w.2)) := by
  simp only [opEvtRead, evtPop, hl, hq]
  rfl

theorem opEvtRead_of_no_link (hl : isLink im l = false) :
    opEvtRead im l m = m.emit (.regData .owner (regOff .owner .TRC_EVT l) (leBytes 8 0)) := by
  rw [opEvtRead, evtPop, if_pos hl]

end

/-! ### What the note of a reserved bit leaves alone -/

theorem setRsvd_frame (v : View) (k off : Nat) (m : M) :
    setRsvd v k off m = { m with f := (setRsvd v k off m).f, cyc := (setRsvd v k off m).cyc } := by
  simp only [setRsvd, bstsRecord]
  split <;> rfl

/-- Only block status fields change. -/
theorem setRsvd_fld (v : View) (k off : Nat) (m : M) {F : Fld} (i : Nat)
    (h : F ∉ [.BSTS_RSVD_WR, .BSTS_FIRST_OFF, .BSTS_SPACE, .BSTS_OFF_VALID]) : (setRsvd v k off m).fld F i = m.fld F i := by
  simp only [List.mem_cons, List.not_mem_nil, or_false, not_or] at h
  obtain ⟨hrsvd, hoff, hspace, hvalid⟩ := h
  simp only [setRsvd, bstsRecord]
  split
  · simp [M.fld_setFlag, hrsvd]
  · simp [M.fld_setFlag, M.fld_setFld, hrsvd, hoff, hspace, hvalid]

section
variable (v : View) (reg : Reg) (n x : Nat) (m : M)

theorem noteRsvd_frame :
    noteRsvd v reg n x m = { m with f := (noteRsvd v reg n x m).f, cyc := (noteRsvd v reg n x m).cyc } := by
  rw [noteRsvd]
  split
  · rfl
  · exact setRsvd_frame ..

@[simp] theorem noteRsvd_trc : (noteRsvd v reg n x m).trc = m.trc := by rw [noteRsvd_frame]

@[simp] theorem noteRsvd_react : (noteRsvd v reg n x m).react = m.react := by rw [noteRsvd_frame]

theorem noteRsvd_fld {F : Fld} (i : Nat) (h : F ∉ [.BSTS_RSVD_WR, .BSTS_FIRST_OFF, .BSTS_SPACE, .BSTS_OFF_VALID]) :
    (noteRsvd v reg n x m).fld F i = m.fld F i := by
  rw [noteRsvd]
  split
  · rfl
  · exact setRsvd_fld _ _ _ _ _ h

@[simp] theorem noteRsvd_markValid : (noteRsvd v reg n x m).flag .TRC_STS_MARK_VALID 0 = m.flag .TRC_STS_MARK_VALID 0 :=
  congrArg (· != 0) (noteRsvd_fld v reg n x m 0 (by decide))

@[simp] theorem noteRsvd_lost : (noteRsvd v reg n x m).fld .TRC_CNT_LOST 0 = m.fld .TRC_CNT_LOST 0 :=
  noteRsvd_fld v reg n x m 0 (by decide)

end

/-! ### Counters and flags -/

theorem M.flag_setFlag_false (m : M) (F : Fld) (i : Nat) : (m.setFlag F i false).flag F i = false := by
  simp [M.flag, M.fld_setFlag]

theorem M.flag_bump_ne (m : M) {F G : Fld} (i j : Nat) (h : G ≠ F) : (m.bump F i).flag G j = m.flag G j := by
  simp [M.flag, M.bump, M.fld_bumpN, h]

/-- What a count becomes depends on the count alone. -/
theorem M.fld_bump_congr {m n : M} {F : Fld} {i : Nat} (h : m.fld F i = n.fld F i) :
    (m.bump F i).fld F i = (n.bump F i).fld F i := by
  simp [M.bump, M.fld_bumpN, h]

/-! ### Overwriting the oldest trace word -/

section
variable (m : M)

/-- The word behind the mark, read already or unread, goes (R358). -/
@[simp] theorem trcDrop_trc : (trcDrop m).trc = ⟨m.trc.words.tail, m.trc.rd - 1⟩ := by
  rw [← List.drop_one]
  simp only [trcDrop]
  split
  · split <;> rfl
  · split
    · next h => simp [h]
    · rfl

@[simp] theorem trcDrop_react : (trcDrop m).react = m.react := by
  simp only [trcDrop]
  split <;> split <;> rfl

theorem trcDrop_markValid : (trcDrop m).flag .TRC_STS_MARK_VALID 0 = false := by
  simp only [trcDrop]
  split
  · split
    · rw [M.flag_bump_ne _ _ _ (by decide), M.flag_setFlag_false]
    · rw [M.flag_setFlag_false]
  · next h =>
    split
    · rw [M.flag_bump_ne _ _ _ (by decide)]
      exact Bool.eq_false_of_not_eq_true h
    · exact Bool.eq_false_of_not_eq_true h

theorem trcDrop_lost : (trcDrop m).fld .TRC_CNT_LOST 0 =
    if m.trc.rd = 0 then (m.bump .TRC_CNT_LOST 0).fld .TRC_CNT_LOST 0 else m.fld .TRC_CNT_LOST 0 := by
  have hmark (m : M) : (m.setFlag .TRC_STS_MARK_VALID 0 false).fld .TRC_CNT_LOST 0 = m.fld .TRC_CNT_LOST 0 := by
    simp [M.fld_setFlag]
  simp only [trcDrop]
  split <;> split
  · exact M.fld_bump_congr (hmark _)
  · exact hmark _
  · rfl
  · rfl

/-! ### PUT -/

/-- Appends a word, its bit 63 set. -/
def trcAppend (w : Nat) (m : M) : M :=
  trcSync { m with trc := { m.trc with words := m.trc.words ++ [w % 2 ^ 63 + 2 ^ 63] } }

@[simp] theorem trcAppend_trc (w : Nat) :
    (trcAppend w m).trc = ⟨m.trc.words ++ [w % 2 ^ 63 + 2 ^ 63], m.trc.rd⟩ := rfl

@[simp] theorem trcAppend_react (w : Nat) : (trcAppend w m).react = m.react := rfl

/-- A word appended changes no field but the count of unread words. -/
theorem trcAppend_fld (w : Nat) {F : Fld} (i : Nat) (h : F ≠ .TRC_STS_COUNT) : (trcAppend w m).fld F i = m.fld F i :=
  M.fld_setFld_ne _ _ fun e => h e.1

theorem opTrcPut_eq (w : Nat) : opTrcPut w m = trcAppend w (if m.trc.words.length < 131072 then m else trcDrop m) := by
  rw [trcAppend, ← bitsAt_zero]
  rfl

theorem opTrcPut_of_room (w : Nat) (h : m.trc.words.length < 131072) : opTrcPut w m = trcAppend w m := by
  rw [opTrcPut_eq, if_pos h]

theorem opTrcPut_of_full (w : Nat) (h : m.trc.words.length = 131072) : opTrcPut w m = trcAppend w (trcDrop m) := by
  rw [opTrcPut_eq, if_neg (by omega)]

/-! ### GET -/

/-- Takes the oldest unread word: it stays stored behind a valid mark only. -/
def trcTake (m : M) : M := trcSync (trcTrim { m with trc := { m.trc with rd := m.trc.rd + 1 } })

theorem opTrcGet_of_read (im : Image) (e : Ecc) (h : m.trc.words.length ≤ m.trc.rd) :
    opTrcGet im e m = m.emit (.regData .owner (regOff .owner .TRC_GET 0) (leBytes 8 0xE0)) := by
  simp only [opTrcGet, trcPop, List.getElem?_eq_none h]
  rfl

section
variable (im : Image) {w : Nat} (h : m.trc.words[m.trc.rd]? = some w)
include h

theorem opTrcGet_ok :
    opTrcGet im .ok m = (trcTake m).emit (.regData .owner (regOff .owner .TRC_GET 0) (leBytes 8 w)) := by
  simp only [opTrcGet, trcPop, h, trcTake]

theorem opTrcGet_corrected :
    opTrcGet im .corrected m =
      ((trcTake m).bump .TRC_CNT_CORR 0).emit (.regData .owner (regOff .owner .TRC_GET 0) (leBytes 8 w)) := by
  simp only [opTrcGet, trcPop, h, trcTake]

theorem opTrcGet_uncorr :
    opTrcGet im .uncorr m = (fire im 0x0A0 m.trc.rd ((trcTake m).bump .TRC_CNT_UNCORR 0)).emit
      (.regData .owner (regOff .owner .TRC_GET 0) (leBytes 8 0xE1)) := by
  simp only [opTrcGet, trcPop, h, trcTake]

end

/-! ### MARK and REWIND -/

section
variable {v : Nat}

theorem trcBoth_of_one (h : ¬(v.testBit 0 = true ∧ v.testBit 1 = true)) : trcBoth v m = none := if_neg h

theorem opTraceMark_alone (h0 : v.testBit 0 = true) (h1 : v.testBit 1 = false) :
    opTraceMark v m = ({ m with trc := ⟨m.trc.words.drop m.trc.rd, 0⟩ } : M).setFlag .TRC_STS_MARK_VALID 0 true := by
  rw [opTraceMark, if_neg (by simp [bitAt, h0]), trcBoth_of_one m (by simp [h1])]

theorem opTraceMark_both (h0 : v.testBit 0 = true) (h1 : v.testBit 1 = true) :
    opTraceMark v m = setRsvd .owner bkTrc (regOff .owner .TRC_CTL 0) m := by
  rw [opTraceMark, if_neg (by simp [bitAt, h0]), trcBoth, if_pos ⟨h0, h1⟩]

theorem opRewind_both (h0 : v.testBit 0 = true) (h1 : v.testBit 1 = true) :
    opRewind v m = setRsvd .owner bkTrc (regOff .owner .TRC_CTL 0) m := by
  rw [opRewind, if_neg (by simp [bitAt, h1]), trcBoth, if_pos ⟨h0, h1⟩]

theorem opRewind_alone (h0 : v.testBit 0 = false) (h1 : v.testBit 1 = true) :
    opRewind v m = if m.flag .TRC_STS_MARK_VALID 0 then trcSync { m with trc := { m.trc with rd := 0 } }
      else m.setFlag .TRC_STS_MARK_LOST 0 true := by
  rw [opRewind, if_neg (by simp [bitAt, h1]), trcBoth_of_one m (by simp [h0])]

end

end

namespace Machine

/-! ### The statement -/

/-- A PUT that reaches a full trace, in terms of the state it meets. -/
theorem trcPut_next_of_full {s : State} {w : BitVec 64} (hcalm : s.m.react = []) (ht : RowTaken s (.trcPut w))
    (hfull : s.m.trc.words.length = 131072) : exec (.trcPut w) s =
      .next { s with m := trcAppend w.toNat (trcDrop (noteRsvd .owner .TRC_PUT 0 w.toNat s.m)) } := by
  have hrow : opRow s.inForce (.trcPut w) s.m =
      trcAppend w.toNat (trcDrop (noteRsvd .owner .TRC_PUT 0 w.toNat s.m)) :=
    (opRow_taken ht).trans (opTrcPut_of_full _ _ (by rwa [noteRsvd_trc]))
  have hupd := s.upd_calm (fun im m => opRow im (.trcPut w) m) (by simp [hrow, hcalm])
  rw [hrow] at hupd
  exact congrArg Host.Outcome.next hupd

/-- Settles O33: an event takes the place `evtPush_place` gives it, and every other command does as the equation of its
operation says, the note of a reserved bit leaving the trace as it is. -/
theorem eventsAndTrace : Obligations.EventsAndTrace := by
  refine ⟨fun s l hcalm => ⟨?_, ?_, ?_, ?_, ?_⟩, fun s hcalm => ⟨?_, ?_, ?_, ?_, ?_, ?_, ?_, ?_, ?_, ?_⟩⟩
  · exact fun m code a b r1 r2 hq hbefore hafter =>
      ⟨evtPush_place l.val code a b m hq hbefore hafter, evtWord_fields m a b⟩
  · exact fun hl hq => completes_of_upd rfl (opEvtRead_of_empty s.m hl hq)
  · exact fun w r hl hq => completes_of_upd rfl (opEvtRead_of_cons s.m hl hq)
  · exact fun hl => completes_of_upd rfl (opEvtRead_of_no_link s.m hl)
  · exact completes_of_upd rfl rfl
  · exact fun w ht hroom => completes_of_rowTaken ht rfl (opTrcPut_of_room _ _ (by rwa [noteRsvd_trc]))
  · intro w ht hfull
    refine ⟨_, trcPut_next_of_full hcalm ht hfull, ?_, ?_, ?_, ?_⟩
    · simp
    · simp
    · exact (congrArg (· != 0) (trcAppend_fld _ _ 0 (by decide))).trans (trcDrop_markValid _)
    · rw [trcAppend_fld _ _ 0 (by decide), trcDrop_lost, noteRsvd_trc, noteRsvd_lost,
        M.fld_bump_congr (noteRsvd_lost ..)]
  · exact fun e ht hread => completes_of_rowTaken ht rfl (opTrcGet_of_read s.m s.inForce e hread)
  · exact fun w ht hw => completes_of_rowTaken ht rfl (opTrcGet_ok s.m s.inForce hw)
  · exact fun w ht hw => completes_of_rowTaken ht rfl (opTrcGet_corrected s.m s.inForce hw)
  · exact fun w ht hw => completes_of_rowTaken ht rfl (opTrcGet_uncorr s.m s.inForce hw)
  · intro v ht h0 h1 m
    exact completes_of_rowTaken ht rfl ((opTraceMark_alone m h0 h1).trans (by rw [noteRsvd_trc]))
  · intro v ht h0 h1 m
    have hrewind := opRewind_alone m h0 h1
    rw [noteRsvd_markValid, noteRsvd_trc] at hrewind
    exact ⟨fun hv => completes_of_rowTaken ht rfl (hrewind.trans (if_pos hv)),
      fun hv => completes_of_rowTaken ht rfl (hrewind.trans (if_neg (by simp [hv])))⟩
  · exact fun v h0 h1 => ⟨fun ht => completes_of_rowTaken ht rfl (opTraceMark_both _ h0 h1),
      fun ht => completes_of_rowTaken ht rfl (opRewind_both _ h0 h1)⟩
  · exact completes_of_upd rfl rfl

end Machine

end Sys2Proof
end

section
/-! PROOFS. Voted words (11, R279, R280; 16, R382): what a read of a voted word does when no upset waits, by what its copies show,
and what a read of IMG_ROOT_HASH answers. -/

namespace Sys2Proof

/-! ### One vote -/

@[simp] theorem worse_agree (v : Vote) : worse v .agree = v := by cases v <;> rfl

theorem upsetOf_of_no_upset {m : M} (w : VWord) (hu : m.upset = []) : upsetOf m w = .agree := by
  rw [upsetOf, hu]
  rfl

/-- A read that finds no waiting upset has one of three outcomes, by the word's past and by what its copies show now. -/
theorem voteRead_of_no_upset (im : Image) (w : VWord) (v : Vote) {m : M} (hu : m.upset = []) :
    voteRead im w v m =
      if m.voteDead.contains w ∨ v = .three then
        (false, fireSevere im 0x11 (vwordInfo w)
          ((if m.voteDead.contains w then m else { m with voteDead := w :: m.voteDead }).bump .SEC_VOTE_SEVERE 0))
      else if v = .two then (true, fire im 0x10 (vwordInfo w) (m.bump .SEC_VOTE_CORRECTED 0))
      else (true, m) := by
  have hkeep : { m with upset := m.upset.filter (fun e => e.1 != w) } = m := by
    rw [hu, List.filter_nil, ← hu]
  rw [voteRead, upsetOf_of_no_upset w hu, worse_agree, hkeep]

section
variable (im : Image) {w : VWord} {m : M} (hu : m.upset = [])
include hu

theorem voteRead_of_dead (v : Vote) (hd : m.voteDead.contains w = true) :
    voteRead im w v m = (false, fireSevere im 0x11 (vwordInfo w) (m.bump .SEC_VOTE_SEVERE 0)) := by
  rw [voteRead_of_no_upset im w v hu, if_pos (.inl hd), if_pos hd]

variable (hd : m.voteDead.contains w = false)
include hd

theorem voteRead_three : voteRead im w .three m = (false,
    fireSevere im 0x11 (vwordInfo w) (({ m with voteDead := w :: m.voteDead } : M).bump .SEC_VOTE_SEVERE 0)) := by
  rw [voteRead_of_no_upset im w _ hu, if_pos (.inr rfl), hd]
  rfl

theorem voteRead_two :
    voteRead im w .two m = (true, fire im 0x10 (vwordInfo w) (m.bump .SEC_VOTE_CORRECTED 0)) := by
  rw [voteRead_of_no_upset im w _ hu, hd]
  rfl

theorem voteRead_agree_of_live : voteRead im w .agree m = (true, m) := by
  rw [voteRead_of_no_upset im w _ hu, hd]
  rfl

end

/-! ### The read of IMG_ROOT_HASH -/

section
variable {im : Image} {v : Vote} {i : Fin 6} {m m' : M}

theorem opRootRead_of_usable (h : voteRead im (.rootHash i) v m = (true, m')) : opRootRead im v i m =
    m'.emit (.regData .owner (regOff .owner .IMG_ROOT_HASH i.val) (leBytes 8 (m'.fld .IMG_ROOT_HASH_HASH i.val))) := by
  rw [opRootRead, rootHashRead, h]
  rfl

theorem opRootRead_of_unusable (h : voteRead im (.rootHash i) v m = (false, m')) : opRootRead im v i m =
    m'.emit (.regData .owner (regOff .owner .IMG_ROOT_HASH i.val) (leBytes 8 0)) := by
  rw [opRootRead, rootHashRead, h]
  rfl

end

namespace Machine

/-- Settles O23: the vote decides whether the word's value may be used, and the read answers with that value or with zero on
what the vote leaves. -/
theorem votedReads : Obligations.VotedReads := by
  intro s i hu
  refine ⟨fun hd v => ?dead, fun hd => ?agree, fun hd => ?two, fun hd => ?three⟩
  case dead => exact completes_of_upd rfl (opRootRead_of_unusable (voteRead_of_dead _ hu v hd))
  case agree => exact completes_of_upd rfl (opRootRead_of_usable (voteRead_agree_of_live _ hu hd))
  case two => exact completes_of_upd rfl (opRootRead_of_usable (voteRead_two _ hu hd))
  case three => exact completes_of_upd rfl (opRootRead_of_unusable (voteRead_three _ hu hd))

end Machine

end Sys2Proof
end

section
/-! PROOFS. The form of a command's meaning: every command completes and takes only itself from the queue; which commands touch
the fuses and the image; fuses only blow (11, R276, R297, R402). -/

namespace Sys2Proof

/-! ### Blown bits stay blown -/

/-- Every bit that one set of fuses has blown the other has too. -/
def Fuses.Le (u v : Fuses) : Prop := ∀ n k b, (u.copy n).bit k b = true → (v.copy n).bit k b = true

theorem Fuses.Le.refl (u : Fuses) : u.Le u := fun _ _ _ => id

theorem Fuses.Le.trans {u v w : Fuses} (h : u.Le v) (k : v.Le w) : u.Le w := fun n f b hb => k n f b (h n f b hb)

theorem FuseCopy.bit_blow_of_bit (c : FuseCopy) (k j : FuseField) (b i : Nat) (h : c.bit j i = true) :
    (c.blow k b).bit j i = true := by
  cases k <;> cases j <;> simp_all [FuseCopy.blow, FuseCopy.bit]

/-- The copies 0 and 1 go by their number, and every other number names copy 2. -/
theorem Fuses.copy_blow (u : Fuses) (n j : Nat) (k : FuseField) (b : Nat) :
    (u.blow n k b).copy j = if min j 2 = min n 2 then (u.copy j).blow k b else u.copy j := by
  match n, j with
  | 0, 0 | 0, 1 | 1, 0 | 1, 1 => rfl
  | 0, j + 2 | 1, j + 2 => rw [if_neg (by omega)]; rfl
  | n + 2, 0 | n + 2, 1 => rw [if_neg (by omega)]; rfl
  | n + 2, j + 2 => rw [if_pos (by omega)]; rfl

theorem Fuses.le_blow (u : Fuses) (n : Nat) (k : FuseField) (b : Nat) : u.Le (u.blow n k b) := by
  intro j f i h
  rw [Fuses.copy_blow]
  split
  · exact FuseCopy.bit_blow_of_bit _ _ _ _ _ h
  · exact h

theorem le_blowBit (k : FuseField) (b : Nat) (stuck : List (Nat × Nat)) (u : Fuses) : u.Le (blowBit k b stuck u) := by
  have hstep (u : Fuses) (n : Nat) : u.Le (if stuck.contains (n, b) then u else u.blow n k b) := by
    split
    · exact .refl u
    · exact Fuses.le_blow _ _ _ _
  exact ((hstep u 0).trans (hstep _ 1)).trans (hstep _ 2)

theorem le_advanceTo (target : Nat) (stuck : List (Nat × Nat)) (bs : List Nat) (u : Fuses) :
    u.Le (advanceTo target stuck bs u).1 := by
  induction bs generalizing u with
  | nil => exact .refl u
  | cons b bs ih =>
    rw [advanceTo]
    split
    · exact .refl u
    · split
      · exact ih u
      · extract_lets v
        have hv : u.Le v := le_blowBit _ _ _ _
        split
        · exact hv.trans (ih v)
        · exact hv

theorem le_opFuse (dr : Nat) (stuck : List (Nat × Nat)) (u : Fuses) (m : M) : u.Le (opFuse dr stuck u m).1 := by
  rw [opFuse]
  split
  · exact .refl u
  · extract_lets n k b valid u1
    show u.Le (if _ then _ else _)
    split
    · exact Fuses.le_blow _ _ _ _
    · exact .refl u

theorem le_opAdvanceSvn (im : Image) (x : CmdPaths) (votes : List Vote) (stuck : List (Nat × Nat)) (u : Fuses) (m : M) :
    u.Le (opAdvanceSvn im x votes stuck u m).1 := by
  rw [opAdvanceSvn]
  split
  next => exact .refl u
  next s b _ =>
    dsimp only
    cases (secVerify im s b x votes m).1 with
    | some r => exact .refl u
    | none =>
      dsimp only
      split
      · exact .refl u
      · exact le_advanceTo _ _ _ _

theorem le_opDisableDebug (im : Image) (x : CmdPaths) (votes : List Vote) (stuck : List (Nat × Nat)) (u : Fuses) (m : M) :
    u.Le (opDisableDebug im x votes stuck u m).1 := by
  rw [opDisableDebug]
  split
  next => exact .refl u
  next s b _ =>
    dsimp only
    cases (secVerify im s b x votes m).1 with
    | some r => exact .refl u
    | none =>
      exact le_blowBit _ _ _ _

namespace Machine

/-! ### The form of a meaning -/

/-- The commands that can apply an image. -/
def AppliesImage : Instr → Prop
  | .signatureVerifyComplete .. | .entropyHealthRestored => True
  | _ => False

/-- The commands that can blow fuses. -/
def BlowsFuses : Instr → Prop
  | .fuse .. | .advanceSvn .. | .disableDebug .. => True
  | _ => False

/-- Every other command acts on the machine alone. -/
theorem exec_eq_upd {c : Instr} (hi : ¬AppliesImage c) (hf : ¬BlowsFuses c) (s : State) :
    ∃ f, exec c s = .next (s.upd f) := by
  cases c
  case signatureVerifyComplete | entropyHealthRestored => exact absurd trivial hi
  case fuse | advanceSvn | disableDebug => exact absurd trivial hf
  all_goals exact ⟨_, rfl⟩

theorem exec_eq_updImg {c : Instr} (hi : AppliesImage c) (s : State) : ∃ f, exec c s = .next (s.updImg f) := by
  cases c
  case signatureVerifyComplete | entropyHealthRestored => exact ⟨_, rfl⟩
  all_goals exact hi.elim

/-- What blows fuses keeps those that are blown. -/
theorem exec_eq_updFuses {c : Instr} (hf : BlowsFuses c) (s : State) :
    ∃ f, exec c s = .next (s.updFuses f) ∧ s.fuses.Le (f s.inForce s.m).1 := by
  have hgate (b : Bool) (x : Fuses × M) (h : s.fuses.Le x.1) : s.fuses.Le (if b then (s.fuses, s.m) else x).1 := by
    cases b
    · exact h
    · exact .refl _
  cases c
  case fuse => exact ⟨_, rfl, le_opFuse _ _ _ _⟩
  case advanceSvn => exact ⟨_, rfl, hgate _ _ (le_opAdvanceSvn _ _ _ _ _ _)⟩
  case disableDebug => exact ⟨_, rfl, hgate _ _ (le_opDisableDebug _ _ _ _ _ _)⟩
  all_goals exact hf.elim

/-- A command completes with the queue it found, keeps blown fuses, and leaves the fuses as they are unless it is one that
blows them. -/
theorem exec_next (c : Instr) (s : State) :
    ∃ t, exec c s = .next t ∧ t.pending = s.pending ∧ s.fuses.Le t.fuses ∧ (¬BlowsFuses c → t.fuses = s.fuses) ∧
      (¬AppliesImage c → t.img = s.img) := by
  by_cases hf : BlowsFuses c
  · obtain ⟨f, he, hle⟩ := exec_eq_updFuses hf s
    exact ⟨_, he, rfl, hle, fun h => absurd hf h, fun _ => rfl⟩
  · by_cases hi : AppliesImage c
    · obtain ⟨f, he⟩ := exec_eq_updImg hi s
      have hk := s.updImg_fuses f
      exact ⟨_, he, s.updImg_pending f, hk ▸ .refl _, fun _ => hk, fun h => absurd hi h⟩
    · obtain ⟨f, he⟩ := exec_eq_upd hi hf s
      exact ⟨_, he, rfl, .refl _, fun _ => rfl, fun _ => rfl⟩

/-! ### The statements -/

/-- Settles O57: the front command, if there is one, completes with the rest of the queue. -/
theorem everyStepCompletes : Obligations.EveryStepCompletes := by
  intro s
  rw [step]
  cases hq : s.pending with
  | nil => exact ⟨_, rfl, hq⟩
  | cons c q =>
    obtain ⟨t, he, hpending, -⟩ := exec_next c { s with pending := q }
    exact ⟨t, he, hpending⟩

/-- Settles O59: a command blows fuses by `Fuses.blow` alone, and only three commands do. -/
theorem fusesOnlyBlow : Obligations.FusesOnlyBlow := by
  intro s t h
  rw [step] at h
  cases hq : s.pending with
  | nil =>
    rw [hq] at h
    cases h
    exact ⟨Fuses.Le.refl _, rfl⟩
  | cons c q =>
    rw [hq] at h
    obtain ⟨t', he, -, hle, hkept, -⟩ := exec_next c { s with pending := q }
    cases h.symm.trans he
    refine ⟨hle, ?_⟩
    cases c
    case fuse | advanceSvn | disableDebug => exact trivial
    all_goals exact hkept id

/-- Settles O58: at reset every map is empty, so that a field reads its reset value, and every fuse copy is blank. -/
theorem resetValues : Obligations.ResetValues := by
  refine ⟨fun _ _ => rfl, fun n k b => ?_, rfl, rfl, rfl, rfl, rfl, rfl, rfl, rfl, rfl, rfl, rfl, rfl, rfl, rfl, rfl, rfl⟩
  have hcopy : State.reset.fuses.copy n = FuseCopy.blank := by
    simp only [Fuses.copy]
    split
    · rfl
    · split <;> rfl
  rw [hcopy]
  cases k with
  | hash | svn => exact BitVec.getLsbD_zero
  | set | dbg => rfl

end Machine

end Sys2Proof
end

section
/-! PROOFS. Loads and stores (08, R185, R186, R193 to R196): where a place lies, what an access whose words nothing disturbs reads and
writes, and an access without a place. -/

namespace Sys2Proof

/-! ### Bytes -/

@[simp] theorem memRead_length (l : Mem) (a n : Nat) : (memRead l a n).length = n := by
  induction n generalizing a with
  | zero => rfl
  | succ n ih => simp [memRead, ih]

theorem takePad_of_length {n : Nat} {l : List Byte} (h : l.length = n) : takePad n l = l := by
  subst h
  simpa using takePad_append l []

theorem leAt_zero {n : Nat} {l : List Byte} (h : l.length = n) : leAt l 0 n = leVal l := by
  rw [leAt, bytesAt, List.drop_zero, takePad_of_length h]

theorem leVal_lt (l : List Byte) : leVal l < 2 ^ (8 * l.length) := by
  induction l with
  | nil => simp [leVal]
  | cons b l ih =>
    have hb := b.isLt
    rw [leVal, List.length_cons, Nat.mul_succ, pow_add]
    omega

theorem getElem_leBytes {n v j : Nat} (h : j < (leBytes n v).length) : (leBytes n v)[j] = BitVec.ofNat 8 (v / 256 ^ j) := by
  induction n generalizing v j with
  | zero => simp [leBytes] at h
  | succ n ih =>
    cases j with
    | zero => simp [leBytes]
    | succ j => simp only [leBytes, List.getElem_cons_succ, ih, Nat.div_div_eq_div_mul, pow_succ, Nat.mul_comm]

/-- The top bit of an x below 2^w. -/
theorem bitAt_top {w x : Nat} (hw : 0 < w) (hx : x < 2 ^ w) : bitAt x (w - 1) = true ↔ 2 ^ w ≤ 2 * x := by
  obtain ⟨v, rfl⟩ := Nat.exists_eq_succ_of_ne_zero hw.ne'
  rw [pow_succ] at hx
  have hlt : x / 2 ^ v < 2 := Nat.div_lt_of_lt_mul (by omega)
  have hge : 1 ≤ x / 2 ^ v ↔ 2 ^ v ≤ x := by rw [Nat.le_div_iff_mul_le (Nat.two_pow_pos v), Nat.one_mul]
  rw [bitAt, Nat.succ_sub_one, Nat.testBit_eq_decide_div_mod_eq, decide_eq_true_iff, pow_succ]
  generalize x / 2 ^ v = q at *
  generalize 2 ^ v = p at *
  omega

/-- A load of as many bytes as it asked for. -/
theorem loadVal_eq_loaded {n : Nat} (signed : Bool) {b : List Byte} (h : b.length = n) :
    loadVal n signed b = Machine.loaded signed b := by
  subst h
  have hlt := leVal_lt b
  have hsmall : bitsAt (leVal b) 0 (8 * b.length) = leVal b := by rw [bitsAt_zero, Nat.mod_eq_of_lt hlt]
  rw [loadVal, leAt_zero rfl, Machine.loaded]
  cases signed with
  | false => rfl
  | true =>
    simp only [sval, hsmall, if_true, true_and]
    by_cases hb : b = []
    · subst hb
      rfl
    · have hpos : 0 < 8 * b.length := by simpa using List.length_pos_of_ne_nil hb
      by_cases htop : 2 ^ (8 * b.length) ≤ 2 * leVal b
      · rw [if_pos htop, if_pos ((bitAt_top hpos hlt).2 htop)]
      · rw [if_neg htop, if_neg (mt (bitAt_top hpos hlt).1 htop)]
        exact BitVec.ofInt_natCast ..

/-! ### Places -/

section
variable {im : Image} {m : M} {x : Proc} {sp n : Nat} {ra : Word} {off : Int} {store : Bool}

theorem bufRange_len {p tag b : Nat} {e : Int} {r : Range} (h : bufRange m p tag b e n = some r) : r.len = n := by
  rw [bufRange] at h
  split at h
  · cases h
  · split at h
    · cases h
    · split at h <;> cases h
      rfl

/-- A place is as long as the access. -/
theorem resolve_len {r : Range} (h : resolve im m x sp ra off n store = some r) : r.len = n := by
  rw [resolve] at h
  split at h
  · split at h <;> cases h
    rfl
  · split at h
    · split at h
      · obtain ⟨-, h⟩ := Option.ite_none_right_eq_some.1 h
        obtain ⟨y, -, rfl⟩ := Option.map_eq_some_iff.1 h
        rfl
      · split at h
        · cases h
        · split at h
          · exact bufRange_len h
          · cases h
    · split at h <;> split at h <;> cases h <;> rfl

/-- A place is no empty one. -/
theorem readSp_length (m : M) (r : Range) : (readSp m r).length = r.len := by
  rw [readSp]
  split
  · simp
  · simp
  · split
    · split <;> simp
    · simp
  · simp

theorem inCode_iff (im : Image) (a n : Nat) :
    inCode im a n = true ↔ ∃ r ∈ im.routines, a < r.addr + r.code.length ∧ r.addr < a + n := by
  simp [inCode]

theorem resolve_scratch : resolve im m x 0 ra off n store =
    if addOff ra.toNat off % n = 0 ∧ addOff ra.toNat off + n ≤ 0x4000 then some ⟨.scratch x.num, addOff ra.toNat off, n⟩
    else none := rfl

theorem resolve_ownerStage (h : partRoutine m x = none) : resolve im m x 2 ra off n store =
    if addOff ra.toNat off % n = 0 ∧ addOff ra.toNat off + n ≤ im.ownerStageBytes ∧
        ¬(store = true ∧ ∃ r ∈ im.routines, addOff ra.toNat off < r.addr + r.code.length ∧
          r.addr < addOff ra.toNat off + n) then
      some ⟨.ownerStage, addOff ra.toNat off, n⟩ else none := by
  simp only [resolve, h, ← inCode_iff, ← Bool.and_eq_true, Bool.not_eq_true, Bool.not_eq_true']
  rfl

theorem resolve_ownerLocal (h : partRoutine m x = none) : resolve im m x 1 ra off n store =
    if addOff ra.toNat off % n = 0 ∧ addOff ra.toNat off + n ≤ im.ownerDramBytes then
      some ⟨.dram, addOff ra.toNat off, n⟩ else none := by
  simp only [resolve, h]
  rfl

theorem handleOf_of_parts {b o : Nat} (hb : b < 16) (ho : o < 2 ^ 32) : handleOf (b + 256 * o) = some (b, o) := by
  have h1 : bitsAt (b + 256 * o) 4 4 = 0 := by rw [bitsAt_eq]; omega
  have h2 : bitsAt (b + 256 * o) 40 24 = 0 := by rw [bitsAt_eq]; omega
  have h3 : bitsAt (b + 256 * o) 0 4 = b := by rw [bitsAt_eq]; omega
  have h4 : bitsAt (b + 256 * o) 8 32 = o := by rw [bitsAt_eq]; omega
  simp [handleOf, h1, h2, h3, h4]

theorem resolve_buf {r : RoutCtx} (h : partRoutine m x = some r) {b o : Nat} (hb : b < 16) (ho : o < 2 ^ 32)
    (hra : ra.toNat = b + 256 * o) : resolve im m x 2 ra off n store =
      if ((o : Int) + off) % (n : Nat) = 0 then bufRange m r.part r.tag b (o + off) n else none := by
  simp only [resolve, h, hra, handleOf_of_parts hb ho]
  rfl

theorem resolve_window {r : RoutCtx} (h : partRoutine m x = some r) : resolve im m x 1 ra off n store =
    if addOff ra.toNat off % n = 0 ∧ winCheck im m r.part (addOff ra.toNat off) n (if store then rStore else rLoad) = 0 then
      (winMap im m r.part (addOff ra.toNat off)).map (fun y => ⟨y.1, y.2, n⟩) else none := by
  simp only [resolve, h]
  rfl

end

/-! ### Words that nothing disturbs -/

section
variable {m : M} (h : Machine.Undisturbed m)
include h

theorem rightsRead_undisturbed (im : Image) (row : Nat) (w : VWord) : rightsRead im row w m = (true, m) := by
  obtain ⟨hupset, hglitch, hdead, -⟩ := h
  simp [rightsRead, voteRead_agree im w m hupset hdead, hglitch]

theorem accessWords_undisturbed (im : Image) (l : List VWord) : accessWords im l m = (true, m) := by
  induction l with
  | nil => rfl
  | cons w l ih =>
    rw [accessWords, rightsRead_undisturbed h]
    exact ih

theorem accessVote_undisturbed (im : Image) (x : Proc) (sp a : Nat) : accessVote im x sp a m = (true, m) := by
  rw [accessVote]
  split
  · split
    · exact accessWords_undisturbed h im _
    · rfl
  · rfl

theorem sliceTag_undisturbed (im : Image) (x : Proc) (r : Range) : sliceTag im x r m = (true, m) := by
  obtain ⟨-, -, -, htag⟩ := h
  rw [sliceTag]
  split <;> simp [htag]

end

@[simp] theorem placeEcc_ok (im : Image) (x : Proc) (r : Range) (m : M) : placeEcc im x r .ok m = m := by
  rw [placeEcc]
  split
  · cases x <;> rfl
  all_goals rfl

namespace Machine

/-! ### An issued instruction -/

/-- A command that issues an instruction completes with what the instruction does. -/
theorem completes_of_issue {s : State} {i : Issue} {o : Op} {c : Instr} {want : Op → Bool} {run : Image → M → M} {m' : M}
    (hc : exec c s = .next (s.upd fun im m => issueOp im i want (run im) m)) (h : MayIssue s i o) (hw : want o = true)
    (hm : run s.inForce (endStep i.x s.m) = m') : Completes c s m' :=
  completes_of_upd hc ((issueOp_runs h want hw _).trans hm)

/-- A command that completes with a state in which no reaction waits. -/
theorem Completes.next {c : Instr} {s : State} {m' : M} (h : Completes c s m') (hr : m'.react = []) :
    exec c s = .next { s with m := m' } := by
  rw [h, settle_calm _ _ hr]

section
variable (s : State) (i : Issue)

@[simp] theorem afterIssue_cpu (k : Key) : (afterIssue s i).cpu k = s.m.cpu k := by
  rw [afterIssue, chargeIssue_cpu, endStep_cpu]

@[simp] theorem afterIssue_now : (afterIssue s i).now = s.m.now := by
  obtain ⟨b, v, h⟩ := afterIssue_frame s i
  rw [h]

@[simp] theorem afterIssue_react : (afterIssue s i).react = s.m.react := by
  obtain ⟨b, v, h⟩ := afterIssue_frame s i
  rw [h]

@[simp] theorem afterIssue_div : (afterIssue s i).div = s.m.div := by
  obtain ⟨b, v, h⟩ := afterIssue_frame s i
  rw [h]

@[simp] theorem afterIssue_held : (afterIssue s i).held = s.m.held := by
  obtain ⟨b, v, h⟩ := afterIssue_frame s i
  rw [h]

theorem afterIssue_undisturbed (h : Undisturbed s.m) : Undisturbed (afterIssue s i) := by
  obtain ⟨b, v, hf⟩ := afterIssue_frame s i
  rw [hf]
  exact h

/-- The place an access addresses does not depend on what its issue changes. -/
theorem resolve_afterIssue (store : Bool) :
    resolve s.inForce (afterIssue s i) i.x (fSpace i.word) ((s.m.cpu i.x.key).g (fRa i.word)) (fOff i.word) (fSize i.word)
      store = placeOf s i store := by
  obtain ⟨b, v, h⟩ := afterIssue_frame s i
  rw [h]
  rfl

theorem readSp_afterIssue (r : Range) : readSp (afterIssue s i) r = readSp s.m r := by
  obtain ⟨b, v, h⟩ := afterIssue_frame s i
  rw [h]
  rfl

end

/-- An instruction that ends in sequence with a value in its register, after its charge. -/
theorem next_of_finishRd {s : State} {i : Issue} {o : Op} {c : Instr} {rd lat : Nat} {v : Word} (h : MayIssue s i o)
    (hc : Completes c s (finishRd i.x rd v lat (afterIssue s i))) :
    ∃ t, exec c s = .next t ∧ t = { s with m := t.m } ∧ Issued s.m t.m i.x ∧ t.m.div = s.m.div ∧
      Wrote s.m.now (s.m.cpu i.x.key) (t.m.cpu i.x.key) rd v lat := by
  refine ⟨_, hc.next ((afterIssue_react s i).trans h.calm), rfl, issued_of s.m.div ?_ ?_, afterIssue_div s i, ?_⟩
  · rw [← afterIssue_div s i]
    rfl
  · intro j hj
    rw [finishRd_cpu_ne _ _ _ _ _ hj, afterIssue_cpu]
  · simpa using finishRd_wrote i.x rd v lat (afterIssue s i)

/-! ### Loads -/

section
variable {s : State} {i : Issue} (signed : Bool)

/-- A load outside REG space: without a place it raises ACCESS, else its place answers. -/
theorem runLoad_eq (hu : Undisturbed s.m) (h3 : fSpace i.word ≠ 3) : runLoad s.inForce signed i (endStep i.x s.m) =
    match placeOf s i false with
    | none => raiseAccess s.inForce i.x (addrOf s i) (afterIssue s i)
    | some r => loadPlace s.inForce i signed (fSize i.word) r (afterIssue s i) := by
  have hvote (a : Nat) : accessVote s.inForce i.x (fSpace i.word) a (chargeIssue i.x (endStep i.x s.m)) =
      (true, afterIssue s i) := accessVote_undisturbed (afterIssue_undisturbed s i hu) _ _ _ _
  rw [← resolve_afterIssue, runLoad, if_neg h3, endStep_cpu]
  simp only [hvote, if_true]
  rfl


theorem loadPlace_onDie {r : Range} (hu : Undisturbed s.m) (hd : onDie r.sp = true) (he : i.data = .ok)
    (hlen : r.len = fSize i.word) : loadPlace s.inForce i signed (fSize i.word) r (afterIssue s i) =
      finishRd i.x (fRd i.word) (loaded signed (readSp s.m r)) (if fSpace i.word = 0 then 2 else 8) (afterIssue s i) := by
  have htag := sliceTag_undisturbed (afterIssue_undisturbed s i hu) s.inForce i.x r
  have hval := loadVal_eq_loaded signed ((readSp_length s.m r).trans hlen)
  cases hsp : r.sp <;> simp [hsp, onDie] at hd <;>
    simp [loadPlace, hsp, htag, he, readSp_afterIssue, hval]

end

/-- Both loads issue alike. -/
def loadOp (signed : Bool) : Op := if signed then .ld else .ldu

/-- The command of a load. -/
def loadCmd (signed : Bool) (i : Issue) : Instr := if signed then .ld i else .ldu i

section
variable {s : State} {i : Issue} {signed : Bool} {m' : M}

theorem completes_of_runLoad (h : MayIssue s i (loadOp signed))
    (hm : runLoad s.inForce signed i (endStep i.x s.m) = m') : Completes (loadCmd signed i) s m' := by
  cases signed with
  | true => exact completes_of_issue rfl h rfl hm
  | false => exact completes_of_issue rfl h rfl hm

theorem load_without_place (h : MayIssue s i (loadOp signed)) (hu : Undisturbed s.m) (h3 : fSpace i.word ≠ 3)
    (hp : placeOf s i false = none) :
    Completes (loadCmd signed i) s (raiseAccess s.inForce i.x (addrOf s i) (afterIssue s i)) :=
  completes_of_runLoad h (by rw [runLoad_eq signed hu h3, hp])

theorem load_of_place {r : Range} (h : MayIssue s i (loadOp signed)) (hu : Undisturbed s.m) (h3 : fSpace i.word ≠ 3)
    (hp : placeOf s i false = some r) :
    Completes (loadCmd signed i) s (loadPlace s.inForce i signed (fSize i.word) r (afterIssue s i)) :=
  completes_of_runLoad h (by rw [runLoad_eq signed hu h3, hp])

theorem load_onDie {r : Range} (h : MayIssue s i (loadOp signed)) (hu : Undisturbed s.m) (h3 : fSpace i.word ≠ 3)
    (hp : placeOf s i false = some r) (hd : onDie r.sp = true) (he : i.data = .ok) :
    ∃ t, exec (loadCmd signed i) s = .next t ∧ t = { s with m := t.m } ∧ Issued s.m t.m i.x ∧ t.m.div = s.m.div ∧
      Wrote s.m.now (s.m.cpu i.x.key) (t.m.cpu i.x.key) (fRd i.word) (loaded signed (readSp s.m r))
        (if fSpace i.word = 0 then 2 else 8) := by
  have hc := load_of_place h hu h3 hp
  rw [loadPlace_onDie signed hu hd he (resolve_len hp)] at hc
  exact next_of_finishRd h hc

/-- A core's load in REG space. -/
theorem load_of_reg {c : Fin 4} (h : MayIssue s i (loadOp signed)) (h3 : fSpace i.word = 3) (hx : i.x = .core c) :
    Completes (loadCmd signed i) s (loadReg s.inForce i signed (addrOf s i) (fSize i.word) (afterIssue s i)) := by
  refine completes_of_runLoad h ?_
  rw [runLoad, if_pos h3, endStep_cpu]
  simp only [hx]
  rw [← hx]
  rfl

end

/-! ### Stores -/

section
variable {s : State} {i : Issue}

/-- The bytes a store writes. -/
def storeBytes (s : State) (i : Issue) : List Byte := leBytes (fSize i.word) ((s.m.cpu i.x.key).g (fRd i.word)).toNat

theorem completes_of_runStore {m' : M} (h : MayIssue s i .st) (hm : runStore s.inForce i (endStep i.x s.m) = m') :
    Completes (.st i) s m' := completes_of_issue rfl h rfl hm

/-- A store outside REG space: without a place it raises ACCESS, else its bytes go there. -/
theorem runStore_eq (hu : Undisturbed s.m) (h3 : fSpace i.word ≠ 3) : runStore s.inForce i (endStep i.x s.m) =
    match placeOf s i true with
    | none => raiseAccess s.inForce i.x (addrOf s i) (afterIssue s i)
    | some r => writeSp s.inForce i.x r (storeBytes s i) (passStore i.x (afterIssue s i)) := by
  have hu' := afterIssue_undisturbed s i hu
  have hvote (a : Nat) : accessVote s.inForce i.x (fSpace i.word) a (chargeIssue i.x (endStep i.x s.m)) =
      (true, afterIssue s i) := accessVote_undisturbed hu' _ _ _ _
  rw [← resolve_afterIssue, runStore, if_neg h3, endStep_cpu]
  simp only [hvote, if_true, sliceTag_undisturbed hu']
  rfl

theorem store_of_place {r : Range} (h : MayIssue s i .st) (hu : Undisturbed s.m) (h3 : fSpace i.word ≠ 3)
    (hp : placeOf s i true = some r) :
    Completes (.st i) s (writeSp s.inForce i.x r (storeBytes s i) (passStore i.x (afterIssue s i))) :=
  completes_of_runStore h (by rw [runStore_eq hu h3, hp])

/-- A store to memory on the die changes its processor and that memory. -/
theorem passStore_frame (x : Proc) (m : M) : passStore x m = { m with cpus := (passStore x m).cpus } := rfl

theorem passStore_cpu_ne (x : Proc) (m : M) : CpusKept m (passStore x m) x.key := fun _ h => M.cpu_setCpu_ne _ _ h

theorem passStore_wrote (x : Proc) (m : M) : Wrote m.now (m.cpu x.key) ((passStore x m).cpu x.key) 0 0 1 := by
  rw [passStore, M.cpu_setCpu]
  exact ⟨fun n => (if_neg fun ⟨h0, h⟩ => h h0).symm, fun _ _ _ => rfl, rfl⟩

/-- The bytes a store leaves in a memory. -/
theorem memGet_storeBytes (l : Mem) (a : Nat) {j : Nat} (hj : j < fSize i.word) :
    memGet (memWrite l a (storeBytes s i)) (a + j) =
      BitVec.ofNat 8 (((s.m.cpu i.x.key).g (fRd i.word)).toNat / 256 ^ j) := by
  have hlt : j < (storeBytes s i).length := by rwa [storeBytes, leBytes_length]
  rw [memGet_write_in _ _ _ _ hlt]
  exact getElem_leBytes _

theorem memGet_storeBytes_out (l : Mem) (a : Nat) {x : Nat} (hx : x < a ∨ a + fSize i.word ≤ x) :
    memGet (memWrite l a (storeBytes s i)) x = memGet l x :=
  memGet_write_out _ _ _ _ (by rwa [storeBytes, leBytes_length])

end

/-! ### The statements -/

/-- Settles O3: each space by its own equation of `resolve`; an access without a place raises ACCESS. -/
theorem placesOfSpaces : Obligations.PlacesOfSpaces := by
  refine ⟨fun s i store => ⟨?_, ?_, ?_, ?_, ?_⟩, fun s i h3 hu => ⟨?_, ?_, ?_⟩⟩
  · intro h
    rw [placeOf, h]
    exact resolve_scratch
  · intro h hp
    rw [placeOf, h]
    exact resolve_ownerStage hp
  · intro h hp
    rw [placeOf, h]
    exact resolve_ownerLocal hp
  · intro r b o h hr hb ho hra
    rw [placeOf, h]
    exact resolve_buf hr hb ho hra
  · intro r h hr
    rw [placeOf, h]
    exact resolve_window hr
  · exact fun hp h => load_without_place (signed := true) h hu h3 hp
  · exact fun hp h => load_without_place (signed := false) h hu h3 hp
  · exact fun hp h => completes_of_runStore h (by rw [runStore_eq hu h3, hp])

/-- Settles O4. -/
theorem loadsOnDie : Obligations.LoadsOnDie :=
  fun _ _ _ hu hp h3 hd he =>
    ⟨fun h => load_onDie (signed := true) h hu h3 hp hd he, fun h => load_onDie (signed := false) h hu h3 hp hd he⟩

/-- The answer of local memory ends a load. -/
theorem opLoadAnswer_data (im : Image) {x : Proc} {l : LoadWait} {b : List Byte} {m : M} (hw : (m.cpu x.key).wait = .load l)
    (hd : (m.cpu x.key).loadDrop = 0) (hh : loadAtHost m x = false) (hr : loadHeld m x = false) (hb : b.length = l.size) :
    opLoadAnswer im x (.data b) m =
      finishRd x l.rd (loaded l.signed b) 1 (m.setCpu x.key { m.cpu x.key with wait := .none }) := by
  simp [opLoadAnswer, loadAns, hw, hd, hh, hr, loadVal_eq_loaded l.signed hb]

/-- Settles O5: a place in local memory or at a host sends its read, REG space reads its register, and the answer of local memory
writes the register in sequence. -/
theorem loadsElsewhere : Obligations.LoadsElsewhere := by
  refine ⟨fun s i signed h => ⟨?_, ?_, ?_, ?_⟩, ?_⟩
  · intro r hu h3 hp hr
    have hc := load_of_place (signed := signed) h hu h3 hp
    simp only [loadPlace, hr, afterIssue_cpu] at hc
    exact hc
  · intro r p hu h3 hp hr
    have hc := load_of_place (signed := signed) h hu h3 hp
    simp only [loadPlace, hr, afterIssue_cpu] at hc
    exact hc
  · intro c h3 hx ha hheld hflash
    have hc := load_of_reg (signed := signed) h h3 hx
    rwa [loadReg, if_neg (Nat.not_lt.2 ha), hheld, hflash] at hc
  · intro c h3 hx ha hheld
    have hc := load_of_reg (signed := signed) h h3 hx
    rw [loadReg, if_neg (Nat.not_lt.2 ha), hheld] at hc
    rw [← afterIssue_held s i]
    simp only [hx] at hc ⊢
    exact hc
  · intro s x l b hcalm hw hd hh hr hb
    have hc : Completes (.loadAnswer x (.data b)) s _ := completes_of_upd rfl (opLoadAnswer_data s.inForce hw hd hh hr hb)
    refine ⟨_, hc.next hcalm, rfl, fun j hj => ?_, ?_⟩
    · exact (finishRd_cpu_ne _ _ _ _ _ hj).trans (M.cpu_setCpu_ne _ _ hj)
    · simpa using finishRd_wrote x l.rd (loaded l.signed b) 1 (s.m.setCpu x.key { s.m.cpu x.key with wait := .none })

/-- Settles O6: the bytes go to the place, after the processor has moved past the store. -/
theorem storesRun : Obligations.StoresRun := by
  intro s i h hu
  obtain ⟨bud, srv, hf⟩ := afterIssue_frame s i
  have hcalm := (afterIssue_react s i).trans h.calm
  have hkept : CpusKept s.m (passStore i.x (afterIssue s i)) i.x.key := fun j hj =>
    (passStore_cpu_ne i.x (afterIssue s i) j hj).trans (afterIssue_cpu s i j)
  have hwrote : Wrote s.m.now (s.m.cpu i.x.key) ((passStore i.x (afterIssue s i)).cpu i.x.key) 0 0 1 := by
    simpa using passStore_wrote i.x (afterIssue s i)
  refine ⟨?_, ?_, fun r hp h3 => store_of_place h hu h3 hp, ?_⟩
  · intro k a n hp h3
    have hn : n = fSize i.word := resolve_len hp
    refine ⟨_, (store_of_place h hu h3 hp).next hcalm, ?_, ?_, ?_, hkept, hwrote⟩
    · simp only [writeSp]
      rw [passStore_frame, hf]
    · intro j hj
      exact memGet_storeBytes _ _ (hn ▸ hj)
    · intro x hx
      refine (memGet_storeBytes_out _ _ (hn ▸ hx)).trans ?_
      rw [passStore_frame, hf]
  · intro a n hp h3
    have hn : n = fSize i.word := resolve_len hp
    refine ⟨_, (store_of_place h hu h3 hp).next hcalm, ?_, ?_, ?_, hkept, hwrote⟩
    · simp only [writeSp]
      rw [passStore_frame, hf]
    · intro j hj
      exact memGet_storeBytes _ _ (hn ▸ hj)
    · intro x hx
      refine (memGet_storeBytes_out _ _ (hn ▸ hx)).trans ?_
      rw [passStore_frame, hf]
  · intro c h3 hx ha
    refine completes_of_runStore h ?_
    rw [runStore, if_pos h3, endStep_cpu]
    simp only [hx]
    rw [← hx]
    exact if_neg (Nat.not_lt.2 ha)

end Machine

end Sys2Proof
end

section
/-! PROOFS. Control registers of a core and trap entry (08, R208, R209). -/

namespace Sys2Proof

/-! ### Control registers -/

theorem Cpu.crv_setCr (k : Cpu) (n v j : Nat) : (k.setCr n v).crv j = if j = n then v % 2 ^ 64 else k.crv j := by
  simp only [Cpu.crv, Cpu.setCr]
  split
  next h => rw [h, mapGet_put_same, BitVec.toNat_ofNat]
  next h => rw [mapGet_put_ne _ _ _ (by simpa using h)]

theorem Cpu.crv_lt (k : Cpu) (n : Nat) : k.crv n < 2 ^ 64 := (mapGet 0 k.cr (n, 0)).isLt

/-- Writing a control register changes the register map alone. -/
theorem Cpu.setCr_frame (k : Cpu) (n v : Nat) : k.setCr n v = { k with cr := (k.setCr n v).cr } := rfl

theorem Cpu.crv_setStat (k : Cpu) (b : Nat) (v : Bool) {j : Nat} (h : j ≠ 0) : (k.setStat b v).crv j = k.crv j := by
  rw [Cpu.setStat, Cpu.crv_setCr, if_neg h]

/-- A written bit of WSTATUS reads back, and every other bit is as before. -/
theorem Cpu.bitAt_setStat (k : Cpu) {b : Nat} (v : Bool) (hb : b < 64) (j : Nat) :
    bitAt ((k.setStat b v).crv 0) j = if j = b then v else bitAt (k.crv 0) j := by
  rw [Cpu.setStat, Cpu.crv_setCr, if_pos rfl]
  by_cases hj : j < 64
  · rw [bitAt_mod_two_pow _ hj, bitAt_putBit]
  · have hzero {x : Nat} (hx : x < 2 ^ 64) : bitAt x j = false :=
      Nat.testBit_lt_two_pow (hx.trans_le (Nat.pow_le_pow_right (by decide) (Nat.not_lt.1 hj)))
    rw [if_neg (by omega), hzero (Nat.mod_lt _ (Nat.two_pow_pos 64)), hzero (k.crv_lt 0)]

theorem Cpu.inLevel_setStat (k : Cpu) {b : Nat} (v : Bool) (hb : b < 64) (j : Nat) :
    (k.setStat b v).inLevel j = if j = b then v else k.inLevel j := k.bitAt_setStat v hb j

/-! ### Trap entry -/

/-- A core that enters its trap level. -/
def Cpu.trapped (k : Cpu) (now cause tval : Nat) : Cpu :=
  let x := (k.setCr 3 k.pc).setStat 5 true
  ({ x with pc := x.crv 6, wait := .none, ready := now + 3 }.setCr 7 cause).setCr 8 tval

theorem trapEntry_eq (c cause tval : Nat) (m : M) :
    trapEntry c cause tval m =
      (enterLevel c 5 m).setCpu (wng c) ((m.cpu (wng c)).trapped m.now cause tval) := by
  rw [trapEntry]
  simp only [enterLevel, M.cpu_setCpu]
  rfl

@[simp] theorem trapEntry_cpu (c cause tval : Nat) (m : M) :
    (trapEntry c cause tval m).cpu (wng c) = (m.cpu (wng c)).trapped m.now cause tval := by
  rw [trapEntry_eq, M.cpu_setCpu]

theorem Cpu.trapped_crv (k : Cpu) (now cause tval n : Nat) : (k.trapped now cause tval).crv n =
    if n = 8 then tval % 2 ^ 64 else if n = 7 then cause % 2 ^ 64 else ((k.setCr 3 k.pc).setStat 5 true).crv n := by
  rw [Cpu.trapped, Cpu.crv_setCr, Cpu.crv_setCr]
  rfl

namespace Machine

/-- Settles O7: what a trapped core's control registers read, one write at a time. -/
theorem trapEntryRuns : Obligations.TrapEntry := by
  intro m c cause tval hcause htval k t j hpc
  have hj : j = k.trapped m.now cause tval := trapEntry_cpu ..
  have hcrv (n : Nat) : j.crv n = if n = 8 then tval else if n = 7 then cause else
      ((k.setCr 3 k.pc).setStat 5 true).crv n := by
    rw [hj, Cpu.trapped_crv, Nat.mod_eq_of_lt hcause, Nat.mod_eq_of_lt htval]
  have hstat (b : Nat) : bitAt (j.crv 0) b = if b = 5 then true else bitAt (k.crv 0) b := by
    rw [hcrv, if_neg (by decide), if_neg (by decide), Cpu.bitAt_setStat _ _ (by decide : 5 < 64), Cpu.crv_setCr,
      if_neg (by decide : ¬0 = 3)]
  have hother (n : Nat) (h0 : n ≠ 0) (h7 : n ≠ 7) (h8 : n ≠ 8) : j.crv n = if n = 3 then k.pc else k.crv n := by
    rw [hcrv, if_neg h8, if_neg h7, Cpu.crv_setStat _ _ _ h0, Cpu.crv_setCr, Nat.mod_eq_of_lt hpc]
  refine ⟨hother 3 (by decide) (by decide) (by decide), hstat 5, hcrv 7, hcrv 8, ?_, ?_,
    fun b hb => (hstat b).trans (if_neg hb), fun n hn => ?_, ?_, fun i hi => ?_, ?_⟩
  · rw [hj]
    exact (Cpu.crv_setStat _ _ _ (by decide)).trans (Cpu.crv_setCr ..)
  · rw [hj]
    rfl
  · simp only [List.mem_cons, List.not_mem_nil, or_false, not_or] at hn
    obtain ⟨h0, h3, h7, h8⟩ := hn
    rw [hother n h0 h7 h8, if_neg h3]
  · rw [hj]
    rfl
  · simp only [t, trapEntry_eq, enterLevel, M.cpu_setCpu_ne _ _ hi]
  · simp only [t, trapEntry_eq]
    rfl

end Machine

end Sys2Proof
end

section
/-! PROOFS. Block-repeat instructions in scratch memory (08, R197, R198): what one element does, and how far one cycle comes. -/

namespace Sys2Proof

/-! ### The words that spell them -/

/-- The major opcode under which an operation is spelled. -/
def Op.major : Op → Nat
  | .addi => 0x01
  | .addiw => 0x02
  | .andi => 0x03
  | .ori => 0x04
  | .xori => 0x05
  | .lui => 0x06
  | .slli | .srli | .srai | .roli | .slliw | .srliw | .sraiw | .roliw => 0x07
  | .seqi => 0x08
  | .snei => 0x09
  | .slti => 0x0A
  | .sltiu => 0x0B
  | .sgei => 0x0C
  | .sgeiu => 0x0D
  | .ld => 0x10
  | .ldu => 0x11
  | .st => 0x12
  | .bz => 0x18
  | .bnz => 0x19
  | .j => 0x1A
  | .jal => 0x1B
  | .jr => 0x1C
  | .movb | .filb | .cmpb | .scnb => 0x20
  | .send | .post | .waitev | .yield | .rtn | .rdtk | .rdcy => 0x21
  | .prv => 0x30
  | _ => 0x00

theorem oprFn_major {k : Nat} {b : Bool} {o : Op} (h : oprFn k b = some o) : o.major = 0x00 := by
  unfold oprFn at h
  split at h <;> cases h <;> rfl

theorem decodeR_major {w : BitVec 32} {o : Op} (h : decodeR w = some o) : o.major = 0x00 := by
  rw [decodeR] at h
  split at h
  · cases h
  · split at h
    next hf =>
      split at h <;> cases h
      exact oprFn_major hf
    next => cases h

theorem decodeShi_major {w : BitVec 32} {o : Op} (h : decodeShi w = some o) : o.major = 0x07 := by
  simp only [decodeShi] at h
  split at h
  · cases h
  · split at h <;> cases h <;> rfl

theorem decodeK_major {w : BitVec 32} {o : Op} (h : decodeK w = some o) : o.major = 0x20 := by
  simp only [decodeK, Option.ite_none_left_eq_some] at h
  obtain ⟨-, h⟩ := h
  split at h <;> simp only [Option.ite_none_right_eq_some, reduceCtorEq, Option.some.injEq] at h <;>
    (obtain ⟨-, rfl⟩ := h; rfl)

theorem decodeS_major {w : BitVec 32} {o : Op} (h : decodeS w = some o) : o.major = 0x21 := by
  simp only [decodeS, Option.ite_none_left_eq_some] at h
  obtain ⟨-, h⟩ := h
  split at h <;> simp only [Option.ite_none_right_eq_some, reduceCtorEq, Option.some.injEq] at h
  case h_3 => subst h; rfl
  all_goals obtain ⟨-, rfl⟩ := h; rfl

/-- A word spells only operations of its major opcode. -/
theorem major_of_decodeOp {w : BitVec 32} {o : Op} (h : decodeOp w = some o) : fMajor w = o.major := by
  unfold decodeOp at h
  split at h
  case h_1 hm => exact hm.trans (decodeR_major h).symm
  case h_8 hm => exact hm.trans (decodeShi_major h).symm
  case h_23 hm => exact hm.trans (decodeK_major h).symm
  case h_24 hm => exact hm.trans (decodeS_major h).symm
  case h_7 hm | h_22 hm =>
    obtain ⟨-, h⟩ := Option.ite_none_right_eq_some.1 h
    cases h
    exact hm
  case h_26 => cases h
  all_goals
    rename_i hm
    cases h
    exact hm

theorem decodeK_of_decodeOp {w : BitVec 32} {o : Op} (h : decodeOp w = some o) (ho : o.major = 0x20) : decodeK w = some o := by
  have hm := (major_of_decodeOp h).trans ho
  unfold decodeOp at h
  rw [hm] at h
  exact h

/-- The registers of a block-repeat word: those that change are not g0 and differ from one another and from the third. -/
theorem blk_registers {w : BitVec 32} {o : Op} (h : decodeK w = some o) :
    fRd w ≠ fRa w ∧ fRd w ≠ fRb w ∧ fRa w ≠ fRb w ∧ fRb w ≠ 0 ∧ (o ≠ .scnb → fRd w ≠ 0) ∧ (o ≠ .filb → fRa w ≠ 0) := by
  simp only [decodeK, Option.ite_none_left_eq_some] at h
  obtain ⟨-, h⟩ := h
  split at h <;>
    simp only [Option.ite_none_right_eq_some, reduceCtorEq, Option.some.injEq, Bool.and_eq_true, bne_iff_ne] at h
  all_goals
    obtain ⟨hr, rfl⟩ := h
    simp_all

/-! ### Elements in scratch memory -/

section
variable (im : Image) (m : M) (x : Proc) (a : Word)

theorem elemAt_scratch (store : Bool) (h : a.toNat + 1 ≤ 0x4000) :
    elemAt im m x false a store = some ⟨.scratch x.num, a.toNat, 1⟩ := by
  have ha : addOff a.toNat 0 = a.toNat := by
    have := a.isLt
    show (((a.toNat : Int) + 0) % (2 ^ 64 : Nat)).toNat = _
    omega
  show resolve im m x 0 a 0 1 store = _
  rw [resolve_scratch, ha, if_pos ⟨Nat.mod_one _, h⟩]

/-- The byte of a processor's scratch memory at an address. -/
def scratchByte (m : M) (x : Proc) (a : Nat) : Byte := memGet m.scratch (x.num * 65536 + a)

theorem readByte_scratch (a : Nat) : readByte m ⟨.scratch x.num, a, 1⟩ = scratchByte m x a := rfl

end

theorem blkByte_ok (im : Image) (x : Proc) (r : Range) {es : List Ecc} (m : M) (go : Byte → List Ecc → M → BlkRes)
    (h : ∀ e ∈ es, e = .ok) : blkByte im x r es m go = go (readByte m r) es.tail m := by
  have hok : es.headD .ok = .ok := by
    cases es with
    | nil => rfl
    | cons e es => exact h e (by simp)
  simp only [blkByte, hok, placeEcc_ok, reduceCtorEq, if_false]

/-! ### A cycle's work so far -/

/-- Where a cycle of a block-repeat instruction stands: registers that hold given numbers, everything but them and scratch memory
as at its start. -/
def BlkAt (m0 : M) (x : Proc) (l : List (Nat × Nat)) (m : M) : Prop :=
  m = { m0 with cpus := m.cpus, scratch := m.scratch } ∧ Machine.CpusKept m0 m x.key ∧
  (m.cpu x.key).pc = (m0.cpu x.key).pc ∧ (∀ e ∈ l, (m.cpu x.key).g e.1 = BitVec.ofNat 64 e.2) ∧
  ∀ r, r ∉ l.map (·.1) → (m.cpu x.key).g r = (m0.cpu x.key).g r

theorem BlkAt.holds {m0 m : M} {x : Proc} {l : List (Nat × Nat)} (h : BlkAt m0 x l m) :
    ∀ e ∈ l, (m.cpu x.key).g e.1 = BitVec.ofNat 64 e.2 := by
  obtain ⟨-, -, -, hl, -⟩ := h
  exact hl

theorem foldl_setG_pc (l : List (Nat × Word)) (k : Cpu) : (l.foldl (fun k e => k.setG e.1 e.2) k).pc = k.pc := by
  induction l generalizing k with
  | nil => rfl
  | cons e l ih => rw [List.foldl_cons, ih, Cpu.setG_frame]

theorem foldl_setG_g_of_not_mem {l : List (Nat × Word)} {r : Nat} (h : r ∉ l.map (·.1)) (k : Cpu) :
    (l.foldl (fun k e => k.setG e.1 e.2) k).g r = k.g r := by
  induction l generalizing k with
  | nil => rfl
  | cons e l ih =>
    simp only [List.map_cons, List.mem_cons, not_or] at h
    rw [List.foldl_cons, ih h.2, Cpu.g_setG, if_neg fun c => h.1 c.1]

theorem foldl_setG_g_of_mem {l : List (Nat × Word)} (hn : (l.map (·.1)).Nodup) (h0 : 0 ∉ l.map (·.1)) {e : Nat × Word}
    (he : e ∈ l) (k : Cpu) : (l.foldl (fun k e => k.setG e.1 e.2) k).g e.1 = e.2 := by
  induction l generalizing k with
  | nil => cases he
  | cons d l ih =>
    simp only [List.map_cons, List.nodup_cons, List.mem_cons, not_or] at hn h0
    rcases List.mem_cons.1 he with rfl | he
    · rw [List.foldl_cons, foldl_setG_g_of_not_mem hn.1, Cpu.g_setG, if_pos ⟨rfl, Ne.symm h0.1⟩]
    · exact ih hn.2 h0.2 he _

/-- An element writes scratch memory and moves the same registers on. -/
theorem BlkAt.moved {m0 m : M} {x : Proc} {l : List (Nat × Nat)} (h : BlkAt m0 x l m) (c : Mem) {l' : List (Nat × Nat)}
    (hl : l'.map (·.1) = l.map (·.1)) (hn : (l.map (·.1)).Nodup) (h0 : 0 ∉ l.map (·.1)) :
    BlkAt m0 x l' (setGs x (l'.map fun e => (e.1, BitVec.ofNat 64 e.2)) { m with scratch := c }) := by
  obtain ⟨hm, hkept, hpc, -, hother⟩ := h
  have hfst : (l'.map fun e => (e.1, BitVec.ofNat 64 e.2)).map (·.1) = l.map (·.1) := by rw [← hl, List.map_map]; rfl
  refine ⟨?_, fun j hj => ?_, ?_, fun e he => ?_, fun r hr => ?_⟩
  · rw [hm]
    rfl
  · exact (M.cpu_setCpu_ne _ _ hj).trans (hkept j hj)
  · rw [setGs, M.cpu_setCpu, foldl_setG_pc]
    exact hpc
  · rw [setGs, M.cpu_setCpu]
    exact foldl_setG_g_of_mem (by rwa [hfst]) (by rwa [hfst]) (List.mem_map_of_mem he) _
  · rw [setGs, M.cpu_setCpu, foldl_setG_g_of_not_mem (by rwa [hfst, ← hl])]
    exact hother r (hl ▸ hr)

theorem foldl_setG_frame (l : List (Nat × Word)) (k : Cpu) :
    l.foldl (fun k e => k.setG e.1 e.2) k = { k with regs := (l.foldl (fun k e => k.setG e.1 e.2) k).regs } := by
  induction l generalizing k with
  | nil => rfl
  | cons e l ih =>
    rw [List.foldl_cons, ih, Cpu.setG_frame]

/-! ### One element -/

theorem advance_scratch (m : M) (x : Proc) (n : Nat) : advance m x false (BitVec.ofNat 64 n) = BitVec.ofNat 64 (n + 1) :=
  (BitVec.ofNat_add n 1).symm

theorem ofNat_sub_one {c : Nat} (h : 0 < c) : BitVec.ofNat 64 c - 1 = BitVec.ofNat 64 (c - 1) := by
  obtain ⟨b, rfl⟩ := Nat.exists_eq_succ_of_ne_zero h.ne'
  rw [Nat.succ_eq_add_one, BitVec.ofNat_add]
  exact BitVec.add_sub_cancel _ _

section
variable (im : Image) {m : M} {x : Proc} {w : BitVec 32} {es : List Ecc} {d a c : Nat}
variable (hdsp : fDsp w = false) (hssp : fSsp w = false) (hes : ∀ e ∈ es, e = .ok) (hc : 0 < c)
variable (hgd : (m.cpu x.key).g (fRd w) = BitVec.ofNat 64 d) (hga : (m.cpu x.key).g (fRa w) = BitVec.ofNat 64 a)
variable (hgc : (m.cpu x.key).g (fRb w) = BitVec.ofNat 64 c)

/-- The place of an element below the end of scratch memory. -/
theorem elemAt_ofNat (store : Bool) {n : Nat} (h : n + 1 ≤ 0x4000) :
    elemAt im m x false (BitVec.ofNat 64 n) store = some ⟨.scratch x.num, n, 1⟩ := by
  have hn : (BitVec.ofNat 64 n).toNat = n := by
    rw [BitVec.toNat_ofNat]
    omega
  rw [elemAt_scratch _ _ _ _ _ (by omega), hn]

include hdsp hssp hc hgc

section
include hga hes

include hgd in
theorem blkElem_movb (hd : d + 1 ≤ 0x4000) (ha : a + 1 ≤ 0x4000) : blkElem im x .movb w es m =
    .cont es.tail (setGs x ([(fRd w, d + 1), (fRa w, a + 1), (fRb w, c - 1)].map fun e => (e.1, BitVec.ofNat 64 e.2))
      { m with scratch := memWrite m.scratch (x.num * 65536 + d) [scratchByte m x a] }) := by
  simp only [blkElem, hdsp, hssp, hgd, hga, hgc, advance_scratch, ofNat_sub_one hc,
    elemAt_ofNat im _ hd, elemAt_ofNat im _ ha, blkByte_ok im x _ m _ hes]
  rfl

include hgd in
theorem blkElem_cmpb (hd : d + 1 ≤ 0x4000) (ha : a + 1 ≤ 0x4000) : blkElem im x .cmpb w es m =
    if scratchByte m x d = scratchByte m x a then
      .cont es.tail.tail (setGs x ([(fRd w, d + 1), (fRa w, a + 1), (fRb w, c - 1)].map fun e => (e.1, BitVec.ofNat 64 e.2)) m)
    else .stop m := by
  have hes' : ∀ e ∈ es.tail, e = .ok := fun e h => hes e (List.mem_of_mem_tail h)
  simp only [blkElem, hdsp, hssp, hgd, hga, hgc, advance_scratch, ofNat_sub_one hc,
    elemAt_ofNat im _ hd, elemAt_ofNat im _ ha, blkByte_ok im x _ m _ hes, blkByte_ok im x _ m _ hes',
    readByte_scratch]
  rfl

omit hdsp in
theorem blkElem_scnb (ha : a + 1 ≤ 0x4000) : blkElem im x .scnb w es m =
    if scratchByte m x a = BitVec.ofNat 8 ((m.cpu x.key).g (fRd w)).toNat then .stop m
    else .cont es.tail (setGs x ([(fRa w, a + 1), (fRb w, c - 1)].map fun e => (e.1, BitVec.ofNat 64 e.2)) m) := by
  simp only [blkElem, hssp, hga, hgc, advance_scratch, ofNat_sub_one hc, elemAt_ofNat im _ ha,
    blkByte_ok im x _ m _ hes, readByte_scratch]
  rfl

end

omit hssp in
include hgd in
theorem blkElem_filb (hd : d + 1 ≤ 0x4000) : blkElem im x .filb w es m =
    .cont es (setGs x ([(fRd w, d + 1), (fRb w, c - 1)].map fun e => (e.1, BitVec.ofNat 64 e.2))
      { m with
        scratch := memWrite m.scratch (x.num * 65536 + d) [BitVec.ofNat 8 (((m.cpu x.key).g (fRa w)).toNat / 256 ^ (d % 8))] }) := by
  have hbyte (v : Nat) : (leBytes 8 v).getD (d % 8) 0 = BitVec.ofNat 8 (v / 256 ^ (d % 8)) := by
    have hlt : d % 8 < (leBytes 8 v).length := by
      rw [leBytes_length]
      omega
    rw [List.getD_eq_getElem _ _ hlt, getElem_leBytes]
  simp only [blkElem, hdsp, hgd, hgc, advance_scratch, ofNat_sub_one hc, elemAt_ofNat im _ hd, hbyte]
  rfl

end

/-! ### One cycle -/

/-- A cycle goes on to element e, its last: the count or the cycle's rate is used up, or the element itself stops. -/
theorem blkRun_of_inv {im : Image} {x : Proc} {o : Op} {w : BitVec 32} {N c e : Nat} (Inv : Nat → M → Prop) (hlt : c < 2 ^ 64)
    (hc : ∀ j m, Inv j m → (m.cpu x.key).g (fRb w) = BitVec.ofNat 64 (c - j))
    (hcont : ∀ j m es, j < e → Inv j m → (∀ y ∈ es, y = .ok) →
      ∃ es' m', blkElem im x o w es m = .cont es' m' ∧ (∀ y ∈ es', y = .ok) ∧ Inv (j + 1) m')
    (hstop : e = min c N ∨
      e < min c N ∧ ∀ m es, Inv e m → (∀ y ∈ es, y = .ok) → blkElem im x o w es m = .stop m)
    (k j : Nat) (m : M) (es : List Ecc) (hk : j + k = e) (h : Inv j m) (hes : ∀ y ∈ es, y = .ok) :
    ∃ t, Inv e t ∧ blkRun im x o w (N - j) es m = if e < min c N ∨ c ≤ N then blkDone x t else t := by
  have hzero {j : Nat} {m : M} (h : Inv j m) : (m.cpu x.key).g (fRb w) = 0 ↔ c ≤ j := by
    rw [hc j m h, ← BitVec.toNat_inj, BitVec.toNat_ofNat, Nat.mod_eq_of_lt (by omega)]
    exact Nat.sub_eq_zero_iff_le
  have hle : e ≤ min c N := by rcases hstop with h | h <;> omega
  induction k generalizing j m es with
  | zero =>
    obtain rfl : j = e := hk
    refine ⟨m, h, ?_⟩
    by_cases hcj : c ≤ j
    · rw [if_pos (.inr (by omega))]
      cases N - j <;> rw [blkRun, if_pos ((hzero h).2 hcj)]
    · rcases hstop with hj | ⟨hj, hs⟩
      · rw [show N - j = 0 by omega, blkRun, if_neg (mt (hzero h).1 hcj), if_neg (by omega)]
      · obtain ⟨n, hn⟩ : ∃ n, N - j = n + 1 := ⟨N - j - 1, by omega⟩
        rw [hn, blkRun, if_neg (mt (hzero h).1 hcj), hs m es h hes, if_pos (.inl hj)]
  | succ k ih =>
    obtain ⟨es', m', hrun, hes', h'⟩ := hcont j m es (by omega) h hes
    obtain ⟨t, ht, heq⟩ := ih (j + 1) m' es' (by omega) h' hes'
    refine ⟨t, ht, ?_⟩
    rw [← heq, show N - j = (N - (j + 1)) + 1 by omega, blkRun, if_neg (mt (hzero h).1 (by omega)), hrun]

namespace Machine

/-- The state in which a block-repeat instruction's cycle begins. -/
def blkStart (s : State) (i : Issue) : M :=
  (afterIssue s i).setCpu i.x.key { s.m.cpu i.x.key with ready := s.m.now + 1 }

/-- What a cycle leaves: registers and PC of the processor, and scratch memory as the elements left it. -/
theorem blk_next {s : State} {i : Issue} {o : Op} {cmd : Instr} {l : List (Nat × Nat)} {t : M} {P : Prop} [Decidable P]
    (h : MayIssue s i o) (hcmd : exec cmd s = .next (s.upd fun im m => opBlock im o i m)) (hdsp : fDsp i.word = false)
    (hssp : fSsp i.word = false) (ht : BlkAt (blkStart s i) i.x l t)
    (hrun : blkRun s.inForce i.x o i.word 32 (i.data :: i.more) (blkStart s i) = if P then blkDone i.x t else t) :
    ∃ u, exec cmd s = .next u ∧
      u = { s with m := { s.m with cpus := u.m.cpus, bud := u.m.bud, served := u.m.served, mgt := u.m.mgt, scratch := u.m.scratch } } ∧
      CpusKept s.m u.m i.x.key ∧
      (∀ r, r ∉ l.map (·.1) → (u.m.cpu i.x.key).g r = (s.m.cpu i.x.key).g r) ∧
      (∀ e ∈ l, (u.m.cpu i.x.key).g e.1 = BitVec.ofNat 64 e.2) ∧
      (u.m.cpu i.x.key).pc = (if P then ((s.m.cpu i.x.key).pc + 4) % 2 ^ 64 else (s.m.cpu i.x.key).pc) ∧
      u.m.scratch = t.scratch := by
  obtain ⟨hframe, hkept, hpc, hl, hother⟩ := ht
  obtain ⟨b, v, hf⟩ := afterIssue_frame s i
  have hkept0 : CpusKept s.m t i.x.key := fun j hj =>
    (hkept j hj).trans ((M.cpu_setCpu_ne _ _ hj).trans (afterIssue_cpu s i j))
  have hstart : (blkStart s i).cpu i.x.key = { s.m.cpu i.x.key with ready := s.m.now + 1 } := M.cpu_setCpu ..
  have hbase : t = { s.m with cpus := t.cpus, bud := t.bud, served := t.served, mgt := t.mgt, scratch := t.scratch } := by
    rw [hframe, blkStart, hf]
    rfl
  have hblk : runBlock s.inForce i o (endStep i.x s.m) = if P then blkDone i.x t else t := by
    rw [← hrun, runBlock, blkRate, hdsp, hssp, blkStart, ← afterIssue_cpu s i, ← afterIssue_now s i]
    rfl
  have hg (r : Nat) : ((if P then blkDone i.x t else t).cpu i.x.key).g r = (t.cpu i.x.key).g r := by
    split
    · rw [blkDone, M.cpu_setCpu]
      rfl
    · rfl
  have hdone : Completes cmd s (if P then blkDone i.x t else t) := completes_of_issue hcmd h (by simp) hblk
  have hcalm : (if P then blkDone i.x t else t).react = [] := by
    have : t.react = [] := by rw [hbase]; exact h.calm
    split <;> exact this
  refine ⟨_, hdone.next hcalm, ?_, ?_, fun r hr => ?_, fun e he => (hg _).trans (hl e he), ?_, ?_⟩
  · split
    · exact congrArg (fun m => { s with m := blkDone i.x m }) hbase
    · exact congrArg (fun m => { s with m := m }) hbase
  · intro j hj
    split
    · exact (M.cpu_setCpu_ne _ _ hj).trans (hkept0 j hj)
    · exact hkept0 j hj
  · rw [hg, hother r hr, hstart]
    rfl
  · rw [hstart] at hpc
    split
    · rw [blkDone, M.cpu_setCpu, ← hpc]
      rfl
    · exact hpc
  · split <;> rfl

/-! ### The statement -/

theorem blkStart_byte (s : State) (i : Issue) (a : Nat) : scratchByte (blkStart s i) i.x a = scratchByte s.m i.x a := by
  obtain ⟨b, v, hf⟩ := afterIssue_frame s i
  rw [blkStart, hf]
  rfl

/-- Where a cycle begins: nothing has changed but the next issue. -/
theorem blkAt_start {s : State} {i : Issue} {l : List (Nat × Nat)}
    (hl : ∀ e ∈ l, (s.m.cpu i.x.key).g e.1 = BitVec.ofNat 64 e.2) : BlkAt (blkStart s i) i.x l (blkStart s i) := by
  refine ⟨rfl, fun _ _ => rfl, rfl, fun e he => ?_, fun _ _ => rfl⟩
  rw [← hl e he, blkStart, M.cpu_setCpu]
  rfl

theorem g_eq_ofNat (k : Cpu) (r : Nat) : k.g r = BitVec.ofNat 64 (k.g r).toNat := by
  rw [BitVec.ofNat_toNat, BitVec.setWidth_eq]

/-- The first number below n with a property, or n. -/
theorem find?_range_getD {p : Nat → Bool} {n e : Nat} (h : e = ((List.range n).find? p).getD n) :
    (∀ j, j < e → p j = false) ∧ (e = n ∨ e < n ∧ p e = true) := by
  cases hf : (List.range n).find? p with
  | none =>
    rw [hf] at h
    obtain rfl : e = n := h
    exact ⟨fun j hj => by simpa using List.find?_range_eq_none.1 hf j hj, .inl rfl⟩
  | some k =>
    rw [hf] at h
    obtain rfl : e = k := h
    obtain ⟨hp, hmem, hlt⟩ := List.find?_range_eq_some.1 hf
    exact ⟨fun j hj => by simpa using hlt j hj, .inr ⟨List.mem_range.1 hmem, hp⟩⟩

section
variable (s : State) (i : Issue)

/-- The destination address, source address and count of a block-repeat instruction, as it finds its registers. -/
def blkDst : Nat := ((s.m.cpu i.x.key).g (fRd i.word)).toNat
/-- See `blkDst`. -/
def blkSrc : Nat := ((s.m.cpu i.x.key).g (fRa i.word)).toNat
/-- See `blkDst`. -/
def blkCount : Nat := ((s.m.cpu i.x.key).g (fRb i.word)).toNat

/-- The registers of MOVB and CMPB after j elements. -/
def pairRegs (j : Nat) : List (Nat × Nat) :=
  [(fRd i.word, blkDst s i + j), (fRa i.word, blkSrc s i + j), (fRb i.word, blkCount s i - j)]

/-- The registers of FILB after j elements. -/
def fillRegs (j : Nat) : List (Nat × Nat) := [(fRd i.word, blkDst s i + j), (fRb i.word, blkCount s i - j)]

/-- The registers of SCNB after j elements. -/
def scanRegs (j : Nat) : List (Nat × Nat) := [(fRa i.word, blkSrc s i + j), (fRb i.word, blkCount s i - j)]

/-- Scratch memory is as at the start but for j bytes from the destination on. -/
def OnlyDst (j : Nat) (m : M) : Prop :=
  ∀ y, y < i.x.num * 65536 + blkDst s i ∨ i.x.num * 65536 + blkDst s i + j ≤ y → memGet m.scratch y = memGet s.m.scratch y

/-- After j of n elements of MOVB. -/
def MovbAt (n j : Nat) (m : M) : Prop :=
  BlkAt (blkStart s i) i.x (pairRegs s i j) m ∧ OnlyDst s i j m ∧
  (blkSrc s i + n ≤ blkDst s i ∨ blkDst s i ≤ blkSrc s i →
    ∀ y, y < j → memGet m.scratch (i.x.num * 65536 + blkDst s i + y) = memGet s.m.scratch (i.x.num * 65536 + blkSrc s i + y))

/-- After j elements of FILB. -/
def FilbAt (j : Nat) (m : M) : Prop :=
  BlkAt (blkStart s i) i.x (fillRegs s i j) m ∧ OnlyDst s i j m ∧
  ∀ y, y < j → memGet m.scratch (i.x.num * 65536 + blkDst s i + y) =
    BitVec.ofNat 8 (blkSrc s i / 256 ^ ((blkDst s i + y) % 8))

/-- After j elements of an instruction that only reads. -/
def ReadAt (l : Nat → List (Nat × Nat)) (j : Nat) (m : M) : Prop :=
  BlkAt (blkStart s i) i.x (l j) m ∧ m.scratch = s.m.scratch

theorem blkStart_scratch : (blkStart s i).scratch = s.m.scratch := by
  obtain ⟨b, v, hf⟩ := afterIssue_frame s i
  rw [blkStart, hf]
  rfl

end

section
variable {s : State} {i : Issue}

theorem pairRegs_start : ∀ e ∈ pairRegs s i 0, (s.m.cpu i.x.key).g e.1 = BitVec.ofNat 64 e.2 := by
  simp only [pairRegs, List.forall_mem_cons]
  exact ⟨g_eq_ofNat _ _, g_eq_ofNat _ _, g_eq_ofNat _ _, List.forall_mem_nil _⟩

theorem fillRegs_start : ∀ e ∈ fillRegs s i 0, (s.m.cpu i.x.key).g e.1 = BitVec.ofNat 64 e.2 := by
  simp only [fillRegs, List.forall_mem_cons]
  exact ⟨g_eq_ofNat _ _, g_eq_ofNat _ _, List.forall_mem_nil _⟩

theorem scanRegs_start : ∀ e ∈ scanRegs s i 0, (s.m.cpu i.x.key).g e.1 = BitVec.ofNat 64 e.2 := by
  simp only [scanRegs, List.forall_mem_cons]
  exact ⟨g_eq_ofNat _ _, g_eq_ofNat _ _, List.forall_mem_nil _⟩

/-- A byte written behind those already written. -/
theorem OnlyDst.write {j : Nat} {m : M} (h : OnlyDst s i j m) (b : Byte) :
    OnlyDst s i (j + 1) { m with scratch := memWrite m.scratch (i.x.num * 65536 + (blkDst s i + j)) [b] } := by
  intro y hy
  rw [memGet_write_out _ _ _ _ (by simp only [List.length_singleton]; omega)]
  exact h y (by omega)

theorem memGet_write_one (l : Mem) (a y : Nat) (b : Byte) :
    memGet (memWrite l a [b]) y = if y = a then b else memGet l y := by
  split
  next h => rw [h]; exact memGet_set_same l a b
  next h => exact memGet_set_ne l b h

section
variable {n j : Nat} {m : M} (hdsp : fDsp i.word = false) (hssp : fSsp i.word = false) {es : List Ecc}
  (hes : ∀ y ∈ es, y = .ok) (hj : j < n) (hn : n ≤ blkCount s i) (hd : blkDst s i + n ≤ 0x4000)
  (ha : blkSrc s i + n ≤ 0x4000)
include hj hn

section
include hdsp hssp hes hd ha

theorem movb_element (hk : decodeK i.word = some .movb) (h : MovbAt s i n j m) :
    ∃ es' m', blkElem s.inForce i.x .movb i.word es m = .cont es' m' ∧ (∀ y ∈ es', y = .ok) ∧ MovbAt s i n (j + 1) m' := by
  obtain ⟨hat, hout, hin⟩ := h
  obtain ⟨hda, hdc, hac, hc0, hd0, ha0⟩ := blk_registers hk
  obtain ⟨hgd, hga, hgc⟩ : _ ∧ _ ∧ _ := by simpa [pairRegs] using hat.holds
  refine ⟨_, _, blkElem_movb _ hdsp hssp hes (by omega) hgd hga hgc (by omega) (by omega),
    fun y hy => hes y (List.mem_of_mem_tail hy), ?_, hout.write _, fun hcond y hy => ?_⟩
  · exact hat.moved _ rfl (by simp [pairRegs, hda, hdc, hac])
      (by simp [pairRegs, (hd0 (by decide)).symm, (ha0 (by decide)).symm, hc0.symm])
  · refine (memGet_write_one ..).trans ?_
    split
    next hy' =>
      obtain rfl : y = j := by omega
      exact (hout _ (by omega)).trans (by rw [Nat.add_assoc])
    next => exact hin hcond y (by omega)

theorem cmpb_element (h : ReadAt s i (pairRegs s i) j m) : blkElem s.inForce i.x .cmpb i.word es m =
    if scratchByte s.m i.x (blkDst s i + j) = scratchByte s.m i.x (blkSrc s i + j) then
      .cont es.tail.tail (setGs i.x ((pairRegs s i (j + 1)).map fun e => (e.1, BitVec.ofNat 64 e.2)) m)
    else .stop m := by
  obtain ⟨hat, hmem⟩ := h
  obtain ⟨hgd, hga, hgc⟩ : _ ∧ _ ∧ _ := by simpa [pairRegs] using hat.holds
  rw [blkElem_cmpb _ hdsp hssp hes (by omega) hgd hga hgc (by omega) (by omega), scratchByte, scratchByte, hmem]
  rfl

end

section
include hdsp hd

theorem filb_element (hk : decodeK i.word = some .filb) (h : FilbAt s i j m) :
    ∃ m', blkElem s.inForce i.x .filb i.word es m = .cont es m' ∧ FilbAt s i (j + 1) m' := by
  obtain ⟨hat, hout, hin⟩ := h
  obtain ⟨hda, hdc, hac, hc0, hd0, -⟩ := blk_registers hk
  obtain ⟨hgd, hgc⟩ : _ ∧ _ := by simpa [fillRegs] using hat.holds
  obtain ⟨-, -, -, -, hother⟩ := id hat
  have hga : ((m.cpu i.x.key).g (fRa i.word)).toNat = blkSrc s i := by
    rw [hother _ (by simp [fillRegs, hda.symm, hac]), blkStart, M.cpu_setCpu]
    rfl
  refine ⟨_, blkElem_filb _ hdsp (by omega) hgd hgc (by omega), ?_, hout.write _, fun y hy => ?_⟩
  · exact hat.moved _ rfl (by simp [fillRegs, hdc]) (by simp [fillRegs, (hd0 (by decide)).symm, hc0.symm])
  · refine (memGet_write_one ..).trans ?_
    split
    next hy' =>
      obtain rfl : y = j := by omega
      rw [hga]
    next => exact hin y (by omega)

end

include hssp hes ha in
theorem scnb_element (hk : decodeK i.word = some .scnb) (h : ReadAt s i (scanRegs s i) j m) :
    blkElem s.inForce i.x .scnb i.word es m =
      if scratchByte s.m i.x (blkSrc s i + j) = BitVec.ofNat 8 (blkDst s i) then .stop m
      else .cont es.tail (setGs i.x ((scanRegs s i (j + 1)).map fun e => (e.1, BitVec.ofNat 64 e.2)) m) := by
  obtain ⟨hat, hmem⟩ := h
  obtain ⟨hda, hdc, -⟩ := blk_registers hk
  obtain ⟨hga, hgc⟩ : _ ∧ _ := by simpa [scanRegs] using hat.holds
  obtain ⟨-, -, -, -, hother⟩ := id hat
  have hgd : ((m.cpu i.x.key).g (fRd i.word)).toNat = blkDst s i := by
    rw [hother _ (by simp [scanRegs, hda, hdc]), blkStart, M.cpu_setCpu]
    rfl
  rw [blkElem_scnb _ hssp hes (by omega) hga hgc (by omega), scratchByte, scratchByte, hmem, hgd]
  rfl

end

/-- An instruction that only reads moves its registers on. -/
theorem ReadAt.moved {l : Nat → List (Nat × Nat)} {j : Nat} {m : M} (h : ReadAt s i l j m)
    (hl : (l (j + 1)).map (·.1) = (l j).map (·.1)) (hn : ((l j).map (·.1)).Nodup) (h0 : 0 ∉ (l j).map (·.1)) :
    ReadAt s i l (j + 1) (setGs i.x ((l (j + 1)).map fun e => (e.1, BitVec.ofNat 64 e.2)) m) :=
  ⟨h.1.moved m.scratch hl hn h0, h.2⟩

end

/-- How far a cycle comes: to element n, where its count or its rate is used up, or where the element stops it. -/
theorem blkCycle {s : State} {i : Issue} {o : Op} {n : Nat} (Inv : Nat → M → Prop) (hes : ∀ y ∈ i.data :: i.more, y = .ok)
    (hstart : Inv 0 (blkStart s i))
    (hc : ∀ j m, Inv j m → (m.cpu i.x.key).g (fRb i.word) = BitVec.ofNat 64 (blkCount s i - j))
    (hcont : ∀ j m es, j < n → Inv j m → (∀ y ∈ es, y = .ok) →
      ∃ es' m', blkElem s.inForce i.x o i.word es m = .cont es' m' ∧ (∀ y ∈ es', y = .ok) ∧ Inv (j + 1) m')
    (hstop : n = min (blkCount s i) 32 ∨ n < min (blkCount s i) 32 ∧
      ∀ m es, Inv n m → (∀ y ∈ es, y = .ok) → blkElem s.inForce i.x o i.word es m = .stop m) :
    ∃ t, Inv n t ∧ blkRun s.inForce i.x o i.word 32 (i.data :: i.more) (blkStart s i) =
      if n < min (blkCount s i) 32 ∨ blkCount s i ≤ 32 then blkDone i.x t else t :=
  blkRun_of_inv (N := 32) Inv (BitVec.isLt _) hc hcont hstop n 0 _ _ (Nat.zero_add n) hstart hes

section
variable {s : State} {i : Issue} {n : Nat} (hdsp : fDsp i.word = false) (hssp : fSsp i.word = false)
  (hn : n = min (blkCount s i) 32) (hes : ∀ y ∈ i.data :: i.more, y = .ok) (hd : blkDst s i + n ≤ 0x4000)
  (ha : blkSrc s i + n ≤ 0x4000)
include hn hes

theorem blkCycle_full {o : Op} (Inv : Nat → M → Prop) (hstart : Inv 0 (blkStart s i))
    (hc : ∀ j m, Inv j m → (m.cpu i.x.key).g (fRb i.word) = BitVec.ofNat 64 (blkCount s i - j))
    (hcont : ∀ j m es, j < n → Inv j m → (∀ y ∈ es, y = .ok) →
      ∃ es' m', blkElem s.inForce i.x o i.word es m = .cont es' m' ∧ (∀ y ∈ es', y = .ok) ∧ Inv (j + 1) m') :
    ∃ t, Inv n t ∧ blkRun s.inForce i.x o i.word 32 (i.data :: i.more) (blkStart s i) =
      if blkCount s i ≤ 32 then blkDone i.x t else t := by
  obtain ⟨t, ht, hrun⟩ := blkCycle Inv hes hstart hc hcont (.inl hn)
  refine ⟨t, ht, hrun.trans ?_⟩
  simp only [hn, lt_self_iff_false, false_or]

section
include hdsp hd

include hssp ha in
theorem movb_cycle (h : MayIssue s i .movb) : ∃ t, MovbAt s i n n t ∧
    blkRun s.inForce i.x .movb i.word 32 (i.data :: i.more) (blkStart s i) =
      if blkCount s i ≤ 32 then blkDone i.x t else t :=
  blkCycle_full hn hes (MovbAt s i n)
    ⟨blkAt_start pairRegs_start, fun _ _ => by rw [blkStart_scratch], fun _ _ hy => absurd hy (Nat.not_lt_zero _)⟩
    (fun j _ hm => hm.1.holds (fRb i.word, blkCount s i - j) (by simp [pairRegs]))
    (fun _ _ _ hj hm hes => movb_element hdsp hssp hes hj (by omega) hd ha (decodeK_of_decodeOp h.decodes rfl) hm)

theorem filb_cycle (h : MayIssue s i .filb) : ∃ t, FilbAt s i n t ∧
    blkRun s.inForce i.x .filb i.word 32 (i.data :: i.more) (blkStart s i) =
      if blkCount s i ≤ 32 then blkDone i.x t else t := by
  refine blkCycle_full hn hes (FilbAt s i)
    ⟨blkAt_start fillRegs_start, fun _ _ => by rw [blkStart_scratch], fun _ hy => absurd hy (Nat.not_lt_zero _)⟩
    (fun j _ hm => hm.1.holds (fRb i.word, blkCount s i - j) (by simp [fillRegs])) fun j m es hj hm hes => ?_
  obtain ⟨m', hm', hnext⟩ := filb_element hdsp hj (by omega) hd (decodeK_of_decodeOp h.decodes rfl) hm
  exact ⟨es, m', hm', hes, hnext⟩

include hssp ha in
theorem cmpb_cycle (h : MayIssue s i .cmpb) {e : Nat}
    (he : e = ((List.range n).find? (fun j =>
      scratchByte s.m i.x (blkDst s i + j) != scratchByte s.m i.x (blkSrc s i + j))).getD n) :
    ∃ t, ReadAt s i (pairRegs s i) e t ∧ blkRun s.inForce i.x .cmpb i.word 32 (i.data :: i.more) (blkStart s i) =
      if e < n ∨ blkCount s i ≤ 32 then blkDone i.x t else t := by
  obtain ⟨heq, hend⟩ := find?_range_getD he
  obtain ⟨hda, hdc, hac, hc0, hd0, ha0⟩ := blk_registers (decodeK_of_decodeOp h.decodes rfl)
  have hmin : e < n ∨ blkCount s i ≤ 32 ↔ e < min (blkCount s i) 32 ∨ blkCount s i ≤ 32 := by rw [hn]
  simp only [hmin]
  refine blkCycle (ReadAt s i (pairRegs s i)) hes ⟨blkAt_start pairRegs_start, blkStart_scratch ..⟩
    (fun j _ hm => hm.1.holds (fRb i.word, blkCount s i - j) (by simp [pairRegs])) (fun j m es hj hm hes => ?_) ?_
  · have hsame := heq j hj
    rw [bne_eq_false_iff_eq] at hsame
    refine ⟨_, _, (cmpb_element hdsp hssp hes (n := n) (by omega) (by omega) hd ha hm).trans (if_pos hsame),
      fun y hy => hes y (List.mem_of_mem_tail (List.mem_of_mem_tail hy)), hm.moved rfl ?_ ?_⟩
    · simp [pairRegs, hda, hdc, hac]
    · simp [pairRegs, (hd0 (by decide)).symm, (ha0 (by decide)).symm, hc0.symm]
  · refine hend.imp (fun h => h.trans hn) fun ⟨hlt, hdiff⟩ => ⟨hn ▸ hlt, fun m es hm hes => ?_⟩
    rw [bne_iff_ne] at hdiff
    exact (cmpb_element hdsp hssp hes hlt (by omega) hd ha hm).trans (if_neg hdiff)

end

include hssp ha in
theorem scnb_cycle (h : MayIssue s i .scnb) {e : Nat}
    (he : e = ((List.range n).find? (fun j =>
      scratchByte s.m i.x (blkSrc s i + j) == BitVec.ofNat 8 (blkDst s i))).getD n) :
    ∃ t, ReadAt s i (scanRegs s i) e t ∧ blkRun s.inForce i.x .scnb i.word 32 (i.data :: i.more) (blkStart s i) =
      if e < n ∨ blkCount s i ≤ 32 then blkDone i.x t else t := by
  obtain ⟨heq, hend⟩ := find?_range_getD he
  have hk := decodeK_of_decodeOp h.decodes rfl
  obtain ⟨-, -, hac, hc0, -, ha0⟩ := blk_registers hk
  have hmin : e < n ∨ blkCount s i ≤ 32 ↔ e < min (blkCount s i) 32 ∨ blkCount s i ≤ 32 := by rw [hn]
  simp only [hmin]
  refine blkCycle (ReadAt s i (scanRegs s i)) hes ⟨blkAt_start scanRegs_start, blkStart_scratch ..⟩
    (fun j _ hm => hm.1.holds (fRb i.word, blkCount s i - j) (by simp [scanRegs])) (fun j m es hj hm hes => ?_) ?_
  · have hother := heq j hj
    rw [beq_eq_false_iff_ne] at hother
    refine ⟨_, _, (scnb_element hssp hes (n := n) (by omega) (by omega) ha hk hm).trans (if_neg hother),
      fun y hy => hes y (List.mem_of_mem_tail hy), hm.moved rfl ?_ ?_⟩
    · simp [scanRegs, hac]
    · simp [scanRegs, (ha0 (by decide)).symm, hc0.symm]
  · refine hend.imp (fun h => h.trans hn) fun ⟨hlt, hfound⟩ => ⟨hn ▸ hlt, fun m es hm hes => ?_⟩
    rw [beq_iff_eq] at hfound
    exact (scnb_element hssp hes hlt (by omega) ha hk hm).trans (if_pos hfound)

end

/-- Settles O8: a cycle goes as far as `movb_cycle`, `filb_cycle`, `cmpb_cycle` and `scnb_cycle` say, and ends as `blk_next`
says. -/
theorem blockRepeatRuns : Obligations.BlockRepeatRuns := by
  intro s i n hdsp hssp k d a c base hn hdata hmore
  have hes : ∀ y ∈ i.data :: i.more, y = .ok := List.forall_mem_cons.2 ⟨hdata, hmore⟩
  refine ⟨fun h hd ha => ?_, fun h hd => ?_, fun h hd ha => ?_, fun h ha => ?_⟩
  · obtain ⟨t, ⟨hat, hout, hin⟩, hrun⟩ := movb_cycle hdsp hssp hn hes hd ha h
    obtain ⟨u, he, hframe, hkept, hother, hl, hpc, hmem⟩ := blk_next (cmd := .movb i) h rfl hdsp hssp hat hrun
    simp only [pairRegs, List.forall_mem_cons] at hl
    obtain ⟨hld, hla, hlc, -⟩ := hl
    exact ⟨u, he, hframe, hkept, hother, hld, hla, hlc, hpc, fun x hx => hmem ▸ hout x hx,
      fun hcond j hj => hmem ▸ hin hcond j hj⟩
  · obtain ⟨t, ⟨hat, hout, hin⟩, hrun⟩ := filb_cycle hdsp hn hes hd h
    obtain ⟨u, he, hframe, hkept, hother, hl, hpc, hmem⟩ := blk_next (cmd := .filb i) h rfl hdsp hssp hat hrun
    simp only [fillRegs, List.forall_mem_cons] at hl
    obtain ⟨hld, hlc, -⟩ := hl
    exact ⟨u, he, hframe, hkept, hother, hld, hlc, hpc, fun x hx => hmem ▸ hout x hx, fun j hj => hmem ▸ hin j hj⟩
  · intro e
    have he : e = ((List.range n).find? (fun j =>
        scratchByte s.m i.x (blkDst s i + j) != scratchByte s.m i.x (blkSrc s i + j))).getD n := by
      simp only [scratchByte, ← Nat.add_assoc]
      rfl
    obtain ⟨t, ⟨hat, hscr⟩, hrun⟩ := cmpb_cycle hdsp hssp hn hes hd ha h he
    obtain ⟨u, hexec, hframe, hkept, hother, hl, hpc, hmem⟩ := blk_next (cmd := .cmpb i) h rfl hdsp hssp hat hrun
    simp only [pairRegs, List.forall_mem_cons] at hl
    obtain ⟨hld, hla, hlc, -⟩ := hl
    rw [hmem, hscr] at hframe
    exact ⟨u, hexec, hframe, hkept, hother, hld, hla, hlc, hpc⟩
  · intro e
    have he : e = ((List.range n).find? (fun j =>
        scratchByte s.m i.x (blkSrc s i + j) == BitVec.ofNat 8 (blkDst s i))).getD n := by
      simp only [scratchByte, ← Nat.add_assoc]
      rfl
    obtain ⟨t, ⟨hat, hscr⟩, hrun⟩ := scnb_cycle hssp hn hes ha h he
    obtain ⟨u, hexec, hframe, hkept, hother, hl, hpc, hmem⟩ := blk_next (cmd := .scnb i) h rfl hdsp hssp hat hrun
    simp only [scanRegs, List.forall_mem_cons] at hl
    obtain ⟨hla, hlc, -⟩ := hl
    rw [hmem, hscr] at hframe
    exact ⟨u, hexec, hframe, hkept, hother, hla, hlc, hpc⟩

end Machine

end Sys2Proof
end

section
/-! PROOFS. Stage operations of a thread, privileged operations of a core, and the start of a core (08, R199 to R213). -/

namespace Sys2Proof

/-! ### Traps that wait, and RTE (R209, R210) -/

/-- Below its latency a core takes no asynchronous trap. -/
theorem takeAsync_of_busy {c : Nat} {m : M} (h : m.now < (m.cpu (wng c)).ready) : takeAsync c m = m := by
  have hb : atBoundary m.now (m.cpu (wng c)) = false := by
    rw [atBoundary, decide_eq_false (Nat.not_le.2 h), Bool.and_false]
  simp only [takeAsync, hb]
  split <;> rfl

theorem thr_ne_wng (a b : Nat) : thr a ≠ wng b := fun h => Nat.zero_ne_one (congrArg Prod.fst h)

/-- A routine starts at its first instruction. -/
theorem routineCpu_rout (m : M) (x : Cpu) (r : RoutCtx) (args : List Word) : (routineCpu m x r args).rout = some r := by
  have h : ∀ (l : List Word) (a : Nat × Cpu),
      (l.foldl (fun (a : Nat × Cpu) v => (a.1 + 1, a.2.setG a.1 v)) a).2.rout = a.2.rout := by
    intro l
    induction l with
    | nil => intro a; rfl
    | cons v l ih => intro a; rw [List.foldl_cons, ih, Cpu.setG_frame]
  exact h _ _

theorem routineCpu_pc (m : M) (x : Cpu) (r : RoutCtx) (args : List Word) : (routineCpu m x r args).pc = 0 := by
  have h : ∀ (l : List Word) (a : Nat × Cpu),
      (l.foldl (fun (a : Nat × Cpu) v => (a.1 + 1, a.2.setG a.1 v)) a).2.pc = a.2.pc := by
    intro l
    induction l with
    | nil => intro a; rfl
    | cons v l ih => intro a; rw [List.foldl_cons, ih, Cpu.setG_frame]
  exact h _ _

@[simp] theorem wakeSpindle_cpu (im : Image) (t : Nat) (m : M) (k : Key) : (wakeSpindle im t m).cpu k = m.cpu k := by
  unfold wakeSpindle
  split <;> rfl

@[simp] theorem wakeSpindle_react (im : Image) (t : Nat) (m : M) : (wakeSpindle im t m).react = m.react := by
  unfold wakeSpindle
  split <;> rfl

namespace Machine

/-! ### O9: the frame of SEND_COMPLETE leaves out the queue's occupancy (R200) -/

/-- A finished transfer of thread 0 on event bit 0. -/
def doneSend : Xfer := Xfer.make 8 8 (.send 0 0 0) [] [] [] 0 0

/-- The owner's sub-queue of cluster 0 holds that transfer, and its occupancy register says so. -/
def sendDoneState : State :=
  { State.reset with m := { M.reset.setFld .MOV_QSTS_USED 0 1 with subq := [((0, 8), [doneSend])] } }

theorem sendDoneState_used : sendDoneState.m.fld .MOV_QSTS_USED 0 = 1 := by decide +kernel

theorem sendDone_frees : ∀ u, exec (.sendComplete 0 0) sendDoneState = .next u → u.m.fld .MOV_QSTS_USED 0 = 0 := by
  intro u h
  rw [show u = sendDoneState.upd (fun im m => opSendComplete im 0 0 m) from (Host.Outcome.next.inj h).symm]
  decide +kernel

/-- Refutes O9: a completed SEND takes its transfer from the sub-queue, so it also writes the occupancy register of the queue,
MOV_QSTS_USED, which the frame of the statement keeps. -/
theorem not_threadOpsRun : ¬ Obligations.ThreadOpsRun := by
  unfold Obligations.ThreadOpsRun
  intro h
  have hfound : (sendDoneState.m.queue 0 8).find? (fun x => (match x.who with
      | .send j _ e => j == 0 && e == 0
      | _ => false) && x.finished) = some doneSend := by decide +kernel
  obtain ⟨u, hu, hframe, -⟩ := (h.2 sendDoneState 0).1 0 doneSend 0 rfl rfl hfound rfl
  have hkept : u.m.fld .MOV_QSTS_USED 0 = sendDoneState.m.fld .MOV_QSTS_USED 0 := by rw [hframe]; rfl
  rw [sendDone_frees u hu, sendDoneState_used] at hkept
  exact absurd hkept (by decide)

/-! ### POST, RDTK and RDCY (R199) -/

/-- What POST does for a partition, and the processor past it. -/
def postTo (im : Image) (i : Issue) (bits p : Nat) (m : M) : M :=
  let m := setEvents im p bits m
  m.setCpu i.x.key { m.cpu i.x.key with pc := nextPc (m.cpu i.x.key).pc, ready := m.now + 1 }

theorem runPost_eq (s : State) (i : Issue) : runPost s.inForce i (endStep i.x s.m) = (
    let k := s.m.cpu i.x.key
    let b := (k.g (fRb i.word)).toNat
    match partRoutine (afterIssue s i) i.x with
    | some r =>
      if fRb i.word ≠ 0 then raiseIllegal s.inForce i.x i.word (afterIssue s i)
      else postTo s.inForce i (k.g (fRa i.word)).toNat r.part (afterIssue s i)
    | none =>
      if 8 ≤ b ∨ s.inForce.enabled b = false then raiseAccess s.inForce i.x b (afterIssue s i)
      else postTo s.inForce i (k.g (fRa i.word)).toNat b (afterIssue s i)) := by
  simp only [runPost, endStep_cpu]
  rfl

/-- Settles O10: each completes with its charge and its effect, POST on the partition that it may name. -/
theorem stageOpsRun : Obligations.StageOpsRun := by
  unfold Obligations.StageOpsRun
  intro s i k bits post
  have hpart : partRoutine (afterIssue s i) i.x = partRoutine s.m i.x := by
    obtain ⟨b, v, h⟩ := afterIssue_frame s i
    rw [h]
    rfl
  have hpost : ∀ p, MayIssue s i .post → runPost s.inForce i (endStep i.x s.m) = postTo s.inForce i bits p (afterIssue s i) →
      post p :=
    fun p h => completes_of_issue (o := .post) (want := fun p => p == .post) (run := fun im => runPost im i) rfl h rfl
  have hrun := runPost_eq s i
  rw [hpart] at hrun
  refine ⟨fun r h hr hb => hpost _ h ?_, fun h hr hb he => hpost _ h ?_, fun h => ?_, fun h => ?_⟩
  · rw [hrun, hr]
    exact if_neg (not_not.2 hb)
  · rw [hrun, hr]
    exact if_neg (by rw [he]; simpa using hb)
  · refine next_of_finishRd h (completes_of_issue (o := .rdtk) (want := fun p => p == .rdtk)
      (run := fun _ m => finishRd i.x (fRd i.word) (BitVec.ofNat 64 (m.fld .TCK_COUNT_COUNT 0)) 1 (chargeIssue i.x m)) rfl h rfl ?_)
    rw [afterIssue, endStep_frame]
    rfl
  · refine next_of_finishRd h (completes_of_issue (o := .rdcy) (want := fun p => p == .rdcy)
      (run := fun _ m => finishRd i.x (fRd i.word) (BitVec.ofNat 64 (m.now - edgeCycle m)) 1 (chargeIssue i.x m)) rfl h rfl ?_)
    rw [afterIssue, endStep_frame]
    rfl

/-! ### Privileged operations (R208 to R212) -/

section
variable {s : State} {i : Issue} {c : Fin 4} {o : Prv} {cmd : Instr} {m' : M} {q : Rout} {th j : Nat}

/-- A core's privileged operation in which every field it does not use is zero acts on the state of its issue. -/
theorem completes_of_prv (hc : exec cmd s = .next (s.upd fun im m => opPrv im o i m)) (h : MayIssue s i .prv)
    (hp : popOf i.word = some o) (hm : runPrv s.inForce i o (endStep i.x s.m) = m') : Completes cmd s m' :=
  completes_of_issue (want := fun p => p == .prv && (popOf i.word == some o || popOf i.word == none))
    (run := fun im m => if popOf i.word = some o then runPrv im i o m else raiseIllegal im i.x i.word m) hc h
    (by simp [hp]) ((if_pos hp).trans hm)

/-- An undefined POP is ILLEGAL whatever command it comes with. -/
theorem completes_of_no_prv (hc : exec cmd s = .next (s.upd fun im m => opPrv im o i m)) (h : MayIssue s i .prv)
    (hp : popOf i.word = none) : Completes cmd s (raiseIllegal s.inForce i.x i.word (endStep i.x s.m)) :=
  completes_of_issue (want := fun p => p == .prv && (popOf i.word == some o || popOf i.word == none))
    (run := fun im m => if popOf i.word = some o then runPrv im i o m else raiseIllegal im i.x i.word m) hc h
    (by simp [hp]) (if_neg (by simp [hp]))

/-- A core charges nothing for an instruction. -/
theorem afterIssue_core (hx : i.x = .core c) : afterIssue s i = endStep i.x s.m := by
  rw [afterIssue, hx]
  rfl

@[simp] theorem endStep_now (x : Proc) (m : M) : (endStep x m).now = m.now := by
  rw [endStep_frame]

@[simp] theorem endStep_react (x : Proc) (m : M) : (endStep x m).react = m.react := by
  rw [endStep_frame]

/-- A privileged operation whose outcome is a value in its register. -/
theorem prv_next_of_finishRd {v : Word} (hx : i.x = .core c) (h : MayIssue s i .prv)
    (hc : Completes cmd s (finishRd i.x (fRd i.word) v 1 (endStep i.x s.m))) :
    ∃ t, exec cmd s = .next t ∧ t = { s with m := t.m } ∧ Issued s.m t.m i.x ∧
      Wrote s.m.now (s.m.cpu i.x.key) (t.m.cpu i.x.key) (fRd i.word) v 1 := by
  rw [← afterIssue_core hx] at hc
  obtain ⟨t, he, hf, hi, -, hw⟩ := next_of_finishRd h hc
  exact ⟨t, he, hf, hi, hw⟩

/-- A core that has left a level (R209): bit b of WSTATUS clear, the PC that the level saved, two cycles. -/
def leftLevel (k : Cpu) (now b : Nat) : Cpu :=
  let k := { k.setStat b false with pc := k.crv (b - 2), ready := now + 2 }
  if b = 4 then k.setStat 2 false else k

theorem runPrv_rte {m : M} (hx : i.x = .core c) (hl : prvLegal .rte i.word = true) {b : Nat}
    (hb : (if (m.cpu (wng c.val)).inLevel 5 then 5 else if (m.cpu (wng c.val)).inLevel 4 then 4
      else if (m.cpu (wng c.val)).inLevel 3 then 3 else 0) = b) (h0 : b ≠ 0) :
    runPrv s.inForce i .rte m = m.setCpu (wng c.val) (leftLevel (m.cpu (wng c.val)) m.now b) := by
  have hleave : ∀ b, takeAsync c.val (m.setCpu (wng c.val) (leftLevel (m.cpu (wng c.val)) m.now b)) =
      m.setCpu (wng c.val) (leftLevel (m.cpu (wng c.val)) m.now b) := by
    intro b
    apply takeAsync_of_busy
    rw [M.cpu_setCpu, leftLevel]
    change m.now < _
    split <;> exact Nat.lt_add_of_pos_right (by decide)
  have hrun : runPrv s.inForce i .rte m = runRte s.inForce c.val i m := by
    simp only [runPrv, hx, hl, Bool.true_eq_false, if_false]
  rw [hrun, runRte]
  split at hb
  next h5 => rw [if_pos h5, ← hb]; exact hleave 5
  next h5 =>
    rw [if_neg h5]
    split at hb
    next h4 => rw [if_pos h4, ← hb]; exact hleave 4
    next h4 =>
      rw [if_neg h4]
      split at hb
      next h3 => rw [if_pos h3, ← hb]; exact hleave 3
      next h3 => exact absurd hb.symm h0

theorem rte_next {b : Nat} (hx : i.x = .core c) (h : MayIssue s i .prv) (hp : popOf i.word = some .rte)
    (hl : prvLegal .rte i.word = true)
    (hb : (if (s.m.cpu (wng c.val)).inLevel 5 then 5 else if (s.m.cpu (wng c.val)).inLevel 4 then 4
      else if (s.m.cpu (wng c.val)).inLevel 3 then 3 else 0) = b) (h0 : b ≠ 0) :
    ∃ t, exec (.rte i) s = .next t ∧ t.m.cpu (wng c.val) = leftLevel (s.m.cpu (wng c.val)) s.m.now b ∧
      CpusKept s.m t.m (wng c.val) := by
  have hrun := runPrv_rte (s := s) (m := endStep i.x s.m) hx hl (b := b) (by rw [endStep_cpu]; exact hb) h0
  refine ⟨_, (completes_of_prv (cmd := .rte i) rfl h hp hrun).next ((endStep_react _ _).trans h.calm), ?_, fun j hj => ?_⟩
  · rw [M.cpu_setCpu, endStep_cpu, endStep_now]
  · rw [M.cpu_setCpu_ne _ _ hj, endStep_cpu]

/-- What is left after RTE of level b, but for the bank bit. -/
theorem leftLevel_left (k : Cpu) (now b : Nat) (hb : b < 64) : (leftLevel k now b).pc = k.crv (b - 2) ∧
    (leftLevel k now b).ready = now + 2 ∧ (leftLevel k now b).inLevel b = false := by
  have hclear : ∀ x : Cpu, (x.setStat b false).inLevel b = false := fun x => by rw [Cpu.inLevel_setStat _ _ hb, if_pos rfl]
  unfold leftLevel
  split
  · refine ⟨rfl, rfl, ?_⟩
    rw [Cpu.inLevel_setStat _ _ (by decide)]
    split
    · rfl
    · exact hclear k
  · exact ⟨rfl, rfl, hclear k⟩

/-- Leaving the fast level returns to bank 0. -/
theorem leftLevel_bank (k : Cpu) (now : Nat) : (leftLevel k now 4).bank = 0 := by
  have h : bitAt ((leftLevel k now 4).crv 0) 2 = false := by
    rw [leftLevel, if_pos rfl, Cpu.bitAt_setStat _ _ (by decide), if_pos rfl]
  simp only [Cpu.bank, h, Bool.false_eq_true, if_false]

/-- Leaving the normal level keeps the registers and their bank. -/
theorem leftLevel_g (k : Cpu) (now j : Nat) : (leftLevel k now 3).g j = k.g j := by
  have h : bitAt ((leftLevel k now 3).crv 0) 2 = bitAt (k.crv 0) 2 :=
    (Cpu.bitAt_setStat k false (by decide) 2).trans (if_neg (by decide))
  simp only [Cpu.g, Cpu.bank, h]
  rfl

/-- The routine context of a CALLR. -/
def callCtx (s : State) (c : Fin 4) (q : Rout) (j : Nat) : RoutCtx := ⟨q.index, 8, 0, c.val, j, edgeCount s.m, none⟩

/-- A routine of the owner on an idle thread, its call number taken (R212). -/
def called (s : State) (i : Issue) (c : Fin 4) (q : Rout) (th j : Nat) : M :=
  let k := s.m.cpu (wng c.val)
  let w := fun n => BitVec.ofNat 64 n
  let m := wakeSpindle s.inForce th (endStep i.x s.m)
  let m := m.setCpu (thr th) (routineCpu m (m.cpu (thr th)) (callCtx s c q j) [k.g 1, k.g 2, k.g 3, k.g 4, w j, w 8, w c.val])
  m.setCpu (wng c.val) { k with calls := putBit k.calls j true }

theorem called_react (s : State) (i : Issue) (c : Fin 4) (q : Rout) (th j : Nat) : (called s i c q th j).react = s.m.react :=
  (wakeSpindle_react ..).trans (endStep_react ..)

theorem called_core : (called s i c q th j).cpu (wng c.val) =
    { s.m.cpu (wng c.val) with calls := putBit (s.m.cpu (wng c.val)).calls j true } :=
  M.cpu_setCpu ..

theorem called_thread : (called s i c q th j).cpu (thr th) =
    (let k := s.m.cpu (wng c.val)
    routineCpu (wakeSpindle s.inForce th (endStep i.x s.m)) (s.m.cpu (thr th)) (callCtx s c q j)
      [k.g 1, k.g 2, k.g 3, k.g 4, BitVec.ofNat 64 j, BitVec.ofNat 64 8, BitVec.ofNat 64 c.val]) := by
  rw [called, M.cpu_setCpu_ne _ _ (thr_ne_wng _ _), M.cpu_setCpu, wakeSpindle_cpu, endStep_cpu]

/-- Core and thread after a CALLR that starts a routine. -/
theorem called_finish (rd : Nat) :
    let k := s.m.cpu (wng c.val)
    let t := finishRd (.core c) rd (BitVec.ofNat 64 j) 1 (called s i c q th j)
    (∀ n, (t.cpu (wng c.val)).g n = if n = rd ∧ n ≠ 0 then BitVec.ofNat 64 j else k.g n) ∧
    (t.cpu (wng c.val)).calls = putBit k.calls j true ∧ (t.cpu (thr th)).rout = some (callCtx s c q j) ∧
    (t.cpu (thr th)).pc = 0 ∧ (t.cpu (thr th)).g 1 = k.g 1 ∧ (t.cpu (thr th)).g 4 = k.g 4 := by
  intro k t
  obtain ⟨hregs, -, hframe⟩ := finishRd_wrote (.core c) rd (BitVec.ofNat 64 j) 1 (called s i c q th j)
  rw [show (Proc.core c).key = wng c.val from rfl, called_core] at hregs hframe
  have hthread : t.cpu (thr th) = _ := (finishRd_cpu_ne _ _ _ _ _ (thr_ne_wng _ _)).trans called_thread
  refine ⟨hregs, congrArg Cpu.calls hframe, ?_, ?_, ?_, ?_⟩
  · rw [hthread, routineCpu_rout]
  · rw [hthread, routineCpu_pc]
  · rw [hthread]
    simp [routineCpu, Cpu.g_setG, k]
  · rw [hthread]
    simp [routineCpu, Cpu.g_setG, k]

theorem edgeCount_endStep (x : Proc) (m : M) : edgeCount (endStep x m) = edgeCount m := by
  rw [endStep_frame]
  rfl

section
variable (hx : i.x = .core c) (hl : prvLegal .callr i.word = true)
include hx hl

theorem runPrv_callr : runPrv s.inForce i .callr (endStep i.x s.m) = runCallr s.inForce c.val i (endStep i.x s.m) := by
  simp only [runPrv, hx, hl, Bool.true_eq_false, if_false]

/-- No routine, or one that RFLAGS keeps from the wings: −2. -/
theorem callr_refused (hr : ∀ q, s.inForce.routine ((s.m.cpu (wng c.val)).g (fRa i.word)).toNat = some q → bitAt q.rflags 0 = false) :
    runPrv s.inForce i .callr (endStep i.x s.m) = finishRd i.x (fRd i.word) (BitVec.ofInt 64 (-2)) 1 (endStep i.x s.m) := by
  rw [runPrv_callr hx hl]
  simp only [runCallr, endStep_cpu]
  split
  · rfl
  next q hq => rw [if_pos (hr q hq)]

variable (hr : s.inForce.routine ((s.m.cpu (wng c.val)).g (fRa i.word)).toNat = some q) (hb : bitAt q.rflags 0 = true)
include hr hb

/-- No idle thread or no call number: −1. -/
theorem callr_full (hfull : idleOwnerThread s.inForce (endStep i.x s.m) = none ∨
      ∀ n, n < 16 → bitAt (s.m.cpu (wng c.val)).calls n = true) :
    runPrv s.inForce i .callr (endStep i.x s.m) = finishRd i.x (fRd i.word) (BitVec.ofInt 64 (-1)) 1 (endStep i.x s.m) := by
  rw [runPrv_callr hx hl]
  simp only [runCallr, endStep_cpu, hr, hb, Bool.true_eq_false, if_false]
  split
  next t n hi hn =>
    rcases hfull with hnone | hall
    · simp [hnone] at hi
    · have := List.find?_some hn
      simp [hall n (List.mem_range.1 (List.mem_of_find?_eq_some hn))] at this
  next => rfl

theorem callr_starts (hi : idleOwnerThread s.inForce (endStep i.x s.m) = some th)
    (hj : (List.range 16).find? (fun n => !(bitAt (s.m.cpu (wng c.val)).calls n)) = some j) :
    runPrv s.inForce i .callr (endStep i.x s.m) = finishRd i.x (fRd i.word) (BitVec.ofNat 64 j) 1 (called s i c q th j) := by
  rw [runPrv_callr hx hl]
  simp only [runCallr, endStep_cpu, hr, hb, Bool.true_eq_false, if_false, hi, hj, edgeCount_endStep]
  simp only [called, callCtx]

end

end

/-- Settles O11: `runPrv` by operation; RTE, WFI and CALLR have the outcome that the level, what waits, and the routine give. -/
theorem privilegedRun : Obligations.PrivilegedRun := by
  unfold Obligations.PrivilegedRun
  intro s i c hx h k n a m old
  have hkey : i.x.key = wng c.val := by rw [hx]; rfl
  have hk : (endStep i.x s.m).cpu (wng c.val) = k := endStep_cpu ..
  have hlegal : ∀ o, prvLegal o i.word = true → runPrv s.inForce i o (endStep i.x s.m) =
      match o with
      | .crd => finishRd i.x (fRd i.word) (BitVec.ofNat 64 old) 1 m
      | .cwr => finishRd i.x 0 0 1 (crWrite s.inForce c.val n a m)
      | .crs => finishRd i.x (fRd i.word) (BitVec.ofNat 64 old) 1 (if n = 0x00A then m else crWrite s.inForce c.val n (old ||| a) m)
      | .crc => finishRd i.x (fRd i.word) (BitVec.ofNat 64 old) 1
          (crWrite s.inForce c.val n (if n = 0x00A then a else clearBits old a) m)
      | .rte => runRte s.inForce c.val i m
      | .wfi =>
        if !k.pend.isEmpty || canTake s.inForce m c.val then finishRd i.x 0 0 1 m
        else m.setCpu (wng c.val) { k with pc := nextPc k.pc, wait := .wfi, ready := m.now + 1 }
      | .callr => runCallr s.inForce c.val i m := by
    intro o ho
    simp only [runPrv, hx, ho, Bool.true_eq_false, if_false]
    rw [← hx]
    simp only [hk]
    rfl
  have hnext : ∀ {cmd : Instr} {v : Word}, Completes cmd s (finishRd i.x (fRd i.word) v 1 m) →
      ∃ t, exec cmd s = .next t ∧ t = { s with m := t.m } ∧ Issued s.m t.m i.x ∧
        Wrote s.m.now k (t.m.cpu i.x.key) (fRd i.word) v 1 := by
    intro cmd v hc
    have hn := prv_next_of_finishRd hx h hc
    rwa [show s.m.cpu i.x.key = k by rw [hkey]] at hn
  refine ⟨fun hp hl => ?_, fun hp hl => ?_, fun hp hl hn => ?_, fun hp hl hn => ?_, fun hp hl hn => ?_, fun hp hl hn => ?_,
    fun hp hl h5 h4 => ?_, fun hp hl h5 h4 h3 => ?_, fun hp hl h5 => ?_, fun hp hl hpend ht => ?_, fun hp hl hr => ?_,
    fun q hp hl hr hb => ?_, fun q hp hl hr hb hfull => ?_, fun q th j hp hl hr hb hi hj => ?_, fun hp f hf => ?_⟩
  · exact hnext (completes_of_prv rfl h hp (hlegal _ hl))
  · exact completes_of_prv rfl h hp (hlegal _ hl)
  · exact completes_of_prv rfl h hp ((hlegal _ hl).trans (by simp only [if_neg hn]))
  · exact completes_of_prv rfl h hp ((hlegal _ hl).trans (by simp only [if_neg hn]))
  · exact completes_of_prv rfl h hp ((hlegal _ hl).trans (by simp only [if_pos hn]))
  · exact completes_of_prv rfl h hp ((hlegal _ hl).trans (by simp only [hn, if_true]; rfl))
  · obtain ⟨t, he, hc, hkept⟩ := rte_next (b := 4) hx h hp hl (by simp [k, h5, h4] at h5 h4 ⊢) (by decide)
    obtain ⟨hpc, hready, hlevel⟩ := leftLevel_left k s.m.now 4 (by decide)
    exact ⟨t, he, hc ▸ hpc, hc ▸ hready, hc ▸ hlevel, hc ▸ leftLevel_bank k s.m.now, hkept⟩
  · obtain ⟨t, he, hc, hkept⟩ := rte_next (b := 3) hx h hp hl (by simp [k] at h5 h4 h3; simp [h5, h4, h3]) (by decide)
    obtain ⟨hpc, hready, hlevel⟩ := leftLevel_left k s.m.now 3 (by decide)
    exact ⟨t, he, hc ▸ hpc, hc ▸ hready, hc ▸ hlevel, fun j => hc ▸ leftLevel_g k s.m.now j, hkept⟩
  · obtain ⟨t, he, hc, -⟩ := rte_next (b := 5) hx h hp hl (if_pos h5) (by decide)
    obtain ⟨hpc, -, hlevel⟩ := leftLevel_left k s.m.now 5 (by decide)
    exact ⟨t, he, hc ▸ hpc, hc ▸ hlevel⟩
  · refine completes_of_prv rfl h hp ((hlegal _ hl).trans ?_)
    simp only [ht, hpend, List.isEmpty_nil, Bool.not_true, Bool.or_self, Bool.false_eq_true, if_false]
    rw [show m.now = s.m.now from endStep_now i.x s.m]
    rfl
  · exact hnext (completes_of_prv rfl h hp
      (callr_refused hx hl (fun q hq => nomatch (hr.symm.trans hq))))
  · exact hnext (completes_of_prv rfl h hp
      (callr_refused hx hl (fun q' hq => Option.some.inj (hr.symm.trans hq) ▸ hb)))
  · exact hnext (completes_of_prv rfl h hp (callr_full hx hl hr hb hfull))
  · have hrun := (completes_of_prv (cmd := .callr i) rfl h hp (callr_starts hx hl hr hb hi hj))
    rw [hx] at hrun
    obtain ⟨hregs, hcalls, hrout, hpc, hg1, hg4⟩ := called_finish (s := s) (i := i) (c := c) (q := q) (th := th) (j := j) (fRd i.word)
    exact ⟨_, hrun.next ((called_react s i c q th j).trans h.calm), hregs, hcalls, hrout, hpc, hg1, hg4⟩
  · simp only [List.mem_cons, List.not_mem_nil, or_false] at hf
    rcases hf with rfl | rfl | rfl | rfl | rfl | rfl | rfl
    all_goals exact completes_of_no_prv rfl h hp

/-! ### Start of a core, interrupt entry and overrun (R65, R209, R213, R340) -/

section
variable {s : State} {c : Fin 4} {entry : BitVec 32}

/-- The row of WNG_CTL goes through no function and waits only for a block reset of its core. -/
theorem wingsStart_taken (h : s.m.inReset 22 c.val = false) : RowTaken s (.wingsStart c entry) :=
  ⟨rfl, (show rowHeld s.inForce s.m (.wingsStart c entry) = s.m.inReset 22 c.val from rfl).trans h⟩

theorem completes_of_wingsStart {m' : M} (h : s.m.inReset 22 c.val = false)
    (hm : opWingsStart s.inForce c.val entry.toNat s.m = m') : Completes (.wingsStart c entry) s m' :=
  completes_of_rowTaken (wingsStart_taken h) rfl hm

theorem wingsStart_flag {F : Fld} (hF : F ≠ .WNG_CTL_ENTRY) (v : Nat) :
    (s.m.setFld .WNG_CTL_ENTRY c.val v).flag F c.val = s.m.flag F c.val := by
  rw [M.flag, M.fld_setFld_ne _ _ (fun h => hF h.1)]
  rfl

/-- START on a stopped core. -/
theorem opWingsStart_stopped (hr : s.m.flag .WNG_CTL_RUNNING c.val = false) (hh : s.m.flag .WNG_CTL_HALTED c.val = false) (e : Nat) :
    opWingsStart s.inForce c.val e s.m =
      if e % 4 ≠ 0 ∨ s.inForce.loadArea.length ≤ e then (s.m.setFld .WNG_CTL_ENTRY c.val e).setFlag .WNG_CTL_REFUSED c.val true
      else startCore c.val e (s.m.setFld .WNG_CTL_ENTRY c.val e) := by
  simp only [opWingsStart, wingsStart_flag (s := s) (c := c) (F := .WNG_CTL_RUNNING) (by decide),
    wingsStart_flag (s := s) (c := c) (F := .WNG_CTL_HALTED) (by decide), hr, hh, Bool.or_self, Bool.false_eq_true, if_false]

/-- START on a core that runs or is halted only writes ENTRY. -/
theorem opWingsStart_running (h : s.m.flag .WNG_CTL_RUNNING c.val = true ∨ s.m.flag .WNG_CTL_HALTED c.val = true) (e : Nat) :
    opWingsStart s.inForce c.val e s.m = s.m.setFld .WNG_CTL_ENTRY c.val e := by
  have hb : (s.m.flag .WNG_CTL_RUNNING c.val || s.m.flag .WNG_CTL_HALTED c.val) = true := by simpa using h
  simp only [opWingsStart, wingsStart_flag (s := s) (c := c) (F := .WNG_CTL_RUNNING) (by decide),
    wingsStart_flag (s := s) (c := c) (F := .WNG_CTL_HALTED) (by decide), hb, if_true]

/-- With only a normal interrupt to take, a core takes it. -/
theorem takeAt_normal {im : Image} {c src : Nat} {m : M} (hp : (m.cpu (wng c)).pend = []) (h5 : (m.cpu (wng c)).inLevel 5 = false)
    (h4 : (m.cpu (wng c)).inLevel 4 = false) (h3 : (m.cpu (wng c)).inLevel 3 = false)
    (hf : bitAt ((m.cpu (wng c)).crv 0) 1 = false) (hn : bitAt ((m.cpu (wng c)).crv 0) 0 = true)
    (ho : wOffer im m c false = some src) : takeAt im c m = some (enterLevel c 3 (wCommit im c src false m)) := by
  have hcan : canTake im m c = true := by
    simp only [canTake, h5, h4, h3, hf, hn, ho, Bool.not_false, Bool.false_and, Bool.false_or, Bool.and_self, Option.isSome_some]
  simp only [takeAt, hp, List.isEmpty_nil, Bool.not_true, Bool.false_and, Bool.false_eq_true, if_false, hcan, if_true, hf, ho,
    Option.map_some]

/-- The overrun of a partition's routine that is not ending. -/
theorem opRoutineOverrun_of_part {im : Image} {m : M} {t : Nat} {r : RoutCtx} {q : Rout} (hr : (m.cpu (thr t)).rout = some r)
    (hq : im.routine r.index = some q) (hend : ∀ a b c d, (m.cpu (thr t)).wait ≠ .ending a b c d)
    (hover : r.edge + q.maxTicks + 1 ≤ m.fld .TCK_COUNT_COUNT 0) (hpart : r.part ≠ 8) :
    opRoutineOverrun im t m = routineAbort im t 0x26 2 2
      (fireP im (0x050 + r.part) (bitsPut r.index 0 16 + bitsPut t 16 9) r.part m) := by
  unfold opRoutineOverrun
  simp only [hr, hq]
  rw [if_neg, if_neg hpart]
  rintro (hnot | hlt)
  · exact Bool.false_ne_true hnot
  · exact Nat.not_lt.2 hover hlt

end

/-- Settles O12: each branch of START, of interrupt entry and of the overrun check. -/
theorem coresStart : Obligations.CoresStart := by
  unfold Obligations.CoresStart
  refine ⟨fun s c => ⟨fun entry h hr hh h4 hl => ?_, fun entry h hrun => ?_, fun entry h hr hh hbad => ?_, fun m e => ?_,
    fun src hat hres hp h5 h4 h3 hf hn ho => ?_⟩, fun s t r q hr hq hend hover hpart => ?_⟩
  · exact completes_of_wingsStart h ((opWingsStart_stopped hr hh _).trans (if_neg (by omega)))
  · exact completes_of_wingsStart h (opWingsStart_running hrun _)
  · exact completes_of_wingsStart h ((opWingsStart_stopped hr hh _).trans (if_pos hbad))
  · have hcpu : (startCore c.val e m).cpu (wng c.val) = { Cpu.init with pc := e, running := true, ready := m.now } :=
      M.cpu_setCpu ..
    refine ⟨by rw [hcpu], fun b n => by rw [hcpu]; rfl, fun n => by rw [hcpu]; rfl, fun a => ?_, fun j hj => M.cpu_setCpu_ne _ _ hj⟩
    rw [show 513 + c.val = 512 + c.val + 1 by omega, Nat.add_mul _ 1, Nat.one_mul]
    exact memGet_clear ..
  · refine completes_of_upd rfl ?_
    rw [opInterruptEntry, hat, hres, takeAt_normal hp h5 h4 h3 hf hn ho]
    rfl
  · have hrow : bitsPut r.index 0 16 + bitsPut t.val 16 9 = r.index % 2 ^ 16 + t.val % 2 ^ 9 * 2 ^ 16 := by
      simp only [bitsPut, Nat.shiftLeft_eq, pow_zero, Nat.mul_one]
    exact completes_of_upd rfl (hrow ▸ opRoutineOverrun_of_part hr hq hend hover hpart)

end Machine

end Sys2Proof
end

section
/-! PROOFS. Start-up, images, releases, the flash, the fabric and the clocks (00, 01, 02). -/

namespace Sys2Proof

namespace Machine

/-- A flag reads through the write of another field. -/
theorem flag_setFld_ne {m : M} {F G : Fld} {i j : Nat} (v : Nat) (h : G ≠ F) :
    (m.setFld F i v).flag G j = m.flag G j := by
  rw [M.flag, M.fld_setFld_ne _ _ (fun e => h e.1)]
  rfl

/-! ### Start-up (R29, R41, R287, R393) -/

/-- Settles O14: each phase of the boot gives the branch that the command takes. -/
theorem startUpBegins : Obligations.StartUpBegins := by
  unfold Obligations.StartUpBegins
  refine fun s => ⟨fun h => ?_, fun h hr => ?_, fun octal seq0 seq1 h => ?_, fun h hc ht => ?_, fun h ht => ?_⟩
  · exact completes_of_upd rfl (if_pos h)
  · exact completes_of_upd rfl (if_pos ⟨h, hr⟩)
  · refine completes_of_upd rfl ((if_neg (not_not.2 h)).trans ?_)
    have hslot : (if seq0.toNat < seq1.toNat then 1 else 0) = if seq1.toNat ≤ seq0.toNat then 0 else 1 := by
      split <;> split <;> omega
    rw [hslot]
  · exact completes_of_upd rfl (if_pos ⟨h, hc, ht⟩)
  · exact completes_of_upd rfl (if_pos ⟨h, ht⟩)

/-! ### Images (R38 to R43, R287) -/

section
variable {s : State}

/-- An operation of the boot that applies no image completes with its own effect. -/
theorem completes_of_updImg {c : Instr} {f : Image → M → Option Image × M} {m' : M} (hc : exec c s = .next (s.updImg f))
    (hm : f s.inForce s.m = (none, m')) : Completes c s m' := by
  rw [Completes, hc, State.updImg, hm]

/-- A slot that fails as the first leaves the boot reading the other, with its result. -/
theorem failSlot_first {m : M} {code : Nat} (hb : endsBoot code = false) (h2 : m.boot.second = false) :
    (failSlot code m).react = m.react ∧ (failSlot code m).boot.phase = .read ∧ (failSlot code m).boot.second = true ∧
    (failSlot code m).fld (if m.boot.slot = 0 then .IMG_BOOT_STS_RESULT0 else .IMG_BOOT_STS_RESULT1) 0 = code % 256 := by
  have hgo : failSlot code m = { (setResult m.boot.slot code m).setFlag .IMG_BOOT_STS_FALLBACK 0 true with
      boot := { m.boot with phase := .read, slot := 1 - m.boot.slot, second := true, copy := [] } } := by
    rw [failSlot, if_neg (by simp [hb, setResult, h2])]
    rfl
  rw [hgo]
  refine ⟨rfl, rfl, rfl, ?_⟩
  change ((setResult m.boot.slot code m).setFlag .IMG_BOOT_STS_FALLBACK 0 true).fld _ 0 = _
  rw [M.fld_setFlag, if_neg (by split <;> simp), setResult, M.fld_setFld_same]
  split <;> rfl

/-- A slot refused by key or signature is the first slot's failure: the boot reads the other. -/
theorem refused_next {c : Instr} {code : Nat} (hr : s.m.react = []) (h2 : s.m.boot.second = false)
    (hb : endsBoot code = false) (hc : Completes c s (failSlot code s.m)) (hcode : code < 256) :
    ∃ t, exec c s = .next t ∧ t.img = s.img ∧ t.m.boot.phase = .read ∧ t.m.boot.second = true ∧
      t.m.fld (if s.m.boot.slot = 0 then .IMG_BOOT_STS_RESULT0 else .IMG_BOOT_STS_RESULT1) 0 = code := by
  obtain ⟨hreact, hphase, hsecond, hres⟩ := failSlot_first hb h2
  exact ⟨_, hc.next (hreact.trans hr), rfl, hphase, hsecond, hres.trans (Nat.mod_eq_of_lt hcode)⟩

end

/-- Settles O16: the branches of the signature check in their order, and of what waits for entropy. -/
theorem verifiedImageApplies : Obligations.VerifiedImageApplies := by
  unfold Obligations.VerifiedImageApplies
  refine ⟨fun s key sig hreact hphase => ?_, fun s hent => ⟨fun hw => ?_, fun hw => ?_⟩⟩
  · intro k g r held
    have hop : ∀ svn, opSigVerify s.inForce key sig svn true s.m =
        if k.a ≠ k.b then (none, pathFail s.inForce s.m)
        else if k.a = false then (none, failSlot resKeyMismatch s.m)
        else if g.a ≠ g.b then (none, pathFail s.inForce s.m)
        else if g.a = false then (none, failSlot resBadSignature s.m)
        else bootStep4 s.inForce svn held := fun svn => if_neg (not_not.2 hphase)
    have hstep : ∀ svn, k = ⟨true, true⟩ → g = ⟨true, true⟩ →
        opSigVerify s.inForce key sig svn true s.m = bootStep4 s.inForce svn held := by
      intro svn hk hg
      simp only [hop, hk, hg, ne_eq, not_true, if_false, Bool.true_eq_false]
    have hr : imgStep4 held.boot.copy (svnSteps held.sec.sensed) serialNat = r := by
      simp only [held, stepDone, M.setFld_boot, M.setFld_sec, r]
    refine ⟨fun hk hg hacc hent => ?_, fun hk hg hacc svn hsvn => ?_, fun svn h2 hk => ?_, fun svn h2 hk hg => ?_, fun svn hk => ?_⟩
    · have happly : opSigVerify s.inForce key sig true true s.m = (some r.2, applyImage r.2 (stepDone 4
          ((setResult s.m.boot.slot resAccepted held).setFld .IMG_BOOT_STS_SLOT 0 s.m.boot.slot))) := by
        rw [hstep true hk hg]
        simp only [bootStep4, hr, hacc]
        rw [if_neg (by decide), if_neg (by decide), if_neg (by decide)]
        exact if_pos hent
      change Host.Outcome.next (s.updImg fun im m => opSigVerify im key sig true true m) = _
      simp only [State.updImg, happly]
    · refine completes_of_updImg rfl ((hstep svn hk hg).trans ?_)
      simp only [bootStep4, hr]
      split
      next => rfl
      next hpart =>
        have htrue : svn = true := hsvn.resolve_right hpart
        rw [if_neg (by simp [htrue])]
    · refine refused_next hreact h2 (by decide) (completes_of_updImg rfl ?_) (by decide)
      simp only [hop, hk, ne_eq, not_true, if_false, if_true]
    · refine refused_next hreact h2 (by decide) (completes_of_updImg rfl ?_) (by decide)
      simp only [hop, hk, hg, ne_eq, not_true, if_false, if_true, Bool.true_eq_false]
    · exact completes_of_updImg rfl ((hop svn).trans (if_pos hk))
  · refine completes_of_updImg rfl ?_
    simp only [opEntropyHealthy, hent, opEntropyRestored, Bool.false_eq_true, if_false, hw, Option.isSome_none]
  · refine ⟨_, rfl, ?_⟩
    have hop : opEntropyHealthy s.inForce s.m = (some (bootImage (entropyBack s.inForce s.m)),
        applyImage (bootImage (entropyBack s.inForce s.m)) (entropyBack s.inForce s.m)) := by
      simp only [opEntropyHealthy, hent, opEntropyRestored, Bool.false_eq_true, if_false, hw, if_true, Option.isSome_some]
    simp only [State.updImg, hop]

/-! ### RELEASE and READY (R46, R47) -/

/-- A first RELEASE: the bit, the outputs, the time of the release and the step. -/
theorem releaseNow_fld (im : Image) (p : Nat) {m : M} (h : released m p = false) {F : Fld} (j : Nat) :
    (releaseNow im p m).fld F j = if F = .IMG_BOOT_STS_LAST_STEP ∧ j = 0 then 9
      else if F = .IMG_PORT_CTL_RELEASE ∧ j = 0 then putBit (m.fld .IMG_PORT_CTL_RELEASE 0) p true % 256 else m.fld F j := by
  have hgo : releaseNow im p m = driveTerm im p (stepDone 9 { (m.setFld .IMG_PORT_CTL_RELEASE 0
      (putBit (m.fld .IMG_PORT_CTL_RELEASE 0) p true)).emit (.pin (.clkreqN (portOf im p)) false) with
      boot := { m.boot with releaseAt := mapPut m.boot.releaseAt (p, 0) m.now } }) := by
    rw [releaseNow, h]
    rfl
  rw [hgo]
  change (stepDone 9 _).fld F j = _
  rw [stepDone, M.fld_setFld]
  split
  · rfl
  · change (m.setFld .IMG_PORT_CTL_RELEASE 0 _).fld F j = _
    rw [M.fld_setFld]
    rfl

theorem releaseNow_frame (im : Image) (p : Nat) {m : M} (h : released m p = false) :
    releaseNow im p m = { m with f := (releaseNow im p m).f, out := (releaseNow im p m).out, boot := { m.boot with
      releaseAt := mapPut m.boot.releaseAt (p, 0) m.now } } := by
  rw [releaseNow, h]
  rfl

/-- Settles O17: RELEASE and READY by their conditions and by the bit as it stands. -/
theorem releaseAndReady : Obligations.ReleaseAndReady := by
  unfold Obligations.ReleaseAndReady
  refine fun s p => ⟨fun hreact he hm ho hrel => ?_, fun hmay hrel => ?_, fun hmay => ⟨?_, ?_⟩, fun hmay => ?_,
    fun t ht hready hover hlate => ?_⟩
  · have hmay : mayRelease s.inForce s.m p.val = true := by rw [mayRelease, he, hm, ho]; rfl
    have hc : Completes (.release p) s (releaseNow s.inForce p.val s.m) := completes_of_upd rfl (if_pos hmay)
    have hf := releaseNow_frame s.inForce p.val hrel
    refine ⟨_, hc.next (by rw [hf]; exact hreact), congrArg (fun m => { s with m := m }) hf, fun F j hFj => ?_, fun q hq => ?_, ?_⟩
    · simp only [List.mem_cons, Prod.mk.injEq, List.not_mem_nil, or_false, not_or] at hFj
      change (releaseNow s.inForce p.val s.m).fld F j = _
      rw [releaseNow_fld _ _ hrel, if_neg hFj.2, if_neg hFj.1]
    · change bitAt ((releaseNow s.inForce p.val s.m).fld _ _) q = _
      rw [releaseNow_fld _ _ hrel, if_neg (by simp), if_pos ⟨rfl, rfl⟩, show 256 = 2 ^ 8 from rfl, bitAt_mod_two_pow _ hq,
        bitAt_putBit, released]
      by_cases h : q = p.val
      · simp [h]
      · simp [h]
    · change (releaseNow s.inForce p.val s.m).fld _ _ = _
      rw [releaseNow_fld _ _ hrel, if_pos ⟨rfl, rfl⟩]
  · exact completes_of_upd rfl ((if_pos hmay).trans (if_pos hrel))
  · exact completes_of_upd rfl (if_neg (by simp [hmay]))
  · exact completes_of_upd rfl (if_neg (by simp [hmay]))
  · exact completes_of_upd rfl (if_pos hmay)
  · refine completes_of_upd rfl ?_
    have hnot : ¬(isReady s.m p.val = true ∨ bitAt s.m.boot.overdue p.val = true ∨ s.m.now < t + 900 * msSc) := by
      simp only [hready, hover, Bool.false_eq_true, false_or, msSc]
      omega
    simp only [opReadyOverdue, ht, if_neg hnot]

/-! ### The flash and the slot check (R49, R50, R383) -/

section
variable {im : Image} {m : M}

/-- A flash command that meets every condition. -/
theorem flashCmd_made {op addr src align : Nat} (hrun : m.boot.phase = .run) (hb : m.flag .IMG_FLASH_STS_BUSY 0 = false)
    (hc : m.flag .IMG_CHECK_BUSY 0 = false) (hs : addr / 0x1000000 ≠ m.fld .IMG_BOOT_STS_SLOT 0) (ha : addr % align = 0)
    (hl : op = 2 → src * 256 + 256 ≤ im.ownerStageBytes) : flashCmd im op addr src align m =
      ({ m.setFlag .IMG_FLASH_STS_BUSY 0 true with boot := { m.boot with
          flashOp := some (op, addr, if op = 2 then memRead m.stage (src * 256) 256 else []) } }).emit
        (.flash op addr (if op = 2 then memRead m.stage (src * 256) 256 else [])) := by
  have hloaded : ¬(m.boot.phase = .run ∧ flashSlot addr = m.fld .IMG_BOOT_STS_SLOT 0) := fun h => hs h.2
  simp only [flashCmd, if_neg hloaded]
  rw [if_neg]
  · rintro (h | h | h | h | h | ⟨h2, hlen⟩)
    · exact hloaded h
    · exact h hrun
    · exact h ha
    · exact absurd h (by simp [hb])
    · exact absurd h (by simp [hc])
    · exact absurd (hl h2) (by omega)

/-- A command on the loaded slot. -/
theorem flashCmd_protected {op addr src align : Nat} (hrun : m.boot.phase = .run)
    (hs : addr / 0x1000000 = m.fld .IMG_BOOT_STS_SLOT 0) : flashCmd im op addr src align m =
      (m.setFlag .IMG_FLASH_STS_PROTECT 0 true).setFlag .IMG_FLASH_STS_REFUSED 0 true := by
  have hloaded : m.boot.phase = .run ∧ flashSlot addr = m.fld .IMG_BOOT_STS_SLOT 0 := ⟨hrun, hs⟩
  simp only [flashCmd, if_pos hloaded]
  rw [if_pos (.inl hloaded)]
  rfl

/-- A command outside the loaded slot that breaks a condition. -/
theorem flashCmd_refused {op addr src align : Nat} (hs : addr / 0x1000000 ≠ m.fld .IMG_BOOT_STS_SLOT 0)
    (hbad : addr % align ≠ 0 ∨ (op = 2 ∧ im.ownerStageBytes < src * 256 + 256) ∨ m.flag .IMG_FLASH_STS_BUSY 0 = true ∨
      m.flag .IMG_CHECK_BUSY 0 = true) : flashCmd im op addr src align m = m.setFlag .IMG_FLASH_STS_REFUSED 0 true := by
  have hloaded : ¬(m.boot.phase = .run ∧ flashSlot addr = m.fld .IMG_BOOT_STS_SLOT 0) := fun h => hs h.2
  simp only [flashCmd, if_neg hloaded]
  rw [if_pos]
  · rfl
  · rcases hbad with h | h | h | h
    · exact .inr (.inr (.inl h))
    · exact .inr (.inr (.inr (.inr (.inr h))))
    · exact .inr (.inr (.inr (.inl h)))
    · exact .inr (.inr (.inr (.inr (.inl h))))

/-- With undisturbed words the reads of the current fuses agree. -/
theorem checkReads_agree (h : Undisturbed m) : voteReads im ((.fuse 6, .agree) :: hashWords []) m = (true, m) :=
  voteReads_agree im _ m h.1 h.2.2.1 (by
    intro e he
    simp only [hashWords, List.mem_cons, List.mem_map] at he
    rcases he with rfl | ⟨i, -, rfl⟩ <;> rfl)

theorem checkSvn_agree (h : Undisturbed m) : voteReads im [(.fuse 7, .agree)] m = (true, m) :=
  voteReads_agree im _ m h.1 h.2.2.1 (by
    intro e he
    rw [List.mem_singleton.1 he])

/-- The slot check past its reads, on a slot that reads well under a set owner key. -/
theorem checkSlot_read {d : List Byte} {key sig : Verdict} {svn : Bool} (hu : Undisturbed m) (hd : imgReadCheck d = none)
    (hset : m.sec.sensed.set = true) : checkSlot im (some d) true key sig svn m =
      (let differ := fun (m : M) => (resPathDisagree, pathDisagree im 1 m)
      let c := (imgStep4 d (svnSteps m.sec.sensed) serialNat).1
      let k := pathsOf key (imgKeyOk d m.sec.sensed.hash)
      let g := pathsOf sig (imgSigOk d)
      if k.a ≠ k.b then differ m
      else if k.a = false then (resKeyMismatch, m)
      else if g.a ≠ g.b then differ m
      else if g.a = false then (resBadSignature, m)
      else if c = resWrongPart ∨ c = resWrongDie then (c, m)
      else if svn = false then differ m else (c, m)) := by
  simp only [checkSlot, hd, checkReads_agree hu, checkSvn_agree hu, hset, Bool.true_eq_false, if_false, false_or]

end

/-- Settles O18: the flash commands by their conditions, the slot check branch by branch, the window by its three states. -/
theorem flashAndChecks : Obligations.FlashAndChecks := by
  unfold Obligations.FlashAndChecks
  refine ⟨fun s hrun => ?_, fun s => ?_, fun s a n b hn ha => ?_⟩
  · have him : s.inForce = s.img := if_pos hrun
    refine ⟨fun a hb hc hs => ⟨fun h => ?_, fun src h hl => ?_⟩, fun a src hs => ⟨?_, ?_⟩, fun a src hs => ⟨fun h => ?_, fun h => ?_⟩,
      fun op => completes_of_upd rfl rfl, fun op a d h => ⟨?_, ?_⟩⟩
    · exact completes_of_upd rfl (flashCmd_made hrun hb hc hs h (fun h => absurd h (by decide)))
    · exact completes_of_upd rfl (flashCmd_made hrun hb hc hs h (fun _ => him ▸ hl))
    · exact completes_of_upd rfl (flashCmd_protected hrun hs)
    · exact completes_of_upd rfl (flashCmd_protected hrun hs)
    · exact completes_of_upd rfl (flashCmd_refused hs (h.imp_right .inr))
    · refine completes_of_upd rfl (flashCmd_refused hs ?_)
      rw [him]
      exact h.imp_right (Or.imp_left (And.intro rfl))
    · exact completes_of_upd rfl (by simp only [opFlashComplete, h]; rfl)
    · exact completes_of_upd rfl (by simp only [opFlashComplete, h, if_true, him])
  · refine ⟨fun slot hc hb => ?_, fun slot hc hb => ?_, fun slot hc => ?_, fun slot hw hb => ?_, fun b h key sig svn slot hs => ?_,
      fun b h key sig svn hu => ?_⟩
    · have hb' : (s.m.setFld .IMG_CHECK_SLOT 0 slot.val).flag .IMG_FLASH_STS_BUSY 0 = false := (flag_setFld_ne _ (by decide)).trans hb
      exact completes_of_upd rfl (by simp only [opCheckStart, hc, hb', Bool.false_eq_true, if_false])
    · have hb' : (s.m.setFld .IMG_CHECK_SLOT 0 slot.val).flag .IMG_FLASH_STS_BUSY 0 = true := (flag_setFld_ne _ (by decide)).trans hb
      exact completes_of_upd rfl (by simp only [opCheckStart, hc, hb', Bool.false_eq_true, if_false, if_true]; rfl)
    · exact completes_of_upd rfl (if_pos hc)
    · exact completes_of_upd rfl (by simp only [opCheckDeferred, hw, hb, Bool.false_eq_true, if_false])
    · exact completes_of_upd rfl (if_neg (by simp [hs]))
    intro w
    refine ⟨fun hb => ?_, fun d c hb hd => ?_, fun d hb hd hset hh hsvn hk hg => ?_, fun d hb hd hset hh hk => ?_,
      fun d hb hd hset hh hk hg => ?_⟩
    · simp only [w, hb, checkSlot]
    · simp only [w, hb, checkSlot, hd]
    · simp only [w, hb, hh, checkSlot_read hu hd hset, hk, hg, hsvn, ne_eq, not_true, Bool.true_eq_false, if_false, ite_self]
    · simp only [w, hb, hh, checkSlot_read hu hd hset, hk, ne_eq, not_true, if_false, if_true]
    · simp only [w, hb, hh, checkSlot_read hu hd hset, hk, hg, ne_eq, not_true, Bool.true_eq_false, if_false, if_true]
  · have hsize : ¬((n ≠ 4 ∧ n ≠ 8) ∨ a.toNat % n ≠ 0) := by
      rintro (h | h)
      · exact hn.elim h.1 h.2
      · exact h ha
    refine ⟨fun hf hb hc => ?_, fun hb => ?_, fun hf hb hc => ?_⟩
    · exact completes_of_upd rfl (by
        simp only [opFlashWindow, if_neg hsize, hb, hc, Bool.false_eq_true, or_self, if_false, if_neg hf])
    · exact completes_of_upd rfl (by simp only [opFlashWindow, if_neg hsize, if_pos hb])
    · exact completes_of_upd rfl (by
        simp only [opFlashWindow, if_neg hsize, hb, hc, Bool.false_eq_true, or_self, if_false, if_pos hf])

/-! ### The fabric (R11, R12, R15, R282) -/

/-- Settles O21: the transfer is one the fabric can carry, and the two comparisons decide. -/
theorem fabricTags : Obligations.FabricTags := by
  unfold Obligations.FabricTags
  intro s t hsize hblock hslice hchan
  have hok : fabricOk s.inForce t = true := by
    have hs : stagePort t.dst.val = false ∨ t.dst.val = slicePort t.addr.toNat := by
      by_cases h : 20 ≤ t.dst.val ∧ t.dst.val < 52
      · right
        exact (hslice h.1 h.2).trans (by rw [slicePort, bitsAt_eq]; rfl)
      · left
        simp only [stagePort, Bool.and_eq_false_iff, decide_eq_false_iff_not]
        omega
    have hc : (decide (68 ≤ t.dst.val) && decide (t.dst.val < 72)) = false ∨
        (match chanAddr s.inForce t.addr.toNat with | some x => 68 + x.1 == t.dst.val | none => true) = true := by
      by_cases h : 68 ≤ t.dst.val ∧ t.dst.val < 72
      · right
        cases hx : chanAddr s.inForce t.addr.toNat with
        | none => rfl
        | some x => exact beq_iff_eq.2 (hchan x h.1 h.2 hx)
      · left
        simp only [Bool.and_eq_false_iff, decide_eq_false_iff_not]
        omega
    simp only [fabricOk, hsize, hblock, decide_true, Bool.and_true, Bool.true_and, Bool.and_eq_true, Bool.or_eq_true,
      Bool.not_eq_true', beq_iff_eq]
    exact ⟨hs, hc⟩
  have hop : opFabric s.inForce t s.m =
      if (pathsOf t.paths (fabricOwner s.inForce t == some t.tag.val)).a ≠ (pathsOf t.paths (fabricOwner s.inForce t == some t.tag.val)).b
        then refuseFabric s.inForce t (pathDisagree s.inForce 7 s.m)
      else if (pathsOf t.paths (fabricOwner s.inForce t == some t.tag.val)).a = false then refuseFabric s.inForce t s.m
      else if stagePort t.dst.val = false then (if t.write then s.m else s.m.emit (.fabric false t.dst.val []))
      else if t.write then { s.m with stage := memWrite s.m.stage t.addr.toNat t.data }
      else s.m.emit (.fabric false t.dst.val (memRead s.m.stage t.addr.toNat t.len)) := by
    rw [opFabric, hok]
    rfl
  have hstage : 20 ≤ t.dst.val → t.dst.val < 52 → stagePort t.dst.val = true := fun h1 h2 => by
    rw [stagePort, decide_eq_true h1, decide_eq_true h2]
    rfl
  refine ⟨fun hp ho => ?_, fun hp ho => ?_, fun hp => ?_⟩
  · have hmade : opFabric s.inForce t s.m =
        if stagePort t.dst.val = false then (if t.write then s.m else s.m.emit (.fabric false t.dst.val []))
        else if t.write then { s.m with stage := memWrite s.m.stage t.addr.toNat t.data }
        else s.m.emit (.fabric false t.dst.val (memRead s.m.stage t.addr.toNat t.len)) := by
      rw [hop, hp, pathsOf_right, ho, beq_self_eq_true]
      rfl
    refine ⟨fun hreact hw h1 h2 => ?_, fun hw h1 h2 => ?_, fun h => ?_⟩
    · have hc : Completes (.fabricTransfer t) s { s.m with stage := memWrite s.m.stage t.addr.toNat t.data } :=
        completes_of_upd rfl (by rw [hmade, hstage h1 h2, hw]; rfl)
      exact ⟨_, hc.next hreact, rfl, fun j h => memGet_write_in _ _ _ _ h, fun a h => memGet_write_out _ _ _ _ h⟩
    · exact completes_of_upd rfl (by rw [hmade, hstage h1 h2, hw]; rfl)
    · have hs : stagePort t.dst.val = false := by
        simp only [stagePort, Bool.and_eq_false_iff, decide_eq_false_iff_not]
        omega
      exact completes_of_upd rfl (by rw [hmade, if_pos hs])
  · have hrefused : opFabric s.inForce t s.m = refuseFabric s.inForce t s.m := by
      rw [hop, hp, pathsOf_right, beq_eq_false_iff_ne.2 ho]
      rfl
    refine ⟨fun hw => ?_, fun hw => ?_⟩
    · exact completes_of_upd rfl (by rw [hrefused, refuseFabric, hw]; rfl)
    · exact completes_of_upd rfl (by rw [hrefused, refuseFabric, hw]; rfl)
  · refine completes_of_upd rfl (by
      rw [hop, if_pos]
      cases h : t.paths with | mk a b => rw [h] at hp; cases a <;> cases b <;> simp_all [pathsOf])

/-! ### Clocks (R29, R218, R254) -/

/-- Settles O22: each command's branch, by the port's partition and by the phase of the boot. -/
theorem clocksThatStop : Obligations.ClocksThatStop := by
  unfold Obligations.ClocksThatStop
  refine ⟨fun s => ⟨fun n p hp => ⟨?_, ?_⟩, fun n hp => ⟨?_, ?_⟩, fun o => ?_, fun o => completes_of_upd rfl rfl⟩, fun s hrun => ?_⟩
  · exact completes_of_upd rfl (by simp only [opHpAbsent, hp])
  · exact completes_of_upd rfl (by simp only [opHpReturn, hp])
  · exact completes_of_upd rfl (by simp only [opHpAbsent, hp])
  · exact completes_of_upd rfl (by simp only [opHpReturn, hp])
  · refine completes_of_upd rfl ?_
    have hls : ((s.inForce.linksOfOctet o.val).filter fun l => !(s.m.linkState l == lsOff || s.m.linkState l == lsDisabled)) =
        (s.inForce.linksOfOctet o.val).filter (fun l => s.m.linkState l != lsOff && s.m.linkState l != lsDisabled) :=
      List.filter_congr fun l _ => Bool.not_or ..
    rw [← hls]
    rfl
  · have him : s.inForce = s.img := if_pos hrun
    exact ⟨completes_of_upd rfl ((if_pos hrun).trans (by rw [him])), fun c => completes_of_upd rfl ((if_pos hrun).trans (by rw [him]))⟩

end Machine

end Sys2Proof
end

section
/-! PROOFS. The access codes of register fields (R4, R5, R66). -/

namespace Sys2Proof

theorem bitAt_clearBits (x y b : Nat) : bitAt (clearBits x y) b = (bitAt x b && !bitAt y b) := by
  simp only [bitAt, clearBits, Nat.testBit_and, Nat.testBit_xor]
  cases x.testBit b <;> cases y.testBit b <;> rfl

/-- LOCKED_WR and the record of the access lie in the status register. -/
theorem setLocked_fld (v : View) (off : Nat) (m : M) {G : Fld} (j : Nat) (h : (fldSpec G).reg ≠ .BSTS) :
    (setLocked v off m).fld G j = m.fld G j := by
  have hlock : G ≠ .BSTS_LOCKED_WR := by rintro rfl; exact h rfl
  have hoff : G ≠ .BSTS_FIRST_OFF := by rintro rfl; exact h rfl
  have hspace : G ≠ .BSTS_SPACE := by rintro rfl; exact h rfl
  have hvalid : G ≠ .BSTS_OFF_VALID := by rintro rfl; exact h rfl
  simp only [setLocked, bstsRecord]
  split
  · simp [M.fld_setFlag, hlock]
  · simp [M.fld_setFlag, M.fld_setFld, hlock, hoff, hspace, hvalid]

/-! ### A write of one field -/

section
variable (im : Image) (v : View) (off i x : Nat) (m : M) (f : Fld)

theorem writeFld_own (h : (fldSpec f).own = true) : writeFld im v off i x m f = m := by
  rw [writeFld]
  exact if_pos h

theorem maskWrite_fld (k : Key) (y : Nat) (m : M) (G : Fld) (j : Nat) : (maskWrite k y m).fld G j = m.fld G j := rfl

/-- What the write of a field does by its access code. -/
theorem writeFld_eq (h : (fldSpec f).own = false) : writeFld im v off i x m f =
    match (fldSpec f).acc with
    | .rw =>
      let y := bitsAt x (fldSpec f).lo (fldSpec f).w
      let m := m.setFld f i (min y (capLimit im i f))
      if maskFld f then maskWrite (f.num, i) y m else m
    | .rw1c => m.setFld f i (clearBits (m.fld f i) (clearBits (bitsAt x (fldSpec f).lo (fldSpec f).w) (m.cycSet f i)))
    | .rw1s => m.setFld f i (m.fld f i ||| bitsAt x (fldSpec f).lo (fldSpec f).w)
    | .rwl =>
      if m.flag .RNG_ENABLE_ENABLED (pinst (viewPart v) 0) then setLocked v off m
      else m.setFld f i (bitsAt x (fldSpec f).lo (fldSpec f).w)
    | _ => m := by
  rw [writeFld, h]
  rfl

/-- The write of a field leaves every other field alone, but for the status register. -/
theorem writeFld_fld_ne {G : Fld} {j : Nat} (hne : (G, j) ≠ (f, i)) (hb : (fldSpec G).reg ≠ .BSTS) :
    (writeFld im v off i x m f).fld G j = m.fld G j := by
  have hset : ∀ y, (m.setFld f i y).fld G j = m.fld G j := fun y =>
    M.fld_setFld_ne m y fun h => hne (Prod.ext h.1 h.2)
  by_cases hown : (fldSpec f).own = true
  · rw [writeFld_own _ _ _ _ _ _ _ hown]
  · rw [writeFld_eq _ _ _ _ _ _ _ (Bool.eq_false_of_not_eq_true hown)]
    split
    · simp only
      split
      · exact hset _
      · exact hset _
    · exact hset _
    · exact hset _
    · split
      · exact setLocked_fld _ _ _ _ hb
      · exact hset _
    · rfl

end

/-! ### A read that clears (R4, R5, R7) -/

/-- What a field is left at when a read covers it. -/
def cleared (m : M) (F : Fld) (i : Nat) : Nat :=
  match mapFind m.cyc (F.num, i) with
  | none => rstVal F
  | some e => e.2 % 2 ^ (fldSpec F).w

/-- Reading one field leaves it so, every other as it was, and what would clear any of them the same. -/
theorem readClear_fld (m : M) (f F : Fld) (i j : Nat) :
    (m.readClear f i).fld F j = if j = i ∧ F = f then cleared m F i else m.fld F j := by
  rw [M.readClear]
  split
  next h =>
    rw [M.fld_rstFld]
    by_cases hF : F = f ∧ j = i
    · rw [if_pos hF, if_pos hF.symm, cleared, hF.1, h]
    · rw [if_neg hF, if_neg (mt And.symm hF)]
  next e ev h =>
    change (m.setFld f i ev).fld F j = _
    rw [M.fld_setFld]
    by_cases hF : F = f ∧ j = i
    · rw [if_pos hF, if_pos hF.symm, cleared, hF.1, h]
    · rw [if_neg hF, if_neg (mt And.symm hF)]

theorem readClear_cleared (m : M) (f F : Fld) (i : Nat) : cleared (m.readClear f i) F i = cleared m F i := by
  rw [M.readClear]
  by_cases hF : F = f
  · subst hF
    split
    next h => simp only [cleared, M.rstFld, mapFind_del_same, h]
    next e ev h => simp only [cleared, mapFind_put_same, h]
  · have hkey : (F.num, i) ≠ (f.num, i) := fun h => hF (Fld.num_inj (congrArg Prod.fst h))
    split
    next h => simp only [cleared, M.rstFld, mapFind_del_ne _ hkey]
    next e ev h => simp only [cleared, mapFind_put_ne _ _ hkey]

/-- The fields of a list that a read clears. -/
theorem foldl_readClear_fld (l : List Fld) (p : Fld → Prop) [DecidablePred p] (i : Nat) (m : M) (F : Fld) (j : Nat) :
    (l.foldl (fun m f => if p f then m.readClear f i else m) m).fld F j =
      if j = i ∧ F ∈ l ∧ p F then cleared m F i else m.fld F j := by
  induction l generalizing m with
  | nil => simp
  | cons f l ih =>
    rw [List.foldl_cons, ih]
    by_cases hp : p f
    · rw [if_pos hp, readClear_cleared, readClear_fld]
      by_cases hF : F = f
      · subst hF
        by_cases hj : j = i <;> simp [hj, hp]
      · simp [hF]
    · rw [if_neg hp]
      by_cases hF : F = f
      · subst hF
        simp [hp]
      · simp [hF]

namespace Machine

/-- Settles O19: `writeFld_eq` by access code, and `foldl_readClear_fld` over the fields of the register. -/
theorem accessCodes : Obligations.AccessCodes := by
  unfold Obligations.AccessCodes
  refine ⟨fun im v off i x m f => ?_, fun r i lo w m F j => ?_⟩
  · intro s y t
    have hy : bitsAt x s.lo s.w = y := bitsAt_eq ..
    refine ⟨fun h => writeFld_own _ _ _ _ _ _ _ h, fun h => ?_, fun G j hne hb => writeFld_fld_ne _ _ _ _ _ _ _ hne hb⟩
    have ht : t = _ := writeFld_eq im v off i x m f h
    rw [show bitsAt x (fldSpec f).lo (fldSpec f).w = y from hy] at ht
    refine ⟨fun ha => ?_, fun ha b => ?_, fun ha he => ?_, fun ha he => ?_, fun ha => ?_⟩
    · rw [show (fldSpec f).acc = .rw from ha] at ht
      have hset : ∀ z, (m.setFld f i z).fld f i = z % 2 ^ s.w := fun z => M.fld_setFld_same m f i z
      rw [ht]
      simp only
      split
      · exact hset _
      · exact hset _
    · rw [show (fldSpec f).acc = .rw1c from ha] at ht
      rw [ht]
      change bitAt ((m.setFld f i _).fld f i) b = _
      rw [M.fld_setFld_same]
      by_cases hb : b < s.w
      · rw [bitAt_mod_two_pow _ hb, bitAt_clearBits, bitAt_clearBits, decide_eq_true hb, Bool.and_true]
      · rw [decide_eq_false hb, Bool.and_false, bitAt, Nat.testBit_mod_two_pow, decide_eq_false hb, Bool.false_and]
    · rw [show (fldSpec f).acc = .rwl from ha] at ht
      rw [ht]
      change (if m.flag _ _ = true then _ else _ : M).fld f i = y
      rw [he, if_neg Bool.false_ne_true, M.fld_setFld_same]
      exact Nat.mod_mod ..
    · rw [show (fldSpec f).acc = .rwl from ha] at ht
      rw [ht]
      exact if_pos he
    · rw [ht]
      rcases ha with ha | ha | ha <;> rw [show (fldSpec f).acc = _ from ha]
  · rw [clearRc, foldl_readClear_fld]
    simp only [fldIn, Bool.and_eq_true, decide_eq_true_eq]
    rfl

end Machine

end Sys2Proof
end

section
/-! PROOFS. Register accesses of every size through every view (R4 to R7, R66, R261). -/

namespace Sys2Proof

/-! ### Pieces of an access (R7) -/

/-- Fuel beyond the bytes left makes no further piece. -/
theorem chunks8_fuel (j : Nat) : ∀ (k : Nat) (l : List Byte), l.length ≤ j → l.length ≤ k → chunks8 j l = chunks8 k l := by
  induction j with
  | zero =>
    intro k l hj _
    have hnil : l = [] := List.length_eq_zero_iff.1 (Nat.le_zero.1 hj)
    subst hnil
    cases k <;> rfl
  | succ j ih =>
    intro k l hj hk
    cases k with
    | zero => rw [List.length_eq_zero_iff.1 (Nat.le_zero.1 hk)]; rfl
    | succ k =>
      rw [chunks8, chunks8]
      split
      next => rfl
      next hne =>
        have hpos : l.length ≠ 0 := by simpa using hne
        rw [ih k (l.drop 8) (by rw [List.length_drop]; omega) (by rw [List.length_drop]; omega)]

/-- Up to 8 bytes are one piece. -/
theorem chunks8_short {l : List Byte} (h1 : 1 ≤ l.length) (h8 : l.length ≤ 8) : chunks8 l.length l = [l] := by
  obtain ⟨n, hn⟩ := Nat.exists_eq_succ_of_ne_zero (Nat.one_le_iff_ne_zero.1 h1)
  have hne : l.isEmpty = false := by cases l with
    | nil => simp at h1
    | cons _ _ => rfl
  rw [hn, chunks8, hne, List.take_of_length_le h8, List.drop_eq_nil_of_le h8]
  cases n <;> rfl

/-- The first 8 bytes are a piece, and the rest is cut as an access of its own. -/
theorem chunks8_append {l r : List Byte} (h : l.length = 8) : chunks8 (l ++ r).length (l ++ r) = l :: chunks8 r.length r := by
  have hne : (l ++ r).isEmpty = false := by cases l with
    | nil => simp at h
    | cons _ _ => rfl
  rw [List.length_append, h, show 8 + r.length = (r.length + 7) + 1 by omega, chunks8, hne]
  simp only [Bool.false_eq_true, if_false, ← h, List.take_left, List.drop_left]
  rw [chunks8_fuel (r.length + 7) r.length r (by omega) le_rfl]

theorem readSizes_fuel (j : Nat) : ∀ (k n : Nat), n ≤ j → n ≤ k → readSizes j n = readSizes k n := by
  induction j with
  | zero =>
    intro k n hj _
    rw [Nat.le_zero.1 hj]
    cases k <;> rfl
  | succ j ih =>
    intro k n hj hk
    cases k with
    | zero => rw [Nat.le_zero.1 hk]; rfl
    | succ k =>
      rw [readSizes, readSizes]
      split
      next => rfl
      next hne => rw [ih k (n - 8) (by omega) (by omega)]

theorem readSizes_short {n : Nat} (h1 : 1 ≤ n) (h8 : n ≤ 8) : readSizes n n = [n] := by
  obtain ⟨k, rfl⟩ := Nat.exists_eq_succ_of_ne_zero (Nat.one_le_iff_ne_zero.1 h1)
  rw [readSizes, if_neg (Nat.succ_ne_zero k), Nat.min_eq_left h8, Nat.sub_eq_zero_of_le h8]
  cases k <;> rfl

theorem readSizes_add (n : Nat) : readSizes (8 + n) (8 + n) = 8 :: readSizes n n := by
  rw [show 8 + n = (n + 7) + 1 by omega, readSizes, if_neg (Nat.succ_ne_zero _)]
  rw [show min (n + 7 + 1) 8 = 8 by omega, show n + 7 + 1 - 8 = n by omega, readSizes_fuel (n + 7) n n (by omega) le_rfl]

section
variable (im : Image) (v : View) (off : Nat) (m : M)

/-- A write of up to 8 bytes that is not in an inline window is one piece. -/
theorem accWrite_short {d : List Byte} (h1 : 1 ≤ d.length) (h8 : d.length ≤ 8) (hs : off + d.length ≤ viewSize im v)
    (hw : inWindow v off d.length = false) : accWrite im v off d m = writeOrHold im v off d m := by
  have hin : ¬(d.isEmpty = true ∨ viewSize im v < off + d.length) := by
    rintro (h | h)
    · rw [List.isEmpty_iff.1 h] at h1
      exact absurd h1 (by decide)
    · omega
  rw [accWrite, if_neg hin, hw, chunks8_short h1 h8]
  rfl

/-- A longer write is made 8 bytes at a time. -/
theorem accWrite_append {l r : List Byte} (h : l.length = 8) (hr : r ≠ []) (hs : off + (l ++ r).length ≤ viewSize im v)
    (hv : ∀ a n, inWindow v a n = false) :
    accWrite im v off (l ++ r) m = accWrite im v (off + 8) r (writeOrHold im v off l m) := by
  have hpos : 0 < r.length := List.length_pos_of_ne_nil hr
  rw [List.length_append, h] at hs
  have hin : ¬((l ++ r).isEmpty = true ∨ viewSize im v < off + (l ++ r).length) := by
    rw [List.isEmpty_iff, List.length_append, h]
    rintro (e | e)
    · exact hr (List.append_eq_nil_iff.1 e).2
    · omega
  have hin2 : ¬(r.isEmpty = true ∨ viewSize im v < off + 8 + r.length) := by
    rw [List.isEmpty_iff]
    rintro (e | e)
    · exact hr e
    · omega
  simp only [accWrite, if_neg hin, if_neg hin2, hv, Bool.false_eq_true, if_false]
  rw [chunks8_append h, List.zipIdx_cons, List.foldl_cons, List.zipIdx_succ, List.foldl_map]
  simp only [Nat.mul_zero, Nat.add_zero, Nat.mul_add, Nat.mul_one]
  congr 1
  funext m c
  rw [show off + (8 * c.2 + 8) = off + 8 + 8 * c.2 by omega]

/-- A read of up to 8 bytes is one piece. -/
theorem accRead_short {n : Nat} (e : Ecc) (h1 : 1 ≤ n) (h8 : n ≤ 8) (hs : off + n ≤ viewSize im v) :
    accRead im v off n e m = readPiece im v off n e m := by
  rw [accRead, if_neg (Nat.not_lt.2 hs), readSizes_short h1 h8]
  simp only [List.zipIdx_cons, List.zipIdx_nil, List.foldl_cons, List.foldl_nil, Nat.mul_zero, Nat.add_zero, List.nil_append]

/-- One more piece of a read: its bytes behind those read before it. -/
def addPiece (e : Ecc) (acc : List Byte × M) (c : Nat × Nat) : List Byte × M :=
  (acc.1 ++ (readPiece im v (off + 8 * c.2) c.1 e acc.2).1, (readPiece im v (off + 8 * c.2) c.1 e acc.2).2)

theorem accRead_eq {n : Nat} (e : Ecc) (hs : off + n ≤ viewSize im v) :
    accRead im v off n e m = (readSizes n n).zipIdx.foldl (addPiece im v off e) ([], m) := if_neg (Nat.not_lt.2 hs)

/-- The pieces read before stand in front and change nothing of what follows. -/
theorem foldl_addPiece (e : Ecc) (l : List (Nat × Nat)) (b : List Byte) :
    l.foldl (addPiece im v off e) (b, m) =
      (b ++ (l.foldl (addPiece im v off e) ([], m)).1, (l.foldl (addPiece im v off e) ([], m)).2) := by
  induction l generalizing b m with
  | nil => simp
  | cons c l ih =>
    rw [List.foldl_cons, List.foldl_cons, addPiece, addPiece, ih, List.nil_append]
    rw [ih (readPiece im v (off + 8 * c.2) c.1 e m).2 (readPiece im v (off + 8 * c.2) c.1 e m).1, List.append_assoc]

/-- A longer read is made 8 bytes at a time. -/
theorem accRead_add {n : Nat} (e : Ecc) (hs : off + 8 + n ≤ viewSize im v) : accRead im v off (8 + n) e m =
    ((readPiece im v off 8 e m).1 ++ (accRead im v (off + 8) n e (readPiece im v off 8 e m).2).1,
      (accRead im v (off + 8) n e (readPiece im v off 8 e m).2).2) := by
  have hoff : ∀ c : Nat × Nat, off + (8 * c.2 + 8) = off + 8 + 8 * c.2 := fun c => by omega
  rw [accRead_eq _ _ _ _ _ (by omega), accRead_eq _ _ _ _ _ (by omega), readSizes_add, List.zipIdx_cons, List.foldl_cons,
    List.zipIdx_succ, List.foldl_map]
  have hstep : (fun (acc : List Byte × M) (c : Nat × Nat) => addPiece im v off e acc (c.1, c.2 + 1)) =
      addPiece im v (off + 8) e := by
    funext acc c
    simp only [addPiece, Nat.mul_add, Nat.mul_one, hoff]
  have hfirst : addPiece im v off e ([], m) (8, 0) = readPiece im v off 8 e m := by
    simp only [addPiece, Nat.mul_zero, Nat.add_zero, List.nil_append]
  rw [hfirst]
  exact (congrArg (fun g => (readSizes n n).zipIdx.foldl g (readPiece im v off 8 e m)) hstep).trans
    (foldl_addPiece im v (off + 8) (readPiece im v off 8 e m).2 e _ (readPiece im v off 8 e m).1)

theorem readHeld_short {n : Nat} (h1 : 1 ≤ n) (h8 : n ≤ 8) : readHeld im m v off n = offHeld im m v off := by
  rw [readHeld, readSizes_short h1 h8]
  simp only [List.zipIdx_cons, List.zipIdx_nil, List.any_cons, List.any_nil, Nat.mul_zero, Nat.add_zero, Bool.or_false]

theorem touchView_frame : touchView v m = { m with host := (touchView v m).host } := by
  unfold touchView
  split <;> rfl

@[simp] theorem touchView_offHeld : offHeld im (touchView v m) v off = offHeld im m v off := by
  rw [touchView_frame]
  rfl

@[simp] theorem touchView_owner : touchView .owner m = m := rfl

end

/-! ### One piece that reaches a register -/

section
variable {im : Image} {v : View} {off : Nat} {m : M} {row : MapRow} {k i : Nat}

theorem offHeld_of_accReg (h : accReg im v off = some (row, k, i)) (hh : accessHeld m row.reg i = false) :
    offHeld im m v off = false := by
  simp only [offHeld, h, hh]

theorem sizeOk_of {n : Nat} (hn : n = 4 ∨ n = 8) (ha : off % n = 0) : sizeOk off n = true := by
  rcases hn with rfl | rfl <;> simp [sizeOk, ha]

theorem sizeOk_eq_false {n : Nat} (h : (n ≠ 4 ∧ n ≠ 8) ∨ off % n ≠ 0) : sizeOk off n = false := by
  rcases h with ⟨h4, h8⟩ | h <;> simp [sizeOk, *]

theorem writePiece_reg {d : List Byte} (hn : d.length = 4 ∨ d.length = 8) (ha : off % d.length = 0)
    (hw : inWindow v off d.length = false) (hf : inFlash v off = false) (hx : inMsix v off = false) (hb : inCmdBuf v off = false)
    (hr : accReg im v off = some (row, k, i)) (hl : regLive im v row.reg k = true) :
    writePiece im v off d m = if needs8 row.reg ∧ d.length ≠ 8 then setRsvd v (blockOf v off) off m
      else writeReg im v row k i off (8 * (off % 8)) (8 * d.length) (leVal d) m := by
  simp only [writePiece, sizeOk_of hn ha, hw, hf, hx, hb, hr, hl, Bool.true_eq_false, Bool.false_eq_true, if_false]

theorem readPiece_reg {n : Nat} (e : Ecc) (hn : n = 4 ∨ n = 8) (ha : off % n = 0) (hf : inFlash v off = false)
    (hx : inMsix v off = false) (hb : inCmdBuf v off = false) (hr : accReg im v off = some (row, k, i))
    (hl : regLive im v row.reg k = true) : readPiece im v off n e m =
      if popReg row.reg ∧ n ≠ 8 then (List.replicate n 0, setRsvd v (blockOf v off) off m)
      else (bytesAt (leBytes 8 (readReg im v row k i (8 * (off % 8)) (8 * n) e m).1) (off % 8) n,
        (readReg im v row k i (8 * (off % 8)) (8 * n) e m).2) := by
  simp only [readPiece, sizeOk_of hn ha, hf, hx, hb, hr, hl, Bool.true_eq_false, Bool.false_eq_true, if_false]

theorem bytesAt_zero {n : Nat} {l : List Byte} (h : l.length = n) : bytesAt l 0 n = l := by
  rw [bytesAt, List.drop_zero, takePad_of_length h]

/-- A register whose read is no pop and no vote answers its value before the events of the cycle. -/
theorem readReg_plain {lo w : Nat} {e : Ecc} (hs : row.reg ∉ [.MBX_RX, .MBX_WRX, .TRC_GET, .TRC_EVT, .IMG_ROOT_HASH, .MOV_CFG])
    (hm : row.mirror = false) : readReg im v row k i lo w e m =
      (regVal (beforeEvents row.reg i m) row.reg i &&& bankSeen im m v row.reg k, clearRc row.reg i lo w m) := by
  unfold readReg
  split
  next h => exact absurd (by simp [h]) hs
  next h => exact absurd (by simp [h]) hs
  next h => exact absurd (by simp [h]) hs
  next h => exact absurd (by simp [h]) hs
  next h => exact absurd (by simp [h]) hs
  next h => exact absurd (by simp [h]) hs
  next => rw [hm]; rfl

/-- With no event in this cycle, and fields within their width, the register shows itself. -/
theorem beforeEvents_fld (hc : m.cyc = []) (r : Reg) (hb : ∀ f ∈ regFields r, m.fld f i < 2 ^ (fldSpec f).w) (F : Fld) (j : Nat) :
    (beforeEvents r i m).fld F j = m.fld F j := by
  have hgen : ∀ (l : List Fld) (n : M), n.cyc = [] → (∀ F j, n.fld F j = m.fld F j) →
      (∀ f ∈ l, m.fld f i < 2 ^ (fldSpec f).w) →
      (l.foldl (fun m f => if (fldSpec f).acc = .rc then m.setFld f i (m.cycOf f i).1 else m) n).fld F j = m.fld F j := by
    intro l
    induction l with
    | nil => intro n _ hn _; exact hn F j
    | cons f l ih =>
      intro n hcyc hn hl
      rw [List.foldl_cons]
      refine ih _ ?_ (fun G g => ?_) (fun g hg => hl g (List.mem_cons_of_mem _ hg))
      · split
        · exact hcyc
        · exact hcyc
      · split
        · have hval : (n.cycOf f i).1 = m.fld f i := by rw [M.cycOf, hcyc, mapGet_nil, hn]
          rw [M.fld_setFld, hval]
          split
          next h => rw [h.1, h.2, Nat.mod_eq_of_lt (hl f (List.mem_cons_self ..))]
          next => exact hn G g
        · exact hn G g
  exact hgen _ m hc (fun _ _ => rfl) hb

theorem regVal_congr {m n : M} (h : ∀ F j, m.fld F j = n.fld F j) (r : Reg) (i : Nat) : regVal m r i = regVal n r i := by
  simp only [regVal, readFld, h]

theorem leBytes_mod (n x : Nat) : leBytes n (x % 2 ^ (8 * n)) = leBytes n x := by
  apply List.ext_getElem (by simp)
  intro j hj _
  have hj' : j < n := by simpa using hj
  rw [getElem_leBytes, getElem_leBytes]
  apply BitVec.eq_of_toNat_eq
  rw [BitVec.toNat_ofNat, BitVec.toNat_ofNat, show (256 : Nat) ^ j = 2 ^ (8 * j) by rw [Nat.pow_mul]]
  rw [show 2 ^ (8 * n) = 2 ^ (8 * j) * 2 ^ (8 * (n - j)) by rw [← Nat.pow_add]; congr 1; omega, Nat.mod_mul_right_div_self]
  exact Nat.mod_mod_of_dvd _ (Nat.pow_dvd_pow 2 (by omega))

/-- The bytes of a register do not see a mask of its 64 bits. -/
theorem leBytes_allOnes (x : Nat) : leBytes 8 (x &&& (2 ^ 64 - 1)) = leBytes 8 x := by
  rw [Nat.and_two_pow_sub_one_eq_mod]
  exact leBytes_mod 8 x

end

/-! ### The caps (R66) -/

/-- A full write of a register without reserved bits, whose fields have plain access, acts on them alone. -/
theorem wholeVal_full (m : M) (r : Reg) (i x : Nat) : wholeVal m r i 0 64 x = x := by
  have hz : lanes 0 64 ^^^ (2 ^ 64 - 1) = 0 := by decide
  simp only [wholeVal, hz, Nat.and_zero, Nat.zero_or, Nat.shiftLeft_zero]

/-- The register of the caps of cycles and mover bytes, in the owner's view. -/
theorem accReg_tckCapA (im : Image) (p : Fin 8) : ∃ row, accReg im .owner (regOff .owner .TCK_CAP_A p.val) = some (row, p.val, p.val) ∧
    row.reg = .TCK_CAP_A ∧ row.mirror = false := by
  have hat : ∀ p : Fin 8, ∃ row, regAt .owner (regOff .owner .TCK_CAP_A p.val / 8 * 8) = some (row, p.val) ∧ row.reg = .TCK_CAP_A ∧
      row.mirror = false := by
    intro p
    have hsome : (regAt .owner (regOff .owner .TCK_CAP_A p.val / 8 * 8)).all (fun e => e.2 == p.val && e.1.reg == .TCK_CAP_A &&
        !e.1.mirror) = true ∧ (regAt .owner (regOff .owner .TCK_CAP_A p.val / 8 * 8)).isSome = true := by
      revert p
      decide +kernel
    obtain ⟨⟨row, n⟩, he⟩ := Option.isSome_iff_exists.1 hsome.2
    have hall := hsome.1
    simp only [he, Option.all_some, Bool.and_eq_true, beq_iff_eq, Bool.not_eq_true'] at hall
    obtain ⟨⟨rfl, hreg⟩, hmir⟩ := hall
    exact ⟨row, he, hreg, hmir⟩
  obtain ⟨row, he, hreg, hmir⟩ := hat p
  refine ⟨row, ?_, hreg, hmir⟩
  simp only [accReg, he, Option.map_some, regInst, hreg, perPart]
  rfl

theorem tckCapA_off (p : Fin 8) : regOff .owner .TCK_CAP_A p.val % 8 = 0 ∧ regOff .owner .TCK_CAP_A p.val + 8 ≤ 0x6000000 := by
  revert p
  decide +kernel

/-- The caps after a full write: each no more than the image's. -/
theorem writeReg_tckCapA {im : Image} {m : M} {row : MapRow} {p off x : Nat} (hreg : row.reg = .TCK_CAP_A) (hmir : row.mirror = false)
    (hx : x < 2 ^ 64) : writeReg im .owner row p p off 0 64 x m =
      (m.setFld .TCK_CAP_A_SPINDLE_CYCLES p (min (x % 2 ^ 32) (im.bud p).cycles)).setFld .TCK_CAP_A_MOVER_BYTES p
        (min (x / 2 ^ 32) (im.bud p).mover) := by
  have hhigh : x / 2 ^ 32 % 2 ^ 32 = x / 2 ^ 32 := Nat.mod_eq_of_lt (Nat.div_lt_of_lt_mul (by omega))
  have hmask : regMask .TCK_CAP_A ^^^ (2 ^ 64 - 1) = 0 := by decide
  have hfields : (regFields .TCK_CAP_A).filter (fun f => fldIn f 0 64) = [.TCK_CAP_A_SPINDLE_CYCLES, .TCK_CAP_A_MOVER_BYTES] := by
    decide
  have hval : x &&& (2 ^ 64 - 1) = x := by rw [Nat.and_two_pow_sub_one_eq_mod, Nat.mod_eq_of_lt hx]
  have hlow : bitsAt x 0 32 = x % 2 ^ 32 := bitsAt_zero x 32
  have htop : bitsAt x 32 32 = x / 2 ^ 32 := (bitsAt_eq x 32 32).trans hhigh
  simp only [writeReg, hmir, hreg, hmask, hfields, wholeVal_full, Nat.and_zero, bne_self_eq_false, Bool.false_and,
    Bool.false_eq_true, if_false, show maskReg .TCK_CAP_A = false from rfl, hval, List.foldl_cons, List.foldl_nil, writeAct]
  rw [writeFld_eq _ _ _ _ _ _ _ (by rfl), writeFld_eq _ _ _ _ _ _ _ (by rfl)]
  rw [← hlow, ← htop]
  rfl

namespace Machine

section
variable {s : State} {v : View} {off : Nat} {d : List Byte}

theorem completes_of_regWrite {m' : M} (ho : viewOpen s.inForce s.m v = true)
    (hm : accWrite s.inForce v off d (touchView v s.m) = m') : Completes (.registerWrite v off ⟨d, false⟩) s m' :=
  completes_of_upd rfl ((if_pos ho).trans hm)

/-- A read that is not held completes with its bytes. -/
theorem completes_of_regRead {n : Nat} (hn : 1 ≤ n) (ho : viewOpen s.inForce s.m v = true) (hs : off + n ≤ viewSize s.inForce v)
    (hh : readHeld s.inForce s.m v off n = false) : Completes (.rcFieldRead v off n) s
      ((accRead s.inForce v off n .ok (touchView v s.m)).2.emit (.regData v off (accRead s.inForce v off n .ok (touchView v s.m)).1)) := by
  refine completes_of_upd rfl ?_
  have hsize : ¬(n = 0 ∨ viewSize s.inForce v < off + n) := by omega
  simp only [opRegRead, if_neg hsize, ho, Bool.true_eq_false, if_false, hh, Bool.false_eq_true, readOut]

end

/-- A write of 4 or 8 aligned bytes that reaches a register. -/
theorem registerWrite_reg {s : State} {v : View} {off : Nat} {d : List Byte} {row : MapRow} {k i : Nat}
    (ho : viewOpen s.inForce s.m v = true) (hn : d.length = 4 ∨ d.length = 8) (ha : off % d.length = 0)
    (hs : off + d.length ≤ viewSize s.inForce v) (hw : inWindow v off d.length = false) (hf : inFlash v off = false)
    (hx : inMsix v off = false) (hb : inCmdBuf v off = false) (hr : accReg s.inForce v off = some (row, k, i))
    (hh : accessHeld s.m row.reg i = false) (hl : regLive s.inForce v row.reg k = true) :
    Completes (.registerWrite v off ⟨d, false⟩) s
      (if needs8 row.reg ∧ d.length ≠ 8 then setRsvd v (blockOf v off) off (touchView v s.m)
      else writeReg s.inForce v row k i off (8 * (off % 8)) (8 * d.length) (leVal d) (touchView v s.m)) := by
  refine completes_of_regWrite ho ?_
  rw [accWrite_short _ _ _ _ (by omega) (by omega) hs hw, writeOrHold, touchView_offHeld, offHeld_of_accReg hr hh,
    if_neg Bool.false_ne_true, writePiece_reg hn ha hw hf hx hb hr hl]

/-- A read of 4 or 8 aligned bytes that reaches a register. -/
theorem rcFieldRead_reg {s : State} {v : View} {off n : Nat} {row : MapRow} {k i : Nat}
    (ho : viewOpen s.inForce s.m v = true) (hn : n = 4 ∨ n = 8) (ha : off % n = 0)
    (hs : off + n ≤ viewSize s.inForce v) (hf : inFlash v off = false)
    (hx : inMsix v off = false) (hb : inCmdBuf v off = false) (hr : accReg s.inForce v off = some (row, k, i))
    (hh : accessHeld s.m row.reg i = false) (hl : regLive s.inForce v row.reg k = true) :
    Completes (.rcFieldRead v off n) s (
      let m := touchView v s.m
      let r := readReg s.inForce v row k i (8 * (off % 8)) (8 * n) .ok m
      if popReg row.reg ∧ n ≠ 8 then (setRsvd v (blockOf v off) off m).emit (.regData v off (List.replicate n 0))
      else r.2.emit (.regData v off (bytesAt (leBytes 8 r.1) (off % 8) n))) := by
  have hread := completes_of_regRead (n := n) (by omega) ho hs (by rw [readHeld_short _ _ _ _ (by omega) (by omega), offHeld_of_accReg hr hh])
  rw [accRead_short _ _ _ _ _ (by omega) (by omega) hs, readPiece_reg _ hn ha hf hx hb hr hl] at hread
  by_cases hp : popReg row.reg = true ∧ n ≠ 8
  · simp only [if_pos hp] at hread ⊢
    exact hread
  · simp only [if_neg hp] at hread ⊢
    exact hread

/-- Settles O20: the pieces of an access, and for a piece that reaches a register what the register does. -/
theorem registerAccesses : Obligations.RegisterAccesses := by
  unfold Obligations.RegisterAccesses
  refine ⟨fun s v off d => ?_, fun s v off => ?_⟩
  · intro m
    refine ⟨fun ep hc => ?_, completes_of_upd rfl rfl, fun hv ho => ?_, fun row k i ho hn ha hs hw hf hx hb hr hh hl => ?_,
      fun row k i ho hn ha hs hw hf hx hb hr hh hl => ?_, fun d1 d2 hd hn hne ho hv hs => ?_, fun p hreact hn he hh => ?_,
      fun ho h1 h8 hbad hs hw hh => ?_⟩
    · cases ep with
      | true => exact completes_of_upd (f := fun im m => opPoisoned im v m) rfl (if_pos (Or.inr hc))
      | false => exact completes_of_upd (f := fun im m => opRegWrite im v off d m) rfl (if_neg (by simp [hc]))
    · exact completes_of_upd (f := fun im m => opPoisoned im v m) rfl (if_neg (by simp [hv, ho]))
    · have h := registerWrite_reg ho (.inr hn) (hn ▸ ha) (hn ▸ hs) (hn ▸ hw) hf hx hb hr hh hl
      rwa [if_neg (fun e => e.2 hn), hn, ha, Nat.mul_zero] at h
    · have h := registerWrite_reg ho (.inl hn) (hn ▸ ha) (hn ▸ hs) (hn ▸ hw) hf hx hb hr hh hl
      refine ⟨fun h8 => ?_, fun h8 => ?_⟩
      · rwa [if_neg (by simp [h8]), hn] at h
      · rwa [if_pos ⟨h8, by omega⟩] at h
    · subst hd
      refine completes_of_regWrite ho (accWrite_append _ _ _ _ hn hne hs fun a n => ?_)
      cases v with
      | bar2 p => exact absurd rfl (hv p)
      | _ => rfl
    · obtain ⟨row, hr, hreg, hmir⟩ := accReg_tckCapA s.inForce p
      have hoff := tckCapA_off p
      have hflash : inFlash .owner (regOff .owner .TCK_CAP_A p.val) = false := by
        simp only [inFlash, Bool.and_eq_false_iff, decide_eq_false_iff_not]
        omega
      have hlt : leVal d < 2 ^ 64 := by
        have := leVal_lt d
        rwa [hn] at this
      have h := registerWrite_reg (d := d) (s := s) rfl (.inr hn) (by rw [hn]; exact hoff.1) (by rw [hn]; exact hoff.2.trans (show 0x6000000 ≤ 0x8000000 by decide))
        rfl hflash rfl rfl hr (hreg ▸ hh) (by rw [hreg]; exact he)
      rw [if_neg (fun e => e.2 hn), hn, hoff.1, writeReg_tckCapA hreg hmir hlt] at h
      refine ⟨_, h.next hreact, rfl, ?_, ?_, fun F j hF => ?_⟩
      · exact (M.fld_setFld_ne _ _ (by simp)).trans (M.fld_setFld_same _ _ _ _)
      · exact M.fld_setFld_same _ _ _ _
      · simp only [List.mem_cons, Prod.mk.injEq, List.not_mem_nil, or_false, not_or] at hF
        exact (M.fld_setFld_ne _ _ hF.2).trans (M.fld_setFld_ne _ _ hF.1)
    · refine completes_of_regWrite ho ?_
      rw [accWrite_short _ _ _ _ h1 h8 hs hw, writeOrHold, touchView_offHeld, hh, if_neg Bool.false_ne_true, writePiece,
        sizeOk_eq_false hbad]
      rfl
  · intro m
    refine ⟨fun n hn hs hc => ?_, fun row k i ho ha hs hf hx hb hr hh hl => ?_, fun row k i ho ha hs hf hx hb hr hh hl => ?_,
      fun n hn ho hs hh => ?_, fun n hn h8 hbad ho hs hh => ?_⟩
    · have hsize : ¬(n = 0 ∨ viewSize s.inForce v < off + n) := by omega
      exact completes_of_upd rfl (by rw [opRegRead, if_neg hsize, if_pos hc])
    · have h := rcFieldRead_reg ho (.inr rfl) ha hs hf hx hb hr hh hl
      simp only [ha, Nat.mul_zero, ne_eq, not_true, and_false, if_false, bytesAt_zero (leBytes_length _ _)] at h
      refine ⟨h, fun hs hm => ?_, fun hs hm hbank hcyc hfld => ?_⟩
      · rwa [readReg_plain hs hm] at h
      · have hframe := touchView_frame v s.m
        have hval : ∀ F j, (touchView v s.m).fld F j = s.m.fld F j := fun F j => by rw [hframe]; rfl
        have hsame := regVal_congr (m := beforeEvents row.reg i (touchView v s.m)) (n := s.m)
          (fun F j => (beforeEvents_fld (by rw [hframe]; exact hcyc) row.reg (fun f hf => by rw [hval]; exact hfld f hf) F j).trans
            (hval F j)) row.reg i
        have hall : bankSeen s.inForce (touchView v s.m) v row.reg k = 2 ^ 64 - 1 := by rw [bankSeen, hbank]
        rwa [readReg_plain hs hm, hsame, hall, leBytes_allOnes] at h
    · have h := rcFieldRead_reg ho (.inl rfl) ha hs hf hx hb hr hh hl
      refine ⟨fun hp => ?_, fun hp => ?_⟩
      · simpa only [hp, Bool.false_eq_true, false_and, if_false] using h
      · simpa only [hp, true_and, ne_eq, if_pos (show ¬(4 : Nat) = 8 by decide)] using h
    · have h := completes_of_regRead (n := 8 + n) (by omega) ho (by omega) hh
      rwa [accRead_add _ _ _ _ _ hs] at h
    · have h := completes_of_regRead hn ho hs (by rw [readHeld_short _ _ _ _ hn (by omega), hh])
      have hz : sizeOk off n = false := by
        rcases hbad with h4 | h4
        · exact sizeOk_eq_false (.inl ⟨h4, by omega⟩)
        · by_cases hn4 : n = 4
          · exact sizeOk_eq_false (.inr (hn4 ▸ h4))
          · exact sizeOk_eq_false (.inl ⟨hn4, by omega⟩)
      rw [accRead_short _ _ _ _ _ hn (by omega) hs, readPiece, hz] at h
      exact h

end Machine

end Sys2Proof
end

section
/-! PROOFS. The tick: its edge, its budgets, TICK_IN, fault windows and hush (R51 to R68, R360, R372). -/

namespace Sys2Proof

/-! ### Budgets (R57 to R59, R64, R66) -/

/-- A map built from a list of keys holds the value of each of them. -/
theorem mapGet_foldl_put {V : Type} (d : V) (g : Key → V) (l : List Key) (a : Map V) (k : Key) :
    mapGet d (l.foldl (fun a k => mapPut a k (g k)) a) k = if k ∈ l then g k else mapGet d a k := by
  induction l generalizing a with
  | nil => simp
  | cons x l ih =>
    rw [List.foldl_cons, ih]
    by_cases hx : k = x
    · subst hx
      simp
    · simp [hx, mapGet_put_ne _ _ _ hx]

theorem BudSt.markOut_inf (b : BudSt) (k i : Nat) : (b.markOut k i).inf = b.inf := by
  unfold BudSt.markOut
  split <;> rfl

theorem BudSt.markStop_inf (b : BudSt) (k i : Nat) : (b.markStop k i).inf = b.inf := by
  unfold BudSt.markStop
  split <;> rfl

theorem BudSt.markOut_charged (b : BudSt) (k i : Nat) : (b.markOut k i).charged = b.charged := by
  unfold BudSt.markOut
  split <;> rfl

theorem BudSt.markStop_charged (b : BudSt) (k i : Nat) : (b.markStop k i).charged = b.charged := by
  unfold BudSt.markStop
  split <;> rfl

theorem BudSt.markOut_early (b : BudSt) (k i : Nat) : (b.markOut k i).early = b.early := by
  unfold BudSt.markOut
  split <;> rfl

theorem BudSt.markStop_early (b : BudSt) (k i : Nat) : (b.markStop k i).early = b.early := by
  unfold BudSt.markStop
  split <;> rfl

theorem mem_budKeys_part {im : Image} {p : Nat} (hp : p ∈ im.enabledParts) {k : Nat} (hk : k < 3) : (k, p) ∈ allBudKeys im := by
  refine List.mem_flatten.2 ⟨budKeys im p, List.mem_map_of_mem hp, ?_⟩
  have : (k, p) ∈ [(0, p), (1, p), (2, p)] := by
    rcases (by omega : k = 0 ∨ k = 1 ∨ k = 2) with rfl | rfl | rfl <;> simp
  exact List.mem_append_left _ (List.mem_append_left _ this)

/-- The value latched for a budget that reloads, or for a stage quota. -/
theorem latchCaps_nextInf {im : Image} (m : M) {k : Key}
    (hk : k ∈ allBudKeys im ++ im.enabledParts.map (fun p => (5, p))) :
    mapGet 0 (latchCaps im m).bud.nextInf k = budNew im m k.1 k.2 :=
  (mapGet_foldl_put 0 (fun k => budNew im m k.1 k.2) _ [] k).trans (if_pos hk)

theorem openTick_charged {im : Image} (b : List Server) (m : M) {k : Key} (hk : k ∈ allBudKeys im) :
    mapGet 0 (openTick im b m).bud.charged k = carryOf m b k :=
  (mapGet_foldl_put 0 (carryOf m b) _ [] k).trans (if_pos hk)

theorem reload1_rem (m : M) (k : Key) : (reload1 m k).bud.rem = mapPut m.bud.rem k (mapGet 0 m.bud.nextInf k -
    (mapGet 0 m.bud.charged k + mapGet 0 m.bud.early k)) := by
  simp only [reload1, BudSt.markStop_rem, BudSt.markOut_rem]

theorem reload1_inf (m : M) (k : Key) : (reload1 m k).bud.inf = mapPut m.bud.inf k (mapGet 0 m.bud.nextInf k) := by
  simp only [reload1, BudSt.markStop_inf, BudSt.markOut_inf]

namespace Machine

/-- Settles O25: `M.left_charge`, and where the charge is counted by whether the reload has passed. -/
theorem chargesDeduct : Obligations.ChargesDeduct := by
  unfold Obligations.ChargesDeduct
  intro m k i sv n t
  have hcov : m.covers k i n = true ↔ n ≤ m.left k i := decide_eq_true_iff
  refine ⟨hcov, fun h => ?_, fun a j h => M.left_charge_ne m sv n h, fun h => ?_, fun h => ?_, rfl⟩
  · have := hcov.1 h
    rw [M.left_charge]
    omega
  · simp only [t, M.charge, h, if_true, BudSt.markStop_early, BudSt.markStop_charged, mapGet_put_same, and_self]
  · simp only [t, M.charge, h, Bool.false_eq_true, if_false, BudSt.markStop_early, BudSt.markStop_charged, BudSt.markOut_early,
      BudSt.markOut_charged, mapGet_put_same, and_self]

/-! ### The tick count (R57, R281, R287, R366) -/

/-- With nothing disturbed the security block's part of an edge writes no register field. -/
theorem secEdge_f (im : Image) {m : M} (h : Undisturbed m) : (secEdge im m).f = m.f := by
  obtain ⟨hu, -, hd, -⟩ := h
  have hsweep : ∀ n : M, n.upset = [] → n.voteDead = [] → (opVotedSweep im [] n).f = n.f := by
    intro n hu hd
    unfold opVotedSweep
    split
    · rw [sweepStore, hu, hd]
      rfl
    · rfl
  have hreseed : ∃ n : M, n = (if m.sec.reseedIn ≤ 1 then opDrbgReseed m else { m with sec := { m.sec with reseedIn := m.sec.reseedIn - 1 } }) ∧
      n.f = m.f ∧ n.upset = [] ∧ n.voteDead = [] := by
    refine ⟨_, rfl, ?_⟩
    unfold opDrbgReseed
    split
    · split
      · exact ⟨rfl, hu, hd⟩
      · exact ⟨rfl, hu, hd⟩
    · exact ⟨rfl, hu, hd⟩
  obtain ⟨n, hn, hf, hu', hd'⟩ := hreseed
  rw [secEdge, ← hn]
  change (if 1 < n.sec.sweepIn then { n with sec := { n.sec with sweepIn := n.sec.sweepIn - 1 } }
    else { opVotedSweep im [] n with sec := { (opVotedSweep im [] n).sec with sweepIn := sweepTicks, sweepDue := true } } : M).f = m.f
  split
  · exact hf
  · exact (hsweep n hu' hd').trans hf

/-- TCK_COUNT after step 4, and ALIVE, which changes when the new count is 1 modulo 128 and nothing freezes it. -/
theorem stepCount_fld (im : Image) {m : M} (h : Undisturbed m) {F : Fld} (j : Nat) :
    let n := (m.fld .TCK_COUNT_COUNT 0 + 1) % 2 ^ 64
    (stepCount im m).fld F j = if F = .TCK_COUNT_COUNT ∧ j = 0 then n
      else if n % 128 = 1 ∧ m.flag .PWR_PIN_ALIVE_FROZEN 0 = false ∧ F = .PWR_PIN_ALIVE ∧ j = 0 then
        (if m.flag .PWR_PIN_ALIVE 0 then 0 else 1)
      else m.fld F j := by
  intro n
  have hedge : ∀ G g, (secEdge im (m.setFld .TCK_COUNT_COUNT 0 n)).fld G g = (m.setFld .TCK_COUNT_COUNT 0 n).fld G g :=
    fun G g => M.fld_congr (secEdge_f (m := m.setFld .TCK_COUNT_COUNT 0 n) im h) G g
  have hcount : ∀ G g, (m.setFld .TCK_COUNT_COUNT 0 n).fld G g = if G = .TCK_COUNT_COUNT ∧ g = 0 then n else m.fld G g := by
    intro G g
    rw [M.fld_setFld, show n % 2 ^ (fldSpec .TCK_COUNT_COUNT).w = n from Nat.mod_mod _ _]
  have hflag : ∀ {G : Fld}, G ≠ .TCK_COUNT_COUNT → (secEdge im (m.setFld .TCK_COUNT_COUNT 0 n)).flag G 0 = m.flag G 0 := by
    intro G hG
    rw [M.flag, hedge, hcount, if_neg (fun e => hG e.1)]
    rfl
  have hstep : stepCount im m = if n % 128 = 1 then toggleAlive (secEdge im (m.setFld .TCK_COUNT_COUNT 0 n))
      else secEdge im (m.setFld .TCK_COUNT_COUNT 0 n) := rfl
  rw [hstep]
  by_cases hn : n % 128 = 1
  · rw [if_pos hn, toggleAlive, hflag (by decide), hflag (by decide)]
    by_cases hz : m.flag .PWR_PIN_ALIVE_FROZEN 0 = true
    · rw [if_pos hz, hedge, hcount, if_neg (c := _ ∧ _ = false ∧ _) (by simp [hz])]
    · rw [if_neg hz]
      change (M.setFlag _ .PWR_PIN_ALIVE 0 _).fld F j = _
      rw [M.fld_setFlag, hedge, hcount]
      by_cases hF : F = .PWR_PIN_ALIVE ∧ j = 0
      · obtain ⟨rfl, rfl⟩ := hF
        cases m.flag .PWR_PIN_ALIVE 0 with
        | true => simp [hn, hz]
        | false => simp [hn, hz]; decide
      · rw [if_neg hF, if_neg (c := _ ∧ _ = false ∧ _) (fun e => hF e.2.2)]
  · rw [if_neg hn, hedge, hcount, if_neg (c := _ ∧ _ = false ∧ _) (fun e => hn e.1)]

/-- Settles O24: the edge and its steps are the tick unit's own; the arithmetic is that of the budget maps and of
`stepCount_fld`. -/
theorem tickEdgeSteps : Obligations.TickEdgeSteps := by
  unfold Obligations.TickEdgeSteps
  refine ⟨fun s busy strikes => ?_, fun m k => ?_, fun im m p hp => ?_, fun im b m p hp => ?_, fun im m hu => ?_⟩
  · intro im step1
    refine ⟨fun h => completes_of_upd rfl (if_pos (.inr h)), fun hon hnow => ⟨?_, ?_⟩, fun k hk hon hphase hnow hne => ?_⟩
    · exact completes_of_upd rfl (if_neg (by simp [hon, hnow]))
    · simp only [tickStep, hon, Bool.true_eq_false, if_false, hnow, if_true]
      rfl
    · intro m
      have hdue : 1 ≤ s.m.tick.phase ∧ s.m.tick.phase < 5 ∧ s.m.now = s.m.tick.edge + s.m.tick.phase := by omega
      rw [tickStep, if_neg (by simp [hon]), if_neg hne, if_pos hdue, hphase, edgeStep]
      rcases (by omega : k = 0 ∨ k = 1 ∨ k = 2 ∨ k = 3) with rfl | rfl | rfl | rfl <;> rfl
  · intro t v c
    have hinf : t.bud.inf = mapPut m.bud.inf k v := reload1_inf m k
    have hrem : t.bud.rem = mapPut m.bud.rem k (v - c) := reload1_rem m k
    refine ⟨?_, ?_, fun a i h => ⟨?_, ?_⟩⟩
    · rw [hinf, mapGet_put_same]
    · rw [M.left, hrem, mapGet_put_same]
    · rw [M.left, hrem, mapGet_put_ne _ _ _ h]
      rfl
    · rw [M.inForce, hinf, mapGet_put_ne _ _ _ h]
      rfl
  · have hpart : ∀ {k}, k < 3 → (k, p) ∈ allBudKeys im ++ im.enabledParts.map (fun p => (5, p)) :=
      fun hk => List.mem_append_left _ (mem_budKeys_part hp hk)
    refine ⟨latchCaps_nextInf m (hpart (by decide)), latchCaps_nextInf m (hpart (by decide)), latchCaps_nextInf m (hpart (by decide)),
      latchCaps_nextInf m (List.mem_append_right _ (List.mem_map_of_mem hp))⟩
  · exact ⟨openTick_charged b m (mem_budKeys_part hp (by decide)), rfl⟩
  · intro n
    refine ⟨?_, fun h => ?_, fun hn hz => ?_⟩
    · rw [stepCount_fld im hu, if_pos ⟨rfl, rfl⟩]
    · rw [stepCount_fld im hu, if_neg (by simp), if_neg]
      rintro ⟨hn, hz, -⟩
      rcases h with h | h
      · exact h hn
      · simp [h] at hz
    · rw [M.flag, stepCount_fld im hu, if_neg (by simp), if_pos ⟨hn, hz, rfl, rfl⟩]
      cases m.flag .PWR_PIN_ALIVE 0 <;> rfl

/-! ### TICK_IN (R54, R55) -/

/-- Settles O26: the span in which the sampled edge lies. -/
theorem tickInput : Obligations.TickInput := by
  unfold Obligations.TickInput
  intro s hon hsrc
  have hgo : ¬(s.m.tick.on = false ∨ s.inForce.tickSource = 0) := by simp [hon, hsrc]
  refine ⟨fun h1 h2 ht => ?_, fun hc h1 h2 => ?_, fun h1 hl hr => ?_⟩
  · refine completes_of_upd rfl ?_
    have hspan : spanDue s.inForce s.m = s.m := if_neg (Nat.not_lt.2 h1)
    simp only [opTickIn, if_neg hgo, hspan, if_pos (And.intro h1 (And.intro h2 ht))]
    rfl
  · refine completes_of_upd rfl ?_
    have hspan : spanDue s.inForce s.m = s.m := by
      rw [spanDue, if_pos h1, closeSpan, if_pos (.inr hc)]
    have hlate : ¬(s.m.now ≤ s.m.tick.edge + s.inForce.tickPeriod / 2 ∧ s.m.tick.edge < s.m.now + s.inForce.tickPeriod / 2 ∧
        s.m.tick.taken = false) := fun h => by omega
    have hearly : ¬(s.m.tick.next < s.m.now + s.inForce.tickPeriod / 2 ∧ s.m.now ≤ s.m.tick.next + s.inForce.tickPeriod / 2 ∧
        s.m.tick.ahead = none) := fun h => by omega
    simp only [opTickIn, if_neg hgo, hspan, if_neg hlate, if_neg hearly]
  · refine completes_of_upd rfl ?_
    have hspan : spanDue s.inForce s.m = s.m := if_neg (Nat.not_lt.2 h1)
    simp only [opTickLost, if_neg hgo, hspan, if_pos (And.intro hl hr)]

/-! ### Fault windows and hush (R360, R372) -/

section
variable (m : M) (f : Nat)

theorem endWindow_fld (F : Fld) (j : Nat) : (endWindow m f).fld F j =
    if F = .FLT_SRC_AGE ∧ j = f then 0 else if F = .FLT_SRC_COUNT ∧ j = f then 0 else m.fld F j := by
  change ((m.setFld .FLT_SRC_COUNT f 0).setFld .FLT_SRC_AGE f 0).fld F j = _
  rw [M.fld_setFld, M.fld_setFld, Nat.zero_mod, Nat.zero_mod]

/-- A link that hush left powered down. -/
def lanesDown (l : Nat) : Prop := ¬(m.linkLive l = true ∨ m.linkState l = lsTrain ∨ m.linkState l = lsHand)

/-- The lanes that power up among a list of links. -/
theorem foldl_lanesWake (l : List Nat) (n : M) (hf : n.f = m.f) (hnow : n.now = m.now) :
    let t := l.foldl (fun m l => if m.linkLive l ∨ m.linkState l = lsTrain ∨ m.linkState l = lsHand then m
      else m.setLink l { m.link l with lanesAt := m.now + pmaSc }) n
    t.react = n.react ∧ t.f = m.f ∧ ∀ k, (k ∈ l ∨ (n.link k).lanesAt = m.now + pmaSc) → lanesDown m k →
      (t.link k).lanesAt = m.now + pmaSc := by
  induction l generalizing n with
  | nil => exact ⟨rfl, hf, fun k hk _ => hk.resolve_left (by simp)⟩
  | cons x l ih =>
    have hstate : ∀ k, n.linkState k = m.linkState k := fun k => M.fld_congr hf ..
    have hlive : ∀ k, n.linkLive k = m.linkLive k := fun k => by rw [M.linkLive, hstate]; rfl
    rw [List.foldl_cons]
    by_cases hx : n.linkLive x = true ∨ n.linkState x = lsTrain ∨ n.linkState x = lsHand
    · rw [if_pos hx]
      obtain ⟨hr, hf', hk⟩ := ih n hf hnow
      refine ⟨hr, hf', fun k hmem hdown => hk k ?_ hdown⟩
      rcases hmem with hmem | hmem
      · rcases List.mem_cons.1 hmem with rfl | hmem
        · exact absurd (by rwa [hlive, hstate] at hx) hdown
        · exact .inl hmem
      · exact .inr hmem
    · rw [if_neg hx]
      obtain ⟨hr, hf', hk⟩ := ih (n.setLink x { n.link x with lanesAt := n.now + pmaSc }) hf hnow
      refine ⟨hr, hf', fun k hmem hdown => hk k ?_ hdown⟩
      by_cases hkx : k = x
      · right
        rw [hkx, M.link_setLink, hnow]
      · rcases hmem with hmem | hmem
        · exact .inl ((List.mem_cons.1 hmem).resolve_left hkx)
        · right
          rw [M.link_setLink_ne _ _ hkx, hmem]

theorem lanesWake_react : (lanesWake m).react = m.react := (foldl_lanesWake m (List.range 96) m rfl rfl).1

end

/-- Settles O27: a window that is due ends; hush acts at once or at the edge; the links that it left powered down wake. -/
theorem windowsAndHush : Obligations.WindowsAndHush := by
  unfold Obligations.WindowsAndHush
  refine fun s hreact => ⟨fun f hf => ?_, ?_, ?_, fun l hl hlive htrain hhand => ?_⟩
  · have hc : Completes (.faultWindowExpiry f) s (endWindow s.m f.val) := completes_of_upd rfl (if_pos hf)
    refine ⟨_, hc.next hreact, ?_, ?_, ?_, fun F j hF => ?_, rfl⟩
    · exact (endWindow_fld ..).trans (by simp)
    · exact (endWindow_fld ..).trans (if_pos ⟨rfl, rfl⟩)
    · simp [endWindow]
    · simp only [List.mem_cons, Prod.mk.injEq, List.not_mem_nil, or_false, not_or] at hF
      exact (endWindow_fld ..).trans ((if_neg hF.2).trans (if_neg hF.1))
  · exact Completes.next (c := .hush true) (completes_of_upd rfl rfl) hreact
  · have hc : Completes (.hush false) s (opHush false s.m) := completes_of_upd rfl rfl
    refine hc.next ?_
    change (if s.m.flag .PWR_CTL_HUSH_ACTIVE 0 = true then lanesWake s.m else s.m).react = []
    split
    · exact (lanesWake_react s.m).trans hreact
    · exact hreact
  · exact (foldl_lanesWake s.m (List.range 96) s.m rfl rfl).2.2 l (.inl (List.mem_range.2 hl)) (by simp [lanesDown, hlive, htrain, hhand])

end Machine

end Sys2Proof
end

section
/-! PROOFS. Commits of the interrupt controller, the re-check of EXACT, masks and hold-off (13, R331 to R338). -/

namespace Sys2Proof

/-! ### One source (R331) -/

section
variable (im : Image) (o src : Nat) (m : M)

theorem bankFld_pend_ne_act (b : Bank) : bankFld .pend o b ≠ bankFld .act o b := by
  by_cases h : o = 8
  · rw [h]
    cases b <;> decide
  · cases b <;> simp only [bankFld, if_neg h] <;> decide

/-- A commit writes the registers of the source's PEND and ACT bits and notes how the cycle began. -/
theorem commitSrc_frame : commitSrc im o src m =
    { m with f := (commitSrc im o src m).f, irq := { m.irq with start := (commitSrc im o src m).irq.start } } := rfl

theorem commitSrc_pend {n : Nat} (hn : n < 64) :
    bitAt ((commitSrc im o src m).fld (bankFld .pend o (srcBank im o src)) (bankInst o (srcIdx src))) n =
      if n = src % 64 then bitAt (startBits im m o src) 2
      else bitAt (m.fld (bankFld .pend o (srcBank im o src)) (bankInst o (srcIdx src))) n := by
  rw [commitSrc, setSrcBit_fld_ne _ _ _ _ _ _ _ (bankFld_pend_ne_act _ _), bitAt_setSrcBit _ _ _ _ _ _ hn]

theorem commitSrc_act {n : Nat} (hn : n < 64) :
    bitAt ((commitSrc im o src m).fld (bankFld .act o (srcBank im o src)) (bankInst o (srcIdx src))) n =
      if n = src % 64 then true
      else bitAt (m.fld (bankFld .act o (srcBank im o src)) (bankInst o (srcIdx src))) n := by
  rw [commitSrc, bitAt_setSrcBit _ _ _ _ _ _ hn, setSrcBit_fld_ne _ _ _ _ _ _ _ (bankFld_pend_ne_act _ _).symm]

theorem commitSrc_fld {G : Fld} {j : Nat}
    (hp : (G, j) ≠ (bankFld .pend o (srcBank im o src), bankInst o (srcIdx src)))
    (ha : (G, j) ≠ (bankFld .act o (srcBank im o src), bankInst o (srcIdx src))) : (commitSrc im o src m).fld G j = m.fld G j := by
  rw [commitSrc, setSrcBit, M.fld_setFld_ne _ _ (fun e => ha (Prod.ext e.1 e.2))]
  exact M.fld_setFld_ne _ _ (fun e => hp (Prod.ext e.1 e.2))

end

/-- The hold-off timers are no part of what a source's commit changes. -/
theorem foldl_commitSrc_hold (im : Image) (o : Nat) (l : List Nat) (m : M) :
    (l.foldl (fun m src => commitSrc im o src m) m).irq.hold = m.irq.hold := by
  induction l generalizing m with
  | nil => rfl
  | cons x l ih => rw [List.foldl_cons, ih]; rfl

/-! ### A commit of a partition (R333, R335, R336) -/

theorem nextGroup_nil (m : M) (p : Nat) : nextGroup m p [] = none := by
  rw [nextGroup, List.find?_eq_none]
  intro x _
  simp

/-- The group that commits is one of those asked for. -/
theorem nextGroup_mem {m : M} {p g : Nat} {l : List Nat} (h : nextGroup m p l = some g) : g ∈ l := by
  have := List.find?_some h
  simpa using this

section
variable (im : Image) (p : Nat) (m : M)

/-- The eligible fast sources. -/
def fastOf : List Nat := (candSources im m p .f).filter (eligible im m p)

/-- The eligible normal sources, rings included. -/
def slowOf : List Nat := (candSources im m p .n ++ candSources im m p .r).filter (eligible im m p)

/-- The group of a source. -/
def grpOf (src : Nat) : Nat := match srcRoute im m p src with | some (_, g) => g | none => 0

/-- The partition has committed in this cycle. -/
def markDid : M := { m with irq := { m.irq with did := m.irq.did ++ [p] } }

/-- The sources of a group among the eligible normal ones. -/
def groupOf (g : Nat) : List Nat := (slowOf im p m).filter (fun s => grpOf im p m s == g)

/-- A commit with the group that it takes, if any. -/
def commitBy (g : Option Nat) : M :=
  let slow := match g with | some g => groupOf im p m g | none => []
  if (fastOf im p m).isEmpty && slow.isEmpty then m else
  let m1 := (fastOf im p m ++ slow).foldl (fun m s => commitSrc im p s m) (markDid p m)
  let old := match g with | some g => mapFind m.irq.hold (p, g) | none => none
  let m2 := match g with
    | some g =>
      let m := loadHold im p g m1
      { m with irq := { m.irq with last := mapPut m.irq.last (p, 0) g } }
    | none => m1
  if im.exact p then
    { m2 with irq := { m2.irq with prov := m2.irq.prov ++
        [⟨p, m.now, ((fastOf im p m).map (fun s => (1, s))) ++ (slow.map (fun s => (0, s))), g.map (fun g => (g, old))⟩] } }
  else commitMsgs im p (fastOf im p m) slow (m.now + 2) m2

theorem opCommit_eq : opCommit im p m =
    if m.irq.did.contains p then m else commitBy im p m (nextGroup m p ((slowOf im p m).map (grpOf im p m))) := rfl

variable {im p m}

theorem opCommit_again (h : m.irq.did.contains p = true) : opCommit im p m = m := if_pos h

theorem opCommit_nothing (hf : fastOf im p m = []) (hs : slowOf im p m = []) : opCommit im p m = m := by
  rw [opCommit_eq, hs, List.map_nil, nextGroup_nil]
  simp only [commitBy, hf, List.isEmpty_nil, Bool.and_self, if_true, ite_self]

/-- Fast sources alone: no group, no timer. -/
theorem opCommit_fast (hd : m.irq.did.contains p = false) (hf : fastOf im p m ≠ []) (hs : slowOf im p m = []) :
    opCommit im p m =
      (let m1 := (fastOf im p m).foldl (fun m s => commitSrc im p s m) (markDid p m)
      if im.exact p then { m1 with irq := { m1.irq with prov := m1.irq.prov ++ [⟨p, m.now, (fastOf im p m).map (fun s => (1, s)), none⟩] } }
      else commitMsgs im p (fastOf im p m) [] (m.now + 2) m1) := by
  have hne : (fastOf im p m).isEmpty = false := List.isEmpty_eq_false_iff.2 hf
  rw [opCommit_eq, hd, if_neg Bool.false_ne_true, hs, List.map_nil, nextGroup_nil]
  simp only [commitBy, hne, Bool.false_and, Bool.false_eq_true, if_false, List.append_nil, List.map_nil, Option.map_none]

/-- A group commits: its timer starts, and it is the one after which the next is looked for. -/
theorem opCommit_group {g : Nat} (hd : m.irq.did.contains p = false) (hg : nextGroup m p ((slowOf im p m).map (grpOf im p m)) = some g) :
    opCommit im p m =
      (let slow := groupOf im p m g
      let m1 := (fastOf im p m ++ slow).foldl (fun m s => commitSrc im p s m) (markDid p m)
      let m2 := loadHold im p g m1
      let m3 : M := { m2 with irq := { m2.irq with last := mapPut m2.irq.last (p, 0) g } }
      if im.exact p then { m3 with irq := { m3.irq with prov := m3.irq.prov ++
        [⟨p, m.now, ((fastOf im p m).map (fun s => (1, s))) ++ (slow.map (fun s => (0, s))), some (g, mapFind m1.irq.hold (p, g))⟩] } }
      else commitMsgs im p (fastOf im p m) slow (m.now + 2) m3) := by
  have hslow : (groupOf im p m g).isEmpty = false := by
    obtain ⟨src, hsrc, hgrp⟩ := List.mem_map.1 (nextGroup_mem hg)
    rw [List.isEmpty_eq_false_iff]
    exact List.ne_nil_of_mem (List.mem_filter.2 ⟨hsrc, beq_iff_eq.2 hgrp⟩)
  have hhold : mapFind m.irq.hold (p, g) =
      mapFind ((fastOf im p m ++ groupOf im p m g).foldl (fun m s => commitSrc im p s m) (markDid p m)).irq.hold (p, g) := by
    rw [foldl_commitSrc_hold]
    rfl
  rw [opCommit_eq, hd, if_neg Bool.false_ne_true, hg]
  simp only [commitBy, hslow, Bool.and_false, Bool.false_eq_true, if_false, hhold, Option.map_some]

end

/-! ### The re-check of EXACT (R338) -/

section
variable {im : Image} {p : Nat} {m : M} {c : ProvC}

/-- What a provisional commit leaves when its re-check is due: the sources kept and those cancelled. -/
def recheck (im : Image) (p : Nat) (c : ProvC) (keep drop : List (Nat × Nat)) (m : M) : M :=
  let m := drop.foldl (fun m s => setSrcBit im .pend p s.2 true (setSrcBit im .act p s.2 false m)) m
  let m := match c.group with
    | some (g, old) =>
      if !keep.isEmpty then m else
      { m with irq := { m.irq with hold :=
          match old with | some e => mapPut m.irq.hold (p, g) e | none => mapDel m.irq.hold (p, g) } }
    | none => m
  let m := { m with irq := { m.irq with prov := m.irq.prov.filter (fun d => d != c) } }
  commitMsgs im p ((keep.filter (fun s => s.1 == 1)).map (·.2)) ((keep.filter (fun s => s.1 == 0)).map (·.2)) (c.cyc + 8) m

theorem opCommitRecheck_eq (h : m.irq.prov.find? (fun c => c.part == p) = some c) : opCommitRecheck im p m =
    if m.now < c.cyc + 8 then m else recheck im p c (c.srcs.filter (provKept im { m with now := c.cyc + 8 } p))
      (c.srcs.filter (fun s => !(provKept im { m with now := c.cyc + 8 } p s))) m := by
  simp only [opCommitRecheck, h]
  rfl

end

namespace Machine

/-- Settles O28: the commit by what is eligible, and `commitSrc` bit by bit. -/
theorem commitMoves : Obligations.CommitMoves := by
  unfold Obligations.CommitMoves
  refine ⟨fun s p => ?_, fun im o src m ho => ?_⟩
  · intro im fast cand grp m0
    refine ⟨fun h => completes_of_upd rfl (opCommit_again h), fun hf hs => completes_of_upd rfl (opCommit_nothing hf hs),
      fun hd hf hs => ?_, fun g hd hg => ?_⟩
    · intro m1
      have hop := opCommit_fast hd hf hs
      exact ⟨fun he => completes_of_upd rfl (hop.trans (if_neg (Bool.eq_false_iff.1 he))),
        fun he => completes_of_upd rfl (hop.trans (if_pos he))⟩
    · intro slow m1 m2 m3
      have hop := opCommit_group hd hg
      exact ⟨fun he => completes_of_upd rfl (hop.trans (if_neg (Bool.eq_false_iff.1 he))),
        fun he => completes_of_upd rfl (hop.trans (if_pos he))⟩
  · intro t
    have hn : src % 64 < 64 := Nat.mod_lt _ (by decide)
    refine ⟨(commitSrc_pend im o src m hn).trans (if_pos rfl), (commitSrc_act im o src m hn).trans (if_pos rfl), fun G j hG => ?_,
      fun k hk b hb hne => ?_, rfl⟩
    · simp only [List.mem_cons, List.not_mem_nil, or_false, not_or] at hG
      exact commitSrc_fld im o src m hG.1 hG.2
    · rcases hk with rfl | rfl
      · exact (commitSrc_pend im o src m hb).trans (if_neg hne)
      · exact (commitSrc_act im o src m hb).trans (if_neg hne)

/-- One due mask write shows before its command and is folded in by it. -/
theorem effOf_due {m : M} {w : MaskW} (hq : m.irq.maskq = [w]) (hd : w.due ≤ m.now) (k : Key) :
    effOf m k = if w.key = k then w.val else mapGet (if k.1 = 1000 then 1 else 0) m.irq.eff k := by
  by_cases hk : w.key = k
  · simp [effOf, hq, hd, hk]
  · simp [effOf, hq, hk]

theorem effOf_early {m : M} {w : MaskW} (hq : m.irq.maskq = [w]) (hd : m.now < w.due) (k : Key) :
    effOf m k = mapGet (if k.1 = 1000 then 1 else 0) m.irq.eff k := by
  simp [effOf, hq, Nat.not_le.2 hd]

/-- Settles O29: the re-check by what its masks leave, and the queue of mask writes with its one entry due or not. -/
theorem recheckAndMasks : Obligations.RecheckAndMasks := by
  unfold Obligations.RecheckAndMasks
  refine ⟨fun s p c hc => ?_, fun s hreact => ⟨fun w hq hd => ?_, fun w hq hd => ?_, fun k v => rfl, fun o g e he hlt => ?_,
    fun o g e he hle => ?_⟩⟩
  · intro then8
    have hop := opCommitRecheck_eq (im := s.inForce) (p := p.val) hc
    refine ⟨fun h => completes_of_upd rfl (hop.trans (if_pos h)), fun h hall hgrp => ?_, fun src g h hs hg hk => ?_,
      fun kept src g old h hs hg hk1 hk0 => ?_⟩
    · refine completes_of_upd rfl (hop.trans ((if_neg (Nat.not_lt.2 h)).trans ?_))
      have hkeep : c.srcs.filter (provKept s.inForce then8 p.val) = c.srcs := List.filter_eq_self.2 (List.all_eq_true.1 hall)
      have hdrop : c.srcs.filter (fun x => !(provKept s.inForce then8 p.val x)) = [] :=
        List.filter_eq_nil_iff.2 fun x hx => by simp [List.all_eq_true.1 hall x hx]
      rw [hkeep, hdrop, recheck]
      rcases hgrp with hnone | hne
      · rw [hnone]
        rfl
      · simp only [List.isEmpty_eq_false_iff.2 hne]
        cases c.group <;> rfl
    · refine completes_of_upd rfl (hop.trans ((if_neg (Nat.not_lt.2 h)).trans ?_))
      have hkeep : c.srcs.filter (provKept s.inForce then8 p.val) = [] := by simp [hs, hk]
      have hdrop : c.srcs.filter (fun x => !(provKept s.inForce then8 p.val x)) = [(0, src)] := by simp [hs, hk]
      rw [hkeep, hdrop, recheck, hg]
      rfl
    · refine completes_of_upd rfl (hop.trans ((if_neg (Nat.not_lt.2 h)).trans ?_))
      have hkeep : c.srcs.filter (provKept s.inForce then8 p.val) = [(1, kept)] := by simp [hs, hk1, hk0]
      have hdrop : c.srcs.filter (fun x => !(provKept s.inForce then8 p.val x)) = [(0, src)] := by simp [hs, hk1, hk0]
      rw [hkeep, hdrop, recheck, hg]
      rfl
  · have hm : opMaskEffect s.m = { s.m with irq := { s.m.irq with eff := mapPut s.m.irq.eff w.key w.val, maskq := [] } } := by
      simp [opMaskEffect, masksDue, hq, hd]
    refine ⟨(effOf_due hq hd _).trans (if_pos rfl), _, Completes.next (completes_of_upd rfl hm) hreact, rfl, fun k => ?_, rfl⟩
    rw [effOf_due hq hd]
    change mapGet _ (mapPut s.m.irq.eff w.key w.val) k = _
    by_cases hk : w.key = k
    · rw [if_pos hk, ← hk, mapGet_put_same]
    · rw [if_neg hk, mapGet_put_ne _ _ _ (Ne.symm hk)]
  · have hm : opMaskEffect s.m = s.m := by
      simp only [opMaskEffect, masksDue, hq, List.filter_cons, List.filter_nil, decide_eq_false (Nat.not_le.2 hd), decide_eq_true hd,
        Bool.false_eq_true, if_false, if_true, List.foldl_nil]
      rw [← hq]
    exact ⟨Completes.next (completes_of_upd rfl hm) hreact, effOf_early hq hd _⟩
  · exact completes_of_upd rfl (by simp only [opHoldoffExpiry, he, if_pos hlt])
  · exact Completes.next (completes_of_upd rfl (by simp only [opHoldoffExpiry, he, if_neg (Nat.not_lt.2 hle)])) hreact

end Machine

end Sys2Proof
end

section
/-! PROOFS. The bounds of the mailbox FIFOs (14, R344, R346). -/

namespace Sys2Proof

namespace Machine

/-! ### One FIFO -/

section
variable {x : Mbx}

theorem mbxOk_empty : MbxOk ⟨[], none⟩ := by
  refine ⟨by simp, by simp, by simp, fun n l h => by simp at h⟩

/-- Without the open item the bounds hold the more. -/
theorem MbxOk.closed (h : MbxOk x) : MbxOk ⟨x.items, none⟩ := by
  obtain ⟨hc, hw, hi, -⟩ := h
  refine ⟨?_, ?_, hi, fun n l e => by simp at e⟩
  · rw [Mbx.count] at hc
    rw [Mbx.count_closed]
    omega
  · rw [Mbx.words] at hw
    rw [Mbx.words_closed]
    omega

/-- A header with room opens an item, or makes one of a single word. -/
theorem MbxOk.putHead (h : MbxOk x) {w : Nat} (hroom : x.items.length < 64)
    (hw : (x.items.map List.length).sum + (w / 256 % 8 + 1) ≤ 512) : MbxOk (x.putHead w) := by
  obtain ⟨-, -, hi, -⟩ := h
  unfold Mbx.putHead
  split
  next h1 =>
    refine ⟨by simp; omega, by simp; omega, fun l hl => ?_, fun n l e => by simp at e⟩
    rcases List.mem_append.1 hl with hl | hl
    · exact hi l hl
    · rw [List.mem_singleton.1 hl]
      simp
  next h1 =>
    refine ⟨by simp [Mbx.count]; omega, by simpa [Mbx.words] using hw, hi, fun n l e => ?_⟩
    simp only [Option.some.injEq, Prod.mk.injEq] at e
    obtain ⟨rfl, rfl⟩ := e
    have : w / 256 % 8 < 8 := Nat.mod_lt _ (by decide)
    simp only [List.length_singleton]
    omega

/-- A payload word joins the open item, which is complete with its last word. -/
theorem MbxOk.putData (h : MbxOk x) {n w : Nat} {l : List Nat} (ho : x.opened = some (n, l)) :
    MbxOk (if l.length + 1 = n then ⟨x.items ++ [l ++ [w]], none⟩ else ⟨x.items, some (n, l ++ [w])⟩) := by
  obtain ⟨hc, hw, hi, hop⟩ := h
  obtain ⟨h2, h8, h1, hlt⟩ := hop n l ho
  simp only [Mbx.count, ho, Option.isSome_some, if_true] at hc
  simp only [Mbx.words, ho] at hw
  split
  next hfull =>
    refine ⟨by simp; omega, by simp; omega, fun k hk => ?_, fun a b e => by simp at e⟩
    rcases List.mem_append.1 hk with hk | hk
    · exact hi k hk
    · rw [List.mem_singleton.1 hk, List.length_append, List.length_singleton]
      omega
  next hshort =>
    refine ⟨by simpa [Mbx.count] using hc, by simpa [Mbx.words] using hw, hi, fun a b e => ?_⟩
    simp only [Option.some.injEq, Prod.mk.injEq] at e
    obtain ⟨rfl, rfl⟩ := e
    rw [List.length_append, List.length_singleton]
    omega

/-- A read takes the first word of the oldest item, and the item with its last word. -/
theorem MbxOk.pop (h : MbxOk x) : MbxOk x.pop.2 := by
  obtain ⟨hc, hw, hi, hop⟩ := h
  cases hx : x.items with
  | nil =>
    rw [Mbx.pop_of_empty hx]
    exact ⟨hc, hw, hi, hop⟩
  | cons a u =>
    rw [hx] at hi
    simp only [Mbx.count, hx, List.length_cons] at hc
    simp only [Mbx.words, hx, List.map_cons, List.sum_cons] at hw
    cases a with
    | nil => exact absurd (hi [] (List.mem_cons_self ..)).1 (by decide)
    | cons y l =>
      obtain ⟨hpos, h8⟩ := hi (y :: l) (List.mem_cons_self ..)
      rw [List.length_cons] at hw h8
      rw [Mbx.pop_of_cons hx]
      refine ⟨?_, ?_, fun k hk => ?_, hop⟩
      · have hlen : (if l = [] then u else l :: u).length ≤ u.length + 1 := by split <;> simp
        simp only [Mbx.count]
        omega
      · have hsum : ((if l = [] then u else l :: u).map List.length).sum ≤ l.length + (u.map List.length).sum := by
          split <;> simp
        simp only [Mbx.words]
        omega
      · simp only at hk
        split at hk
        next => exact hi k (List.mem_cons_of_mem _ hk)
        next hne =>
          rcases List.mem_cons.1 hk with rfl | hk
          · have : 0 < k.length := List.length_pos_of_ne_nil hne
            omega
          · exact hi k (List.mem_cons_of_mem _ hk)

end

/-! ### Every FIFO -/

/-- No reaction waits, and every FIFO is within its bounds. -/
def FifosOk (m : M) : Prop := m.react = [] ∧ ∀ p d, MbxOk (m.mbxOf p d)

section
variable {m n : M}

theorem FifosOk.congr (h : FifosOk m) (hr : n.react = m.react) (hm : n.mbx = m.mbx) : FifosOk n :=
  ⟨hr.trans h.1, fun p d => by rw [M.mbxOf, hm]; exact h.2 p d⟩

theorem FifosOk.set (h : FifosOk m) {p d : Nat} {x : Mbx} (hx : MbxOk x) : FifosOk (m.setMbx p d x) := by
  refine ⟨h.1, fun q e => ?_⟩
  by_cases hk : (q, e) = (p, d)
  · obtain ⟨rfl, rfl⟩ := Prod.mk.inj hk
    rw [M.mbxOf_setMbx]
    exact hx
  · rw [M.mbxOf, M.setMbx, mapGet_put_ne _ _ _ hk]
    exact h.2 q e

theorem FifosOk.sync (h : FifosOk m) (im : Image) (p : Nat) : FifosOk (mbxSync im p m) := by
  obtain ⟨_, _, _, _, _, e⟩ := mbxSync_moved im p m
  rw [e]
  exact h.congr rfl rfl

theorem FifosOk.touch (h : FifosOk m) (im : Image) (a : Access) : FifosOk (touchRow im a m) := by
  rw [touchRow_frame]
  exact h.congr rfl rfl

theorem FifosOk.torn (h : FifosOk m) (e : Side) (p : Nat) : FifosOk (countTorn e p m) := by
  unfold countTorn
  split
  · exact h
  · exact h.congr rfl rfl

variable (im : Image) (e : Side) (p : Nat)

theorem FifosOk.txHead (h : FifosOk m) (w : Nat) : FifosOk (opTxHead im e p w m) := by
  by_cases hp : im.enabled p = true
  · rw [opTxHead_eq hp]
    split
    · refine FifosOk.sync ?_ im p
      exact ((h.torn e p).set (h.2 p (txFifo e)).closed).congr rfl rfl
    next hroom => exact ((h.torn e p).set ((h.2 p (txFifo e)).putHead (by omega) (by omega))).sync im p
  · rw [opTxHead, if_pos (Bool.eq_false_of_not_eq_true hp)]
    exact h

theorem FifosOk.txData (h : FifosOk m) {w : Nat} (hw : w < 2 ^ 64) : FifosOk (opTxData im e p w m) := by
  by_cases hp : im.enabled p = true
  · cases ho : (m.mbxOf p (txFifo e)).opened with
    | none =>
      rw [opTxData_of_closed hp e m w ho]
      exact h.congr rfl rfl
    | some y =>
      rw [opTxData_of_open hp e m hw ho]
      exact (h.set ((h.2 p (txFifo e)).putData ho)).sync im p
  · rw [opTxData, if_pos (Bool.eq_false_of_not_eq_true hp)]
    exact h

theorem FifosOk.rx (h : FifosOk m) (n off : Nat) : FifosOk (opMbxRx im e p n off m) := by
  by_cases hp : im.enabled p = true
  · by_cases ha : n = 8 ∧ off = 0
    · obtain ⟨rfl, rfl⟩ := ha
      rw [opMbxRx_aligned hp e m (y := _) (x := _) rfl]
      exact FifosOk.congr ((h.set (h.2 p (rxFifo e)).pop).sync im p) rfl rfl
    · rw [opMbxRx_other hp e m (by omega), setRsvd_frame]
      exact h.congr rfl rfl
  · simp only [opMbxRx, Bool.eq_false_of_not_eq_true hp, if_true]
    exact h.congr rfl rfl

theorem FifosOk.flushTx (h : FifosOk m) : FifosOk (opFlushTx im e p m) := by
  unfold opFlushTx
  split
  · exact (h.set mbxOk_empty).sync im p
  · exact h

theorem FifosOk.flushRx (h : FifosOk m) : FifosOk (opFlushRx im e p m) := by
  unfold opFlushRx
  split
  · exact (h.set mbxOk_empty).sync im p
  · exact h

/-- A row keeps the bounds when its operation does: held or not taken it changes no FIFO. -/
theorem FifosOk.row (h : FifosOk m) {a : Access} (hrun : ∀ n, FifosOk n → FifosOk (runRow im a n)) : FifosOk (opRow im a m) := by
  unfold opRow holdRow
  split
  · split
    · exact (h.touch im a).congr rfl rfl
    · exact hrun _ (h.touch im a)
  · exact h.touch im a

theorem FifosOk.rowRead (h : FifosOk m) {a : Access} (v : View) (off : Nat) (hrun : ∀ n, FifosOk n → FifosOk (runRow im a n)) :
    FifosOk (opRowRead im a v off m) := by
  unfold opRowRead holdRow
  split
  · split
    · exact (h.touch im a).congr rfl rfl
    · exact hrun _ (h.touch im a)
  · exact (h.touch im a).congr rfl rfl

end

/-- A command whose operation keeps the bounds leaves them. -/
theorem fifosOk_of_exec {s t : State} {c : Instr} {f : Image → M → M} (hc : exec c s = .next (s.upd f))
    (hf : FifosOk (f s.inForce s.m)) (h : exec c s = .next t) : ∀ p d, MbxOk (t.m.mbxOf p d) := by
  have ht : t = s.upd f := Host.Outcome.next.inj (h.symm.trans hc)
  rw [ht, State.upd, settle_calm _ _ hf.1]
  exact hf.2

/-- Settles O32: `FifosOk` through the row of each mailbox command. -/
theorem mailboxesStayBounded : Obligations.MailboxesStayBounded := by
  unfold Obligations.MailboxesStayBounded
  intro s t c hreact hok hmbx hexec
  have h : FifosOk s.m := ⟨hreact, hok⟩
  cases c with
  | mbxTxHead e p w => exact fifosOk_of_exec rfl (h.row s.inForce (a := .mbxTxHead e p w) fun n hn => hn.txHead s.inForce e p.val w.toNat) hexec
  | mbxTxData e p w => exact fifosOk_of_exec rfl (h.row s.inForce (a := .mbxTxData e p w) fun n hn => hn.txData s.inForce e p.val w.isLt) hexec
  | mbxRx e p n off => exact fifosOk_of_exec rfl (h.rowRead s.inForce (a := .mbxRx e p n off) _ _
      fun m hm => hm.rx s.inForce e p.val n off) hexec
  | flushTx e p => exact fifosOk_of_exec rfl (h.row s.inForce (a := .flushTx e p) fun n hn => hn.flushTx s.inForce e p.val) hexec
  | flushRx e p => exact fifosOk_of_exec rfl (h.row s.inForce (a := .flushRx e p) fun n hn => hn.flushRx s.inForce e p.val) hexec
  | _ => exact hmbx.elim

end Machine

end Sys2Proof
end

section
/-! PROOFS. Interface timeouts of a load that is held (R365, R380) and temperatures (R364, R367, R401, R404). -/

namespace Sys2Proof

/-! ### Signed words and the readings -/

/-- The signed value of a 16-bit word is that of its bits. -/
theorem sval_toNat (t : BitVec 16) : sval 16 t.toNat = t.toInt := by
  have hb : bitsAt t.toNat 0 16 = t.toNat := by rw [bitsAt_zero, Nat.mod_eq_of_lt t.isLt]
  have hs : bitAt t.toNat 15 = t.msb := by
    rw [BitVec.msb_eq_getLsbD_last, bitAt, BitVec.getLsbD]
  rw [sval, hs, hb, BitVec.toInt_eq_msb_cond]

/-- The readings have a register field each. -/
theorem tempFld_inj {j k : Nat} (hq : j / 4 = k / 4) (h : tempFld j = tempFld k) : j = k := by
  have hmod : ∀ n, tempFld (n % 4) = tempFld n := by simp [tempFld]
  have hfour : ∀ a < 4, ∀ b < 4, tempFld a = tempFld b → a = b := by decide
  have := hfour (j % 4) (Nat.mod_lt j (by decide)) (k % 4) (Nat.mod_lt k (by decide)) (by rw [hmod, hmod, h])
  omega

theorem tempFld_width (k : Nat) : (fldSpec (tempFld k)).w = 16 := by
  have hmod : tempFld (k % 4) = tempFld k := by simp [tempFld]
  have hfour : ∀ a < 4, (fldSpec (tempFld a)).w = 16 := by decide
  rw [← hmod, hfour _ (Nat.mod_lt k (by decide))]

/-- A reading is none of the fields of the thermal block's summary. -/
theorem tempFld_ne_therm (k : Nat) : tempFld k ≠ .PWR_THERM_VALID ∧ tempFld k ≠ .PWR_THERM_MAX ∧
    tempFld k ≠ .PWR_THERM_MAX_SENSOR ∧ tempFld k ≠ .PWR_THERM_PEAK := by
  have hmod : tempFld (k % 4) = tempFld k := by simp [tempFld]
  have hfour : ∀ a < 4, tempFld a ≠ .PWR_THERM_VALID ∧ tempFld a ≠ .PWR_THERM_MAX ∧
    tempFld a ≠ .PWR_THERM_MAX_SENSOR ∧ tempFld a ≠ .PWR_THERM_PEAK := by decide
  exact hmod ▸ hfour _ (Nat.mod_lt k (by decide))

/-- The search keeps the first sensor or takes one of the list, and none of them reads higher. -/
theorem foldl_hottest (f : Nat → Int) (l : List Nat) (b : Nat) :
    l.foldl (fun b s => if f b < f s then s else b) b ∈ b :: l ∧
    ∀ x ∈ b :: l, f x ≤ f (l.foldl (fun b s => if f b < f s then s else b) b) := by
  induction l generalizing b with
  | nil => simp
  | cons a l ih =>
    obtain ⟨hmem, hmax⟩ := ih (if f b < f a then a else b)
    refine ⟨?_, fun x hx => ?_⟩
    · rw [List.foldl_cons]
      rcases List.mem_cons.mp hmem with h | h
      · rw [h]
        split <;> simp
      · exact List.mem_cons_of_mem _ (List.mem_cons_of_mem _ h)
    · have hhead := hmax _ List.mem_cons_self
      have htail : ∀ y ∈ l, f y ≤ _ := fun y hy => hmax y (List.mem_cons_of_mem _ hy)
      rw [List.foldl_cons]
      rcases List.mem_cons.mp hx with rfl | hx
      · refine le_trans ?_ hhead
        split <;> omega
      rcases List.mem_cons.mp hx with rfl | hx
      · refine le_trans ?_ hhead
        split <;> omega
      · exact htail x hx

/-- The hottest sensor is one of the sixteen, and none reads higher. -/
theorem hottest_spec (m : M) : hottest m < 16 ∧ ∀ k, k < 16 → tempOf m k ≤ tempOf m (hottest m) := by
  obtain ⟨hmem, hmax⟩ := foldl_hottest (tempOf m) (List.range 16) 0
  refine ⟨?_, fun k hk => hmax k (List.mem_cons_of_mem _ (List.mem_range.mpr hk))⟩
  rcases List.mem_cons.mp hmem with h | h
  · exact lt_of_eq_of_lt h (by decide)
  · exact List.mem_range.mp h

/-- MAX names the hottest sensor's reading and MAX_SENSOR the sensor. -/
theorem syncTherm_max (m : M) (h : ∀ k, k < 16 → m.fld (tempFld k) (k / 4) < 2 ^ 16) :
    (syncTherm m).fld .PWR_THERM_MAX_SENSOR 0 = hottest m ∧
    (syncTherm m).fld .PWR_THERM_MAX 0 = m.fld (tempFld (hottest m)) (hottest m / 4) := by
  have hj := (hottest_spec m).1
  have hs : ∀ m1 : M, ∀ v, (m1.setFld .PWR_THERM_PEAK 0 v).fld .PWR_THERM_MAX_SENSOR 0 = m1.fld .PWR_THERM_MAX_SENSOR 0 ∧
      (m1.setFld .PWR_THERM_PEAK 0 v).fld .PWR_THERM_MAX 0 = m1.fld .PWR_THERM_MAX 0 := fun m1 v =>
    ⟨M.fld_setFld_ne m1 v (by decide), M.fld_setFld_ne m1 v (by decide)⟩
  have h1 : ∀ m1 : M, (m1.setFld .PWR_THERM_MAX_SENSOR 0 (hottest m)).fld .PWR_THERM_MAX_SENSOR 0 = hottest m := fun m1 => by
    rw [M.fld_setFld_same]
    exact Nat.mod_eq_of_lt (lt_of_lt_of_le hj (by decide))
  have h2 : ((m.setFld .PWR_THERM_MAX 0 (m.fld (tempFld (hottest m)) (hottest m / 4))).setFld .PWR_THERM_MAX_SENSOR 0
      (hottest m)).fld .PWR_THERM_MAX 0 = m.fld (tempFld (hottest m)) (hottest m / 4) := by
    rw [M.fld_setFld_ne _ _ (by decide), M.fld_setFld_same]
    exact Nat.mod_eq_of_lt (h _ hj)
  rw [syncTherm]
  split
  · exact ⟨(hs _ _).1.trans (h1 _), (hs _ _).2.trans h2⟩
  · exact ⟨h1 _, h2⟩

/-- The readings a set of sensors shows reach their fields. -/
theorem foldl_temps_fld (l : List (BitVec 16)) (n : Nat) (m : M) :
    ∀ k (h : k < l.length), ((l.zipIdx n).foldl (fun m e => m.setFld (tempFld e.2) (e.2 / 4) e.1.toNat) m).fld
      (tempFld (n + k)) ((n + k) / 4) = l[k].toNat := by
  induction l using List.reverseRecOn with
  | nil => intro k h; exact absurd h (by simp)
  | append_singleton l a ih =>
    intro k h
    rw [List.zipIdx_append, List.foldl_append]
    simp only [List.zipIdx_cons, List.zipIdx_nil, List.foldl_cons, List.foldl_nil]
    by_cases hk : k = l.length
    · subst hk
      rw [M.fld_setFld_same, tempFld_width, Nat.mod_eq_of_lt a.isLt]
      simp
    · have hlt : k < l.length := by simp at h; omega
      rw [M.fld_setFld_ne, ih k hlt, List.getElem_append_left hlt]
      rintro ⟨hf, hq⟩
      have := tempFld_inj hq hf
      omega

namespace Machine

/-! ### O36: a load that a block reset holds has no answer of its own (R380) -/

/-- Core 0 waits for a register load that a block reset holds, while the note of an older load's request has run out. -/
def heldLoadState : State :=
  let k := M.reset.cpu (wng 0)
  { State.reset with m := { M.reset.setCpu (wng 0) { k with wait := .load ⟨1, 8, false, 3, 0⟩ } with
      now := 131072, asks := [((0, 512), (0, 3))], held := [.coreLoad 0 1 8 0 false .ok] } }

theorem heldLoadState_waits : (heldLoadState.m.cpu (wng 0)).wait = .load ⟨1, 8, false, 3, 0⟩ ∧
    (heldLoadState.m.cpu (wng 0)).loadDrop = 0 ∧ loadAtHost heldLoadState.m (.core 0) = false ∧
    overdue heldLoadState.m (0, (Proc.core 0).num) = true := by decide +kernel

/-- The command leaves the core waiting. -/
theorem heldLoad_stays : ∀ u, exec (.interfaceTimeout (.load (.core 0))) heldLoadState = .next u →
    (u.m.cpu (wng 0)).wait = .load ⟨1, 8, false, 3, 0⟩ := by
  intro u h
  rw [show u = heldLoadState.upd (fun im m => opInterfaceTimeout im (.load (.core 0)) m) from (Host.Outcome.next.inj h).symm]
  decide +kernel

/-- An answer would end the wait. -/
theorem heldLoad_answered : ((settle heldLoadState.inForce reactRounds (loadAns heldLoadState.inForce (.core 0) .fabric
    (ifaceFault heldLoadState.inForce 4 72 heldLoadState.m))).cpu (wng 0)).wait = .none := by decide +kernel

/-- Refutes O36: a core's load that a block reset holds is answered when that reset is over (R380), so an interface timeout
noted for an older request of the core does nothing, where the statement has the held load answered with a bus error. -/
theorem not_interfaceTimeouts : ¬ Obligations.InterfaceTimeouts := by
  unfold Obligations.InterfaceTimeouts
  intro h
  obtain ⟨-, -, -, -, -, hcore, -⟩ := h heldLoadState
  obtain ⟨hwait, hdrop, hhost, hdue⟩ := heldLoadState_waits
  have hend := hcore 0 _ hwait hdrop hhost hdue
  have hstay := heldLoad_stays _ hend
  rw [heldLoad_answered] at hstay
  exact absurd hstay (by decide)

/-! ### Temperatures -/

/-- Before the readings are valid a sensor's reading stays its own. -/
theorem noteTemp_invalid {m : M} (s t : Nat) (h : m.flag .PWR_THERM_VALID 0 = false) : noteTemp s t m = m := by
  rw [noteTemp, h]; rfl

theorem noteTemp_valid {m : M} (s t : Nat) (h : m.flag .PWR_THERM_VALID 0 = true) :
    noteTemp s t m = syncTherm (m.setFld (tempFld s) (s / 4) t) := by
  rw [noteTemp, if_pos h]

theorem syncTherm_pins (m : M) : (syncTherm m).pins = m.pins := by
  rw [syncTherm]
  split <;> rfl

/-- A reading at 105 °C or more warns while a warning is armed, and is only noted otherwise (R404). -/
theorem opThermalWarning_eq (im : Image) (s t : Nat) {m : M} (ht : ¬ sval 16 t < 1680) (hp : m.boot.phase ≠ .porst) :
    opThermalWarning im s t m =
      (if (noteTemp s t m).pins.warnArmed then fire im 0x002 (tempInfo s t)
        { (noteTemp s t m).setFlag .PWR_THERM_WARN 0 true with
          pins := { (noteTemp s t m).pins with warnArmed := false } } else noteTemp s t m) := by
  rw [opThermalWarning, if_neg (by tauto)]

/-- The first reading at 120 °C or more trips (R367). -/
theorem opThermalTrip_eq (im : Image) (s t : Nat) {m : M} (ht : ¬ sval 16 t < 1872) (hp : m.boot.phase ≠ .porst)
    (hn : m.pins.thermTrip = false) :
    opThermalTrip im s t m = fire im 0x003 (tempInfo s t) ((noteTemp s t
      (({ m with pins := { m.pins with thermTrip := true } } : M).emit (.pin .thermtripN false))).setFlag .PWR_THERM_TRIP 0
        true) := by
  have hp' : (({ m with pins := { m.pins with thermTrip := true } } : M).emit (.pin .thermtripN false)).boot.phase ≠
    .porst := hp
  rw [opThermalTrip, if_neg (by simp [ht, hn]), if_neg hp']

/-- Settles O37: each command unfolds to its branch, and the fields are read back. -/
theorem temperatures : Obligations.Temperatures := by
  intro s hp
  have hlow : ∀ {t : BitVec 16} {n : Int}, n ≤ t.toInt → ¬ sval 16 t.toNat < n := fun h => by
    rw [sval_toNat]; omega
  refine ⟨?_, ?_, ?_, ?_, ?_, ?_, ?_, ?_, ?_⟩
  · intro k t ht harm hv
    refine completes_of_upd rfl ?_
    rw [opThermalWarning_eq _ _ _ (hlow (n := 1680) (by omega)) hp, noteTemp_invalid _ _ hv, if_pos harm]
  · intro k t harm hv
    refine completes_of_upd rfl ?_
    by_cases ht : sval 16 t.toNat < 1680
    · rw [opThermalWarning, if_pos (Or.inl ht)]
    · rw [opThermalWarning_eq _ _ _ ht hp, noteTemp_invalid _ _ hv, if_neg (by simp [harm])]
  · intro k t ht htrip hv m
    refine completes_of_upd rfl ?_
    rw [opThermalTrip_eq _ _ _ (hlow (n := 1872) (by omega)) hp htrip]
    exact congrArg (fun m1 => fire s.inForce 0x003 (tempInfo k.val t.toNat) (M.setFlag m1 .PWR_THERM_TRIP 0 true))
      (noteTemp_invalid _ _ (m := m) hv)
  · intro k t hv m
    have hpins : m.pins = s.m.pins := syncTherm_pins _
    refine ⟨fun ht harm => completes_of_upd rfl ?_, fun ht harm => completes_of_upd rfl ?_⟩
    · rw [opThermalWarning_eq _ _ _ (hlow (n := 1680) (by omega)) hp, noteTemp_valid _ _ hv,
        if_pos (show m.pins.warnArmed = true by rw [hpins, harm])]
    · rw [opThermalWarning_eq _ _ _ (hlow (n := 1680) (by omega)) hp, noteTemp_valid _ _ hv,
        if_neg (show ¬ m.pins.warnArmed = true by rw [hpins, harm]; decide)]
  · intro k t ht htrip hv m
    refine completes_of_upd rfl ?_
    rw [opThermalTrip_eq _ _ _ (hlow (n := 1872) (by omega)) hp htrip]
    exact congrArg (fun m1 => fire s.inForce 0x003 (tempInfo k.val t.toNat) (M.setFlag m1 .PWR_THERM_TRIP 0 true))
      (noteTemp_valid _ _ (m := m) hv)
  · intro k t htrip
    refine completes_of_upd rfl ?_
    rw [opThermalTrip, if_pos (Or.inr htrip)]
  · intro m h t j
    obtain ⟨hs, hmax⟩ := syncTherm_max m h
    obtain ⟨hlt, hle⟩ := hottest_spec m
    have hj : j = hottest m := hs
    refine ⟨hj ▸ hlt, hj ▸ hmax, fun k hk => ?_⟩
    rw [show t.fld .PWR_THERM_MAX 0 = _ from hmax]
    exact hle k hk
  · intro t ht
    refine completes_of_upd rfl ?_
    rw [opThermalRearm, if_pos (by rw [sval_toNat]; exact ht)]
  · intro ts hts hnow
    refine ⟨_, completes_of_upd rfl (show opSensorsValid ts s.m = _ by
      rw [opSensorsValid, if_neg (not_or.mpr ⟨hp, by rw [msSc]; omega⟩)]), fun k h => ?_⟩
    rw [List.take_of_length_le (by omega)]
    have hk := foldl_temps_fld ts 0 s.m k h
    rwa [Nat.zero_add] at hk

end Machine
end Sys2Proof
end

section
/-! PROOFS. Management: the I3C target (R275, R395, R400) and JTAG (R276 to R278, R300, R402). -/

namespace Sys2Proof

namespace Machine

/-! ### The I3C target -/

theorem i3cLive_iff (m : M) : i3cLive m = true ↔ m.boot.phase ≠ .porst ∧ m.boot.porAt + 2000000 ≤ m.now := by
  rw [i3cLive, decide_eq_true_iff, msSc]

theorem i3cOn_dead {m : M} (run : M → M) (h : i3cLive m = false) : i3cOn run m = m := by
  rw [i3cOn, h]; rfl

theorem i3cOn_live {m : M} (run : M → M) (h : i3cLive m = true) : i3cOn run m = run m := by
  rw [i3cOn, if_pos h]

theorem i3cCcc_none {m : M} (d : List Byte) (h : m.mgt.i3cAddr = none) : i3cCcc d m = m := by
  rw [i3cCcc, i3cOn]
  split <;> simp [h]

theorem i3cCcc_some {m : M} (d : List Byte) (hl : i3cLive m = true) (h : m.mgt.i3cAddr ≠ none) :
    i3cCcc d m = m.emit (.i3c d) := by
  rw [i3cCcc, i3cOn_live _ hl, if_pos (Option.isSome_iff_ne_none.mpr h), i3cOut]

theorem opEntdaa_none {m : M} (a : Nat) (hl : i3cLive m = true) (h : m.mgt.i3cAddr = none) :
    opEntdaa a m = { m with mgt := { m.mgt with i3cAddr := some a } } := by
  rw [opEntdaa, i3cOn_live _ hl, h]; rfl

theorem opEntdaa_some {m : M} (a : Nat) (h : m.mgt.i3cAddr ≠ none) : opEntdaa a m = m := by
  rw [opEntdaa, i3cOn]
  split <;> simp [Option.isSome_iff_ne_none.mpr h]

/-- What the target reads at an offset of a register. -/
theorem i3cReg_at {m : M} {off k : Nat} {row : MapRow} (h : regAt .owner off = some (row, k)) :
    i3cReg m off = if telemetry row.reg = true then regVal m row.reg k else 0 := by
  rw [i3cReg, h]

/-- A private read of eight bytes gives the register at the offset and moves the offset past it. -/
theorem opI3cRead_eight {m : M} (hl : i3cLive m = true) (ho : m.mgt.i3cOff < 2 ^ 32) :
    opI3cRead 8 m = ({ m with mgt := { m.mgt with i3cOff := (m.mgt.i3cOff + 8) % 2 ^ 32 } } : M).emit
      (.i3c (leBytes 8 (i3cReg m m.mgt.i3cOff))) := by
  have hlen : (leBytes 8 (i3cReg m m.mgt.i3cOff)).length = 8 := leBytes_length _ _
  rw [opI3cRead, i3cOn_live _ hl]
  have hrange : List.range ((8 + 7) / 8) = [0] := rfl
  rw [hrange]
  simp only [List.map_cons, List.map_nil, List.flatten_cons, List.flatten_nil, Nat.mul_zero, Nat.add_zero,
    Nat.mod_eq_of_lt ho, List.append_nil, i3cOut]
  rw [List.take_of_length_le (by omega)]

/-- Settles O54: every command acts on a live target alone, and each is one branch of its operation. -/
theorem managementBus : Obligations.ManagementBus := by
  intro s addr live
  refine ⟨fun hdead a b x n => ?_, fun hon => ?_⟩
  · have hl : i3cLive s.m = false := Bool.eq_false_iff.mpr (fun e => hdead ((i3cLive_iff _).mp e))
    have hnone : ∀ run : M → M, i3cOn run s.m = s.m := fun run => i3cOn_dead run hl
    simp only [List.forall_mem_cons]
    refine ⟨completes_of_upd rfl (hnone _), completes_of_upd rfl ?_, completes_of_upd rfl (hnone _),
      completes_of_upd rfl (hnone _), completes_of_upd rfl (hnone _), completes_of_upd rfl (hnone _),
      completes_of_upd rfl (hnone _), completes_of_upd rfl (hnone _), completes_of_upd rfl (hnone _), by simp⟩
    rw [opSetdasa]
    split
    · exact hnone _
    · rfl
  · have hl : i3cLive s.m = true := (i3cLive_iff _).mpr hon
    refine ⟨fun a h => ⟨completes_of_upd rfl (opEntdaa_none _ hl h), completes_of_upd rfl ?_⟩,
      fun a b h => ⟨completes_of_upd rfl (opEntdaa_some _ h), completes_of_upd rfl ?_⟩,
      fun a b h => completes_of_upd rfl ?_, completes_of_upd rfl (i3cOn_live _ hl),
      fun h => ⟨completes_of_upd rfl (i3cCcc_none _ h), completes_of_upd rfl (i3cCcc_none _ h),
        completes_of_upd rfl (i3cCcc_none _ h)⟩,
      fun h => ⟨completes_of_upd rfl (i3cCcc_some _ hl h), completes_of_upd rfl (i3cCcc_some _ hl h),
        completes_of_upd rfl ?_, leBytes 2 (Config.i3cStatus s.m.fresh).toNat, leBytes_length _ _,
        completes_of_upd rfl ?_⟩,
      fun b hb h8 => completes_of_upd rfl ?_, fun b hb => completes_of_upd rfl ?_, fun row k hat ho => completes_of_upd rfl ?_⟩
    · rw [opSetdasa, if_pos (by rfl), opEntdaa_none _ hl h]
    · rw [opSetdasa]
      split
      · exact opEntdaa_some _ h
      · rfl
    · refine if_neg (fun e => h ?_)
      exact BitVec.eq_of_toNat_eq e
    · rw [opGetpid, i3cCcc_some _ hl h, i3cPid, bitsAt_zero, serialNat]
    · rw [opGetstatus, i3cOn_live _ hl]
      exact i3cCcc_some _ hl h
    · rw [opI3cOffset, i3cOn_live _ hl, if_pos ⟨hb, h8⟩]
    · rw [opI3cOffset, i3cOn_live _ hl, if_neg (fun e => hb e.1)]
    · rw [opI3cRead_eight hl ho, i3cReg_at hat]

/-! ### JTAG -/

theorem tap_released {m : M} (run : M → M) (h : m.boot.phase ≠ .porst) : tap run m = run m := if_neg h

/-- An instruction whose condition does not hold selects BYPASS. -/
theorem jtagIf_closed {m : M} {ok : Bool} (run : M → M) (hok : ok = false) (h : m.boot.phase ≠ .porst) :
    jtagIf ok run m = jtagOut 0xFF [0] { m with mgt := { m.mgt with byp := false } } := by
  rw [jtagIf, hok, if_neg (by decide)]
  exact tap_released _ h

theorem jtagIf_open {m : M} {ok : Bool} (run : M → M) (hok : ok = true) (h : m.boot.phase ≠ .porst) :
    jtagIf ok run m = run m := by
  rw [jtagIf, if_pos hok, tap_released _ h]

/-- The register named by a number from 1 to 31 is the processor's. -/
theorem dbgReg_low (k : Cpu) {r : Nat} (h1 : 1 ≤ r) (h2 : r < 32) : dbgReg k r = (mapGet 0 k.regs (0, r)).toNat := by
  rw [dbgReg, if_neg (by omega), if_neg (by omega)]

theorem opRegWr_low {m : M} (c : Nat) {r : Nat} (d : Word) (h1 : 1 ≤ r) (h2 : r < 32) (hs : scopeOk m 1 = true)
    (hp : m.boot.phase ≠ .porst) : opRegWr c r d m =
      wdbgOut c 0 (m.setCpu (wng c) { m.cpu (wng c) with regs := mapPut (m.cpu (wng c)).regs (0, r) d }) := by
  rw [opRegWr, jtagIf_open _ hs hp]
  simp only [if_neg (show ¬ r = 32 by omega), if_neg (show ¬ (r = 0 ∨ 32 < r) by omega)]

/-- The first decision that fails decides, whatever stands behind it. -/
theorem firstBad_append {pre post : List Verdict} {u : Verdict} (h : ∀ y ∈ pre, y = ⟨true, true⟩) :
    firstBad (pre ++ u :: post) = firstBad (u :: post) := by
  induction pre with
  | nil => rfl
  | cons v t ih =>
    obtain rfl := h v List.mem_cons_self
    exact ih fun y hy => h y (List.mem_cons_of_mem _ hy)

theorem firstBad_good {l : List Verdict} (h : ∀ y ∈ l, y = ⟨true, true⟩) : firstBad l = none := by
  induction l with
  | nil => rfl
  | cons v t ih =>
    obtain rfl := h v List.mem_cons_self
    exact ih fun y hy => h y (List.mem_cons_of_mem _ hy)

theorem firstBad_differ {post : List Verdict} {u : Verdict} (h : u.a ≠ u.b) : firstBad (u :: post) = some false := by
  rw [firstBad, if_pos h]

section TokenResult

variable {im : Image} {m m' : M} {votes : List Vote} (b : List Byte) (form : Verdict) (x : CmdPaths)

theorem tokenResult_unread (h : voteReads im (tokenWords votes) m = (false, m')) :
    tokenResult im b form x votes m = (3, m') := by
  simp only [tokenResult, h, if_true]

theorem tokenResult_differ (h : voteReads im (tokenWords votes) m = (true, m'))
    (hbad : firstBad (tokenPaths m' b form x) = some false) :
    tokenResult im b form x votes m = (3, pathDisagree im 4 m') := by
  simp [tokenResult, h, hbad]

theorem tokenResult_bad (h : voteReads im (tokenWords votes) m = (true, m'))
    (hbad : firstBad (tokenPaths m' b form x) = some true) : tokenResult im b form x votes m = (2, m') := by
  simp [tokenResult, h, hbad]

theorem tokenResult_good (h : voteReads im (tokenWords votes) m = (true, m'))
    (hbad : firstBad (tokenPaths m' b form x) = none) :
    tokenResult im b form x votes m = (1, fire im 0x017 (leAt b 6 2)
      { (m'.setFlag .SEC_STS_DEBUG_ACTIVE 0 true).setFld .SEC_STS_DEBUG_SCOPE 0 (leAt b 6 2) with
        sec := { m'.sec with debugSeen := true } }) := by
  simp [tokenResult, h, hbad]

end TokenResult

/-- Outside a block reset a token that is submitted leaves its result and renews the challenge. -/
theorem opToken_result {im : Image} {m : M} (b : List Byte) (form : Verdict) (x : CmdPaths) (votes : List Vote)
    (hp : m.boot.phase ≠ .porst) (hr : m.inReset 3 0 = false) {n : Nat} {m' : M}
    (h : tokenResult im b form x votes (jtagOut 0x21 [BitVec.ofNat 8 m.sec.tokSts] m) = (n, m')) :
    opToken im b form x votes m =
      jtagOut 0x21 [BitVec.ofNat 8 n] (renewChallenge { m' with sec := { m'.sec with tokSts := n } }) := by
  have hr' : (jtagOut 0x21 [BitVec.ofNat 8 m.sec.tokSts] m).inReset 3 0 = false := hr
  rw [opToken, tap_released _ hp]
  simp only [hr', h]
  rfl

/-- Blowing a bit of the security version in one copy sets exactly that bit. -/
theorem FuseCopy.bit_blow_svn (c : FuseCopy) (b i : Nat) (k : FuseField) (hb : b < 64) :
    (c.blow .svn b).bit k i = true ↔ c.bit k i = true ∨ (k = .svn ∧ i = b) := by
  cases k with
  | svn =>
    simp only [FuseCopy.blow, FuseCopy.bit, BitVec.getLsbD_or, Bool.or_eq_true, true_and]
    refine or_congr_right ?_
    simp [BitVec.getLsbD_shiftLeft]
    omega
  | hash => simp [FuseCopy.blow, FuseCopy.bit]
  | set => simp [FuseCopy.blow, FuseCopy.bit]
  | dbg => simp [FuseCopy.blow, FuseCopy.bit]

/-- What FUSE does with a bit of the security version that it is asked to blow (R276, R402). -/
theorem opFuse_svn {m : M} {dr : Nat} (u : Fuses) (hf : factoryMode m = true) (h13 : dr.testBit 13 = true) (hn : dr % 4 < 3)
    (hk : dr / 4 % 4 = 2) (hb : dr / 16 % 512 < 64) :
    opFuse dr [] u m = (u.blow (dr % 4) .svn (dr / 16 % 512),
      jtagOut 0x50 [1] { m with mgt := { m.mgt with fuseBit := true } }) := by
  have e0 : bitsAt dr 0 2 = dr % 4 := bitsAt_zero dr 2
  have e2 : bitsAt dr 2 2 = 2 := by rw [bitsAt_eq]; exact hk
  have e4 : bitsAt dr 4 9 = dr / 16 % 512 := bitsAt_eq dr 4 9
  have hread : ((u.blow (dr % 4) .svn (dr / 16 % 512)).copy (dr % 4)).bit .svn (dr / 16 % 512) = true := by
    rw [Fuses.copy_blow, if_pos rfl, FuseCopy.bit_blow_svn _ _ _ _ hb]
    exact Or.inr ⟨rfl, rfl⟩
  have hvalid : dr % 4 < 3 ∧ dr / 16 % 512 < fuseBits .svn := ⟨hn, hb⟩
  rw [opFuse, if_neg (by simp [hf])]
  simp only [e0, e2, e4, show fuseField 2 = .svn from rfl, hvalid, bitAt]
  simp [h13, hread]

/-- The bits of the fuses after one bit of the security version is blown in copy n. -/
theorem Fuses.bit_blow_svn (u : Fuses) {n : Nat} {x : Nat} (hn : n < 3) (hx : x < 64) (j : Nat) (k : FuseField) (i : Nat) :
    ((u.blow n .svn x).copy j).bit k i = true ↔
      (u.copy j).bit k i = true ∨ ((if j < 2 then j else 2) = n ∧ k = .svn ∧ i = x) := by
  have hsame : ((if j < 2 then j else 2) = n) ↔ min j 2 = min n 2 := by split <;> omega
  rw [Fuses.copy_blow, hsame]
  by_cases h : min j 2 = min n 2
  · rw [if_pos h, FuseCopy.bit_blow_svn _ _ _ _ hx]
    simp [h]
  · simp [h]

/-- Settles O55: every instruction is one branch under its condition; a token's result is the first of its decisions that
fails. -/
theorem jtagRuns : Obligations.JtagRuns := by
  intro s hp out byp halted h
  have bypassed : ∀ (run : M → M) {f : Image → M → M} {c : Instr} {ok : Bool}, ok = false →
      exec c s = .next (s.upd f) → f s.inForce s.m = jtagIf ok run s.m → Completes c s (byp s.m) :=
    fun run f c ok hok hc hf => completes_of_upd hc (hf.trans (jtagIf_closed run hok hp))
  have runs : ∀ {run : M → M} {f : Image → M → M} {c : Instr} {ok : Bool} {m' : M}, ok = true →
      exec c s = .next (s.upd f) → f s.inForce s.m = jtagIf ok run s.m → run s.m = m' → Completes c s m' :=
    fun hok hc hf hm => completes_of_upd hc (hf.trans ((jtagIf_open _ hok hp).trans hm))
  refine ⟨completes_of_upd rfl (tap_released _ hp), completes_of_upd rfl (tap_released _ hp),
    completes_of_upd rfl (tap_released _ hp), fun h0 l b => ⟨bypassed _ h0 rfl rfl, bypassed _ h0 rfl rfl⟩,
    fun h0 l b hb => ?_, fun h1 c r d => ⟨bypassed _ h1 rfl rfl, bypassed _ h1 rfl rfl, bypassed _ h1 rfl rfl,
      bypassed _ h1 rfl rfl, bypassed _ h1 rfl rfl⟩, fun h1 c => ?_, fun e hrow h3 => ?_, fun e hrow h3 => ?_,
    fun dr hrow h2 => ?_, fun dr hrow h2 h91 => ?_, fun b v x l hr => ?_, fun b v x hr => ?_, fun dr stuck hf => ?_,
    fun dr hf h13 hn hk hb hreact => ?_⟩
  · intro m cells
    have hcells : loadCells b { s.m with fresh := s.m.fresh + 1 } = m := by
      rw [loadCells, hb, Nat.sub_self, List.take_of_length_le (le_of_eq hb), List.replicate_zero, List.append_nil]
    refine ⟨runs h0 rfl rfl ?_, runs h0 rfl rfl ?_⟩
    · exact congrArg (jtagOut 0x02 _) hcells
    · exact congrArg (jtagOut 0x03 _) hcells
  · intro k
    refine ⟨?_, ?_, ?_, ?_, ?_, ?_, ?_, ?_, ?_⟩
    · intro hk m
      exact runs h1 rfl rfl (congrArg (wdbgOut c.val 0) (if_pos hk))
    · intro hk
      exact runs h1 rfl rfl (congrArg (wdbgOut c.val 0) (if_neg (Bool.eq_false_iff.mp hk)))
    · exact runs h1 rfl rfl rfl
    · intro hk
      refine runs h1 rfl rfl ((congrArg (wdbgOut c.val 0) (if_pos hk)).trans ?_)
      exact congrArg (fun b => out 0x40 (h b ++ leBytes 8 0) { s.m with mgt := { s.m.mgt with wdbg := c.val + 1 } }) hk
    · intro hk
      refine runs h1 rfl rfl ((congrArg (wdbgOut c.val 0) (if_neg (Bool.eq_false_iff.mp hk))).trans ?_)
      exact congrArg (fun b => out 0x40 (h b ++ leBytes 8 0) s.m) hk
    · intro r hr1 hr2
      exact runs h1 rfl rfl (congrArg (fun v => wdbgOut c.val v s.m) (dbgReg_low k hr1 hr2))
    · exact runs h1 rfl rfl rfl
    · intro d
      exact runs h1 rfl rfl rfl
    · intro r d hr1 hr2
      exact completes_of_upd rfl (opRegWr_low c.val d hr1 hr2 h1 hp)
  · exact completes_of_rowTaken hrow rfl (jtagIf_closed _ h3 hp)
  · exact completes_of_rowTaken hrow rfl (jtagIf_open _ h3 hp)
  · exact completes_of_rowTaken hrow rfl (jtagIf_closed _ h2 hp)
  · intro m0 m
    refine completes_of_rowTaken hrow rfl ((jtagIf_open _ h2 hp).trans ?_)
    rw [bitsAt_eq, bitsAt_zero]
    exact congrArg (fun m1 : M => let m := { m1 with mgt := { m1.mgt with regDone := true } }
      jtagOut 0x30 (leBytes 8 m.mgt.regData ++ leBytes 4 (2 ^ 28)) m) (if_pos (c := bitAt dr.toNat 91 = true) h91)
  · refine completes_of_upd rfl ((tap_released _ hp).trans ?_)
    exact if_pos hr
  · intro w
    have hw0 : voteReads s.inForce (tokenWords []) (jtagOut 0x21 [BitVec.ofNat 8 s.m.sec.tokSts] s.m) = w := rfl
    clear_value w
    intro ps ends
    have result : ∀ {n : Nat} {m' : M}, tokenResult s.inForce b v x [] (jtagOut 0x21 [BitVec.ofNat 8 s.m.sec.tokSts] s.m) =
        (n, m') → ends n m' := fun ht =>
      completes_of_upd (f := fun im m => opToken im b v x [] m) rfl (opToken_result b v x [] hp hr ht)
    have voted : ∀ {r : Bool}, w.1 = r → voteReads s.inForce (tokenWords [])
        (jtagOut 0x21 [BitVec.ofNat 8 s.m.sec.tokSts] s.m) = (r, w.2) := fun hw => hw0.trans (Prod.ext hw rfl)
    refine ⟨fun hw => result ?_, fun hw pre u post hps hpre => ⟨fun hu => result ?_, fun hu => result ?_⟩,
      fun hw hall => ?_⟩
    · exact tokenResult_unread b v x (voted hw)
    · exact tokenResult_differ b v x (voted hw) ((congrArg firstBad hps).trans ((firstBad_append hpre).trans (firstBad_differ hu)))
    · exact tokenResult_bad b v x (voted hw) ((congrArg firstBad hps).trans ((firstBad_append hpre).trans (hu ▸ rfl)))
    · intro m
      exact result (tokenResult_good b v x (voted hw) (firstBad_good hall))
  · have hf' : opFuse dr.toNat stuck s.fuses s.m = (s.fuses, byp s.m) := by
      rw [opFuse, if_pos hf, opBypass, tap_released _ hp]
      rfl
    show Host.Outcome.next (s.updFuses fun _ m => opFuse dr.toNat stuck s.fuses m) = _
    rw [State.updFuses, hf']
  · have hf' := opFuse_svn s.fuses hf h13 hn hk hb
    refine ⟨s.updFuses fun _ m => opFuse dr.toNat [] s.fuses m, rfl, fun n k i => ?_, ?_⟩
    · rw [State.updFuses, hf']
      exact Fuses.bit_blow_svn s.fuses hn hb n k i
    · rw [State.updFuses, hf']
      exact settle_calm _ _ hreact

end Machine
end Sys2Proof
end

section
/-! PROOFS. The front command of the queue, and the cycle of an empty one (95, R368). -/

namespace Sys2Proof

/-! ### A cycle of a loom in which nothing is under way -/

/-- A fold whose steps all stand still stands still. -/
theorem foldl_fixed {α β : Type} (f : β → α → β) (b : β) (l : List α) (h : ∀ a ∈ l, f b a = b) : l.foldl f b = b := by
  induction l with
  | nil => rfl
  | cons a l ih =>
    rw [List.foldl_cons, h a List.mem_cons_self]
    exact ih fun x hx => h x (List.mem_cons_of_mem _ hx)

theorem tickStep_off {im : Image} {m : M} (h : m.tick.on = false) : tickStep im m = m := if_pos h

theorem decodeSteps_none {im : Image} {m : M} (h : m.scripts = []) : decodeSteps im m = m := by
  rw [decodeSteps, h]
  rfl

theorem irqLeave_none {im : Image} {m : M} (hp : m.irq.prov = []) (hq : m.irq.maskq = []) : irqLeave im m = m := by
  rw [irqLeave, hp, List.filter_nil, List.foldl_nil, masksDue, hq]
  simp only [List.filter_nil, List.foldl_nil]
  rw [← hq]

theorem pmeOnNew_awake {im : Image} {m : M} {p : Nat} (h : m.flag .HPT_STS_D3HOT (pinst p 0) = false) :
    pmeOnNew im p m = m := by
  rw [pmeOnNew, h]
  rfl

theorem portsLeave_awake {im : Image} {m : M} (h : ∀ p, m.flag .HPT_STS_D3HOT (pinst p 0) = false) : portsLeave im m = m :=
  foldl_fixed _ _ _ fun p _ => pmeOnNew_awake (h p)

theorem enterCycle_off {im : Image} {m : M} (h : m.tick.on = false) :
    enterCycle im m = { m with now := m.now + 1, cyc := [] } := by
  rw [enterCycle]
  simp [h, tickOut]

theorem irqEnter_none {im : Image} {m : M} (hs : m.irq.sig = []) (hl : m.irq.later = []) :
    irqEnter im m = { m with irq := { m.irq with start := [], did := [] } } := by
  rw [irqEnter]
  simp [hs, hl]

theorem portsEnter_none {im : Image} {m : M} (h : ∀ p, (m.hostOf p).msgq = []) : portsEnter im m = m :=
  foldl_fixed _ _ _ fun p _ => by rw [h p]; rfl

/-- A cycle in which no tick, no script and no interrupt is under way. -/
theorem passCycle_idle {im : Image} {m : M} (ht : m.tick.on = false) (hs : m.scripts = []) (hp : m.irq.prov = [])
    (hq : m.irq.maskq = []) (hg : m.irq.sig = []) (hl : m.irq.later = [])
    (hh : ∀ p, (m.hostOf p).msgq = [] ∧ m.flag .HPT_STS_D3HOT (pinst p 0) = false) :
    passCycle im m = bootRelease
      { m with now := m.now + 1, cyc := [], irq := { m.irq with start := [], did := [] } } := by
  rw [passCycle, decodeSteps_none hs, tickStep_off ht, irqLeave_none hp hq, portsLeave_awake fun p => (hh p).2,
    enterCycle_off ht, irqEnter_none (m := { m with now := m.now + 1, cyc := [] }) hg hl]
  exact congrArg bootRelease (portsEnter_none fun p => (hh p).1)

/-! ### The release of a chip reset -/

theorem renewNonce_react (s : Nat) (m : M) : (renewNonce s m).react = m.react := by
  rw [renewNonce]
  split <;> rfl

theorem foldl_renewNonce_react (l : List Nat) (m : M) : (l.foldl (fun m s => renewNonce s m) m).react = m.react := by
  induction l generalizing m with
  | nil => rfl
  | cons s l ih => exact (ih _).trans (renewNonce_react s m)

theorem renewChallenge_react (m : M) : (renewChallenge m).react = m.react := by
  rw [renewChallenge]
  split <;> rfl

theorem startBoot_react (cold : Bool) (m : M) : (startBoot cold m).react = m.react := by
  rw [startBoot, renewChallenge_react, foldl_renewNonce_react]
  rfl

theorem bootRelease_due {m : M} {r : Nat} (h : m.boot.relAt = some r) (hr : r ≤ m.now) :
    bootRelease m = startBoot false m := by
  rw [bootRelease, h]
  exact if_pos hr

theorem bootRelease_early {m : M} (h : ∀ r, m.boot.relAt = some r → m.now < r) : bootRelease m = m := by
  rw [bootRelease]
  split
  case h_1 t ht => exact if_neg (not_le.mpr (h t ht))
  case h_2 => rfl

namespace Machine

/-- Settles O56: a step is a match on the queue, and an idle cycle comes down to the release of a chip reset. -/
theorem stepTakesTheFront : Obligations.StepTakesTheFront := by
  have idles : ∀ s : State, s.pending = [] → step s = .next (s.upd passCycle) := fun s h => by rw [step, h]
  refine ⟨fun c q s => rfl, idles, ?_⟩
  intro s hpend ht hs hp hq hg hl hh hr m
  have hcycle : ∀ im, passCycle im s.m = bootRelease m := fun im => passCycle_idle ht hs hp hq hg hl hh
  have hstep : ∀ {m' : M}, bootRelease m = m' → m'.react = [] → step s = .next { s with m := m' } := fun hb hm' => by
    rw [idles s hpend, State.upd, hcycle, hb, settle_calm _ _ hm']
  refine ⟨fun hrel => hstep (bootRelease_early hrel) hr, fun r hrel hdue => hstep (bootRelease_due hrel hdue) ?_⟩
  rw [startBoot_react]
  exact hr

end Machine
end Sys2Proof
end

section
/-! PROOFS. Resets of the whole part (00, 15, 17; R9, R368, R373, R392, R393). -/

namespace Sys2Proof

/-! ### Fields that a reset clears -/

/-- A map of which only the keys that a predicate accepts are kept. -/
theorem mapFind_filter {V : Type} (l : Map V) (q : Key → Bool) (k : Key) :
    mapFind (l.filter (fun e => q e.1)) k = if q k then mapFind l k else none := by
  induction l with
  | nil => simp [mapFind]
  | cons e l ih =>
    rw [List.filter_cons]
    by_cases hk : e.1 = k
    · subst hk
      split
      · simp [mapFind]
      · next h => rw [ih, if_neg h]
    · split
      · rw [mapFind, if_neg hk, ih, mapFind, if_neg hk]
      · rw [ih, mapFind, if_neg hk]

/-- A field that is selected returns to its reset value; the others keep theirs. -/
theorem M.fld_clearFlds (m : M) (sel : FSpec → Nat → Bool) (F : Fld) (i : Nat) :
    (m.clearFlds sel).fld F i = if sel (fldSpec F) i then rstVal F else m.fld F i := by
  rw [M.fld, M.clearFlds, mapGet, mapFind_filter m.f (fun k => !(sel (fldSpecAt k.1) k.2)), fldSpecAt_num]
  cases sel (fldSpec F) i <;> rfl

/-- A loom on which nothing is written shows the reset value of every field. -/
theorem M.fld_of_blank {m : M} (h : m.f = []) (F : Fld) (i : Nat) : m.fld F i = rstVal F := by
  rw [M.fld, h]
  rfl

/-! ### The two resets -/

/-- What a power-on reset leaves of everything but the pins and the outputs (R368, R373). -/
theorem powerReset_eq (m : M) : ∃ o p, powerReset m =
    { Machine.M.reset with now := m.now, fresh := m.fresh, out := o, pins := p } := by
  rw [powerReset]
  dsimp only
  split <;> exact ⟨_, _, rfl⟩

/-- What a chip reset leaves of everything but the outputs (R368, R373). -/
theorem chipReset_eq (phase : BootPhase) (kind src : Nat) (m : M) : ∃ o, chipReset phase kind src m =
    { Machine.M.reset with
      f := (((m.clearFlds (fun f _ => f.c)).setFld .PWR_RST_CAUSE_KIND 0 kind).setFld .PWR_RST_CAUSE_SRC 0 src).f
      now := m.now, fresh := m.fresh, out := o
      boot := { Machine.M.reset.boot with phase := phase, entropy := m.boot.entropy, porAt := m.boot.porAt, cold := false }
      pins := { m.pins with faultBoot := false, faultEntropy := false }
      mgt := m.mgt
      mem := { Machine.M.reset.mem with
        selfRef := (List.range 4).filter (fun c => m.flag .MEM_CH_STS_PRESENT c) } } := by
  exact ⟨_, rfl⟩

theorem chipReset_fld (phase : BootPhase) (kind src : Nat) (m : M) (F : Fld) (i : Nat) :
    (chipReset phase kind src m).fld F i =
      (((m.clearFlds (fun f _ => f.c)).setFld .PWR_RST_CAUSE_KIND 0 kind).setFld .PWR_RST_CAUSE_SRC 0 src).fld F i := by
  obtain ⟨o, h⟩ := chipReset_eq phase kind src m
  exact M.fld_congr (by rw [h]) F i

namespace Machine

/-- A command of a reset pin that changes nothing leaves the state as it is. -/
theorem upd_same {s : State} {f : Image → M → M} (hf : f s.inForce s.m = s.m) (hr : s.m.react = []) : s.upd f = s := by
  rw [State.upd, hf, settle_calm _ _ hr]

/-- Settles O13: both resets build their state from the reset state, so every component is read off, and the fields of a
chip reset are those that the tables do not mark. -/
theorem resetsOfThePart : Obligations.ResetsOfThePart := by
  refine ⟨fun s ns hr => ⟨fun hns => ?_, fun hns => ?_⟩, fun s n hr => ⟨fun hn => ?_, fun hn hp hl => ?_⟩⟩
  · exact congrArg Host.Outcome.next (upd_same (f := fun _ m => opPorstAssert ns m)
      (if_neg (by omega : ¬ (20 ≤ ns ∨ (10 ≤ ns ∧ Config.porstGlitch ns = true)))) hr)
  · obtain ⟨o, p, h⟩ := powerReset_eq s.m
    have hop : opPorstAssert ns s.m = powerReset s.m := if_pos (Or.inl hns)
    have hcalm : (powerReset s.m).react = [] := by rw [h]; rfl
    refine ⟨{ s with m := powerReset s.m }, ?_, rfl, rfl, rfl, ?_⟩
    · show Host.Outcome.next (s.upd fun _ m => opPorstAssert ns m) = _
      rw [State.upd, hop, settle_calm _ _ hcalm]
    · dsimp only
      rw [h]
      exact ⟨rfl, M.fld_of_blank rfl, rfl, rfl, rfl, rfl, rfl, rfl, rfl, rfl, rfl, rfl, rfl, rfl, rfl⟩
  · exact congrArg Host.Outcome.next (upd_same (f := fun _ m => opResetAssert n m) (if_pos (Or.inl hn)) hr)
  · have hop : opResetAssert n s.m = chipReset .rstLow 2 0 s.m := if_neg (by simp [hp, hl]; omega)
    have hcalm : (chipReset .rstLow 2 0 s.m).react = [] := rfl
    refine ⟨{ s with m := chipReset .rstLow 2 0 s.m }, ?_, rfl, rfl, rfl, fun F i hk hs => ?_, ?_, ?_,
      rfl, rfl, rfl, rfl, rfl⟩
    · show Host.Outcome.next (s.upd fun _ m => opResetAssert n m) = _
      rw [State.upd, hop, settle_calm _ _ hcalm]
    · rw [chipReset_fld, M.fld_setFld_ne _ _ (fun e => hs (Prod.ext e.1 e.2)),
        M.fld_setFld_ne _ _ (fun e => hk (Prod.ext e.1 e.2)), M.fld_clearFlds]
    · rw [chipReset_fld, M.fld_setFld_ne _ _ (by decide), M.fld_setFld_same]
      rfl
    · rw [chipReset_fld, M.fld_setFld_same]
      rfl

end Machine
end Sys2Proof
end

section
/-! PROOFS. The symbol code of local memory (12, R309 to R311). -/

namespace Sys2Proof

/-! ### Numbers by their digits -/

/-- The number of n digits to base b. -/
def ofDigitFn (b : Nat) (f : Nat → Nat) (n : Nat) : Nat := ((List.range n).map (fun k => f k * b ^ k)).sum

theorem ofDigitFn_succ (b : Nat) (f : Nat → Nat) (n : Nat) : ofDigitFn b f (n + 1) = ofDigitFn b f n + f n * b ^ n := by
  rw [ofDigitFn, List.range_succ, List.map_append, List.sum_append]
  simp [ofDigitFn]

theorem ofDigitFn_lt {b : Nat} {f : Nat → Nat} (n : Nat) (h : ∀ k, k < n → f k < b) : ofDigitFn b f n < b ^ n := by
  induction n with
  | zero => simp [ofDigitFn]
  | succ n ih =>
    have hlow := ih fun k hk => h k (by omega)
    have hstep : (f n + 1) * b ^ n ≤ b * b ^ n := Nat.mul_le_mul_right _ (h n (by omega))
    rw [ofDigitFn_succ, Nat.pow_succ', Nat.add_comm]
    calc f n * b ^ n + ofDigitFn b f n < f n * b ^ n + b ^ n := by omega
      _ = (f n + 1) * b ^ n := by ring
      _ ≤ b * b ^ n := hstep

/-- The lowest digits of a number are a number of their own. -/
theorem ofDigitFn_mod {b : Nat} {f : Nat → Nat} (n m : Nat) (h : ∀ k, k < n → f k < b) (hm : m ≤ n) :
    ofDigitFn b f n % b ^ m = ofDigitFn b f m := by
  induction n, hm using Nat.le_induction with
  | base => exact Nat.mod_eq_of_lt (ofDigitFn_lt m h)
  | succ n hmn ih =>
    have hdvd : b ^ m ∣ f n * b ^ n := (Nat.pow_dvd_pow b hmn).mul_left _
    rw [ofDigitFn_succ, Nat.add_mod, Nat.mod_eq_zero_of_dvd hdvd, Nat.add_zero, Nat.mod_mod,
      ih fun k hk => h k (by omega)]

/-- A digit of a number. -/
theorem ofDigitFn_digit {b : Nat} {f : Nat → Nat} {n k : Nat} (h : ∀ k, k < n → f k < b) (hk : k < n) :
    ofDigitFn b f n / b ^ k % b = f k := by
  have hb : 0 < b := Nat.zero_lt_of_lt (h k hk)
  rw [← Nat.mod_mul_right_div_self, ← Nat.pow_succ, ofDigitFn_mod n (k + 1) h hk, ofDigitFn_succ,
    Nat.add_mul_div_right _ _ (Nat.pow_pos hb), Nat.div_eq_of_lt (ofDigitFn_lt k fun j hj => h j (by omega)), Nat.zero_add]

theorem ofDigitFn_congr {b n : Nat} {f g : Nat → Nat} (h : ∀ k, k < n → f k = g k) : ofDigitFn b f n = ofDigitFn b g n := by
  rw [ofDigitFn, ofDigitFn]
  exact congrArg List.sum (List.map_congr_left fun k hk => by rw [h k (List.mem_range.mp hk)])

/-- A number is that of its digits. -/
theorem ofDigitFn_of (b x n : Nat) : ofDigitFn b (fun k => x / b ^ k % b) n = x % b ^ n := by
  induction n with
  | zero => simp [ofDigitFn, Nat.mod_one]
  | succ n ih =>
    rw [ofDigitFn_succ, ih, Nat.mod_pow_succ]
    ring

/-! ### The field of 256 elements -/

theorem galpha_eq {x : Nat} (h : x < 256) : galpha x = (2 * x) ^^^ (if x.testBit 7 then 0x11D else 0) := by
  have hbit : ∀ x < 256, (128 ≤ x ↔ x.testBit 7 = true) := by decide +kernel
  rw [galpha]
  by_cases h7 : 128 ≤ x
  · rw [if_pos h7, if_pos ((hbit x h).mp h7)]
  · rw [if_neg h7, if_neg (fun e => h7 ((hbit x h).mpr e)), Nat.xor_zero]

theorem galpha_lt {x : Nat} (h : x < 256) : galpha x < 256 := by
  have : ∀ x < 256, galpha x < 256 := by decide +kernel
  exact this x h

theorem xor_lt_256 {x y : Nat} (hx : x < 256) (hy : y < 256) : x ^^^ y < 256 := Nat.xor_lt_two_pow (n := 8) hx hy

/-- Multiplication by α distributes over the sum of the field. -/
theorem galpha_xor {x y : Nat} (hx : x < 256) (hy : y < 256) : galpha (x ^^^ y) = galpha x ^^^ galpha y := by
  have hdouble : 2 * (x ^^^ y) = 2 * x ^^^ 2 * y := by
    simpa [Nat.shiftLeft_eq, Nat.mul_comm] using Nat.shiftLeft_xor_distrib (a := x) (b := y) (i := 1)
  rw [galpha_eq hx, galpha_eq hy, galpha_eq (xor_lt_256 hx hy), hdouble, Nat.testBit_xor]
  cases x.testBit 7 <;> cases y.testBit 7 <;>
    simp [Nat.xor_assoc, Nat.xor_comm, Nat.xor_left_comm]

/-- 0xF4 is the inverse of 1 + α (R309). -/
theorem gmul_inverse {z : Nat} (h : z < 256) : galpha (gmul z 0xF4 8) ^^^ gmul z 0xF4 8 = z ∧ gmul z 0xF4 8 < 256 := by
  have : ∀ z < 256, galpha (gmul z 0xF4 8) ^^^ gmul z 0xF4 8 = z ∧ gmul z 0xF4 8 < 256 := by decide +kernel
  exact this z h

/-! ### Syndromes (R310) -/

/-- Both sums of R310 distribute over the sum of two words. -/
theorem syndrome_sums_xor (l : List (Nat × Nat)) (h : ∀ p ∈ l, p.1 < 256 ∧ p.2 < 256) (a b : Nat) (ha : a < 256)
    (hb : b < 256) :
    (l.map (fun p => p.1 ^^^ p.2)).foldl (fun a x => a ^^^ x) (a ^^^ b) =
      (l.map (·.1)).foldl (fun a x => a ^^^ x) a ^^^ (l.map (·.2)).foldl (fun a x => a ^^^ x) b ∧
    (l.map (fun p => p.1 ^^^ p.2)).foldl (fun a x => galpha a ^^^ x) (a ^^^ b) =
      (l.map (·.1)).foldl (fun a x => galpha a ^^^ x) a ^^^ (l.map (·.2)).foldl (fun a x => galpha a ^^^ x) b := by
  have swap : ∀ u v x y : Nat, u ^^^ v ^^^ (x ^^^ y) = u ^^^ x ^^^ (v ^^^ y) := fun u v x y => by
    simp only [Nat.xor_assoc, Nat.xor_left_comm v x y]
  induction l generalizing a b with
  | nil => exact ⟨rfl, rfl⟩
  | cons p l ih =>
    obtain ⟨hp1, hp2⟩ := h p List.mem_cons_self
    have ih' := fun a b => ih (fun q hq => h q (List.mem_cons_of_mem _ hq)) a b
    simp only [List.map_cons, List.foldl_cons]
    rw [galpha_xor ha hb, swap a b, swap (galpha a) (galpha b)]
    exact ⟨(ih' _ _ (xor_lt_256 ha hp1) (xor_lt_256 hb hp2)).1,
      (ih' _ _ (xor_lt_256 (galpha_lt ha) hp1) (xor_lt_256 (galpha_lt hb) hp2)).2⟩

theorem syndrome_xor (l : List (Nat × Nat)) (h : ∀ p ∈ l, p.1 < 256 ∧ p.2 < 256) :
    syndrome (l.map (fun p => p.1 ^^^ p.2)) =
      ((syndrome (l.map (·.1))).1 ^^^ (syndrome (l.map (·.2))).1, (syndrome (l.map (·.1))).2 ^^^ (syndrome (l.map (·.2))).2) := by
  obtain ⟨h0, h1⟩ := syndrome_sums_xor l h 0 0 (by decide) (by decide)
  exact Prod.ext h0 h1

theorem foldl_xor_lt (l : List Nat) (h : ∀ x ∈ l, x < 256) (a : Nat) (ha : a < 256) :
    l.foldl (fun a x => a ^^^ x) a < 256 ∧ l.foldl (fun a x => galpha a ^^^ x) a < 256 := by
  induction l generalizing a with
  | nil => exact ⟨ha, ha⟩
  | cons x l ih =>
    have hx := h x List.mem_cons_self
    have ih' := fun a => ih (fun q hq => h q (List.mem_cons_of_mem _ hq)) a
    exact ⟨(ih' _ (xor_lt_256 ha hx)).1, (ih' _ (xor_lt_256 (galpha_lt ha) hx)).2⟩

/-- The check symbols of a word are symbols, and both its sums are 0 (R309). -/
theorem withChecks_spec (d : List Nat) (h : ∀ x ∈ d, x < 256) :
    (∀ x ∈ withChecks d, x < 256) ∧ syndrome (withChecks d) = (0, 0) := by
  obtain ⟨ha, hr⟩ := foldl_xor_lt d h 0 (by decide)
  rw [withChecks, syndrome]
  simp only [List.foldl_append, List.foldl_cons, List.foldl_nil]
  generalize d.foldl (fun a x => a ^^^ x) 0 = a at ha ⊢
  generalize d.foldl (fun a x => galpha a ^^^ x) 0 = r at hr ⊢
  have hz : a ^^^ galpha (galpha r) < 256 := xor_lt_256 ha (galpha_lt (galpha_lt hr))
  obtain ⟨hinv, hlt⟩ := gmul_inverse hz
  generalize gmul (a ^^^ galpha (galpha r)) 0xF4 8 = c at hinv hlt ⊢
  refine ⟨fun x hx => ?_, Prod.ext ?_ ?_⟩
  · simp only [List.mem_append, List.mem_cons, List.not_mem_nil, or_false] at hx
    rcases hx with hx | rfl | rfl
    · exact h x hx
    · exact hlt
    · exact xor_lt_256 ha hlt
  · simp
  · have hsum : galpha c ^^^ c = a ^^^ galpha (galpha r) := hinv
    calc galpha (galpha r ^^^ c) ^^^ (a ^^^ c) = galpha (galpha r) ^^^ galpha c ^^^ (a ^^^ c) := by
          rw [galpha_xor (galpha_lt hr) hlt]
      _ = galpha (galpha r) ^^^ a ^^^ (galpha c ^^^ c) := by
          simp only [Nat.xor_assoc, Nat.xor_left_comm (galpha c) a c]
      _ = 0 := by rw [hsum, Nat.xor_comm a, Nat.xor_self]

/-- What one chip gives wrong in a codeword is found (R310). -/
theorem symDecode_one (i : Fin 10) (x : Fin 256) : symDecode ((List.replicate 10 0).set i.val x.val) =
    if x.val = 0 then .clean else .single i.val x.val := by
  revert i x
  decide +kernel

theorem symDecode_congr {s t : List Nat} (h : syndrome s = syndrome t) : symDecode s = symDecode t := by
  rw [symDecode, symDecode, h]

/-! ### The layout of a burst (R309) -/

/-- The two beats of a codeword, the low halves of its symbols before the high ones. -/
def pairOf (w : List Nat) : Nat := ofDigitFn 16 (fun i => w.getD i 0 % 16) 10 + 2 ^ 40 * ofDigitFn 16 (fun i => w.getD i 0 / 16) 10

/-- A list of eight words of ten symbols. -/
def Burst (ws : List (List Nat)) : Prop := ws.length = 8 ∧ ∀ w ∈ ws, w.length = 10 ∧ ∀ x ∈ w, x < 256

theorem getD_lt_256 {w : List Nat} (h : ∀ x ∈ w, x < 256) (i : Nat) : w.getD i 0 < 256 := by
  rw [List.getD_eq_getElem?_getD]
  cases hi : w[i]? with
  | none => decide
  | some x => exact h x (List.mem_of_getElem? hi)

theorem Burst.getD {ws : List (List Nat)} (h : Burst ws) (j : Nat) : ∀ x ∈ ws.getD j [], x < 256 := by
  rw [List.getD_eq_getElem?_getD]
  cases hj : ws[j]? with
  | none => simp
  | some w => exact (h.2 w (List.mem_of_getElem? hj)).2

theorem halves_lt {w : List Nat} (h : ∀ x ∈ w, x < 256) : (∀ i, i < 10 → w.getD i 0 % 16 < 16) ∧
    (∀ i, i < 10 → w.getD i 0 / 16 < 16) :=
  ⟨fun _ _ => Nat.mod_lt _ (by decide), fun i _ => Nat.div_lt_of_lt_mul (getD_lt_256 h i)⟩

theorem pairOf_lt {w : List Nat} (h : ∀ x ∈ w, x < 256) : pairOf w < 2 ^ 80 := by
  have hlow := ofDigitFn_lt 10 (halves_lt h).1
  have hhigh := ofDigitFn_lt 10 (halves_lt h).2
  rw [pairOf]
  omega

/-- A burst is the number of its words' beats. -/
theorem burstOf_toNat {ws : List (List Nat)} (h : Burst ws) :
    (burstOf ws).toNat = ofDigitFn (2 ^ 80) (fun j => pairOf (ws.getD j [])) 8 := by
  have hpair : ∀ j, ((List.range 10).map (fun i => let s := (ws.getD j []).getD i 0
      (s % 16) * 2 ^ (80 * j + 4 * i) + (s / 16) * 2 ^ (80 * j + 40 + 4 * i))).sum =
      pairOf (ws.getD j []) * (2 ^ 80) ^ j := fun j => by
    rw [pairOf, ofDigitFn, ofDigitFn, ← List.sum_map_mul_left, ← List.sum_map_add, ← List.sum_map_mul_right]
    refine congrArg List.sum (List.map_congr_left fun i _ => ?_)
    rw [← pow_mul, show (16 : Nat) = 2 ^ 4 from rfl, ← pow_mul]
    ring
  have hlt := ofDigitFn_lt (b := 2 ^ 80) (f := fun j => pairOf (ws.getD j [])) 8 fun j _ => pairOf_lt (h.getD j)
  have hpow : (2 ^ 80) ^ 8 = 2 ^ 640 := by rw [← pow_mul]
  rw [hpow] at hlt
  rw [burstOf, BitVec.toNat_ofNat]
  simp only [hpair]
  exact Nat.mod_eq_of_lt hlt

/-- The beats of codeword j of a burst. -/
theorem beatOf_burstOf {ws : List (List Nat)} (h : Burst ws) {j : Nat} (hj : j < 8) :
    beatOf (burstOf ws) (2 * j) = ofDigitFn 16 (fun i => (ws.getD j []).getD i 0 % 16) 10 ∧
    beatOf (burstOf ws) (2 * j + 1) = ofDigitFn 16 (fun i => (ws.getD j []).getD i 0 / 16) 10 := by
  have hw := h.getD j
  have hlow := ofDigitFn_lt 10 (halves_lt hw).1
  have hhigh := ofDigitFn_lt 10 (halves_lt hw).2
  have hpair : (burstOf ws).toNat / (2 ^ 80) ^ j % 2 ^ 80 = pairOf (ws.getD j []) := by
    rw [burstOf_toNat h]
    exact ofDigitFn_digit (f := fun j => pairOf (ws.getD j [])) (fun j _ => pairOf_lt (h.getD j)) hj
  rw [beatOf, beatOf, bitsAt_eq, bitsAt_eq, show 2 ^ (40 * (2 * j)) = (2 ^ 80) ^ j by rw [← pow_mul]; ring_nf,
    show 2 ^ (40 * (2 * j + 1)) = (2 ^ 80) ^ j * 2 ^ 40 by rw [← pow_mul, ← pow_add]; ring_nf, ← Nat.div_div_eq_div_mul]
  generalize (burstOf ws).toNat / (2 ^ 80) ^ j = x at hpair ⊢
  rw [pairOf] at hpair
  constructor <;> omega

/-- A symbol of a burst is that of its word. -/
theorem symOf_burstOf {ws : List (List Nat)} (h : Burst ws) {j i : Nat} (hj : j < 8) (hi : i < 10) :
    symOf (burstOf ws) j i = (ws.getD j []).getD i 0 := by
  obtain ⟨hlow, hhigh⟩ := beatOf_burstOf h hj
  have hpow : 2 ^ (4 * i) = 16 ^ i := pow_mul 2 4 i
  rw [symOf, hlow, hhigh, bitsAt_eq, bitsAt_eq, hpow]
  rw [show (2 : Nat) ^ 4 = 16 from rfl, ofDigitFn_digit (halves_lt (h.getD j)).1 hi, ofDigitFn_digit (halves_lt (h.getD j)).2 hi]
  omega

/-- The words of a burst are those it is made of. -/
theorem wordOf_burstOf {ws : List (List Nat)} (h : Burst ws) {j : Nat} (hj : j < 8) : wordOf (burstOf ws) j = ws.getD j [] := by
  have hmem : ws.getD j [] ∈ ws := by
    rw [List.getD_eq_getElem _ _ (by rw [h.1]; exact hj)]
    exact List.getElem_mem _
  have hlen := (h.2 _ hmem).1
  refine List.ext_getElem (by rw [hlen, wordOf, List.length_map, List.length_range]) fun i h1 h2 => ?_
  have hi : i < 10 := by simpa [wordOf] using h1
  simp only [wordOf, List.getElem_map, List.getElem_range]
  rw [symOf_burstOf h hj hi, List.getD_eq_getElem _ _ (by rw [hlen]; exact hi)]

/-! ### Encoding and decoding a line (R309 to R311) -/

/-- The beats a line's data words make. -/
def rawLine (d : BitVec 512) : BitVec 640 :=
  BitVec.ofNat 640 (((List.range 16).map (fun b => bitsAt d.toNat (32 * b) 32 * 2 ^ (40 * b))).sum)

/-- The codewords of a line. -/
def lineWords (d : BitVec 512) : List (List Nat) := (List.range 8).map (fun j => withChecks ((wordOf (rawLine d) j).take 8))

theorem encodeLine_eq (d : BitVec 512) : encodeLine d = burstOf (lineWords d) := rfl

theorem lineWords_getD (d : BitVec 512) {j : Nat} (hj : j < 8) :
    (lineWords d).getD j [] = withChecks ((wordOf (rawLine d) j).take 8) := by
  simp [lineWords, hj]

theorem symOf_lt (v : BitVec 640) (j i : Nat) : symOf v j i < 256 := by
  have h1 := Nat.mod_lt (beatOf v (2 * j) / 2 ^ (4 * i)) (show 0 < 2 ^ 4 by decide)
  have h2 := Nat.mod_lt (beatOf v (2 * j + 1) / 2 ^ (4 * i)) (show 0 < 2 ^ 4 by decide)
  rw [symOf, bitsAt_eq, bitsAt_eq]
  omega

theorem wordOf_lt (v : BitVec 640) (j : Nat) : ∀ x ∈ wordOf v j, x < 256 := by
  intro x hx
  obtain ⟨i, -, rfl⟩ := List.mem_map.mp hx
  exact symOf_lt v j i

theorem withChecks_length (d : List Nat) : (withChecks d).length = d.length + 2 := by
  rw [withChecks, List.length_append]
  rfl

theorem lineWords_burst (d : BitVec 512) : Burst (lineWords d) := by
  refine ⟨by simp [lineWords], fun w hw => ?_⟩
  obtain ⟨j, -, rfl⟩ := List.mem_map.mp hw
  refine ⟨?_, (withChecks_spec _ fun x hx => wordOf_lt _ _ x (List.mem_of_mem_take hx)).1⟩
  rw [withChecks_length, List.length_take, wordOf, List.length_map, List.length_range]
  rfl

/-- The codewords of an encoded line are those made for it, and they are clean. -/
theorem wordOf_encodeLine (d : BitVec 512) {j : Nat} (hj : j < 8) :
    wordOf (encodeLine d) j = withChecks ((wordOf (rawLine d) j).take 8) := by
  rw [encodeLine_eq, wordOf_burstOf (lineWords_burst d) hj, lineWords_getD d hj]

theorem syndrome_encodeLine (d : BitVec 512) {j : Nat} (hj : j < 8) : syndrome (wordOf (encodeLine d) j) = (0, 0) := by
  rw [wordOf_encodeLine d hj]
  exact (withChecks_spec _ fun x hx => wordOf_lt _ _ x (List.mem_of_mem_take hx)).2

theorem withChecks_getD (d : List Nat) {i : Nat} (hi : i < d.length) : (withChecks d).getD i 0 = d.getD i 0 := by
  rw [List.getD_eq_getElem?_getD, List.getD_eq_getElem?_getD, withChecks]
  exact congrArg (·.getD 0) (List.getElem?_append_left hi)

theorem wordOf_getD (v : BitVec 640) (j : Nat) {i : Nat} (hi : i < 8) : ((wordOf v j).take 8).getD i 0 = symOf v j i := by
  rw [List.getD_eq_getElem?_getD, List.getElem?_take_of_lt hi, wordOf, List.getElem?_map,
    List.getElem?_range (show i < 10 by omega)]
  rfl

/-- The data symbols of an encoded line are those of its data. -/
theorem symOf_encodeLine (d : BitVec 512) {j i : Nat} (hj : j < 8) (hi : i < 8) :
    symOf (encodeLine d) j i = symOf (rawLine d) j i := by
  have hlen : i < ((wordOf (rawLine d) j).take 8).length := by
    rw [List.length_take, wordOf, List.length_map, List.length_range]
    omega
  rw [encodeLine_eq, symOf_burstOf (lineWords_burst d) hj (by omega), lineWords_getD d hj, withChecks_getD _ hlen,
    wordOf_getD _ _ hi]

/-- The halves of a symbol. -/
theorem symbol_halves {a b c d : Nat} (ha : a < 16) (hc : c < 16) (h : a + 16 * b = c + 16 * d) : a = c ∧ b = d := by
  omega

/-- A beat's data word is made of the low or high halves of its codeword's data symbols. -/
theorem beat_of_symbols {v w : BitVec 640} {j : Nat} (h : ∀ i, i < 8 → symOf v j i = symOf w j i) :
    beatOf v (2 * j) % 2 ^ 32 = beatOf w (2 * j) % 2 ^ 32 ∧ beatOf v (2 * j + 1) % 2 ^ 32 = beatOf w (2 * j + 1) % 2 ^ 32 := by
  have hpow : ∀ i, 2 ^ (4 * i) = 16 ^ i := fun i => pow_mul 2 4 i
  have hhalf : ∀ i, i < 8 → beatOf v (2 * j) / 16 ^ i % 16 = beatOf w (2 * j) / 16 ^ i % 16 ∧
      beatOf v (2 * j + 1) / 16 ^ i % 16 = beatOf w (2 * j + 1) / 16 ^ i % 16 := fun i hi => by
    have hs := h i hi
    rw [symOf, symOf, bitsAt_eq, bitsAt_eq, bitsAt_eq, bitsAt_eq, hpow] at hs
    exact symbol_halves (Nat.mod_lt _ (by decide)) (Nat.mod_lt _ (by decide)) hs
  have hword : ∀ x, x % 2 ^ 32 = ofDigitFn 16 (fun k => x / 16 ^ k % 16) 8 := fun x => by
    rw [ofDigitFn_of, show (16 : Nat) = 2 ^ 4 by norm_num, ← pow_mul]
  rw [hword, hword, hword, hword]
  exact ⟨ofDigitFn_congr fun i hi => (hhalf i hi).1, ofDigitFn_congr fun i hi => (hhalf i hi).2⟩

/-- A beat of a line's data. -/
theorem beatOf_rawLine (d : BitVec 512) {b : Nat} (hb : b < 16) : beatOf (rawLine d) b = d.toNat / (2 ^ 32) ^ b % 2 ^ 32 := by
  have hlt : ∀ k, k < 16 → d.toNat / (2 ^ 32) ^ k % 2 ^ 32 < 2 ^ 40 := fun k _ =>
    lt_trans (Nat.mod_lt _ (by decide)) (by decide)
  have hraw : ((List.range 16).map (fun b => bitsAt d.toNat (32 * b) 32 * 2 ^ (40 * b))).sum =
      ofDigitFn (2 ^ 40) (fun k => d.toNat / (2 ^ 32) ^ k % 2 ^ 32) 16 := by
    rw [ofDigitFn]
    exact congrArg List.sum (List.map_congr_left fun k _ => by rw [bitsAt_eq, pow_mul, pow_mul])
  have hpow : (2 ^ 40) ^ 16 = 2 ^ 640 := by rw [← pow_mul]
  have hsum := ofDigitFn_lt 16 hlt
  rw [hpow] at hsum
  rw [beatOf, bitsAt_eq, rawLine, BitVec.toNat_ofNat, hraw, Nat.mod_eq_of_lt hsum, pow_mul]
  exact ofDigitFn_digit hlt hb

/-- Decoding gives the data back. -/
theorem dataOf_encodeLine (d : BitVec 512) : dataOf (encodeLine d) = d := by
  have hbeat : ∀ b, b < 16 → bitsAt (beatOf (encodeLine d) b) 0 32 = d.toNat / (2 ^ 32) ^ b % 2 ^ 32 := fun b hb => by
    obtain ⟨heven, hodd⟩ := beat_of_symbols (v := encodeLine d) (w := rawLine d) (j := b / 2) fun i hi =>
      symOf_encodeLine d (by omega) hi
    have hraw := beatOf_rawLine d hb
    rw [bitsAt_zero]
    rcases Nat.mod_two_eq_zero_or_one b with h2 | h2
    · rw [show 2 * (b / 2) = b by omega, hraw, Nat.mod_mod] at heven
      exact heven
    · rw [show 2 * (b / 2) + 1 = b by omega, hraw, Nat.mod_mod] at hodd
      exact hodd
  have hsum : ((List.range 16).map (fun b => bitsAt (beatOf (encodeLine d) b) 0 32 * 2 ^ (32 * b))).sum = d.toNat := by
    have hpow : (2 ^ 32) ^ 16 = 2 ^ 512 := by rw [← pow_mul]
    have hd := ofDigitFn_of (2 ^ 32) d.toNat 16
    rw [hpow, Nat.mod_eq_of_lt d.isLt] at hd
    rw [← hd, ofDigitFn]
    exact congrArg List.sum (List.map_congr_left fun b hb => by rw [hbeat b (List.mem_range.mp hb), pow_mul])
  rw [dataOf, hsum, BitVec.ofNat_toNat, BitVec.setWidth_eq]

/-! ### One chip that gives wrong symbols (R310) -/

theorem xor_halves {a b c d : Nat} (ha : a < 16) (hc : c < 16) :
    (a + 16 * b) ^^^ (c + 16 * d) = (a ^^^ c) + 16 * (b ^^^ d) := by
  have hmod : ((a + 16 * b) ^^^ (c + 16 * d)) % 16 = a ^^^ c := by
    have h := Nat.xor_mod_two_pow (a := a + 16 * b) (b := c + 16 * d) (n := 4)
    rw [show (2 : Nat) ^ 4 = 16 from rfl] at h
    rw [h]
    congr 1 <;> omega
  have hdiv : ((a + 16 * b) ^^^ (c + 16 * d)) / 16 = b ^^^ d := by
    have h := Nat.xor_div_two_pow (a := a + 16 * b) (b := c + 16 * d) (n := 4)
    rw [show (2 : Nat) ^ 4 = 16 from rfl] at h
    rw [h]
    congr 1 <;> omega
  omega

theorem bitsAt_xor (x y k w : Nat) : bitsAt (x ^^^ y) k w = bitsAt x k w ^^^ bitsAt y k w := by
  rw [bitsAt_eq, bitsAt_eq, bitsAt_eq, Nat.xor_div_two_pow, Nat.xor_mod_two_pow]

theorem symOf_xor (v w : BitVec 640) (j i : Nat) : symOf (v ^^^ w) j i = symOf v j i ^^^ symOf w j i := by
  have half : ∀ x k, bitsAt x k 4 < 16 := fun x k => by rw [bitsAt_eq]; exact Nat.mod_lt _ (by decide)
  have beat : ∀ b, beatOf (v ^^^ w) b = beatOf v b ^^^ beatOf w b := fun b => by
    rw [beatOf, BitVec.toNat_xor, bitsAt_xor, beatOf, beatOf]
  rw [symOf, symOf, symOf, xor_halves (half _ _) (half _ _), beat, beat, bitsAt_xor, bitsAt_xor]

/-- The words of the error that one chip makes. -/
def chipError (chip : Fin 10) (x : Fin 8 → Fin 256) : List (List Nat) :=
  (List.finRange 8).map (fun j => (List.replicate 10 0).set chip.val (x j).val)

theorem chipError_burst (chip : Fin 10) (x : Fin 8 → Fin 256) : Burst (chipError chip x) := by
  refine ⟨by simp [chipError], fun w hw => ?_⟩
  obtain ⟨j, -, rfl⟩ := List.mem_map.mp hw
  refine ⟨by simp, fun y hy => ?_⟩
  rcases List.mem_or_eq_of_mem_set hy with h | rfl
  · rw [List.eq_of_mem_replicate h]
    decide
  · exact (x j).isLt

theorem chipError_getD (chip : Fin 10) (x : Fin 8 → Fin 256) (j : Fin 8) :
    (chipError chip x).getD j.val [] = (List.replicate 10 0).set chip.val (x j).val := by
  rw [List.getD_eq_getElem _ _ (by simp [chipError])]
  simp [chipError]

section Faulty

variable (d : BitVec 512) (chip : Fin 10) (x : Fin 8 → Fin 256)

/-- A line as it is read when one chip gives wrong symbols. -/
def faultyLine : BitVec 640 := encodeLine d ^^^ burstOf (chipError chip x)

/-- Its words are the sums of those of the line and those of the error. -/
theorem wordOf_faultyLine (j : Fin 8) : wordOf (faultyLine d chip x) j.val =
    ((wordOf (encodeLine d) j.val).zip ((List.replicate 10 0).set chip.val (x j).val)).map (fun p => p.1 ^^^ p.2) := by
  rw [← chipError_getD, ← wordOf_burstOf (chipError_burst chip x) j.isLt]
  refine List.ext_getElem (by simp [wordOf]) fun i h1 h2 => ?_
  simp [wordOf, faultyLine, symOf_xor]

theorem symDecode_faultyLine (j : Fin 8) : symDecode (wordOf (faultyLine d chip x) j.val) =
    if (x j).val = 0 then .clean else .single chip.val (x j).val := by
  have hlen : (wordOf (encodeLine d) j.val).length = ((List.replicate 10 0).set chip.val (x j).val).length := by
    simp [wordOf]
  have herr : ∀ y ∈ (List.replicate 10 0).set chip.val (x j).val, y < 256 := fun y hy =>
    ((chipError_burst chip x).2 _ (List.mem_map.mpr ⟨j, List.mem_finRange j, rfl⟩)).2 y hy
  rw [← symDecode_one]
  refine symDecode_congr ?_
  rw [wordOf_faultyLine, syndrome_xor]
  · rw [List.map_fst_zip (le_of_eq hlen), List.map_snd_zip (le_of_eq hlen.symm), syndrome_encodeLine d j.isLt]
    simp
  · intro p hp
    exact ⟨wordOf_lt _ _ _ (List.of_mem_zip hp).1, herr _ (List.of_mem_zip hp).2⟩

/-- The decoder puts the wrong symbol right. -/
theorem corrected_faultyLine (j : Fin 8) : (wordOf (faultyLine d chip x) j.val).set chip.val
    ((wordOf (faultyLine d chip x) j.val).getD chip.val 0 ^^^ (x j).val) = wordOf (encodeLine d) j.val := by
  rw [wordOf_faultyLine, List.getD_eq_getElem _ _ (by simp [wordOf])]
  refine List.ext_getElem (by simp [wordOf]) fun i h1 h2 => ?_
  rw [List.getElem_set]
  split
  · next h =>
    subst h
    simp
  · next h => simp only [List.getElem_map, List.getElem_zip, List.getElem_set, if_neg h, List.getElem_replicate, Nat.xor_zero]

/-- A word without an error is the line's own. -/
theorem clean_faultyLine (j : Fin 8) (h : (x j).val = 0) :
    wordOf (faultyLine d chip x) j.val = wordOf (encodeLine d) j.val := by
  have hfix := corrected_faultyLine d chip x j
  have hlen : chip.val < (wordOf (faultyLine d chip x) j.val).length := by simp [wordOf]
  rw [h, Nat.xor_zero, List.getD_eq_getElem _ _ hlen, List.set_getElem_self] at hfix
  exact hfix

end Faulty

/-! ### Decoding a burst (R310, R311) -/

/-- The poison pattern's codewords are uncorrectable ones. -/
theorem symDecode_poison : symDecode (wordOf poison 0) = .bad := by decide +kernel

theorem ne_poison {v : BitVec 640} (h : symDecode (wordOf v 0) ≠ .bad) : v ≠ poison := fun e =>
  h (e ▸ symDecode_poison)

/-- The chip a codeword's decoding names. -/
def chipOf (r : List Nat × Sym) : Option Nat :=
  match r.2 with
  | .single c _ => some c
  | _ => none

/-- A codeword put right by its decoding. -/
def fixedWord (r : List Nat × Sym) : List Nat :=
  match r.2 with
  | .single c x => r.1.set c (r.1.getD c 0 ^^^ x)
  | _ => r.1

/-- The codewords of a burst with their decoding. -/
def decodedWords (v : BitVec 640) : List (List Nat × Sym) := (List.range 8).map (fun j => (wordOf v j, symDecode (wordOf v j)))

theorem decodeBurst_eq (v : BitVec 640) : decodeBurst v = if v = poison then .poison else
    if (decodedWords v).any (fun r => r.2 == .bad) then .uncorr else
    match (decodedWords v).filterMap chipOf with
    | [] => .good (dataOf v)
    | c :: t => if t.all (fun x => x == c) then .fixed (burstOf ((decodedWords v).map fixedWord)) c else .uncorr := rfl

/-- A burst of clean codewords decodes as its data. -/
theorem decodeBurst_clean {v : BitVec 640} (h : ∀ j, j < 8 → symDecode (wordOf v j) = .clean) :
    decodeBurst v = .good (dataOf v) := by
  have hne : v ≠ poison := ne_poison (by rw [h 0 (by decide)]; decide)
  have hrs : decodedWords v = (List.range 8).map (fun j => (wordOf v j, Sym.clean)) :=
    List.map_congr_left fun j hj => by rw [h j (List.mem_range.mp hj)]
  rw [decodeBurst_eq, if_neg hne, hrs]
  rfl

/-- A burst whose codewords are clean or wrong at one and the same chip decodes as the corrected words. -/
theorem decodeBurst_single {v : BitVec 640} {c : Nat} {e : Nat → Nat} {ws : Nat → List Nat}
    (h : ∀ j, j < 8 → symDecode (wordOf v j) = if e j = 0 then .clean else .single c (e j))
    (hclean : ∀ j, j < 8 → e j = 0 → wordOf v j = ws j)
    (hfix : ∀ j, j < 8 → (wordOf v j).set c ((wordOf v j).getD c 0 ^^^ e j) = ws j) (hex : ∃ j, j < 8 ∧ e j ≠ 0) :
    decodeBurst v = .fixed (burstOf ((List.range 8).map ws)) c := by
  have hbad : ∀ j, j < 8 → symDecode (wordOf v j) ≠ .bad := fun j hj => by
    rw [h j hj]
    split <;> exact Sym.noConfusion
  have hany : (decodedWords v).any (fun r => r.2 == .bad) = false := by
    simp only [decodedWords, List.any_map, List.any_eq_false, List.mem_range, Function.comp, beq_iff_eq]
    exact hbad
  have hwords : (decodedWords v).map fixedWord = (List.range 8).map ws := by
    rw [decodedWords, List.map_map]
    refine List.map_congr_left fun j hj => ?_
    have hj := List.mem_range.mp hj
    simp only [Function.comp, fixedWord, h j hj]
    by_cases he : e j = 0
    · rw [if_pos he]
      exact hclean j hj he
    · rw [if_neg he]
      exact hfix j hj
  have hchips : ∀ x, x ∈ (decodedWords v).filterMap chipOf ↔ x = c := fun x => by
    simp only [decodedWords, List.mem_filterMap, List.mem_map, List.mem_range]
    constructor
    · rintro ⟨r, ⟨j, hj, rfl⟩, hr⟩
      simp only [chipOf, h j hj] at hr
      by_cases he : e j = 0
      · rw [if_pos he] at hr
        cases hr
      · rw [if_neg he] at hr
        exact (Option.some.inj hr).symm
    · rintro rfl
      obtain ⟨j, hj, he⟩ := hex
      exact ⟨_, ⟨j, hj, rfl⟩, by simp only [chipOf, h j hj, if_neg he]⟩
  rw [decodeBurst_eq, if_neg (ne_poison (hbad 0 (by decide))), hany, if_neg (by decide), hwords]
  generalize (decodedWords v).filterMap chipOf = chips at hchips
  cases chips with
  | nil => exact absurd ((hchips c).mpr rfl) (by simp)
  | cons a t =>
    have ha : a = c := (hchips a).mp List.mem_cons_self
    have ht : t.all (fun x => x == a) = true := List.all_eq_true.mpr fun x hx => by
      rw [(hchips x).mp (List.mem_cons_of_mem _ hx), ha]
      exact beq_self_eq_true c
    exact (if_pos ht).trans (by rw [ha])

namespace Machine

/-- Settles O52: codewords have both sums 0, an error adds those of its one symbol, and the layout of a burst loses nothing. -/
theorem symbolCodeCorrects : Obligations.SymbolCodeCorrects := by
  have hencoded : ∀ d : BitVec 512, ∀ j, j < 8 → symDecode (wordOf (encodeLine d) j) = .clean := fun d j hj => by
    rw [symDecode, syndrome_encodeLine d hj]
    rfl
  refine ⟨fun d => ?_, fun d chip x hex => ?_, fun d => ne_poison ?_, if_pos rfl⟩
  · rw [decodeBurst_clean (hencoded d), dataOf_encodeLine]
  · have hline : encodeLine d = burstOf ((List.range 8).map (wordOf (encodeLine d))) := by
      rw [encodeLine_eq, lineWords]
      exact congrArg burstOf (List.map_congr_left fun j hj => (wordOf_encodeLine d (List.mem_range.mp hj)).symm)
    obtain ⟨j, hj⟩ := hex
    have hval : ∀ j : Fin 8, (x (Fin.ofNat 8 j.val)).val = (x j).val := fun j => by rw [Fin.ofNat_val_eq_self]
    show decodeBurst (faultyLine d chip x) = _
    refine (decodeBurst_single (e := fun j => (x (Fin.ofNat 8 j)).val) (ws := wordOf (encodeLine d))
      (fun j hj => ?_) (fun j hj h0 => ?_) (fun j hj => ?_) ⟨j.val, j.isLt, ?_⟩).trans (by rw [← hline])
    · exact (symDecode_faultyLine d chip x ⟨j, hj⟩).trans (by rw [← hval])
    · exact clean_faultyLine d chip x ⟨j, hj⟩ (by rw [← hval]; exact h0)
    · have := corrected_faultyLine d chip x ⟨j, hj⟩
      rwa [← hval] at this
    · rw [hval]
      exact fun e => hj (Fin.ext e)
  · rw [hencoded d 0 (by decide)]
    decide

end Machine
end Sys2Proof
end

section
/-! PROOFS. Local memory at work (12): training, lines, partial writes, the bucket and the scrubber. -/

namespace Sys2Proof

/-! ### What the operations on lines leave alone -/

/-- Serving a line changes the order of service alone. -/
theorem lineServed_frame (c q : Nat) (m : M) : ∃ p t z, lineServed c q m =
    { m with mem := { m.mem with pend := p, turn := t, since := z } } := by
  rw [lineServed]
  split <;> exact ⟨_, _, _, rfl⟩

theorem lineServed_f (c q : Nat) (m : M) : (lineServed c q m).f = m.f := by
  obtain ⟨p, t, z, h⟩ := lineServed_frame c q m
  rw [h]

theorem lineServed_lines (c q : Nat) (m : M) : (lineServed c q m).mem.lines = m.mem.lines := by
  obtain ⟨p, t, z, h⟩ := lineServed_frame c q m
  rw [h]

theorem trained_congr {m m' : M} (h : m'.f = m.f) (c : Nat) : trained m' c = trained m c := by
  rw [trained, trained, M.flag, M.flag, M.fld_congr h]

theorem opTagWriteback_frame (c k : Nat) (m : M) : ∃ l t, opTagWriteback c k m =
    { m with mem := { m.mem with lines := l, tags := t } } := by
  rw [opTagWriteback]
  split <;> exact ⟨_, _, rfl⟩

/-! ### A line as its controller serves it (R314, R315) -/

/-- What a controller answers to a read. -/
def readAnswer (n : Nat) (p : LineRes × M) : M :=
  match p.1 with
  | .data d => p.2.emit (.line n 0 (leBytes 64 d.toNat))
  | x => p.2.emit (.line n x.kind [])

theorem readAnswer_fail (n : Nat) (m : M) {x : LineRes} (h : ∀ d, x ≠ .data d) :
    readAnswer n (x, m) = m.emit (.line n x.kind []) := by
  cases x with
  | data d => exact absurd rfl (h d)
  | uncorr => rfl
  | poison => rfl
  | tag => rfl

section Served

variable {im : Image} {m : M} {n line a r : Nat} {e te : BitVec 640}

theorem checkedRead_trained (spec : Bool) {x : LineRes} {k : Nat} (ht : trained m n = true)
    (hr : readLine im m n line a r e te = (x, k)) :
    checkedRead im n line a r spec e te m = (x, noteFail im n a r spec x (noteCorr im n k (!spec) m)) := by
  simp only [checkedRead, ht, if_true, hr]

/-- A read that finds its data counts no failure. -/
theorem noteFail_data (spec : Bool) (d : BitVec 512) : noteFail im n a r spec (.data d) m = m := if_pos rfl

/-- A read that is served at an address of a region. The read and the region map stand as variables while the branches are
chosen, so that no check evaluates them. -/
theorem serveRead_at (q : LineReq) (ha : localAddr im n (64 * line) = some a) (hr : regionOf im a = some r) {p : LineRes × M}
    (hx : checkedRead im n line a r q.spec e te (lineServed n q.own.val m) = p) :
    serveRead im n line q e te m = readAnswer n p := by
  obtain ⟨read, hread⟩ := exists_eq (a' := checkedRead im)
  obtain ⟨region, hregion⟩ := exists_eq (a' := regionOf im)
  rw [← hread] at hx
  rw [← hregion] at hr
  rw [serveRead, ← hread, ← hregion]
  simp only [ha, hr, hx]
  rcases p with ⟨x, m'⟩
  cases x <;> rfl

/-- What a controller answers to a write that merges, by the read before it. -/
def mergeAnswer (im : Image) (n line off : Nat) (b : List Byte) (a r : Nat) (te : BitVec 640) (p : LineRes × M) : M :=
  match p.1 with
  | .data d => (storeLine im n line a r (mergeLine d off b) te p.2).emit (.line n 0 [])
  | _ => (p.2.bump .MEM_ERR_B_WRITE_ERR n).emit (.line n 4 [])

theorem mergeAnswer_fail (im : Image) (n line off : Nat) (b : List Byte) (a r : Nat) (te : BitVec 640) (m : M) {x : LineRes}
    (h : ∀ d, x ≠ .data d) :
    mergeAnswer im n line off b a r te (x, m) = (m.bump .MEM_ERR_B_WRITE_ERR n).emit (.line n 4 []) := by
  cases x with
  | data d => exact absurd rfl (h d)
  | uncorr => rfl
  | poison => rfl
  | tag => rfl

theorem serveWrite_whole (q : Fin 9) {b : List Byte} (hb : b.length = 64) (ha : localAddr im n (64 * line) = some a)
    (hr : regionOf im a = some r) : serveWrite im n line 0 b q e te m =
      if trained (lineServed n q.val m) n then
        (storeLine im n line a r (BitVec.ofNat 512 (leVal b)) te (lineServed n q.val m)).emit (.line n 0 [])
      else (lineServed n q.val m).emit (.line n 4 []) := by
  have hok : ¬ (b = [] ∨ 64 < 0 + b.length) := by
    rintro (rfl | h)
    · simp at hb
    · omega
  obtain ⟨read, hread⟩ := exists_eq (a' := checkedRead im)
  obtain ⟨store, hstore⟩ := exists_eq (a' := storeLine im)
  obtain ⟨region, hregion⟩ := exists_eq (a' := regionOf im)
  rw [← hregion] at hr
  rw [serveWrite, ← hread, ← hregion, ← hstore]
  simp only [if_neg hok, ha, hr, if_pos hb]

theorem serveWrite_part (q : Fin 9) {b : List Byte} {off : Nat} (h1 : 1 ≤ b.length) (h2 : b.length < 64)
    (h3 : off + b.length ≤ 64) (ha : localAddr im n (64 * line) = some a) (hr : regionOf im a = some r) {p : LineRes × M}
    (hx : checkedRead im n line a r false e te (lineServed n q.val m) = p) :
    serveWrite im n line off b q e te m = mergeAnswer im n line off b a r te p := by
  have hok : ¬ (b = [] ∨ 64 < off + b.length) := by
    rintro (rfl | h)
    · simp at h1
    · omega
  obtain ⟨read, hread⟩ := exists_eq (a' := checkedRead im)
  obtain ⟨store, hstore⟩ := exists_eq (a' := storeLine im)
  obtain ⟨region, hregion⟩ := exists_eq (a' := regionOf im)
  rw [← hread] at hx
  rw [← hregion] at hr
  rw [serveWrite, mergeAnswer, ← hread, ← hregion, ← hstore]
  rcases p with ⟨x, m'⟩
  cases x <;> simp only [if_neg hok, ha, hr, if_neg (show ¬ b.length = 64 by omega), hx]

end Served

/-! ### Training -/

/-- A training that ends as it was asked for once (R304, R389). -/
theorem opTrainingComplete_eq (im : Image) (c : Nat) (r : TrainRes) {m : M} (h : m.flag .MEM_CH_STS_TRAINING c = true)
    (ha : m.askedAgain .MEM_CH_CTL_TRAIN c = false) :
    opTrainingComplete im c r m =
      match (if bitAt m.pins.calBad 2 ∧ r = .trained then .fail 2 false false else r) with
      | .trained => noteMem im (((m.setFlag .MEM_CH_CTL_TRAIN c false).setFlag .MEM_CH_STS_TRAINING c false).setFlag
          .MEM_CH_STS_TRAINED c true)
      | .fail cause sub rank => (((((m.setFlag .MEM_CH_CTL_TRAIN c false).setFlag .MEM_CH_STS_TRAINING c false).setFlag
          .MEM_CH_STS_TRAIN_FAIL c true).setFld .MEM_CH_STS_FAIL_CAUSE c cause.val).setFlag
          .MEM_CH_STS_FAIL_SUB c sub).setFlag .MEM_CH_STS_FAIL_RANK c rank := by
  rw [opTrainingComplete, if_neg (by simp [h])]
  simp only [ha, M.setFlag_pins]
  rfl

/-! ### The scrubber's line (R322) -/

section Scrub

variable {im : Image} {m : M} {c k : Nat} {e : BitVec 640}

theorem scrubDec_at {v : BitVec 640} (ht : trained m c = true) (hl : mapFind m.mem.lines (c, k) = some v) :
    scrubDec m c k e = decodeBurst (v ^^^ e) := by
  simp only [scrubDec, ht, if_true, hl]

theorem scrubDec_none (hl : mapFind m.mem.lines (c, k) = none) : scrubDec m c k e = .uncorr := by
  rw [scrubDec, hl]
  split <;> simp_all

theorem scrubOne_good {d : BitVec 512} (h : scrubDec m c k e = .good d) :
    scrubOne im c k e m = m.bump .MEM_SCRUB_SUM_A_LINES c := by
  simp only [scrubOne, h]

theorem scrubOne_poison (h : scrubDec m c k e = .poison) :
    scrubOne im c k e m = (m.bump .MEM_SCRUB_SUM_A_LINES c).bump .MEM_SCRUB_SUM_B_POISON_SEEN c := by
  simp only [scrubOne, h]

theorem scrubOne_uncorr (ht : trained m c = true) (h : scrubDec m c k e = .uncorr)
    (hv : (m.bump .MEM_SCRUB_SUM_A_LINES c).flag .MEM_SCRUB_SUM_C_FAIL_VALID c = false) :
    scrubOne im c k e m =
      let p := (m.bump .MEM_SCRUB_SUM_A_LINES c).bump .MEM_SCRUB_SUM_B_UNCORR c
      ((({ p with mem := { p.mem with lines := mapPut p.mem.lines (c, k) poison } } : M).setFld
        .MEM_SCRUB_SUM_C_FIRST_FAIL c k).setFld .MEM_SCRUB_SUM_C_LAST_FAIL c k).setFlag .MEM_SCRUB_SUM_C_FAIL_VALID c true := by
  have ht' : trained ((m.bump .MEM_SCRUB_SUM_A_LINES c).bump .MEM_SCRUB_SUM_B_UNCORR c) c = true := by
    rw [trained, M.flag_bump_ne _ _ _ (by decide), M.flag_bump_ne _ _ _ (by decide)]
    exact ht
  have hv' : ((m.bump .MEM_SCRUB_SUM_A_LINES c).bump .MEM_SCRUB_SUM_B_UNCORR c).flag .MEM_SCRUB_SUM_C_FAIL_VALID c = false := by
    rw [M.flag_bump_ne _ _ _ (by decide)]
    exact hv
  simp only [scrubOne, h, ht', if_true]
  generalize (m.bump .MEM_SCRUB_SUM_A_LINES c).bump .MEM_SCRUB_SUM_B_UNCORR c = p at hv'
  exact congrArg (fun q : M => (q.setFld .MEM_SCRUB_SUM_C_LAST_FAIL c k).setFlag .MEM_SCRUB_SUM_C_FAIL_VALID c true)
    (if_neg (fun e => Bool.noConfusion (hv'.symm.trans e)))

theorem opScrubLine_waits {a b : Nat} (hr : m.inReset (29 + c) 0 = false) (hs : mapFind m.mem.scrub (c, 0) = some (a, b))
    (h : scrubMay m c (scrubDec (opTagWriteback c (a + m.fld .MEM_SCRUB_SUM_A_LINES c) m) c
      (a + m.fld .MEM_SCRUB_SUM_A_LINES c) e).bursts = false ∨ lineTurn m c 8 = false) : opScrubLine im c e m = m := by
  rw [opScrubLine, if_neg (by simp [hr]), hs]
  exact if_pos h

/-- The bursts of the next line are noted, and the owner's turn is taken. -/
def scrubTaken (c n : Nat) (m : M) : M :=
  lineServed c 8 { m with mem := { m.mem with
    bursts := mapPut m.mem.bursts (c, 0) (List.replicate n m.now ++ scrubBursts m c) } }

theorem opScrubLine_runs {a b : Nat} (hr : m.inReset (29 + c) 0 = false) (hs : mapFind m.mem.scrub (c, 0) = some (a, b))
    (hmay : scrubMay m c (scrubDec (opTagWriteback c (a + m.fld .MEM_SCRUB_SUM_A_LINES c) m) c
      (a + m.fld .MEM_SCRUB_SUM_A_LINES c) e).bursts = true) (hturn : lineTurn m c 8 = true) :
    opScrubLine im c e m =
      let k := a + m.fld .MEM_SCRUB_SUM_A_LINES c
      let m1 := scrubTaken c (scrubDec (opTagWriteback c k m) c k e).bursts (opTagWriteback c k m)
      if b ≤ k then endScrub im c false (scrubOne im c k e m1) else scrubOne im c k e m1 := by
  rw [opScrubLine, if_neg (by simp [hr]), hs]
  exact if_neg (by simp [hmay, hturn])

/-- A tag line that goes back leaves the scrubber's bursts and the time. -/
theorem scrubBursts_opTagWriteback (c k : Nat) (m : M) : List.replicate n (opTagWriteback c k m).now ++
    scrubBursts (opTagWriteback c k m) c = List.replicate n m.now ++ scrubBursts m c := by
  obtain ⟨l, t, h⟩ := opTagWriteback_frame c k m
  rw [h]
  rfl

end Scrub

theorem M.fld_setFld_other (m : M) {F G : Fld} {i j : Nat} (v : Nat) (h : G ≠ F) : (m.setFld F i v).fld G j = m.fld G j :=
  M.fld_setFld_ne m v fun e => h e.1

theorem M.flag_setFlag_same (m : M) (F : Fld) (i : Nat) (b : Bool) (hw : 1 < 2 ^ (fldSpec F).w) :
    (m.setFlag F i b).flag F i = b := by
  rw [M.flag, M.fld_setFlag, if_pos ⟨rfl, rfl⟩, Nat.mod_eq_of_lt (lt_of_le_of_lt (Bool.toNat_le b) hw)]
  cases b <;> rfl

theorem M.flag_setFlag_other (m : M) {F G : Fld} {i j : Nat} (b : Bool) (h : G ≠ F) :
    (m.setFlag F i b).flag G j = m.flag G j := by
  rw [M.flag, M.fld_setFlag, if_neg fun e => h e.1, M.flag]

/-- The fields of a channel whose training begins. -/
def trainFlds (c : Nat) (m : M) : M :=
  ((((m.setFlag .MEM_CH_CTL_TRAIN c true).setFlag .MEM_CH_STS_TRAINING c true).setFlag .MEM_CH_STS_TRAINED c
    false).setFlag .MEM_CH_STS_TRAIN_FAIL c false).setFld .MEM_CH_STS_FAIL_CAUSE c 0

theorem trainFlds_spec (c : Nat) (m : M) : (trainFlds c m).flag .MEM_CH_STS_TRAINING c = true ∧
    (trainFlds c m).flag .MEM_CH_STS_TRAINED c = false ∧ (trainFlds c m).flag .MEM_CH_STS_TRAIN_FAIL c = false ∧
    (trainFlds c m).fld .MEM_CH_STS_FAIL_CAUSE c = 0 := by
  refine ⟨?_, ?_, ?_, ?_⟩
  · rw [trainFlds, Machine.flag_setFld_ne _ (by decide), M.flag_setFlag_other _ _ (by decide), M.flag_setFlag_other _ _ (by decide),
      M.flag_setFlag_same _ _ _ _ (by decide)]
  · rw [trainFlds, Machine.flag_setFld_ne _ (by decide), M.flag_setFlag_other _ _ (by decide),
      M.flag_setFlag_same _ _ _ _ (by decide)]
  · rw [trainFlds, Machine.flag_setFld_ne _ (by decide), M.flag_setFlag_same _ _ _ _ (by decide)]
  · rw [trainFlds, M.fld_setFld_same]
    rfl

theorem trainFlds_kept (c : Nat) (m : M) {F : Fld} {i : Nat} (h : (F, i) ∉ [(.MEM_CH_CTL_TRAIN, c), (.MEM_CH_STS_TRAINING, c),
    (.MEM_CH_STS_TRAINED, c), (.MEM_CH_STS_TRAIN_FAIL, c), (.MEM_CH_STS_FAIL_CAUSE, c)]) :
    (trainFlds c m).fld F i = m.fld F i := by
  simp only [List.mem_cons, Prod.mk.injEq, List.not_mem_nil, or_false, not_or] at h
  obtain ⟨h1, h2, h3, h4, h5⟩ := h
  simp only [trainFlds, M.fld_setFld, M.fld_setFlag, if_neg h1, if_neg h2, if_neg h3, if_neg h4, if_neg h5]

namespace Machine

section Line

variable {s : State} {c : Fin 4} {line : Nat} {e te : BitVec 640}

/-- A row that waits is only queued. -/
theorem holdRow_held {im : Image} {i : Access} {run : M → M} {m : M} (h : rowHeld im m i = true) :
    holdRow im i run m = { m with held := m.held ++ [i] } := if_pos h

theorem holdRow_free {im : Image} {i : Access} {run : M → M} {m : M} (h : rowHeld im m i = false) :
    holdRow im i run m = run m := if_neg (by simp [h])

theorem rowHeld_lineRead (im : Image) (m : M) (q : LineReq) :
    rowHeld im m (.lineRead c line q e te) = m.inReset (29 + c.val) 0 := rfl

theorem rowHeld_lineWrite (im : Image) (m : M) (q : LineReq) (off : Nat) (b : List Byte) :
    rowHeld im m (.lineWrite c line off b q e te) =
      (m.inReset (29 + c.val) 0 || (b.length == 64 && keyWanting im m c.val line)) := rfl

/-- A read that no block reset holds runs when its requester's turn has come. -/
theorem completes_of_lineRead {q : LineReq} {m' : M} (hr : s.m.inReset (29 + c.val) 0 = false)
    (h : opLineRead s.inForce c.val line q e te s.m = m') : Completes (.lineRead c line q e te) s m' :=
  completes_of_upd rfl ((holdRow_free ((rowHeld_lineRead _ _ q).trans hr)).trans h)

theorem completes_of_lineWrite {q : LineReq} {off : Nat} {b : List Byte} {m' : M} (hr : s.m.inReset (29 + c.val) 0 = false)
    (hk : keyWanting s.inForce s.m c.val line = false) (h : opLineWrite s.inForce c.val line off b q.own e te s.m = m') :
    Completes (.lineWrite c line off b q e te) s m' := by
  refine completes_of_upd rfl ((holdRow_free ?_).trans h)
  rw [rowHeld_lineWrite, hr, hk, Bool.and_false, Bool.or_false]

end Line

/-- A command whose row reaches its register, and whose operation asks for nothing, comes to that operation's state. -/
theorem next_of_rowTaken {s : State} {a : Access} {c : Instr} (h : RowTaken s a)
    (hc : exec c s = .next (s.upd fun im m => opRow im a m)) (hn : touchRow s.inForce a s.m = s.m)
    (hr : (runRow s.inForce a s.m).react = []) : exec c s = .next { s with m := runRow s.inForce a s.m } := by
  rw [hc, State.upd, opRow_taken h, hn, settle_calm _ _ hr]

/-- Training begins with what the channel held lost (R304). -/
theorem opTrain_eq {m : M} (c : Nat) (hp : m.flag .MEM_CH_STS_PRESENT c = true) (ht : m.flag .MEM_CH_STS_TRAINING c = false) :
    opTrain c m = { m with
      f := (trainFlds c m).f
      mem := { m.mem with
        lines := m.mem.lines.filter (fun x => x.1.1 != c), tags := m.mem.tags.filter (fun x => x.1.1 != c)
        selfRef := m.mem.selfRef.filter (fun x => x != c) }
      pins := { m.pins with memReset := m.pins.memReset ||| 2 ^ c } } := by
  rw [opTrain, if_neg (by simp [ht]), if_neg (by simp [hp])]
  rfl

theorem opRefresh_eq {m : M} (c : Nat) (hot : Bool) (h : c ∉ m.mem.selfRef) : opRefresh c hot m = { m with mem := { m.mem with
    double := if hot then c :: m.mem.double.filter (fun x => x != c) else m.mem.double.filter (fun x => x != c) } } :=
  if_neg (fun e => h (List.contains_iff_mem.mp e))

/-- The list of channels that refresh at double rate after one of them changed. -/
theorem mem_double (l : List Nat) (c : Nat) (hot : Bool) :
    (c ∈ (if hot then c :: l.filter (fun x => x != c) else l.filter (fun x => x != c)) ↔ hot = true) ∧
    ∀ k, k ≠ c → (k ∈ (if hot then c :: l.filter (fun x => x != c) else l.filter (fun x => x != c)) ↔ k ∈ l) := by
  refine ⟨?_, fun k hk => ?_⟩
  · cases hot <;> simp
  · cases hot <;> simp [hk]

/-- The three fields that a write of MEM_BUCKET sets (R320). -/
theorem opBucketWrite_fld (c v : Nat) (m : M) :
    (opBucketWrite c v m).fld .MEM_BUCKET_DEPTH c = max 1 (v % 2 ^ 16) ∧
    (opBucketWrite c v m).fld .MEM_BUCKET_LEAK_LOG2 c = min 20 (v / 2 ^ 16 % 32) ∧
    (opBucketWrite c v m).fld .MEM_BUCKET_LEVEL c ≤ max 1 (v % 2 ^ 16) := by
  have hdepth : max 1 (v % 2 ^ 16) < 2 ^ 16 := by omega
  have hleak : min 20 (v / 2 ^ 16 % 32) < 2 ^ 5 := by omega
  have e1 : bitsAt v 0 16 = v % 2 ^ 16 := bitsAt_zero v 16
  have e2 : bitsAt v 16 5 = v / 2 ^ 16 % 32 := bitsAt_eq v 16 5
  rw [opBucketWrite, e1, e2]
  refine ⟨?_, ?_, ?_⟩
  · rw [M.fld_setFld_other _ _ (by decide), M.fld_setFld_other _ _ (by decide), M.fld_setFld_same]
    exact Nat.mod_eq_of_lt hdepth
  · rw [M.fld_setFld_other _ _ (by decide), M.fld_setFld_same]
    exact Nat.mod_eq_of_lt hleak
  · rw [M.fld_setFld_same]
    refine (Nat.mod_le _ _).trans ((Nat.min_le_right _ _).trans ?_)
    rw [M.fld_setFld_other _ _ (by decide), M.fld_setFld_same]
    exact Nat.mod_le _ _

/-- START alone in a write of MEM_SCRUB_CTL (R321). -/
theorem opScrubStart_eq (im : Image) (c v : Nat) (m0 : M) (h0 : v % 2 = 1) (h1 : v / 2 % 2 = 0) (h2 : v / 8 % 4 = 0) :
    opScrubStart im c v m0 =
      let m := m0.setFld .MEM_SCRUB_CTL_RATE c (v / 2 ^ 8 % 32)
      let a := m.fld .MEM_SCRUB_RANGE_FIRST c
      let b := m.fld .MEM_SCRUB_RANGE_LAST c
      if m.flag .MEM_SCRUB_CTL_BUSY c ∨ trained m c = false ∨ v / 2 ^ 8 % 32 = 0 ∨ 25 < v / 2 ^ 8 % 32 ∨ b < a ∨ capLines im c ≤ b then
        m.setFlag .MEM_SCRUB_CTL_REFUSED c true
      else
        let m := clearSummary c ((m.setFlag .MEM_SCRUB_CTL_DONE c false).setFlag .MEM_SCRUB_CTL_STOPPED c false)
        let m := (m.setFlag .MEM_SCRUB_CTL_BUSY c true).setFlag .MEM_SCRUB_CTL_START c true
        irqSync im 8 (0x808 + c) { m with mem := { m.mem with scrub := mapPut m.mem.scrub (c, 0) (a, b) } } := by
  have hbit : ∀ k, bitAt v k = decide (v / 2 ^ k % 2 = 1) := fun k => Nat.testBit_eq_decide_div_mod_eq
  have b0 : bitAt v 0 = true := by rw [hbit]; simpa using h0
  have b1 : bitAt v 1 = false := by rw [hbit]; simp; omega
  have b3 : bitAt v 3 = false := by rw [hbit]; simp; omega
  have b4 : bitAt v 4 = false := by rw [hbit]; simp; omega
  have er : bitsAt v 8 5 = v / 2 ^ 8 % 32 := bitsAt_eq v 8 5
  have hrate : (m0.setFld .MEM_SCRUB_CTL_RATE c (v / 2 ^ 8 % 32)).fld .MEM_SCRUB_CTL_RATE c = v / 2 ^ 8 % 32 := by
    rw [M.fld_setFld_same]
    exact Nat.mod_eq_of_lt (Nat.mod_lt _ (by decide))
  rw [opScrubStart, if_neg (by simp [b0])]
  simp only [b1, b3, b4, er, Bool.false_eq_true, if_false, hrate]

/-- Settles O53: each command is a branch of its operation; what a line's service changes besides the line is the order of
service alone. -/
theorem memoryRuns : Obligations.MemoryRuns := by
  intro s c im n
  refine ⟨fun hrow hpres htr hreact => ?_, ?_, fun line q e te hres => ⟨?_, fun off b => ?_⟩,
    fun line q e te b hb hk => ?_, ?_, fun tl d hd => ?_, fun hot hin => ?_, fun hot hin => ?_, ?_,
    fun v hrow hreact => ?_, ?_, fun hrow => ⟨fun h => ?_, fun h => ?_⟩, ?_⟩
  · have hop := opTrain_eq n hpres htr
    have hrun := next_of_rowTaken (c := .train c) hrow rfl rfl (by
      show (opTrain n s.m).react = []
      rw [hop]; exact hreact)
    rw [show runRow s.inForce (.train c) s.m = opTrain n s.m from rfl, hop] at hrun
    obtain ⟨h1, h2, h3, h4⟩ := trainFlds_spec n s.m
    exact ⟨_, hrun, h1, h2, h3, h4, rfl, rfl, fun F i hF => trainFlds_kept n s.m hF, rfl⟩
  · intro htr hask m
    refine ⟨fun hcal => ?_, fun hcal => ?_, fun cause sub rank => ?_⟩
    · refine completes_of_upd rfl ((opTrainingComplete_eq _ _ _ htr hask).trans ?_)
      rw [if_neg (by simp [hcal])]
    · refine completes_of_upd rfl ((opTrainingComplete_eq _ _ _ htr hask).trans ?_)
      rw [if_pos ⟨hcal, rfl⟩]
      rfl
    · refine completes_of_upd rfl ((opTrainingComplete_eq _ _ _ htr hask).trans ?_)
      rw [if_neg (by simp)]
  · exact completes_of_upd rfl (holdRow_held hres)
  · exact completes_of_upd rfl (holdRow_held ((rowHeld_lineWrite _ _ q off b).trans (Bool.or_eq_true_iff.mpr (Or.inl hres))))
  · exact completes_of_upd rfl (holdRow_held ((rowHeld_lineWrite _ _ q 0 b).trans
      (Bool.or_eq_true_iff.mpr (Or.inr (Bool.and_eq_true_iff.mpr ⟨beq_iff_eq.mpr hb, hk⟩)))))
  · intro line a r q hres hkey ha hr
    refine ⟨fun hturn e te => ⟨completes_of_lineRead hres (if_neg (by simpa using hturn)),
      fun off b => completes_of_lineWrite hres hkey (if_neg (by simpa using hturn))⟩, ?_⟩
    intro hturn m1
    have ht1 : trained m1 n = trained s.m n := trained_congr (lineServed_f _ _ _) n
    refine ⟨fun e te ht d k hd => ?_, fun e te x k ht hx hnd => ?_, fun b e te hb => ⟨fun ht => ?_, fun ht => ?_⟩,
      fun b off e te d k h1 h2 h3 ht hd => ?_, fun b off e te x k h1 h2 h3 ht hx hnd => ?_⟩
    · refine completes_of_lineRead hres ((if_pos hturn).trans
        ((serveRead_at q ha hr (checkedRead_trained q.spec (ht1.trans ht) hd)).trans ?_))
      rw [noteFail_data]
      rfl
    · refine completes_of_lineRead hres ((if_pos hturn).trans
        ((serveRead_at q ha hr (checkedRead_trained q.spec (ht1.trans ht) hx)).trans ?_))
      exact readAnswer_fail n _ hnd
    · exact completes_of_lineWrite hres hkey ((if_pos hturn).trans
        ((serveWrite_whole q.own hb ha hr).trans (if_pos (ht1.trans ht))))
    · exact completes_of_lineWrite hres hkey ((if_pos hturn).trans
        ((serveWrite_whole q.own hb ha hr).trans (if_neg (by rw [ht1, ht]; decide))))
    · refine completes_of_lineWrite hres hkey ((if_pos hturn).trans
        ((serveWrite_part q.own h1 h2 h3 ha hr (checkedRead_trained false (ht1.trans ht) hd)).trans ?_))
      rw [noteFail_data]
      rfl
    · refine completes_of_lineWrite hres hkey ((if_pos hturn).trans
        ((serveWrite_part q.own h1 h2 h3 ha hr (checkedRead_trained false (ht1.trans ht) hx)).trans ?_))
      exact mergeAnswer_fail im n line off b a r te _ hnd
  · exact completes_of_upd rfl (by rw [opTagWriteback, hd])
  · exact completes_of_upd rfl (if_pos (List.contains_iff_mem.mpr hin))
  · exact ⟨_, completes_of_upd rfl (opRefresh_eq n hot hin), mem_double _ n hot⟩
  · intro t due
    refine ⟨fun hdue => completes_of_upd rfl ?_, fun hdue => completes_of_upd rfl ?_⟩
    · obtain ⟨hon, hnow, hph, hmod, hat⟩ := hdue
      refine if_neg ?_
      rintro (h | h | h | h | h)
      · rw [hon] at h
        cases h
      · exact h hnow
      · omega
      · exact h hmod
      · exact hat h
    · refine if_pos ?_
      by_contra hno
      simp only [not_or, not_and, not_not, Bool.not_eq_false] at hno
      obtain ⟨hon, hnow, hph, hmod, hat⟩ := hno
      exact hdue ⟨hon, hnow, by omega, hmod, hat⟩
  · have hcalm : (runRow s.inForce (.memBucketWrite c v) s.m).react = [] := (noteRsvd_react _ _ _ _ _).trans hreact
    refine ⟨_, next_of_rowTaken (c := .memBucketWrite c v) hrow rfl rfl hcalm, ?_⟩
    exact opBucketWrite_fld n v.toNat _
  · intro v hrow hstart hstop hclear rate m a b sound
    have hscrub := opScrubStart_eq im n v.toNat (noteRsvd .owner .MEM_SCRUB_CTL n v.toNat s.m) hstart hstop hclear
    refine ⟨fun hno => completes_of_rowTaken hrow rfl (hscrub.trans (if_pos ?_)),
      fun hyes => completes_of_rowTaken hrow rfl (hscrub.trans (if_neg ?_))⟩
    · by_contra hall
      simp only [not_or, Bool.not_eq_true, Bool.not_eq_false] at hall
      obtain ⟨h1, h2, h3, h4, h5, h6⟩ := hall
      exact hno ⟨h1, h2, Nat.pos_of_ne_zero h3, not_lt.mp h4, not_lt.mp h5, not_le.mp h6⟩
    · obtain ⟨h1, h2, h3, h4, h5, h6⟩ := hyes
      rintro (h | h | h | h | h | h)
      · exact absurd (h1.symm.trans h) (by decide)
      · exact absurd (h2.symm.trans h) (by decide)
      · exact absurd h (Nat.ne_of_gt h3)
      · exact absurd h4 (not_le.mpr h)
      · exact absurd h5 (not_le.mpr h)
      · exact absurd h6 (not_lt.mpr h)
  · exact completes_of_rowTaken hrow rfl (if_pos h)
  · exact completes_of_rowTaken hrow rfl (if_neg (Bool.eq_false_iff.mp h))
  · intro e a b hres hscr k m0 x
    obtain ⟨l, t, hm0⟩ := opTagWriteback_frame n k s.m
    refine ⟨fun hno => completes_of_upd rfl (opScrubLine_waits hres hscr hno), ?_⟩
    intro hmay hturn htr m1 m
    have hf : m1.f = s.m.f := by
      rw [lineServed_f]
      show (opTagWriteback n k s.m).f = s.m.f
      rw [hm0]
    have ht1 : trained m1 n = true := (trained_congr hf n).trans htr
    have hlines : m1.mem.lines = m0.mem.lines := lineServed_lines _ _ _
    have htaken : m1 = scrubTaken n x m0 := congrArg (fun l : List Nat => lineServed n 8 { m0 with mem := { m0.mem with
      bursts := mapPut m0.mem.bursts (n, 0) l } }) (scrubBursts_opTagWriteback n k s.m).symm
    have runs : ∀ {m' : M}, (if b ≤ k then endScrub im n false (scrubOne im n k e m1) else scrubOne im n k e m1) = m' →
        Completes (.scrubLine c e) s m' := fun h => completes_of_upd rfl ((opScrubLine_runs hres hscr hmay hturn).trans (by rw [htaken] at h; exact h))
    have hdec : ∀ {v : BitVec 640}, mapFind m0.mem.lines (n, k) = some v → scrubDec m1 n k e = decodeBurst (v ^^^ e) :=
      fun hv => scrubDec_at ht1 (hlines ▸ hv)
    refine ⟨fun v d hk hv hd => runs ?_, fun v hk hv hd => runs ?_, ?_, fun v d hk hv hd => runs ?_⟩
    · rw [if_neg (by omega), scrubOne_good ((hdec hv).trans hd)]
    · rw [if_neg (by omega), scrubOne_poison ((hdec hv).trans hd)]
    · intro hk hnone hvalid p
      refine runs ?_
      rw [if_neg (by omega), scrubOne_uncorr ht1 (scrubDec_none (hlines ▸ hnone)) hvalid]
    · rw [if_pos hk, scrubOne_good ((hdec hv).trans hd)]

end Machine
end Sys2Proof
end

section
/-! PROOFS. Configuration, link and power states of the host ports (10, R255 to R272). -/

namespace Sys2Proof

/-! ### A port on which nothing waits -/

theorem pumpWaiting_none {p : Nat} {m : M} (h : (m.hostOf p).waitq = []) : pumpWaiting p m = m := by
  rw [pumpWaiting, h]
  rfl

theorem pumpHost_none {p : Nat} {m : M} (hw : (m.hostOf p).waitq = []) (hq : (m.hostOf p).msgq = []) : pumpHost p m = m := by
  have hnone : readyMsgs (m.hostOf p).msgq.length m p = [] := by rw [readyMsgs, hq]; rfl
  rw [pumpHost, pumpWaiting_none hw, issueMsgs, issueFirst, hnone]
  simp

theorem hostTlp_hostOf (p : Nat) (m : M) : (hostTlp p m).hostOf p = { m.hostOf p with lastTlp := m.now } :=
  M.hostOf_setHost _ _ _

theorem widthOk_of_mem {w : Nat} (h : w ∈ [1, 2, 4, 8, 16]) : widthOk w = true := by
  have hall : ∀ w ∈ [1, 2, 4, 8, 16], widthOk w = true := by decide
  exact hall w h

/-! ### Configuration requests (R47, R264) -/

section Request

variable {im : Image} {p : Nat} {m : M} (act : M → M)

theorem cfgRequest_down (h : im.enabled p = false ∨ (m.hostOf p).up = false) : cfgRequest im p act m = m := if_pos h

theorem cfgRequest_retry (he : im.enabled p = true) (hu : (m.hostOf p).up = true)
    (h : isReady m p = false ∨ m.flag .HPT_STS_DRAINING (pinst p 0) = true) :
    cfgRequest im p act m = (hostTlp p m).emit (.crs p) := by
  rw [cfgRequest, if_neg (by simp [he, hu]), if_pos h]

theorem cfgRequest_ready (he : im.enabled p = true) (hu : (m.hostOf p).up = true) (hr : isReady m p = true)
    (hd : m.flag .HPT_STS_DRAINING (pinst p 0) = false) : cfgRequest im p act m = act (hostTlp p m) := by
  rw [cfgRequest, if_neg (by simp [he, hu]), if_neg (by simp [hr, hd])]

end Request

theorem ioLocked_open {im : Image} {p : Nat} {m : M} (he : im.enabled p = true) (hu : (m.hostOf p).up = true) :
    opIoLocked im p m = (hostTlp p m).emit (.cplUr p) := by
  rw [opIoLocked, if_neg (by simp [he, hu])]

/-! ### The dwords that the spec gives (R255, R259) -/

theorem cfgDword_bar {im : Image} {m : M} {p off : Nat} (h1 : 0x10 ≤ off) (h2 : off < 0x28) :
    cfgDword im m p off = barRead im (m.hostOf p) p ((off - 0x10) / 4) := by
  rw [cfgDword, if_neg (by omega), if_neg (by omega), if_neg (by omega), if_neg (by omega), if_pos ⟨h1, h2⟩]

theorem barRead_zero (im : Image) (h : HostSt) (p : Nat) : barRead im h p 0 = h.bars.getD 0 0 / 2 ^ 24 * 2 ^ 24 % 2 ^ 32 + 4 := rfl

theorem barRead_one (im : Image) (h : HostSt) (p : Nat) : barRead im h p 1 = h.bars.getD 1 0 := by
  show h.bars.getD 1 0 / max 1 (0x1000000 / 2 ^ 32) * max 1 (0x1000000 / 2 ^ 32) = _
  simp

theorem barRead_four (im : Image) (h : HostSt) (p : Nat) : barRead im h p 4 = h.bars.getD 4 0 / 2 ^ 16 * 2 ^ 16 % 2 ^ 32 + 4 := rfl

theorem cfgDword_none (im : Image) (m : M) (p : Nat) : cfgDword im m p 0x30 = 0 := rfl

/-- A write of a BAR keeps what is written (R259). -/
theorem cfgWrite_bar {p off v : Nat} {m : M} (h1 : 0x10 ≤ off) (h2 : off < 0x28) : cfgWrite p off v m =
    m.setHost p { m.hostOf p with bars := (m.hostOf p).bars.set ((off - 0x10) / 4) v } := if_pos ⟨h1, h2⟩

/-! ### Link-up (R256) -/

theorem M.fld_setFlag_other (m : M) {F G : Fld} {i j : Nat} (b : Bool) (h : G ≠ F) : (m.setFlag F i b).fld G j = m.fld G j :=
  M.fld_setFld_other m _ h

/-- The port once its link has come up at rate r and width w, before what waits on it is issued. -/
def linkUp (p r w : Nat) (flit : Bool) (m : M) : M :=
  let i := pinst p 0
  let m := ((m.setFld .HPT_STS_RATE i r).setFlag .HPT_STS_FLIT i (decide (6 ≤ r) || (r == 5 && flit)))
  let m := ((m.setFld .HPT_STS_WIDTH i w).setFld .HPT_STS_CUR_WIDTH i w).setFld .HPT_STS_LSTATE i 0
  let m := m.setFld .IMG_PORT_CTL_LINKED 0 (putBit (m.fld .IMG_PORT_CTL_LINKED 0) p true)
  let m := m.setHost p { m.hostOf p with up := true, lastTlp := m.now }
  m.setFlag .HPT_STS_BELOW_MIN i (decide (r < 5))

section Linked

variable {p r w : Nat} {flit : Bool} {m : M}

theorem linkUp_rate (hr : r < 16) : (linkUp p r w flit m).fld .HPT_STS_RATE (pinst p 0) = r := by
  rw [linkUp, M.fld_setFlag_other _ _ (by decide), M.setHost_fld, M.fld_setFld_other _ _ (by decide), M.fld_setFld_other _ _ (by decide),
    M.fld_setFld_other _ _ (by decide), M.fld_setFld_other _ _ (by decide), M.fld_setFlag_other _ _ (by decide),
    M.fld_setFld_same]
  exact Nat.mod_eq_of_lt hr

theorem linkUp_width (hw : w < 32) : (linkUp p r w flit m).fld .HPT_STS_WIDTH (pinst p 0) = w := by
  rw [linkUp, M.fld_setFlag_other _ _ (by decide), M.setHost_fld, M.fld_setFld_other _ _ (by decide), M.fld_setFld_other _ _ (by decide),
    M.fld_setFld_other _ _ (by decide), M.fld_setFld_same]
  exact Nat.mod_eq_of_lt hw

theorem linkUp_curWidth (hw : w < 32) : (linkUp p r w flit m).fld .HPT_STS_CUR_WIDTH (pinst p 0) = w := by
  rw [linkUp, M.fld_setFlag_other _ _ (by decide), M.setHost_fld, M.fld_setFld_other _ _ (by decide), M.fld_setFld_other _ _ (by decide),
    M.fld_setFld_same]
  exact Nat.mod_eq_of_lt hw

theorem linkUp_lstate : (linkUp p r w flit m).fld .HPT_STS_LSTATE (pinst p 0) = 0 := by
  rw [linkUp, M.fld_setFlag_other _ _ (by decide), M.setHost_fld, M.fld_setFld_other _ _ (by decide), M.fld_setFld_same]
  rfl

theorem linkUp_belowMin (h5 : 5 ≤ r) : (linkUp p r w flit m).flag .HPT_STS_BELOW_MIN (pinst p 0) = false := by
  rw [linkUp, M.flag_setFlag_same _ _ _ _ (by decide)]
  exact decide_eq_false (by omega)

theorem linkUp_flit : (linkUp p r w flit m).flag .HPT_STS_FLIT (pinst p 0) = (decide (6 ≤ r) || (r == 5 && flit)) := by
  rw [linkUp, M.flag_setFlag_other _ _ (by decide), M.flag, M.setHost_fld, ← M.flag, Machine.flag_setFld_ne _ (by decide), Machine.flag_setFld_ne _ (by decide),
    Machine.flag_setFld_ne _ (by decide), Machine.flag_setFld_ne _ (by decide), M.flag_setFlag_same _ _ _ _ (by decide)]

theorem linkUp_host : (linkUp p r w flit m).hostOf p = { m.hostOf p with up := true, lastTlp := m.now } := by
  simp only [linkUp, M.setFlag_hostOf, M.hostOf_setHost, M.setFld_hostOf, M.setFld_now, M.setFlag_now]

theorem linkUp_host_ne {q : Nat} (h : q ≠ p) : (linkUp p r w flit m).hostOf q = m.hostOf q := by
  simp only [linkUp, M.setFlag_hostOf, M.hostOf_setHost_ne _ _ h, M.setFld_hostOf]

theorem linkUp_react : (linkUp p r w flit m).react = m.react := rfl

/-- What link-up comes to at a rate of 32 GT/s or more on a port where nothing waits (R256). -/
theorem opLinkUp_eq {im : Image} {rate width : Nat} (ht : portTerm im m p = true) (hrate : rate ≠ 0) (hw : widthOk width = true)
    (h5 : 5 ≤ min rate (im.partN p (·.maxRate))) (hq : (m.hostOf p).waitq = []) (hm : (m.hostOf p).msgq = []) :
    opLinkUp im p rate flit width m =
      linkUp p (min rate (im.partN p (·.maxRate))) (min width (im.partN p (·.maxWidth))) flit m := by
  have hcalm := pumpHost_none (p := p)
    (m := linkUp p (min rate (im.partN p (·.maxRate))) (min width (im.partN p (·.maxWidth))) flit m)
    (by rw [linkUp_host]; exact hq) (by rw [linkUp_host]; exact hm)
  rw [opLinkUp, if_neg (by simp [ht, hrate, hw])]
  exact (congrArg (pumpHost p) (if_neg (by omega))).trans hcalm

end Linked

/-! ### Power states (R268 to R272) -/

section Power

variable {im : Image} {p : Nat} {m : M}

theorem wakePort_l0 (h : m.fld .HPT_STS_LSTATE (pinst p 0) = 0) : wakePort im p m = m := if_pos h

theorem leaveL1_fld {F : Fld} {i : Nat} : (leaveL1 im p m).fld F i = (m.setFld .HPT_STS_LSTATE (pinst p 0) 0).fld F i := by
  rw [leaveL1]
  split <;> rfl

theorem leaveL1_hostOf : (leaveL1 im p m).hostOf p = { m.hostOf p with lastTlp := m.now } := by
  rw [leaveL1]
  split <;> exact M.hostOf_setHost _ _ _

/-- PM_PME of a port in L0. -/
theorem drivePme_l0 (h : m.fld .HPT_STS_LSTATE (pinst p 0) = 0) : drivePme im p m =
    ((m.emit (.pme p)).bump .HPT_CNT_PME_SENT (pinst p 0)).setHost p { m.hostOf p with lastTlp := m.now } := by
  rw [drivePme, wakePort_l0 h]
  rfl

/-- PM_PME of a port in L1: it counts an exit and returns to L0. -/
theorem drivePme_l1 (h : m.fld .HPT_STS_LSTATE (pinst p 0) ≠ 0) :
    (drivePme im p m).fld .HPT_STS_LSTATE (pinst p 0) = 0 ∧
    (drivePme im p m).fld .HPT_CNT_L1_EXITS (pinst p 0) =
      (m.bump .HPT_CNT_L1_EXITS (pinst p 0)).fld .HPT_CNT_L1_EXITS (pinst p 0) := by
  have hpme : ∀ {F : Fld}, F ≠ .HPT_CNT_PME_SENT → (drivePme im p m).fld F (pinst p 0) =
      (leaveL1 im p (m.bump .HPT_CNT_L1_EXITS (pinst p 0))).fld F (pinst p 0) := fun {F} hF => by
    rw [drivePme, wakePort, if_neg h, M.setHost_fld]
    exact (M.fld_setFld_other _ _ hF)
  rw [hpme (by decide), hpme (by decide), leaveL1_fld, leaveL1_fld, M.fld_setFld_same, M.fld_setFld_other _ _ (by decide)]
  exact ⟨rfl, rfl⟩

theorem opL1Entry_early (sub : Nat) (h : m.now < (m.hostOf p).lastTlp + 32000) : opL1Entry im p sub m = m := by
  have : decide ((m.hostOf p).lastTlp + 32000 ≤ m.now) = false := decide_eq_false (by omega)
  simp [opL1Entry, this]

/-- A port on which nothing moved for 16 µs enters L1, or a substate (R271). -/
theorem opL1Entry_due (sub : Nat) (hu : (m.hostOf p).up = true) (ha : (m.hostOf p).aspmL1 = true)
    (hl : m.fld .HPT_STS_LSTATE (pinst p 0) = 0) (hq : portQuiet m p = true) (ht : (m.hostOf p).lastTlp + 32000 ≤ m.now) :
    opL1Entry im p sub m =
      if 2 ≤ max 1 sub then (m.setFld .HPT_STS_LSTATE (pinst p 0) (max 1 sub)).emit (.pin (.clkreqN (portOf im p)) true)
      else m.setFld .HPT_STS_LSTATE (pinst p 0) (max 1 sub) := by
  rw [opL1Entry]
  simp only [hu, ha, hl, hq, decide_eq_true ht, Bool.and_self, beq_self_eq_true, if_true]

theorem opL0pChange_eq (w : Nat) (hu : (m.hostOf p).up = true) (hw : widthOk w = true)
    (hf : m.flag .HPT_STS_FLIT (pinst p 0) = true) : opL0pChange p w m =
      if w ≤ m.fld .HPT_STS_WIDTH (pinst p 0) then m.setFld .HPT_STS_CUR_WIDTH (pinst p 0) w else m := by
  simp only [opL0pChange, hu, hw, hf, Bool.and_self, Bool.true_and, decide_eq_true_eq]

theorem opL0pWiden_eq (hu : (m.hostOf p).up = true) (hw : tlpWaits m p = true)
    (hlt : m.fld .HPT_STS_CUR_WIDTH (pinst p 0) < m.fld .HPT_STS_WIDTH (pinst p 0)) : opL0pWiden p m =
      if tlpLate m p then m.emit (.l0p p (m.fld .HPT_STS_WIDTH (pinst p 0))) else m := by
  simp only [opL0pWiden, hu, hw, decide_eq_true hlt, Bool.and_self, Bool.true_and]

theorem opL1Exit_l0 (h : m.fld .HPT_STS_LSTATE (pinst p 0) = 0) : opL1Exit im p m = m ∧ opHostL1Exit im p m = m := by
  simp [opL1Exit, opHostL1Exit, h]

theorem opPmeRepeat_early (h : m.now < (m.hostOf p).pmeAt + 190000000 ∨ (m.hostOf p).pmeStatus = false) :
    opPmeRepeat im p m = m := by
  refine if_neg ?_
  rcases h with h | h
  · simp only [decide_eq_false (show ¬ (m.hostOf p).pmeAt + 190000000 ≤ m.now by omega), Bool.and_false]
    decide
  · simp [h]

theorem opPmeRepeat_due (hd : m.flag .HPT_STS_D3HOT (pinst p 0) = true) (hs : (m.hostOf p).pmeStatus = true)
    (he : (m.hostOf p).pmeEn = true) (ht : (m.hostOf p).pmeAt + 190000000 ≤ m.now) :
    opPmeRepeat im p m = drivePme im p (m.setHost p { m.hostOf p with pmeAt := m.now }) := by
  refine if_pos ?_
  simp only [hd, hs, he, decide_eq_true ht, Bool.and_self]

/-- LTR after the host's TLP (R271). -/
theorem sendLtr_hostTlp (b : Bool) : sendLtr p ((hostTlp p m).setFlag .HPT_STS_D3HOT (pinst p 0) b) =
    (((hostTlp p m).setFlag .HPT_STS_D3HOT (pinst p 0) b).emit (.ltr p 10000)).setHost p { m.hostOf p with lastTlp := m.now } := by
  rw [sendLtr, M.setFlag_hostOf, hostTlp_hostOf]
  rfl

/-- The return to D0 of a port on which no request waits (R270). -/
theorem toD0_hostTlp (h : (m.hostOf p).waitq = []) : toD0 im p (hostTlp p m) =
    issueMsgs p (writeD3All im p (sendLtr p ((hostTlp p m).setFlag .HPT_STS_D3HOT (pinst p 0) false))) := by
  have hw : ((sendLtr p ((hostTlp p m).setFlag .HPT_STS_D3HOT (pinst p 0) false)).hostOf p).waitq = [] := by
    rw [sendLtr_hostTlp, M.hostOf_setHost]
    exact h
  rw [toD0, pumpWaiting_none hw]

end Power

namespace Machine

/-- Settles O47: a request is answered by one branch of `cfgAct`, and link-up writes the negotiated values. -/
theorem hostConfiguration : Obligations.HostConfiguration := by
  intro s p he im h i drains hm hh
  have request : ∀ {q : CfgReq} {m' : M}, opConfig im p.val q s.m = m' → Completes (.configurationRequest p q) s m' :=
    fun hq => completes_of_upd rfl hq
  refine ⟨fun hu q => request (cfgRequest_down _ (Or.inr hu)), fun hu k => completes_of_upd rfl (ioLocked_open he hu),
    fun hu hno q => request (cfgRequest_retry _ he hu hno), fun hu hr hd => ?_,
    fun rate flit w hno => completes_of_upd rfl (if_pos (Or.inl hno)),
    fun rate flit w hreact ht hrate hw h5 h6 h16 hwq hmq => ?_⟩
  · have acts : ∀ {q : CfgReq} {m' : M}, cfgAct im p.val q hm = m' → Completes (.configurationRequest p q) s m' :=
      fun hq => request ((cfgRequest_ready _ he hu hr hd).trans hq)
    refine ⟨?_, acts rfl, acts rfl, fun b => acts rfl, fun c => acts rfl, fun c => acts rfl, fun c => acts rfl,
      fun b => acts rfl, fun b => acts rfl, fun b => acts rfl⟩
    intro off reads
    have hread : ∀ {x k : Nat}, off.toNat / 4 = k → cfgDword im hm p.val (k * 4) = x → reads x := fun {x k} hk hx =>
      acts (congrArg (fun x => hm.emit (.cfg p.val x)) (hk ▸ hx))
    have hbars : hh.bars = h.bars := by
      show ((hostTlp p.val s.m).hostOf p.val).bars = _
      rw [hostTlp_hostOf]
    refine ⟨fun hk => hread hk rfl, fun hk => hread hk rfl, fun hk => hread hk ?_, fun hk => hread hk ?_,
      fun hk => hread hk ?_, fun hk => hread hk ?_, fun hk => hread hk (cfgDword_none _ _ _), fun v h1 h2 => acts ?_⟩
    · rw [cfgDword_bar (by decide) (by decide), ← hbars]
      exact barRead_zero im hh p.val
    · rw [cfgDword_bar (by decide) (by decide), ← hbars]
      exact barRead_one im hh p.val
    · rw [cfgDword_bar (by decide) (by decide), ← hbars]
      exact barRead_four im hh p.val
    · rfl
    · refine (cfgWrite_bar (by omega) (by omega)).trans ?_
      rw [show (off.toNat / 4 * 4 - 0x10) / 4 = off.toNat / 4 - 4 by omega]
  · have hop : opLinkUp im p.val rate.val flit w.val s.m = _ :=
      opLinkUp_eq ht (by omega) (widthOk_of_mem hw) (le_min hrate h5) hwq hmq
    have hexec : exec (.hostPortLinkUp p rate flit w) s = .next { s with m := opLinkUp im p.val rate.val flit w.val s.m } := by
      show Host.Outcome.next (s.upd fun im m => opLinkUp im p.val rate.val flit w.val m) = _
      rw [State.upd, hop, settle_calm _ _ (linkUp_react.trans hreact)]
    rw [hop] at hexec
    refine ⟨_, hexec, linkUp_rate (by omega), linkUp_width (by omega), linkUp_curWidth (by omega), linkUp_lstate,
      linkUp_belowMin (le_min hrate h5), congrArg HostSt.up linkUp_host, fun q hq => linkUp_host_ne hq, ?_, rfl, rfl⟩
    refine (Bool.eq_iff_iff.mp linkUp_flit).trans ?_
    have hr : 5 ≤ min rate.val (im.partN p.val (·.maxRate)) := le_min hrate h5
    simp only [Bool.or_eq_true, decide_eq_true_eq, Bool.and_eq_true, beq_iff_eq]
    constructor
    · rintro (h | ⟨-, h⟩)
      · exact Or.inl h
      · exact Or.inr h
    · rintro (h | h)
      · exact Or.inl h
      · by_cases h6 : 6 ≤ min rate.val (im.partN p.val (·.maxRate))
        · exact Or.inl h6
        · exact Or.inr ⟨by omega, h⟩

/-- Settles O48: the configuration writes go through `cfgRequest`, every other command is a guard and its branch. -/
theorem hostPowerStates : Obligations.HostPowerStates := by
  intro s p im h i ls hm open_ ready
  have hflag : hm.flag .HPT_STS_D3HOT i = s.m.flag .HPT_STS_D3HOT i := rfl
  have hbusy : ¬ ready → isReady s.m p.val = false ∨ s.m.flag .HPT_STS_DRAINING i = true := fun hr => by
    by_contra hno
    simp only [not_or, Bool.not_eq_false, Bool.not_eq_true] at hno
    exact hr hno
  have hdown : ¬ open_ → im.enabled p.val = false ∨ h.up = false := fun ho => by
    by_contra hno
    simp only [not_or, Bool.not_eq_false] at hno
    exact ho hno
  refine ⟨fun ho hr hd => ⟨?_, ?_⟩, fun ho hr hd => ⟨?_, ?_⟩, fun ho hr => ⟨?_, ?_⟩, fun ho => ⟨?_, ?_⟩,
    fun hd hp he ha => ⟨completes_of_upd rfl (opPmeRepeat_due hd hp he ha), fun hl => drivePme_l0 hl, fun hl => ?_⟩,
    fun hno => completes_of_upd rfl (opPmeRepeat_early hno),
    fun sub hu ha hl hq => ⟨fun ht hs => ?_, fun ht hs => ?_, fun ht => completes_of_upd rfl (opL1Entry_early _ ht)⟩,
    fun hl => completes_of_upd rfl (if_pos (bne_iff_ne.mpr hl)),
    fun hl => ⟨completes_of_upd rfl (opL1Exit_l0 hl).2, completes_of_upd rfl (opL1Exit_l0 hl).1⟩,
    fun hl hw => completes_of_upd rfl (if_pos (Bool.and_eq_true_iff.mpr ⟨bne_iff_ne.mpr hl, hw⟩)),
    fun w hu hw hf => ⟨fun hle => ?_, fun hlt => ?_⟩, fun hu hw hlt => ⟨fun hl => ?_, fun hl => ?_⟩⟩
  · exact completes_of_upd rfl ((cfgRequest_ready _ ho.1 ho.2 hr.1 hr.2).trans (if_neg (by rw [hflag, hd]; decide)))
  · exact completes_of_upd rfl ((cfgRequest_ready _ ho.1 ho.2 hr.1 hr.2).trans (if_neg (by rw [hflag, hd]; decide)))
  · exact completes_of_upd rfl ((cfgRequest_ready _ ho.1 ho.2 hr.1 hr.2).trans (if_pos (hflag.trans hd)))
  · refine ⟨fun hw => completes_of_upd rfl ((cfgRequest_ready _ ho.1 ho.2 hr.1 hr.2).trans
      ((if_pos (hflag.trans hd)).trans (toD0_hostTlp hw))), sendLtr_hostTlp false⟩
  · exact completes_of_upd rfl (cfgRequest_retry _ ho.1 ho.2 (hbusy hr))
  · exact completes_of_upd rfl (cfgRequest_retry _ ho.1 ho.2 (hbusy hr))
  · exact completes_of_upd rfl (cfgRequest_down _ (hdown ho))
  · exact completes_of_upd rfl (cfgRequest_down _ (hdown ho))
  · exact drivePme_l1 (m := s.m.setHost p.val { h with pmeAt := s.m.now }) hl
  · refine completes_of_upd rfl ((opL1Entry_due _ hu ha hl hq ht).trans ?_)
    rw [if_neg (by omega), Nat.max_eq_left hs]
  · refine completes_of_upd rfl ((opL1Entry_due _ hu ha hl hq ht).trans ?_)
    rw [if_pos (by omega), Nat.max_eq_right (by omega)]
  · exact completes_of_upd rfl ((opL0pChange_eq _ hu (widthOk_of_mem hw) hf).trans (if_pos hle))
  · exact completes_of_upd rfl ((opL0pChange_eq _ hu (widthOk_of_mem hw) hf).trans (if_neg (not_le.mpr hlt)))
  · exact completes_of_upd rfl ((opL0pWiden_eq hu hw hlt).trans (if_pos hl))
  · exact completes_of_upd rfl ((opL0pWiden_eq hu hw hlt).trans (if_neg (Bool.eq_false_iff.mp hl)))

end Machine

end Sys2Proof
end

section
/-! PROOFS. Scripts on threads and in contexts (04, R71 to R143). -/

namespace Sys2Proof

/-! ### Dispatch, parking and restoring -/

section Ways

variable {im : Image} {p tag t ctx : Nat} {m : M} {x : Script}

theorem opScriptDispatch_taken (hs : m.script p tag = some x) (hq : x.st = .queued) (hk : x.parked = none)
    (hn : nextDispatch m p = some tag) (ho : im.spindleOwner (t / 4) = p) (hi : threadIdle m t = true)
    (hb : m.inForce 0 p ≠ 0) : opScriptDispatch im p tag t m = addReact (.serve p) (startOn im x t m) := by
  simp only [opScriptDispatch, hs]
  exact if_pos ⟨hq, hk, hn, ho, hi, hb⟩

theorem opScriptPark_taken (hs : m.script p tag = some x) (hr : x.st ≠ .running) (hk : x.parked = none)
    (hc : m.scripts.any (fun e => e.2.parked == some ctx) = false) : opScriptPark p tag ctx m =
      addReact (.serve p) ((parkReads x m).2.setScript { (parkReads x m).1 with parked := some ctx, thread := none }) := by
  simp only [opScriptPark, hs]
  exact if_neg (by simp [hr, hk, hc])

theorem opScriptPark_running (hs : m.script p tag = some x) (hr : x.st = .running) : opScriptPark p tag ctx m = m := by
  simp only [opScriptPark, hs]
  exact if_pos (.inl hr)

theorem parkReads_none (hf : x.fetching = false) (hl : x.win.any (fun c => c.listOut) = false) : parkReads x m = (x, m) := by
  simp [parkReads, hf, hl]

theorem opContextRestore_back {ch c : Nat} (hs : m.script p tag = some x) (hk : x.parked = some c) (hw : x.st = .waiting)
    (ho : im.spindleOwner (t / 4) = p) (hi : threadIdle m t = true) : opContextRestore im p tag t ch false m =
      addReact (.serve p) (goOn im p tag ((wakeSpindle im t m).setScript { x with parked := none, thread := some t })) := by
  simp [opContextRestore, hs, hk, hw, ho, hi]

theorem opContextRestore_lost {ch c : Nat} (hs : m.script p tag = some x) (hk : x.parked = some c) (hw : x.st = .waiting) :
    opContextRestore im p tag t ch true m = endScript im { x with dev := 0 }
      { mkEntry x 0x24 1 0 0 0 false true with dev := 0, sflags := 0 }
      (fireP im (0x0B3 + 8 * ch) (Config.infoPack (0x0B3 + 8 * ch) tag p) p m) := by
  simp [opContextRestore, hs, hk, hw]

end Ways

/-! ### Fetches and their answers -/

section Fetches

variable {im : Image} {t a : Nat} {m : M} {x : Script}

theorem winCheckV_undisturbed (h : Machine.Undisturbed m) (p a len right : Nat) :
    winCheckV im p a len right m = (winCheck im m p a len right, m) := by
  rw [winCheckV, accessWords_undisturbed h]
  rfl

/-- A fetch that may start reads the block's cues in one read. -/
theorem opCueFetch_taken (hs : m.scriptOn t = some x) (hn : x.next = some (a, false)) (hf : x.fetching = false)
    (ha : x.ahead = []) (hh : x.halting = false) (hg : mayGrow x = true) (hb : spindleBudget m x.part = true)
    (he : x.st ≠ .ended) (hal : a % 32 = 0) (hu : Machine.Undisturbed m) (hw : winCheck im m x.part a 32 rScript = 0)
    (hp : winPrefetch im m x.part a = true) :
    opCueFetch im t m = winRead im (2, t) (clusterPort x) x.part a (32 * fetchCount im m x.part a) (.cues x.tag)
      (m.setScript { x with fetching := true }) := by
  simp [opCueFetch, hs, hn, hf, ha, hh, hg, hb, he, hal, winCheckV_undisturbed hu, hw, hp]

theorem winMap_setScript (p a : Nat) (y : Script) : winMap im (m.setScript y) p a = winMap im m p a := rfl

theorem winMap_host {p q y : Nat} (h : winMap im m p a = some (.host q, y)) : q = p := by
  simp only [winMap, Option.map_eq_some_iff] at h
  obtain ⟨e, -, he⟩ := h
  split at he <;> cases he
  rfl

theorem winRead_dram {k : Key} {src p y len : Nat} {u : Purp} (h : winMap im m p a = some (.dram, y)) :
    winRead im k src p a len u m = dramRead im k src p p y len m := by
  rw [winRead, h]

theorem winRead_host {k : Key} {src p q y len : Nat} {u : Purp} (h : winMap im m p a = some (.host q, y)) :
    winRead im k src p a len u m = reqTlp q (.rd u y len (some len)) m := by
  rw [winRead, h, winMap_host h]

theorem opCueFetchComplete_data {b : List Byte} (hs : m.scriptOn t = some x) (hn : x.next = some (a, false))
    (hf : x.fetching = true) (hu : Machine.Undisturbed m) (hd : (m.cpu (thr t)).fetchDrop = 0) :
    opCueFetchComplete im t (.data b) .agree m = goOn im x.part x.tag
      ((dropPurp x.part (.cues x.tag) m).setScript { x with fetching := false, ahead := cueParts a b }) := by
  have hvote : ∀ w, voteRead im w .agree (dropPurp x.part (.cues x.tag) m) = (true, dropPurp x.part (.cues x.tag) m) :=
    fun w => voteRead_agree im w _ hu.1 hu.2.2.1
  have hans : fetchAnswer im x (.data b) (dropPurp x.part (.cues x.tag) m) = goOn im x.part x.tag
      ((dropPurp x.part (.cues x.tag) m).setScript { x with fetching := false, ahead := cueParts a b }) := by
    rw [fetchAnswer, hn]
  rw [opCueFetchComplete, if_neg (by simp [hd])]
  simp only [hs]
  rw [if_pos hf]
  split
  case h_1 b' hb =>
    obtain rfl : b' = a := by simpa [hn] using hb.symm
    split
    · rw [hvote]
      exact hans
    · exact hans
  case h_2 h => exact absurd hn (h a)

theorem opListComplete_taken {r : RdRes} (hs : m.scriptOn t = some x) (hd : (m.cpu (thr t)).listDrop = 0)
    (hl : x.win.any (fun c => c.listOut) = true) : opListComplete im t r m = goOn im x.part x.tag
      ((dropPurp x.part (.ilist x.tag) m).setScript { x with win := x.win.map (putEntry r) }) := by
  rw [opListComplete, if_neg (by simp [hd])]
  simp only [hs, hl, if_true, listAnswer]

end Fetches

namespace Machine

/-- Settles O38: each way of a script is its operation's one branch under the clause's conditions; an undisturbed part reads
the window word of a fetch by agreement. -/
theorem scriptsMove : Obligations.ScriptsMove := by
  unfold Obligations.ScriptsMove
  intro s p tag t x im n asked
  refine ⟨?_, ?_, ?_, ?_, ?_, ?_, ?_, ?_⟩
  · intro hs hq hk hn ho hi hb
    exact completes_of_upd rfl (opScriptDispatch_taken hs hq hk hn ho hi hb)
  · intro c hs hr hk hc
    exact ⟨completes_of_upd rfl (opScriptPark_taken hs hr hk hc), parkReads_none⟩
  · intro c hs hr
    exact completes_of_upd rfl (opScriptPark_running hs hr)
  · intro ch c hs hk hw ho hi
    exact completes_of_upd rfl (opContextRestore_back hs hk hw ho hi)
  · intro ch c hs hk hw
    exact ⟨_, rfl, rfl, rfl, completes_of_upd rfl (opContextRestore_lost hs hk hw)⟩
  · intro a hs hn hf ha hh hg hb he hal hu hw hp
    have hop := opCueFetch_taken hs hn hf ha hh hg hb he hal hu hw hp
    exact ⟨fun y hy => completes_of_upd rfl (hop.trans (winRead_dram hy)),
      fun q y hy => completes_of_upd rfl (hop.trans (winRead_host hy))⟩
  · intro a b hs hn hf hu hd
    exact completes_of_upd rfl (opCueFetchComplete_data hs hn hf hu hd)
  · intro r hs hd hl
    exact completes_of_upd rfl (opListComplete_taken hs hd hl)

end Machine

end Sys2Proof

end

section
/-! PROOFS. What a fault event and a status entry can change (15, R360; 06, R152 to R157). -/

namespace Sys2Proof

/-- What a fault event, a power management event or an entry made ready changes: register fields and interrupt state,
processors, pins, outputs, reactions, the windows of the tick, the ports and the rings. -/
def EntryMoved (a b : M) : Prop :=
  ∃ f c i k p o r t h x, b = { a with f := f, cyc := c, irq := i, cpus := k, pins := p, out := o, react := r, tick := t,
                                      host := h, rings := x }

theorem EntryMoved.refl (m : M) : EntryMoved m m :=
  ⟨m.f, m.cyc, m.irq, m.cpus, m.pins, m.out, m.react, m.tick, m.host, m.rings, rfl⟩

theorem EntryMoved.trans {a b c : M} (h : EntryMoved a b) (k : EntryMoved b c) : EntryMoved a c := by
  obtain ⟨_, _, _, _, _, _, _, _, _, _, rfl⟩ := h
  obtain ⟨f, y, i, k, p, o, r, t, h, x, rfl⟩ := k
  exact ⟨f, y, i, k, p, o, r, t, h, x, rfl⟩

section
variable {a b : M} (h : EntryMoved a b)
include h

theorem EntryMoved.script (p t : Nat) : b.script p t = a.script p t := by
  obtain ⟨_, _, _, _, _, _, _, _, _, _, rfl⟩ := h
  rfl

theorem EntryMoved.bud : b.bud = a.bud := by
  obtain ⟨_, _, _, _, _, _, _, _, _, _, rfl⟩ := h
  rfl

theorem EntryMoved.waits : b.waits = a.waits := by
  obtain ⟨_, _, _, _, _, _, _, _, _, _, rfl⟩ := h
  rfl

end

theorem EntryMoved.setFld {a m : M} (h : EntryMoved a m) (F : Fld) (i v : Nat) : EntryMoved a (m.setFld F i v) :=
  h.trans ⟨_, _, m.irq, m.cpus, m.pins, m.out, m.react, m.tick, m.host, m.rings, rfl⟩

theorem EntryMoved.setFlag {a m : M} (h : EntryMoved a m) (F : Fld) (i : Nat) (b : Bool) : EntryMoved a (m.setFlag F i b) :=
  h.trans ⟨_, _, m.irq, m.cpus, m.pins, m.out, m.react, m.tick, m.host, m.rings, rfl⟩

theorem EntryMoved.bump {a m : M} (h : EntryMoved a m) (F : Fld) (i : Nat) : EntryMoved a (m.bump F i) :=
  h.trans ⟨_, _, m.irq, m.cpus, m.pins, m.out, m.react, m.tick, m.host, m.rings, rfl⟩

theorem EntryMoved.emit {a m : M} (h : EntryMoved a m) (k : OutK) : EntryMoved a (m.emit k) :=
  h.trans ⟨m.f, m.cyc, m.irq, m.cpus, m.pins, _, m.react, m.tick, m.host, m.rings, rfl⟩

theorem EntryMoved.setHost {a m : M} (h : EntryMoved a m) (p : Nat) (x : HostSt) : EntryMoved a (m.setHost p x) :=
  h.trans ⟨m.f, m.cyc, m.irq, m.cpus, m.pins, m.out, m.react, m.tick, _, m.rings, rfl⟩

theorem EntryMoved.setRing {a m : M} (h : EntryMoved a m) (p r : Nat) (x : RingSt) : EntryMoved a (m.setRing p r x) :=
  h.trans ⟨m.f, m.cyc, m.irq, m.cpus, m.pins, m.out, m.react, m.tick, m.host, _, rfl⟩

theorem EntryMoved.ite {a m n : M} {c : Prop} [Decidable c] (h : EntryMoved a m) (k : EntryMoved a n) :
    EntryMoved a (if c then m else n) := by
  split
  · exact h
  · exact k

/-! ### Fault events -/

theorem reactions_moved (im : Image) (f set : Nat) (ps : List Nat) (core : Nat) (m : M) :
    EntryMoved m (reactions im f set ps core m) := by
  obtain ⟨g, y, q, t, l, c, p, o, r, h⟩ := reactions_frame im f set ps core m
  exact ⟨g, y, _, c, p, o, r, m.tick, m.host, m.rings, h⟩

theorem agedForEvent_moved (im : Image) (f : Nat) (m : M) : EntryMoved m (agedForEvent im f m) := by
  unfold agedForEvent
  extract_lets _ n
  have hn : EntryMoved m n := ⟨m.f, m.cyc, m.irq, m.cpus, m.pins, m.out, m.react, _, m.host, m.rings, rfl⟩
  exact .ite (.refl m) (.ite hn (.ite ((hn.setFld ..).setFld ..) (hn.setFld ..)))

theorem faultEvent_moved (im : Image) (f info : Nat) (ps : List Nat) (core : Nat) (forced : Bool) (m : M) :
    EntryMoved m (faultEvent im f info ps core forced m) := by
  unfold faultEvent
  split
  · exact .refl m
  · next b _ =>
    extract_lets m1
    have h1 : EntryMoved m m1 := .ite (.refl m) (agedForEvent_moved ..)
    clear_value m1
    obtain ⟨sev, c, a⟩ := classify im m1 f forced
    dsimp -zeta only
    extract_lets m2 _ m3 m4 n5 m5 m6 set m7 k1 k2 k3 k4 k5 k6
    have h2 : EntryMoved m m2 := (h1.setFld ..).setFld ..
    have h3 : EntryMoved m m3 := .ite h2 (h2.trans ⟨m2.f, m2.cyc, m2.irq, m2.cpus, m2.pins, m2.out, m2.react, _, m2.host, m2.rings, rfl⟩)
    have h4 : EntryMoved m m4 := h3.bump ..
    have h5 : EntryMoved m m5 := h4.trans ⟨_, _, m4.irq, m4.cpus, m4.pins, m4.out, m4.react, m4.tick, m4.host, m4.rings, rfl⟩
    have h6 : EntryMoved m m6 := .ite (h5.bump ..) h5
    have h7 : EntryMoved m m7 := h6.bump ..
    have k6 : EntryMoved m k6 := (((((h6.setFld ..).setFlag ..).setFlag ..).setFld ..).setFld ..).setFld ..
    exact .ite (.ite ((h7.setFlag ..).trans (reactions_moved ..)) h7) ((k6.setFlag ..).trans (reactions_moved ..))

theorem fireP_moved (im : Image) (f info p : Nat) (m : M) : EntryMoved m (fireP im f info p m) := faultEvent_moved ..

/-! ### Power management events and entries -/

theorem leaveL1_moved (im : Image) (p : Nat) (m : M) : EntryMoved m (leaveL1 im p m) := by
  unfold leaveL1
  extract_lets s _ n
  have hn : EntryMoved m n := ((EntryMoved.refl m).setFld ..).setHost ..
  exact .ite (hn.emit _) hn

theorem sendPme_moved (im : Image) (p : Nat) (m : M) : EntryMoved m (sendPme im p m) := by
  unfold sendPme
  extract_lets _ n
  have hn : EntryMoved m n := (EntryMoved.refl m).setHost ..
  refine .ite ?_ hn
  unfold drivePme
  extract_lets _ k
  have hw : EntryMoved n (wakePort im p n) := .ite (.refl n) (((EntryMoved.refl n).bump ..).trans (leaveL1_moved ..))
  exact (((hn.trans hw).emit _).bump ..).setHost ..

theorem holdEntry_moved (im : Image) (p r : Nat) (e : Entry) (m : M) : EntryMoved m (holdEntry im p r e m) := by
  unfold holdEntry
  extract_lets x n k
  have hk : EntryMoved m k := ((EntryMoved.refl m).setRing ..).setFld ..
  exact .ite hk (((hk.setFlag ..).bump ..).trans (fireP_moved ..))

theorem postEntry_moved (im : Image) (p : Nat) (e : Entry) (m : M) : EntryMoved m (postEntry im p e m).2 := by
  unfold postEntry
  extract_lets r h first n
  have hn : EntryMoved m n := (EntryMoved.refl m).setHost ..
  split
  · exact .ite (hn.trans (sendPme_moved ..)) hn
  · split
    · exact holdEntry_moved ..
    · exact (EntryMoved.refl m).setRing ..

end Sys2Proof

end

section
/-! PROOFS. What a squash and the end of a script leave (05, R126; 04, R109). -/

namespace Sys2Proof

/-! ### The steps by which a cue is dropped -/

theorem killFetch_eq (s : Script) (m : M) : ∃ h c, killFetch s m = ({ s with fetching := false }, { m with host := h, cpus := c }) := by
  rw [killFetch]
  cases hf : s.fetching with
  | false => exact ⟨m.host, m.cpus, by cases s; cases hf; rfl⟩
  | true =>
    rw [if_neg (by simp)]
    split
    · exact ⟨_, m.cpus, rfl⟩
    · rw [oweFetch]
      split
      · exact ⟨m.host, _, rfl⟩
      · exact ⟨m.host, m.cpus, rfl⟩

theorem killList_eq (c : PCue) (s : Script) (m : M) : ∃ h k, killList c s m = (s, { m with host := h, cpus := k }) := by
  rw [killList]
  split
  · exact ⟨m.host, m.cpus, rfl⟩
  · split
    · exact ⟨_, m.cpus, rfl⟩
    · rw [oweList]
      split
      · exact ⟨m.host, _, rfl⟩
      · exact ⟨m.host, m.cpus, rfl⟩

/-- The queued REHEARSE of a dropped cue is taken back. -/
def unqueueRh (s : Script) (c : PCue) (m : M) : M :=
  if c.rq then (dropFrames (slotLink c.cue.slot) (fun f => f == .rehearse s.part s.tag c.sn) m).stageFree s.part c.runits else m

/-- The rehearsal of a dropped cue is struck. -/
def strikeOwn (c : PCue) (m : M) : M :=
  match c.rhs with
  | some n => strikeSquash (slotLink c.cue.slot) n m
  | none => m

/-- The numbered buffer that a dropped cue declared is given up. -/
def giveUpBuf (c : PCue) (s : Script) (m : M) : Script × M :=
  match c.newBuf with
  | none => (s, m)
  | some b =>
    ({ s with bufs := s.bufs.filter (fun x => x.buf != b) }, match s.bufs.find? (fun x => x.buf == b) with
      | some x => if x.granted then m.stageFree s.part x.units
        else { m with bud := { m.bud with stageq := m.bud.stageq.erase ⟨s.part, s.tag, some b, x.units⟩ } }
      | none => m)

theorem giveUpBuf_eq (c : PCue) (s : Script) (m : M) : ∃ bs b, giveUpBuf c s m = ({ s with bufs := bs }, { m with bud := b }) := by
  rw [giveUpBuf]
  split
  · exact ⟨s.bufs, m.bud, rfl⟩
  · split
    · split <;> exact ⟨_, _, rfl⟩
    · exact ⟨_, m.bud, rfl⟩

theorem dropCue_giveUp (s : Script) (m : M) (c : PCue) : dropCue (s, m) c =
    giveUpBuf c s ((discardXfer s.part s.tag c.sn (strikeOwn c (unqueueRh s c (killList c s m).2))).stageFree s.part c.wunits) := by
  obtain ⟨h, k, hk⟩ := killList_eq c s m
  rw [dropCue, giveUpBuf]
  simp only [hk]
  rfl

/-- The script and the state once a cue is dropped. -/
theorem dropCue_eq (s : Script) (m : M) (c : PCue) : ∃ bs h k b, dropCue (s, m) c = ({ s with bufs := bs },
    { discardXfer s.part s.tag c.sn (strikeOwn c (unqueueRh s c { m with host := h, cpus := k })) with bud := b }) := by
  obtain ⟨h, k, hk⟩ := killList_eq c s m
  rw [dropCue_giveUp, hk]
  obtain ⟨bs, b, hb⟩ := giveUpBuf_eq c s
    ((discardXfer s.part s.tag c.sn (strikeOwn c (unqueueRh s c { m with host := h, cpus := k }))).stageFree s.part c.wunits)
  exact ⟨bs, h, k, b, hb⟩

/-! ### What every such step keeps -/

/-- A property of the state that the steps of a squash keep. -/
structure DropKept (P : M → Prop) : Prop where
  side : ∀ m h c, P m → P { m with host := h, cpus := c }
  bud : ∀ m b, P m → P { m with bud := b }
  subq : ∀ m c o q, P m → P (m.setQueue c o q)
  queue : ∀ m c o q, P m → P (putQueue c o q m)
  frames : ∀ m l g, P m → P (dropFrames l g m)
  strike : ∀ m l n, P m → P (strikeSquash l n m)

section Kept

variable {P : M → Prop} (hP : DropKept P)
include hP

theorem DropKept.discard (p tag sn : Nat) {m : M} (h : P m) : P (discardXfer p tag sn m) := by
  rw [discardXfer]
  split
  · exact h
  · exact hP.queue _ _ _ _ (hP.subq _ _ _ _ h)

theorem DropKept.unqueue (s : Script) (c : PCue) {m : M} (h : P m) : P (unqueueRh s c m) := by
  rw [unqueueRh]
  split
  · exact hP.bud _ _ (hP.frames _ _ _ h)
  · exact h

theorem DropKept.strikeOwn (c : PCue) {m : M} (h : P m) : P (strikeOwn c m) := by
  rw [Sys2Proof.strikeOwn]
  split
  · exact hP.strike _ _ _ h
  · exact h

theorem DropKept.dropCue (acc : Script × M) (c : PCue) (h : P acc.2) : P (dropCue acc c).2 := by
  obtain ⟨s, m⟩ := acc
  obtain ⟨_, _, _, _, he⟩ := dropCue_eq s m c
  rw [he]
  exact hP.bud _ _ (hP.discard _ _ _ (hP.strikeOwn c (hP.unqueue s c (hP.side _ _ _ h))))

theorem DropKept.foldl (l : List PCue) (acc : Script × M) (h : P acc.2) : P (l.foldl Sys2Proof.dropCue acc).2 := by
  induction l generalizing acc with
  | nil => exact h
  | cons c l ih => exact ih _ (hP.dropCue acc c h)

/-- What dropping one cue of a list establishes stands at the end of the list. -/
theorem DropKept.foldl_mem {Q : Script → M → Prop} {l : List PCue} {c : PCue} (hc : c ∈ l) (acc : Script × M)
    (hq : Q acc.1 acc.2) (hstep : ∀ acc d, Q acc.1 acc.2 → Q (Sys2Proof.dropCue acc d).1 (Sys2Proof.dropCue acc d).2)
    (hest : ∀ acc, Q acc.1 acc.2 → P (Sys2Proof.dropCue acc c).2) : P (l.foldl Sys2Proof.dropCue acc).2 := by
  induction l generalizing acc with
  | nil => cases hc
  | cons d l ih =>
    rcases List.mem_cons.mp hc with rfl | hmem
    · exact hP.foldl l _ (hest acc hq)
    · exact ih hmem _ (hstep acc d hq)

end Kept

/-! ### The squash -/

theorem foldl_dropCue_fst (l : List PCue) (s : Script) (m : M) : ∃ bs, (l.foldl dropCue (s, m)).1 = { s with bufs := bs } := by
  induction l generalizing s m with
  | nil => exact ⟨s.bufs, rfl⟩
  | cons c l ih =>
    obtain ⟨bs, h, k, b, he⟩ := dropCue_eq s m c
    obtain ⟨cs, hcs⟩ := ih { s with bufs := bs } _
    exact ⟨cs, by rw [List.foldl_cons, he, hcs]⟩

/-- The script and the state after a squash. -/
theorem squash_eq (k : Nat) (s : Script) (m : M) : ∃ bs h c,
    let n := ((s.win.drop k).foldl dropCue ({ s with fetching := false }, { m with host := h, cpus := c })).2
    squash k s m = ({ s with fetching := false, bufs := bs, win := s.win.take k, ahead := [] },
      if (s.win.drop k).isEmpty then n else
        (n.bumpN .SPC_CUES_DISCARDED (pinst s.part 0) (s.win.drop k).length).bump .SPC_SQUASH_SQUASHES (pinst s.part 0)) := by
  obtain ⟨h, c, hk⟩ := killFetch_eq s m
  obtain ⟨bs, hbs⟩ := foldl_dropCue_fst (s.win.drop k) { s with fetching := false } { m with host := h, cpus := c }
  refine ⟨bs, h, c, ?_⟩
  simp only [squash, hk, hbs]

section Facts

variable (k : Nat) (s : Script) (m : M)

theorem squash_fst : ∃ bs, (squash k s m).1 = { s with fetching := false, bufs := bs, win := s.win.take k, ahead := [] } := by
  obtain ⟨bs, h, c, he⟩ := squash_eq k s m
  exact ⟨bs, by rw [he]⟩

theorem squash_none_f (h : s.win.length ≤ k) : (squash k s m).2.f = m.f := by
  obtain ⟨bs, x, c, he⟩ := squash_eq k s m
  simp only [he, List.drop_eq_nil_of_le h]
  rfl

theorem foldl_dropCue_kept {P : M → Prop} (hP : DropKept P) (h : P m) (host : Map HostSt) (cpus : Map Cpu) :
    P ((s.win.drop k).foldl dropCue ({ s with fetching := false }, { m with host := host, cpus := cpus })).2 :=
  hP.foldl _ _ (hP.side _ _ _ h)

theorem fld_kept {F : Fld} (i v : Nat) (hu : F ≠ .MOV_QSTS_USED) (hp : F ≠ .MOV_QSTS_PEAK) :
    DropKept (fun n => n.fld F i = v) where
  side _ _ _ h := h
  bud _ _ h := h
  subq _ _ _ _ h := h
  queue n c o q h := by
    rw [putQueue, ← h]
    exact (M.fld_setFld_other _ _ hp).trans ((M.fld_setFld_other _ _ hu).trans rfl)
  frames _ _ _ h := h
  strike n l j h := by
    rw [strikeSquash]
    split
    · exact h
    · rw [strikeRh]
      split <;> exact h

theorem squash_discarded (h : k < s.win.length) : (squash k s m).2.fld .SPC_CUES_DISCARDED (pinst s.part 0) =
    (m.bumpN .SPC_CUES_DISCARDED (pinst s.part 0) (s.win.length - k)).fld .SPC_CUES_DISCARDED (pinst s.part 0) := by
  obtain ⟨bs, x, c, he⟩ := squash_eq k s m
  have hk := foldl_dropCue_kept k s m (fld_kept (F := .SPC_CUES_DISCARDED) (pinst s.part 0) _ (by decide) (by decide)) rfl x c
  rw [he, if_neg (by simp; omega), List.length_drop, M.bump, M.fld_bumpN, if_neg (by simp), M.fld_bumpN, M.fld_bumpN,
    if_pos ⟨rfl, rfl⟩, if_pos ⟨rfl, rfl⟩, hk]

theorem squash_squashes (h : k < s.win.length) : (squash k s m).2.fld .SPC_SQUASH_SQUASHES (pinst s.part 0) =
    (m.bump .SPC_SQUASH_SQUASHES (pinst s.part 0)).fld .SPC_SQUASH_SQUASHES (pinst s.part 0) := by
  obtain ⟨bs, x, c, he⟩ := squash_eq k s m
  have hk := foldl_dropCue_kept k s m (fld_kept (F := .SPC_SQUASH_SQUASHES) (pinst s.part 0) _ (by decide) (by decide)) rfl x c
  rw [he, if_neg (by simp; omega)]
  refine M.fld_bump_congr ?_
  rw [M.fld_bumpN, if_neg (by simp), hk]

/-- What the queue of a link and the rehearsals hold is untouched by the counts of a squash. -/
theorem squash_kept {P : M → Prop} (hf : ∀ (n : M) F i j, P n → P (n.bumpN F i j))
    (h : ∀ host cpus, P ((s.win.drop k).foldl dropCue ({ s with fetching := false }, { m with host := host, cpus := cpus })).2) :
    P (squash k s m).2 := by
  obtain ⟨bs, x, c, he⟩ := squash_eq k s m
  rw [he]
  split
  · exact h x c
  · exact hf _ _ _ _ (hf _ _ _ _ (h x c))

/-! ### Queued REHEARSE frames and rehearsals of discarded cues -/

section Queue

variable (l p t n : Nat)

/-- No REHEARSE of a cue is queued on a link. -/
def Unqueued (m : M) : Prop := .rehearse p t n ∉ (m.link l).cmdq

theorem dropFrames_link (l j : Nat) (g : QFrame → Bool) (m : M) : ((dropFrames l g m).link j).cmdq =
    if j = l then (m.link l).cmdq.filter (fun f => !(g f)) else (m.link j).cmdq := by
  rw [dropFrames]
  split
  · next h => rw [h, M.link_setLink]
  · next h => rw [M.link_setLink_ne _ _ h]

theorem rehearse_mem_lessGo {j : Nat} {q : List QFrame}
    (h : .rehearse p t n ∈ (q.map (QFrame.lessGo j)).filter (fun f => !f.isEmpty)) : .rehearse p t n ∈ q := by
  obtain ⟨f, hf, he⟩ := List.mem_map.mp (List.mem_of_mem_filter h)
  cases f <;> cases he
  exact hf

theorem Unqueued.setLink {m : M} (h : Unqueued l p t n m) (j : Nat) (x : LinkSt)
    (hx : .rehearse p t n ∈ x.cmdq → .rehearse p t n ∈ (m.link j).cmdq) : Unqueued l p t n (m.setLink j x) := by
  rw [Unqueued]
  by_cases hl : l = j
  · subst hl
    rw [M.link_setLink]
    exact fun hmem => h (hx hmem)
  · rw [M.link_setLink_ne _ _ hl]
    exact h

theorem unqueued_kept : DropKept (Unqueued l p t n) where
  side _ _ _ h := h
  bud _ _ h := h
  subq _ _ _ _ h := h
  queue _ _ _ _ h := h
  frames m j g h := h.setLink l p t n j _ List.mem_of_mem_filter
  strike m j k h := by
    rw [strikeSquash]
    split
    · exact h
    · rw [strikeRh]
      split
      · exact h
      · refine Unqueued.setLink l p t n (m := M.setRh (dropGo j k _) _ _ _) ?_ j _
          (fun hm => (List.mem_append.mp hm).resolve_right (by simp))
        exact Unqueued.setLink l p t n (m := m) h j _ (fun h => rehearse_mem_lessGo p t n h)

/-- A cue that is dropped leaves no REHEARSE of its own in the queue of its link. -/
theorem dropCue_unqueued (s : Script) (m : M) {c : PCue} (h : c.rq = true) :
    Unqueued (slotLink c.cue.slot) s.part s.tag c.sn (dropCue (s, m) c).2 := by
  obtain ⟨_, x, k, _, he⟩ := dropCue_eq s m c
  have hK := unqueued_kept (slotLink c.cue.slot) s.part s.tag c.sn
  rw [he]
  refine hK.bud _ _ (hK.discard _ _ _ (hK.strikeOwn c ?_))
  rw [unqueueRh, if_pos h]
  refine hK.bud _ _ ?_
  rw [Unqueued, dropFrames_link, if_pos rfl]
  simp

end Queue

section Rehearsals

variable (l n : Nat)

/-- A rehearsal that has been struck and holds no space and no data. -/
def Struck (m : M) : Prop := ∃ r, m.rh l n = some r ∧ r.st = .striking ∧ r.hold = 0 ∧ r.data = []

theorem M.rh_setRh_ne (m : M) {l n j k : Nat} (r : Rehearsal) (h : (l, n) ≠ (j, k)) : (m.setRh j k r).rh l n = m.rh l n :=
  mapFind_put_ne _ _ h

theorem strikeSquash_struck {m : M} {r : Rehearsal} (h : m.rh l n = some r) : Struck l n (strikeSquash l n m) := by
  rw [strikeSquash, h]
  dsimp only
  rw [strikeRh, M.rh_setRh]
  exact ⟨_, M.rh_setRh _ _ _ _, rfl, rfl, rfl⟩

theorem strikeSquash_rh_ne {m : M} {j k : Nat} (h : (l, n) ≠ (j, k)) : (strikeSquash j k m).rh l n = m.rh l n := by
  rw [strikeSquash]
  split
  · rfl
  · rw [strikeRh, M.rh_setRh]
    exact (M.rh_setRh_ne _ _ h).trans (M.rh_setRh_ne _ _ h)

theorem struck_kept : DropKept (Struck l n) where
  side _ _ _ h := h
  bud _ _ h := h
  subq _ _ _ _ h := h
  queue _ _ _ _ h := h
  frames _ _ _ h := h
  strike m j k h := by
    by_cases he : (l, n) = (j, k)
    · cases he
      obtain ⟨r, hr, -⟩ := h
      exact strikeSquash_struck l n hr
    · rw [Struck, strikeSquash_rh_ne l n he]
      exact h

/-- A rehearsal is there. -/
def Held (m : M) : Prop := ∃ r, m.rh l n = some r

theorem held_kept : DropKept (Held l n) where
  side _ _ _ h := h
  bud _ _ h := h
  subq _ _ _ _ h := h
  queue _ _ _ _ h := h
  frames _ _ _ h := h
  strike m j k h := by
    by_cases he : (l, n) = (j, k)
    · cases he
      obtain ⟨r, hr⟩ := h
      obtain ⟨q, hq, -⟩ := strikeSquash_struck l n hr
      exact ⟨q, hq⟩
    · rw [Held, strikeSquash_rh_ne l n he]
      exact h

/-- A cue that is dropped leaves its rehearsal struck. -/
theorem dropCue_struck (s : Script) {m : M} {c : PCue} (hc : c.rhs = some n) (h : Held (slotLink c.cue.slot) n m) :
    Struck (slotLink c.cue.slot) n (dropCue (s, m) c).2 := by
  obtain ⟨_, x, k, _, he⟩ := dropCue_eq s m c
  have hK := struck_kept (slotLink c.cue.slot) n
  rw [he]
  refine hK.bud _ _ (hK.discard _ _ _ ?_)
  obtain ⟨r, hr⟩ := (held_kept (slotLink c.cue.slot) n).unqueue s c (m := { m with host := x, cpus := k }) h
  rw [strikeOwn, hc]
  exact strikeSquash_struck _ _ hr

end Rehearsals

theorem squash_unqueued {d : PCue} (hd : d ∈ s.win.drop k) (hq : d.rq = true) :
    .rehearse s.part s.tag d.sn ∉ ((squash k s m).2.link (slotLink d.cue.slot)).cmdq := by
  refine squash_kept k s m (P := Unqueued (slotLink d.cue.slot) s.part s.tag d.sn) (fun _ _ _ _ h => h) (fun x c => ?_)
  refine (unqueued_kept _ _ _ _).foldl_mem (Q := fun z _ => z.part = s.part ∧ z.tag = s.tag) hd _ ⟨rfl, rfl⟩ ?_ ?_
  · rintro ⟨z, n⟩ e hz
    obtain ⟨bs, _, _, _, he⟩ := dropCue_eq z n e
    rw [he]
    exact hz
  · rintro ⟨z, n⟩ ⟨hp, ht⟩
    rw [← hp, ← ht]
    exact dropCue_unqueued z n hq

theorem squash_struck {d : PCue} {n : Nat} {r : Rehearsal} (hd : d ∈ s.win.drop k) (hr : d.rhs = some n)
    (h : m.rh (slotLink d.cue.slot) n = some r) : Struck (slotLink d.cue.slot) n (squash k s m).2 := by
  refine squash_kept k s m (P := Struck (slotLink d.cue.slot) n) (fun _ _ _ _ h => h) (fun x c => ?_)
  exact (struck_kept _ _).foldl_mem (Q := fun _ a => Held (slotLink d.cue.slot) n a) hd _ ⟨r, h⟩
    (fun acc e h => (held_kept _ _).dropCue acc e h) (fun acc h => dropCue_struck n acc.1 hr h)

end Facts

/-! ### The end of a script -/

/-- A script that has ended is there still, with nothing of its work, and waits for nothing. -/
theorem endScript_leaves (im : Image) (e : Entry) (y : Script) (m : M) :
    (∃ z, (endScript im y e m).script y.part y.tag = some z ∧ z.st = .ended ∧ z.win = [] ∧ z.next = none ∧ z.bufs = [] ∧
      z.thread = none) ∧
    (∀ w ∈ (endScript im y e m).bud.stageq, ¬(w.part = y.part ∧ w.tag = y.tag)) ∧
    (y.part, y.tag) ∉ (endScript im y e m).waits := by
  obtain ⟨bs, hfst⟩ := squash_fst y.keep y m
  rw [endScript]
  simp only [hfst]
  have hmoved := fun n => postEntry_moved im y.part e n
  simp only [(hmoved _).script, (hmoved _).bud, (hmoved _).waits]
  refine ⟨⟨_, M.script_setScript _ _, rfl, rfl, rfl, rfl, rfl⟩, ?_, ?_⟩
  · rintro w hw ⟨hp, ht⟩
    simpa [hp, ht] using (List.mem_filter.mp hw).2
  · intro hw
    simpa using (List.mem_filter.mp hw).2

end Sys2Proof

end

section
/-! PROOFS. What each cue does (04, R89 to R104; 05, R126). -/

namespace Sys2Proof

/-! ### The confirmed cue of a thread -/

section Ready

variable {im : Image} {t op : Nat} {m : M} {x : Script} {c : PCue}

/-- The cue that may execute stands first in its script's window. -/
theorem readyCue_win (h : readyCue t op m = some (x, c)) : ∃ w, x.win = c :: w := by
  rw [readyCue] at h
  split at h
  · cases h
  · next s _ =>
    split at h
    · cases h
    · next d w hw =>
      split at h <;> cases h
      exact ⟨w, hw⟩

theorem opSimpleCue_ready (h : readyCue t op m = some (x, c)) : opSimpleCue im op t m =
    completeCue im x.part x.tag 0 false (cueStep x m) := by
  simp only [opSimpleCue, h]

theorem opWait_ready (h : readyCue t 10 m = some (x, c)) :
    let m1 := cueStep x m
    let arg := if c.cue.arg = 1 then c.cue.slot else bitsAt c.cue.w3 0 6
    (waitMet m1 x.part c.cue.arg arg = true →
      opWait im t m = completeCue im x.part x.tag 0 false (consume x.part c.cue.arg arg m1)) ∧
    (waitMet m1 x.part c.cue.arg arg = false →
      let m2 := m1.setScript { x with
        st := .waiting
        run := { x.run with begun := true }
        wait := .cue c.cue.arg arg c.cue.param (edgeCount m1) }
      opWait im t m = { m2 with waits := m2.waits ++ [(x.part, x.tag)] }) := by
  intro m1 arg
  refine ⟨fun hmet => ?_, fun hmet => ?_⟩
  · simp only [opWait, h]
    exact if_pos hmet
  · simp only [opWait, h]
    exact if_neg (by rw [hmet]; simp)

theorem opWaitOver_due {mode arg ticks start : Nat} {out : Bool} (hs : m.scriptOn t = some x)
    (hw : x.wait = .cue mode arg ticks start) (ht : ticks ≠ 0) (hd : start + ticks ≤ edgeCount m)
    (hm : (mode ≠ 0) = (out = true)) : opWaitOver im t out m = endWait im x.part x.tag out m := by
  simp only [opWaitOver, hs, hw]
  exact if_pos ⟨by simp [waitOver, ht, hd], hm⟩

theorem opCall_starts {q : Rout} (h : readyCue t 11 m = some (x, c)) (hb : x.run.begun = false)
    (hq : im.routine c.cue.arg = some q) (hc : bitAt q.callers x.part = true) (hr : (m.cpu (thr t)).ready ≤ m.now) :
    opCall im t m =
      let m2 := (cueStep x m).bump .SPN_RSTATS_CALLS (pinst x.part 0)
      let w := fun n => BitVec.ofNat 64 n
      (m2.setCpu (thr t) (routineCpu m2 (m2.cpu (thr t)) ⟨q.index, x.part, x.tag, 0, 0, edgeCount m2, none⟩
        [w c.cue.w1, w c.cue.slot, w c.cue.param, w c.cue.w3, w x.tag, w x.part, w (c.ptr + (if c.inl then 2 ^ 63 else 0))])).setScript
        { x with run := { x.run with begun := true } } := by
  simp only [opCall, h, hb, hq, hc, Bool.false_eq_true, Bool.true_eq_false, if_false]
  exact if_neg (by omega)

theorem opCall_absent (h : readyCue t 11 m = some (x, c)) (hb : x.run.begun = false)
    (hq : im.routine c.cue.arg = none) : opCall im t m = endScript im x (failEntry x c 0x26 4) (cueStep x m) := by
  simp [opCall, h, hb, hq]

end Ready

/-! ### Device cues -/

section Device

variable {im : Image} {t op : Nat} {m : M} {x : Script} {c : PCue}

theorem setHead_cons {w : List PCue} (h : x.win = c :: w) (g : PCue → PCue) : setHead x g = { x with win := g c :: w } := by
  rw [setHead, h]

/-- The space that the first cue of a group takes says nothing about its data. -/
theorem immediate_head_wunits {w : List PCue} (h : x.win = c :: w) (u : Nat) :
    immediate ({ x with win := { c with wunits := u } :: w } : Script).head = immediate x.head := by
  have hlen : groupLen ({ c with wunits := u } :: w) = groupLen (c :: w) := rfl
  rw [Script.head, Script.head, hlen, h]
  cases groupLen (c :: w) with
  | zero => rfl
  | succ n => rfl

/-- What a device cue that may begin does first. -/
theorem opDeviceCue_begins {w : List PCue} (h : readyCue t op m = some (x, c)) (hw : x.win = c :: w) (hb : x.run.begun = false)
    (hl : linkRefusal m c.cue = none) (hu : ungranted x = none)
    (hroom : needsItem x c = true → (cueXfer m x.part x.tag c.sn).isNone = true → queueRoom im m x.cluster x.part = true)
    (hspace : spaceNeed im x c = 0 ∨ stageNow m x.part (spaceNeed im x c) = true) :
    opDeviceCue im op t m = if spaceNeed im x c = 0 then beginDevice im x c m else
      beginDevice im { x with win := { c with wunits := spaceNeed im x c } :: w } { c with wunits := spaceNeed im x c }
        (m.stageTake x.part (spaceNeed im x c)) := by
  simp only [opDeviceCue, h]
  rw [if_neg (by simp [hb]), if_neg (fun hn => by simp [hroom hn.1 hn.2.1] at hn)]
  simp only [hb, hl, hu, Bool.false_eq_true, if_false]
  by_cases h0 : spaceNeed im x c = 0
  · rw [if_pos h0, if_pos h0]
  · rw [if_neg h0, if_neg h0, if_pos (hspace.resolve_left h0), setHead_cons hw]

/-- The CMD frames of a device cue that begins. -/
def cmdFrames (c : PCue) (p tag : Nat) (m : M) : M :=
  let m := enqFrame (slotLink c.cue.slot) (.cmd p tag false) m
  if c.cue.op = 5 then enqFrame (slotLink c.cue.dstSlot) (.cmd p tag true) m else m

theorem beginDevice_plain {y : Script} {d : PCue} (hb : y.run.begun = false) (hn : needsItem y d = false) :
    beginDevice im y d m = (cmdFrames d y.part y.tag (cueStep y m)).setScript { y with run := { y.run with begun := true } } := by
  have hpost : (needsItem y d && !y.run.itemDone && (cueXfer (cueStep y m) y.part y.tag d.sn).isNone) = false := by simp [hn]
  simp only [beginDevice, hpost, hb, Bool.false_eq_true, if_false, cmdFrames]

theorem beginDevice_item {y : Script} {d : PCue} (hb : y.run.begun = false) (hi : y.run.itemDone = false)
    (hn : needsItem y d = true) (hx : (cueXfer (cueStep y m) y.part y.tag d.sn).isNone = true) :
    beginDevice im y d m = (cmdFrames d y.part y.tag (postXfer y.cluster y.part
      (keptXfer y (groupXfer im (cueStep y m) y y.head d)) (cueStep y m))).setScript
        { y with run := { y.run with kept := [], begun := true } } := by
  have hpost : (needsItem y d && !y.run.itemDone && (cueXfer (cueStep y m) y.part y.tag d.sn).isNone) = true := by
    simp [hn, hi, hx]
  simp only [beginDevice, hpost, hb, Bool.false_eq_true, if_false, if_true, cmdFrames]

/-- A cue that began without a rehearsal leaves its cluster's queue to be settled. -/
theorem opDevCue_settles {n : M} {z : Script} {d : PCue} {w : List PCue} (hop : opDeviceCue im op t m = n)
    (hs : n.scriptOn t = some z) (hz : z.win = d :: w) (hr : d.rhs = none) :
    opDevCue im op t m = settleQueue im z.cluster z.part n := by
  simp only [opDevCue, hop, hs, hz, hr]

end Device

/-! ### The next cue of a window -/

theorem declareBuf_next (c : PCue) (s : Script) (m : M) : (declareBuf c s m).2.1.next = s.next := by
  rw [declareBuf]
  split <;> rfl

theorem checkCue_next (im : Image) (pre : List PCue) (c : PCue) (s : Script) (m : M) :
    (checkCue im pre c s m).2.1.next = s.next := by
  rw [checkCue]
  dsimp only
  split
  · rfl
  · split
    · rfl
    · split
      · rfl
      · split <;> rfl
      · split
        · rfl
        · exact declareBuf_next _ s _

theorem checkFrom_next (im : Image) (l pre : List PCue) (s : Script) (m : M) :
    (checkFrom im pre l s m).2.1.next = s.next := by
  induction l generalizing pre s m with
  | nil => rfl
  | cons c l ih =>
    rw [checkFrom]
    split
    · exact ih ..
    · have hc := checkCue_next im pre c s m
      rcases he : checkCue im pre c s m with ⟨d, z, n⟩
      rw [he] at hc
      dsimp only at hc ⊢
      split
      · exact hc
      · exact (ih ..).trans hc

theorem addCue_next (im : Image) (m : M) (s : Script) (ptr : Nat) (inl : Bool) (cue : Cue) (chk : Chk) :
    (addCue im ptr inl cue chk s m).1.next =
      some (if cue.op = 8 then (cue.w3, false) else if inl = true then (ptr + 1, true) else (ptr + 32, false)) :=
  checkFrom_next ..

/-! ### Completion of a single cue (R94, R102) -/

section Complete

variable {im : Image} {m : M} {x : Script} {c : PCue} {w : List PCue}

theorem head_single (hw : x.win = c :: w) (hcd : c.cue.cd = false) : x.head = [c] := by
  have hlen : groupLen (c :: w) = 1 := by simp [groupLen, hcd]
  rw [Script.head, hw, hlen]
  rfl

/-- A script whose first cue has completed, with that cue still in its window. -/
def Script.completed (x : Script) (c : PCue) (w : List PCue) (skip : Bool) : Script :=
  { x with skipped := skip, run := default, win := { c with wunits := 0 } :: w }

/-- Completion of one cue, in terms of the script that has completed it. -/
theorem completeCue_single {n : Nat} {skip : Bool} (hs : m.script x.part x.tag = some x) (hw : x.win = c :: w)
    (hcd : c.cue.cd = false) :
    let sk := skip && !c.cue.isLast
    let y := x.completed c w sk
    let m0 := discardXfer x.part x.tag c.sn (m.stageFree x.part c.wunits)
    completeCue im x.part x.tag n skip m =
      if c.cue.isLast then
        let r := if c.cue.op == 12 then postEntry im x.part (cueEntry y [c] n 0x01 0 false) m0 else (false, m0)
        if r.1 then r.2.setScript { y with st := .waiting, wait := .entry, done := some ([c], n, y.side), last := true }
        else endScript im y (cueEntry y [c] n 0x00 0 true) r.2
      else if sk && c.inl && decide (x.icues.length ≤ (skipOf c).1) then endScript im y (cueEntry y [c] n stCue 7 true) m0
      else if x.run.cleared then endScript im y (cueEntry y [c] n 0x29 0 true) m0
      else
        let r := if c.cue.op == 12 then postEntry im x.part (cueEntry y [c] n 0x01 0 false) m0
          else if c.cue.post then postEntry im x.part (cueEntry y [c] n 0x02 0 false) m0 else (false, m0)
        let z := { y with side := false, done := if r.1 then some ([c], n, y.side) else none }
        if x.halting then
          let t := if sk then skipOf c else succOf c
          endScript im z (mkEntry z 0x28 0 0 t.1 0 t.2 true) r.2
        else
          let q := if sk then
              ({ (squash 1 z r.2).1 with win := [], next := some (skipOf c) },
                if c.inl then (squash 1 z r.2).2 else (squash 1 z r.2).2.bump .SPC_SQUASH_REFETCH (pinst x.part 0))
            else ({ z with win := w }, r.2)
          if r.1 then specWork im x.part x.tag (q.2.setScript { q.1 with st := .waiting, wait := .entry })
          else goOn im x.part x.tag (q.2.setScript { q.1 with st := .running, wait := .nothing }) := by
  intro sk y m0
  have hdrop : x.win.drop 1 = w := by rw [hw]; rfl
  simp only [completeCue, hs, head_single hw hcd, List.head?_cons, List.getLast?_singleton, List.map_cons, List.map_nil,
    List.length_singleton, hdrop, List.singleton_append]
  rfl

/-- The entry of a cue that moves no data names its pointer and USER_TAG and leaves nothing over. -/
theorem cueEntry_mark (y : Script) (hop : c.cue.op = 12) (st : Nat) (term : Bool) :
    cueEntry y [c] 0 st 0 term = mkEntry y st 0 0 c.ptr c.cue.userTag c.inl term := by
  simp [cueEntry, inForceAt, Cue.isDevice, hop]

section Mark

variable (hs : m.script x.part x.tag = some x) (hw : x.win = c :: w) (hop : c.cue.op = 12) (hcd : c.cue.cd = false)
include hs hw hop hcd

theorem completeCue_mark_on (hcl : x.run.cleared = false) (hcc : c.cue.cc = true) (hh : x.halting = false) :
    let y := x.completed c w false
    let r := postEntry im x.part (mkEntry y 0x01 0 0 c.ptr c.cue.userTag c.inl false)
      (discardXfer x.part x.tag c.sn (m.stageFree x.part c.wunits))
    r.1 = false → completeCue im x.part x.tag 0 false m = goOn im x.part x.tag
      (r.2.setScript { y with side := false, done := none, win := w, st := .running, wait := .nothing }) := by
  intro y r hheld
  have hlast : c.cue.isLast = false := by simp [Cue.isLast, hop, hcc]
  have hr : (postEntry im x.part (mkEntry (x.completed c w false) 0x01 0 0 c.ptr c.cue.userTag c.inl false)
      (discardXfer x.part x.tag c.sn (m.stageFree x.part c.wunits))).1 = false := hheld
  simp only [completeCue_single hs hw hcd, hlast, Bool.false_and, hop, beq_self_eq_true, if_true, Bool.false_eq_true, if_false,
    cueEntry_mark _ hop, hcl, hr]
  exact if_neg (by simp [hh])

theorem completeCue_mark_last (hcc : c.cue.cc = false) :
    let y := x.completed c w false
    let r := postEntry im x.part (mkEntry y 0x01 0 0 c.ptr c.cue.userTag c.inl false)
      (discardXfer x.part x.tag c.sn (m.stageFree x.part c.wunits))
    r.1 = false → completeCue im x.part x.tag 0 false m =
      endScript im y (mkEntry y 0x00 0 0 c.ptr c.cue.userTag c.inl true) r.2 := by
  intro y r hheld
  have hlast : c.cue.isLast = true := by simp [Cue.isLast, hop, hcc, hcd]
  simp only [completeCue_single hs hw hcd, hlast, Bool.false_and, hop, beq_self_eq_true, if_true, cueEntry_mark _ hop]
  exact if_neg (Bool.eq_false_iff.mp hheld)

end Mark

/-- A skip goes on one cue further. -/
theorem completeCue_skip {n : Nat} (hs : m.script x.part x.tag = some x) (hw : x.win = c :: w) (hl : c.cue.isLast = false)
    (hcd : c.cue.cd = false) (hop : c.cue.op ≠ 12) (hpost : c.cue.post = false) (hh : x.halting = false)
    (hcl : x.run.cleared = false) (hinl : c.inl = false) :
    let y : Script := { x.completed c w true with side := false, done := none }
    let q := squash 1 y (discardXfer x.part x.tag c.sn (m.stageFree x.part c.wunits))
    completeCue im x.part x.tag n true m = goOn im x.part x.tag ((q.2.bump .SPC_SQUASH_REFETCH (pinst x.part 0)).setScript
      { q.1 with win := [], next := some (if c.cue.op = 8 then c.cue.w3 + 32 else c.ptr + 64, false), st := .running,
                 wait := .nothing }) := by
  intro y q
  have hskip : skipOf c = (if c.cue.op = 8 then c.cue.w3 + 32 else c.ptr + 64, false) := by
    by_cases h8 : c.cue.op = 8 <;> simp [skipOf, succOf, h8, hinl]
  have h12 : (c.cue.op == 12) = false := by simp [hop]
  simp only [completeCue_single hs hw hcd, hl, hinl, hcl, hpost, h12, hskip, Bool.not_false, Bool.true_and, Bool.and_false,
    Bool.false_and, Bool.false_eq_true, if_false, if_true]
  exact if_neg (by simp [hh])

end Complete

/-! ### Stage space and events -/

section Grants

variable {m : M} {p : Nat} {w : StageReq} {x : Script}

theorem opStageGrant_fits (hq : m.bud.stageq.find? (fun w => w.part == p) = some w) (hf : m.stageFits p w.units = true)
    (hs : m.script p w.tag = some x) : opStageGrant p m = grantTo x w { m.stageTake p w.units with
      bud := { (m.stageTake p w.units).bud with stageq := (m.stageTake p w.units).bud.stageq.erase w } } := by
  simp only [opStageGrant, hq, hf, hs, if_true]

theorem opStageGrant_waits (hq : m.bud.stageq.find? (fun w => w.part == p) = some w) (hf : m.stageFits p w.units = false) :
    opStageGrant p m = m := by
  simp [opStageGrant, hq, hf]

/-- The confirmed cue's own space: the script that waits for it runs again. -/
theorem grantTo_cue {k : Nat} (n : M) (hb : w.buf = none) (hw : x.st = .waiting) (hk : x.wait = .stage k) :
    grantTo x w n = n.setScript { setHead x (fun c => { c with wunits := w.units }) with st := .running, wait := .nothing } := by
  simp only [grantTo, hb, hw, hk, if_true]

end Grants

theorem opCueEvent_open {im : Image} {p bits : Nat} {m : M} (he : im.enabled p = true) (ho : barOpen im m p = true) :
    whenOpen im p (opCueEvent im p bits) m = wakeWaits im p ((hostTlp p m).setFld .CUE_EVENT_EVENT (pinst p 0)
      (m.fld .CUE_EVENT_EVENT (pinst p 0) ||| bits)) := by
  rw [whenOpen, if_pos ho, opCueEvent, if_pos he]
  rfl

end Sys2Proof

end

section
/-! PROOFS. The cues, put together (04, R68 to R104; 05, R126). -/

namespace Sys2Proof

namespace Machine

/-- What `CuesRun` says of the five device cues. -/
theorem deviceCue_completes {s : State} {t : Fin 512} {x : Script} {c : PCue} {op : Nat} {i : Instr}
    (hi : exec i s = .next (s.upd fun im m => opDevCue im op t.val m)) (h : readyCue t.val op s.m = some (x, c))
    (hb : x.run.begun = false) (hl : linkRefusal s.m c.cue = none) (hu : ungranted x = none)
    (hspace : spaceNeed s.inForce x c = 0 ∨ stageNow s.m x.part (spaceNeed s.inForce x c) = true) (hr : c.rhs = none) :
    let u := spaceNeed s.inForce x c
    let y := if u = 0 then x else setHead x (fun c => { c with wunits := u })
    let d := if u = 0 then c else { c with wunits := u }
    let m0 := cueStep y (if u = 0 then s.m else s.m.stageTake x.part u)
    (needsItem x c = false →
      let m3 := (cmdFrames c x.part x.tag m0).setScript { y with run := { y.run with begun := true } }
      m3.scriptOn t.val = some { y with run := { y.run with begun := true } } →
      Completes i s (settleQueue s.inForce x.cluster x.part m3)) ∧
    (needsItem x c = true → queueRoom s.inForce s.m x.cluster x.part = true → (cueXfer s.m x.part x.tag c.sn).isNone = true →
      (cueXfer m0 x.part x.tag c.sn).isNone = true → x.run.itemDone = false →
      let m3 := (cmdFrames c x.part x.tag (postXfer x.cluster x.part (keptXfer y (groupXfer s.inForce m0 y y.head d)) m0)).setScript
        { y with run := { y.run with kept := [], begun := true } }
      m3.scriptOn t.val = some { y with run := { y.run with kept := [], begun := true } } →
      Completes i s (settleQueue s.inForce x.cluster x.part m3)) := by
  obtain ⟨w, hw⟩ := readyCue_win h
  intro u y d m0
  have hop : ∀ hroom, opDeviceCue s.inForce op t.val s.m = if u = 0 then beginDevice s.inForce x c s.m else
      beginDevice s.inForce { x with win := { c with wunits := u } :: w } { c with wunits := u } (s.m.stageTake x.part u) :=
    fun hroom => opDeviceCue_begins h hw hb hl hu hroom hspace
  by_cases h0 : u = 0
  · have hy : y = x := if_pos h0
    have hd : d = c := if_pos h0
    have hm : m0 = cueStep x s.m := by rw [show m0 = cueStep y _ from rfl, hy, if_pos h0]
    clear_value y d m0
    subst hy hd hm
    constructor
    · intro hn m3 hon
      have hbegin := (hop (by simp [hn])).trans ((if_pos h0).trans (beginDevice_plain hb hn))
      have hset := opDevCue_settles hbegin hon hw hr
      exact completes_of_upd hi hset
    · intro hn hroom hfree hfree0 hdone m3 hon
      have hbegin := (hop fun _ _ => hroom).trans ((if_pos h0).trans (beginDevice_item hb hdone hn hfree0))
      have hset := opDevCue_settles hbegin hon hw hr
      exact completes_of_upd hi hset
  · have hy : y = { x with win := { c with wunits := u } :: w } := (if_neg h0).trans (setHead_cons hw _)
    have hd : d = { c with wunits := u } := if_neg h0
    have hm : m0 = cueStep { x with win := { c with wunits := u } :: w } (s.m.stageTake x.part u) := by
      rw [show m0 = cueStep y _ from rfl, hy, if_neg h0]
    clear_value y d m0
    subst hy hd hm
    have hneeds : needsItem { x with win := { c with wunits := u } :: w } { c with wunits := u } = needsItem x c := by
      rw [needsItem, needsItem, immediate_head_wunits hw]
    constructor
    · intro hn m3 hon
      have hbegin := (hop (by simp [hn])).trans ((if_neg h0).trans (beginDevice_plain hb (hneeds.trans hn)))
      have hset := opDevCue_settles hbegin hon rfl hr
      exact completes_of_upd hi hset
    · intro hn hroom hfree hfree0 hdone m3 hon
      have hbegin := (hop fun _ _ => hroom).trans ((if_neg h0).trans (beginDevice_item hb hdone (hneeds.trans hn) hfree0))
      have hset := opDevCue_settles hbegin hon rfl hr
      exact completes_of_upd hi hset

/-- Settles O39: the device cues by what begins them; completion, squash and end of a script by what they leave. -/
theorem cuesRun : Obligations.CuesRun := by
  unfold Obligations.CuesRun
  intro s t x c im p m1 u y d m0 device
  have hdevice : ∀ op (i : Instr), exec i s = .next (s.upd fun im m => opDevCue im op t.val m) → device op i := by
    intro op i hi h hb hl hu hspace hr
    exact deviceCue_completes hi h hb hl hu hspace hr
  refine ⟨hdevice _ _ rfl, hdevice _ _ rfl, hdevice _ _ rfl, hdevice _ _ rfl, hdevice _ _ rfl, ?_, ?_, ?_, ?_, ?_, ?_, ?_, ?_, ?_,
    ?_, ?_, ?_, ?_, ?_, ?_⟩
  · exact fun h => completes_of_upd rfl (opSimpleCue_ready h)
  · exact fun h => completes_of_upd rfl (opSimpleCue_ready h)
  · exact fun h => completes_of_upd rfl (opSimpleCue_ready h)
  · exact fun h => completes_of_upd rfl (opSimpleCue_ready h)
  · intro h
    have hwait := opWait_ready (im := im) h
    exact ⟨fun hmet => completes_of_upd rfl (hwait.1 hmet), fun hmet => completes_of_upd rfl (hwait.2 hmet)⟩
  · intro mode arg ticks start hs hw ht hd
    exact ⟨fun hm => completes_of_upd rfl (opWaitOver_due hs hw ht hd (by simp [hm])),
      fun hm => completes_of_upd rfl (opWaitOver_due hs hw ht hd (by simp [hm]))⟩
  · intro h hb
    exact ⟨fun q hq hc hr => completes_of_upd rfl (opCall_starts h hb hq hc hr),
      fun hq => completes_of_upd rfl (opCall_absent h hb hq)⟩
  · intro q w hq hf hs m2 m3
    exact ⟨completes_of_upd rfl (opStageGrant_fits hq hf hs), fun k hb hw hk => grantTo_cue m3 hb hw hk⟩
  · exact fun q w hq hf => completes_of_upd rfl (opStageGrant_waits hq hf)
  · exact addCue_next
  · intro m w hs hw hop hcd hcl y e r hheld
    exact ⟨fun hcc hh => completeCue_mark_on hs hw hop hcd hcl hcc hh hheld,
      fun hcc => completeCue_mark_last hs hw hop hcd hcc hheld⟩
  · intro m w n hs hw hl hcd hop hpost hh hcl hinl
    exact completeCue_skip hs hw hl hcd hop hpost hh hcl hinl
  · intro k y m t i
    obtain ⟨bs, hfst⟩ := squash_fst k y m
    have hfst' : t.1 = { y with fetching := false, bufs := bs, win := y.win.take k, ahead := [] } := hfst
    rw [hfst']
    exact ⟨rfl, rfl, rfl, rfl, squash_none_f k y m, fun hk => ⟨squash_discarded k y m hk, squash_squashes k y m hk⟩,
      fun d hd hq => squash_unqueued k y m hd hq, fun d hd n r hr h => squash_struck k y m hd hr h⟩
  · exact fun e y m => endScript_leaves im e y m
  · intro q bits he ho
    exact completes_of_upd rfl (opCueEvent_open he ho)

end Machine

end Sys2Proof

end

section
/-! PROOFS. Rings: enable, doorbells, inline windows, fetches and write-backs (06, R135 to R158, R412). -/

namespace Sys2Proof

theorem whenOpen_open {im : Image} {p : Nat} {m : M} (run : M → M) (h : barOpen im m p = true) :
    whenOpen im p run m = run (hostTlp p m) := if_pos h

/-! ### Enable (R137) -/

section Enable

variable {im : Image} {p : Nat} {m : M} (he : im.enabled p = true) (hf : m.flag .RNG_ENABLE_ENABLED (pinst p 0) = false)
include he hf

theorem opRingEnable_sound (h : ∀ k, k < im.partN p (·.ringCount) → ringReason im m p k = 0) :
    opRingEnable im p m = m.setFlag .RNG_ENABLE_ENABLED (pinst p 0) true := by
  have hnone : (List.range (im.partN p (·.ringCount))).find? (fun r => ringReason im m p r != 0) = none := by
    simpa using h
  unfold opRingEnable
  rw [if_neg (by simp [he, hf]), hnone]

theorem opRingEnable_refused {k : Nat} (hk : k < im.partN p (·.ringCount)) (hr : ringReason im m p k ≠ 0)
    (hfirst : ∀ j, j < k → ringReason im m p j = 0) : opRingEnable im p m =
      ((m.setFlag .RNG_ENABLE_REFUSED (pinst p 0) true).setFld .RNG_ENABLE_REASON (pinst p 0) (ringReason im m p k)).setFld
        .RNG_ENABLE_RING (pinst p 0) k := by
  have hsome : (List.range (im.partN p (·.ringCount))).find? (fun r => ringReason im m p r != 0) = some k := by
    rw [List.find?_range_eq_some]
    exact ⟨by simpa using hr, List.mem_range.mpr hk, fun j hj => by simpa using hfirst j hj⟩
  unfold opRingEnable
  rw [if_neg (by simp [he, hf]), hsome]

end Enable

/-! ### Doorbells (R144, R154) -/

section Doorbells

variable {im : Image} {p r v : Nat} {m : M}

theorem ringLive_count (h : ringLive im m p r = true) : r < im.partN p (·.ringCount) := by
  simp only [ringLive, Bool.and_eq_true, decide_eq_true_eq] at h
  exact h.2

/-- A doorbell whose reserved bits are 0. -/
theorem opRngDb_clean (hr : r < im.partN p (·.ringCount)) (hv : v / 2 ^ 16 % 2 ^ 47 = 0) : opRngDb im p r v m =
    if ringLive im m p r then if ringKind m p r = 1 then ringTail im p r v m else ringHead im p r v m
    else m.bump .RNG_CNT_A_DB_IGNORED (pinst p 0) := by
  simp only [opRngDb, bitsAt_eq, hv, ne_eq, not_true_eq_false, if_false]
  exact if_neg (by omega)

theorem opRngDb_off (hr : r < im.partN p (·.ringCount)) (hv : v / 2 ^ 16 % 2 ^ 47 = 0) (h : ringLive im m p r = false) :
    opRngDb im p r v m = m.bump .RNG_CNT_A_DB_IGNORED (pinst p 0) :=
  (opRngDb_clean hr hv).trans (if_neg (by simp [h]))

theorem opRngDb_request (h : ringLive im m p r = true) (hv : v / 2 ^ 16 % 2 ^ 47 = 0) (hk : ringKind m p r = 1) :
    opRngDb im p r v m = ringTail im p r v m :=
  (opRngDb_clean (ringLive_count h) hv).trans ((if_pos h).trans (if_pos hk))

theorem opRngDb_status (h : ringLive im m p r = true) (hv : v / 2 ^ 16 % 2 ^ 47 = 0) (hk : ringKind m p r = 2) :
    opRngDb im p r v m = ringHead im p r v m :=
  (opRngDb_clean (ringLive_count h) hv).trans ((if_pos h).trans (if_neg (by omega)))

theorem ringTail_beyond (h : ringSize m p r ≤ v % 2 ^ 16) :
    ringTail im p r v m = fireP im (0x030 + 4 * portOf im p) r p (m.setFlag .RNG_STS_DB_ERR (pinst p r) true) := by
  unfold ringTail
  exact if_pos (by rw [bitsAt_zero]; exact h)

/-- A doorbell that publishes units without a pass of the ring's end and without INLINE. -/
theorem ringTail_publishes (ht : v % 2 ^ 16 < ringSize m p r) (hp : m.fld .RNG_STS_TAIL (pinst p r) < v % 2 ^ 16)
    (hi : bitAt v 63 = false) : ringTail im p r v m =
      serve im p ((m.setRing p r { m.ring p r with blocked := false }).setFld .RNG_STS_TAIL (pinst p r) (v % 2 ^ 16)) := by
  have hprev : rTail m p r < v % 2 ^ 16 := hp
  simp only [ringTail, bitsAt_zero, hi, Bool.false_and, Bool.false_eq_true, if_false]
  rw [if_neg (by omega), if_neg (by omega), if_neg (by omega)]

theorem ringHead_invalid (hi : bitAt v 63 = false) (h : ringSize m p r ≤ v % 2 ^ 16 ∨ v % 2 ^ 16 % 2 = 1 ∨
      (m.ring p r).used < (v % 2 ^ 16 + ringSize m p r - m.fld .RNG_STS_HEAD (pinst p r)) % ringSize m p r) :
    ringHead im p r v m = fireP im (0x031 + 4 * portOf im p) r p (m.setFlag .RNG_STS_HEAD_ERR (pinst p r) true) := by
  simp only [ringHead, bitsAt_zero, hi, Bool.false_eq_true, if_false]
  exact if_pos h

theorem ringHead_frees (hi : bitAt v 63 = false) (hh : v % 2 ^ 16 < ringSize m p r) (he : v % 2 ^ 16 % 2 = 0)
    (hu : (v % 2 ^ 16 + ringSize m p r - m.fld .RNG_STS_HEAD (pinst p r)) % ringSize m p r ≤ (m.ring p r).used)
    (hheld : (m.ring p r).held = []) : ringHead im p r v m =
      serve im p (syncHeld p r (irqSync im p (ringSrc r) ((m.setFld .RNG_STS_HEAD (pinst p r) (v % 2 ^ 16)).setRing p r
        { m.ring p r with used := (m.ring p r).used -
            (v % 2 ^ 16 + ringSize m p r - m.fld .RNG_STS_HEAD (pinst p r)) % ringSize m p r }))) := by
  simp only [ringHead, bitsAt_zero, hi, Bool.false_eq_true, if_false, hheld]
  exact if_neg (by rintro (h | h | h) <;> [omega; omega; exact absurd hu (Nat.not_le.mpr h)])

end Doorbells

/-! ### The inline window (R145) -/

section Inline

variable {im : Image} {p : Fin 8} {r off : Nat} {d : List Byte} {m : M}

/-- A naturally aligned write inside the window of a ring in use reaches it. -/
theorem opInline_open (ho : barOpen im m p.val = true) (hl : d.length ∈ [4, 8, 16, 32, 64]) (ha : off % d.length = 0)
    (he : off + d.length ≤ 64) (hr : r < im.partN p.val (·.ringCount)) :
    opInline im p.val r off d m = opWindowWrite im p.val r off d (hostTlp p.val m) := by
  have hpos : 0 < d.length := by
    simp only [List.mem_cons, List.not_mem_nil, or_false] at hl
    omega
  have hdvd : 64 % d.length = 0 := by
    simp only [List.mem_cons, List.not_mem_nil, or_false] at hl
    rcases hl with h | h | h | h | h <;> rw [h]
  have hdvd' : r * 0x1000 % d.length = 0 := by
    obtain ⟨k, hk⟩ := Nat.dvd_of_mod_eq_zero hdvd
    exact Nat.mod_eq_zero_of_dvd ⟨r * (64 * k), by rw [show 0x1000 = 64 * 64 from rfl]; rw [hk]; ring⟩
  have halign : (r * 0x1000 + 0x40 + off) % d.length = 0 := by
    rw [Nat.add_mod, Nat.add_mod (r * 0x1000), hdvd', hdvd, ha]
    simp
  have hok : winWriteOk (r * 0x1000 + 0x40 + off) d.length = true := by
    rw [winWriteOk, halign]
    simpa [or_assoc] using hl
  have hwin : inWindow (.bar2 p) (r * 0x1000 + 0x40 + off) d.length = true := by
    simp only [inWindow, Bool.and_eq_true, decide_eq_true_eq]
    omega
  have hsize : ¬(d.isEmpty ∨ viewSize im (.bar2 p) < r * 0x1000 + 0x40 + off + d.length) := by
    have hne : d.isEmpty = false := by simpa using List.length_pos_iff.mp hpos
    simp only [hne, Bool.false_eq_true, false_or, viewSize]
    omega
  rw [opInline, dif_pos p.isLt, if_pos ⟨he, ho⟩, accWrite, if_neg hsize, if_pos hwin, if_pos hok,
    show (r * 0x1000 + 0x40 + off) / 0x1000 = r by omega, show (r * 0x1000 + 0x40 + off) % 0x1000 - 0x40 = off by omega]
  rfl

theorem opWindowWrite_live (hr : r < im.partN p.val (·.ringCount)) (h : ringLive im m p.val r = true) :
    opWindowWrite im p.val r off d m = m.setRing p.val r { m.ring p.val r with
      mark := true, win := bytesAt (m.ring p.val r).win 0 off ++ d ++ (m.ring p.val r).win.drop (off + d.length) } := by
  rw [opWindowWrite, if_neg (by omega), if_pos h]

theorem opWindowWrite_off (hr : r < im.partN p.val (·.ringCount)) (h : ringLive im m p.val r = false) :
    opWindowWrite im p.val r off d m = m.bump .RNG_CNT_A_DB_IGNORED (pinst p.val 0) := by
  rw [opWindowWrite, if_neg (by omega), if_neg (by simp [h])]

end Inline

/-! ### Fetches and write-backs (R142, R153, R412) -/

section Answers

variable {im : Image} {p r u k e : Nat} {f : Bool} {res : RdRes} {m : M} (hx : (m.ring p r).fetch = some (u, k, e, f))
include hx

/-- An answer of ring memory, its timeout counted at the port. -/
theorem opRequestFetchComplete_eq : opRequestFetchComplete im p r u res m = ringAnswer im p r res (dropPurp p (.ring r)
    (if res = .timeout then m.bump .HPT_CNT_CPL_TIMEOUT (pinst p 0) else m)) := by
  simp only [opRequestFetchComplete, hx, if_true]

theorem ringAnswer_error (hres : ∀ d, res ≠ .data d) (h : u < e) : ringAnswer im p r res m =
    (m.setRing p r { m.ring p r with fetch := none, blocked := true, pre := [] }).setFlag .RNG_STS_FETCH_ERR (pinst p r) true := by
  cases res with
  | data d => exact absurd rfl (hres d)
  | _ => simp only [ringAnswer, hx]; exact if_neg (by omega)

theorem ringAnswer_beyond (hres : ∀ d, res ≠ .data d) (h : e ≤ u) :
    ringAnswer im p r res m = serve im p (m.setRing p r { m.ring p r with fetch := none }) := by
  cases res with
  | data d => exact absurd rfl (hres d)
  | _ => simp only [ringAnswer, hx]; exact if_pos h

end Answers

section WriteBack

variable {im : Image} {p r : Nat} {m : M}

theorem writeStaged_ready {e : Entry} {t : List Entry} (h : entryReady m p = true) (hs : (m.ring p r).staged = e :: t) :
    writeStaged im p m r = writeWake im p r e (m.setRing p r { m.ring p r with staged := t }) := by
  simp only [writeStaged, hs, h, if_true]

theorem writeStaged_waits (h : entryReady m p = false) : writeStaged im p m r = m := by
  rw [writeStaged]
  split
  · rfl
  · exact if_neg (by simp [h])

end WriteBack

namespace Machine

/-- Settles O40: each clause is the one branch of its ring operation. -/
theorem ringsRun : Obligations.RingsRun := by
  unfold Obligations.RingsRun
  intro s p r im n i size x m
  have hring : m.ring p.val n = x := rfl
  refine ⟨?_, ?_, ?_, ?_, ?_, ?_, ?_, ?_⟩
  · intro ho he hf
    refine ⟨fun h => ?_, fun k hk hr hfirst => ?_⟩
    · exact completes_of_upd rfl ((whenOpen_open _ ho).trans (opRingEnable_sound (m := m) he hf h))
    · exact completes_of_upd rfl ((whenOpen_open _ ho).trans (opRingEnable_refused (m := m) he hf hk hr hfirst))
  · intro v ho hn hl hv
    have hoff := (whenOpen_open (opRngDb im p.val n v.toNat) ho).trans (opRngDb_off (m := m) hn hv hl)
    exact ⟨completes_of_upd rfl hoff, completes_of_upd rfl hoff⟩
  · intro v ho hl hk hv t
    have hdb := (whenOpen_open (opRngDb im p.val n v.toNat) ho).trans (opRngDb_request (m := m) hl hv hk)
    exact ⟨fun h => completes_of_upd rfl (hdb.trans (ringTail_beyond h)),
      fun ht hp hi => completes_of_upd rfl (hdb.trans (ringTail_publishes ht hp hi))⟩
  · intro v ho hl hk hv hi h d
    have hdb := (whenOpen_open (opRngDb im p.val n v.toNat) ho).trans (opRngDb_status (m := m) hl hv hk)
    exact ⟨fun hbad => completes_of_upd rfl (hdb.trans (ringHead_invalid hi hbad)),
      fun hh he hu hheld => completes_of_upd rfl (hdb.trans (ringHead_frees hi hh he hu hheld))⟩
  · intro off d ho hlen ha he hn
    have hin := opInline_open (m := s.m) ho hlen ha he hn
    exact ⟨fun hl => completes_of_upd rfl (hin.trans (opWindowWrite_live hn hl)),
      fun hl => completes_of_upd rfl (hin.trans (opWindowWrite_off hn hl))⟩
  · intro u k e f hx counted
    have hkeep : ∀ b, ((dropPurp p.val (.ring n) (counted b)).ring p.val n) = x := by
      intro b
      by_cases hb : b = .timeout
      · rw [show counted b = _ from if_pos hb]
        rfl
      · rw [show counted b = _ from if_neg hb]
        rfl
    have hop : ∀ b, opRequestFetchComplete im p.val n u.toNat b s.m =
        ringAnswer im p.val n b (dropPurp p.val (.ring n) (counted b)) := fun b => opRequestFetchComplete_eq hx
    refine ⟨fun b => completes_of_upd rfl (hop (.data b)), fun b hb hu => ?_, fun b hb hu => ?_⟩
    · have herr := ringAnswer_error (im := im) (p := p.val) (r := n) (m := dropPurp p.val (.ring n) (counted b))
        (by rw [hkeep]; exact hx) hb hu
      rw [hkeep] at herr
      exact completes_of_upd rfl ((hop b).trans herr)
    · have herr := ringAnswer_beyond (im := im) (p := p.val) (r := n) (m := dropPurp p.val (.ring n) (counted b))
        (by rw [hkeep]; exact hx) hb hu
      rw [hkeep] at herr
      exact completes_of_upd rfl ((hop b).trans herr)
  · intro e t hr hs
    exact completes_of_upd rfl (writeStaged_ready hr hs)
  · intro hr
    exact completes_of_upd rfl (writeStaged_waits hr)

end Machine

end Sys2Proof

end

section
/-! PROOFS. Channels of the movers: actions, settings, triggers and descriptors (07, R163 to R175). -/

namespace Sys2Proof

/-! ### Replacing a record twice -/

theorem mapDel_mapIns {V : Type} (l : Map V) (k : Key) (v : V) : mapDel (mapIns l k v) k = mapDel l k := by
  induction l with
  | nil => simp [mapIns, mapDel]
  | cons e l ih =>
    rw [mapIns]
    split
    · simp [mapDel]
    · simp only [mapDel, List.filter_cons] at ih ⊢
      rw [ih]

theorem mapDel_mapDel {V : Type} (l : Map V) (k : Key) : mapDel (mapDel l k) k = mapDel l k := by
  simp [mapDel]

theorem mapPut_mapPut {V : Type} (l : Map V) (k : Key) (v w : V) : mapPut (mapPut l k v) k w = mapPut l k w := by
  rw [mapPut, mapPut, mapDel_mapIns, mapDel_mapDel, mapPut]

theorem M.setChan_setChan (m : M) (n : Nat) (a b : ChanSt) : (m.setChan n a).setChan n b = m.setChan n b := by
  rw [M.setChan, M.setChan, M.setChan, mapPut_mapPut]

/-! ### Actions of MOV_CTL (R170, R171) -/

section Actions

variable {im : Image} {v : View} {c x : Nat} {m : M} (hseen : chanSeen im v c = true) (h3 : x / 8 % 2 ^ 29 = 0)
  (h52 : x / 2 ^ 52 = 0)
include hseen h3 h52

/-- A write that asks for one action makes it. -/
theorem ctlWrite_one (ha : x % 8 = 1 ∨ x % 8 = 2 ∨ x % 8 = 4) : ctlWrite im v c x m = (true, m) := by
  have hres : ¬(bitsAt x 3 29 ≠ 0 ∨ bitsAt x 52 12 ≠ 0) := by
    rw [bitsAt_eq, bitsAt_eq, h52, show x / 2 ^ 3 % 2 ^ 29 = 0 from h3]
    simp
  have hpop : ¬1 < popCount (bitsAt x 0 3) 3 := by
    rw [bitsAt_zero]
    rcases ha with h | h | h <;> rw [show x % 2 ^ 3 = _ from h] <;> decide
  simp only [ctlWrite, hseen]
  rw [if_neg (by simp), if_neg hpop, if_neg hres]

omit h3 h52 in
theorem ctlWrite_several (ha : x % 8 ∈ [3, 5, 6, 7]) :
    ctlWrite im v c x m = (false, setRsvd v bkMov (chanOff v c 0x10) m) := by
  have hpop : 1 < popCount (bitsAt x 0 3) 3 := by
    rw [bitsAt_zero]
    simp only [List.mem_cons, List.not_mem_nil, or_false] at ha
    rcases ha with h | h | h | h <;> rw [show x % 2 ^ 3 = _ from h] <;> decide
  simp only [ctlWrite, hseen]
  rw [if_neg (by simp), if_pos hpop]

theorem opMovStart_one (ha : x % 8 = 1) : opMovStart im v c x m =
    if m.fld .MOV_STS_STATE c = 0 then startRun im c (x / 2 ^ 32 % 2 ^ 20) m
    else if m.fld .MOV_STS_STATE c = 1 then m.setFlag .MOV_STS_KICK c true else m.bump .MOV_CNT_TRIG_MISSED c := by
  have hbit : bitAt x 0 = true := by
    rw [bitAt, Nat.testBit_zero]
    simp
    omega
  simp only [opMovStart, ctlWrite_one hseen h3 h52 (.inl ha), hbit, bitsAt_eq]
  rfl

omit h3 h52 in
theorem opMovStart_several (ha : x % 8 ∈ [3, 5, 6, 7]) :
    opMovStart im v c x m = setRsvd v bkMov (chanOff v c 0x10) m := by
  simp only [opMovStart, ctlWrite_several hseen ha]
  rfl

theorem opMovStop_one (ha : x % 8 = 2) : opMovStop im v c x m =
    if m.fld .MOV_STS_STATE c = 1 then settleChan im c (stopChannel im c 1 m) else m := by
  have hbit : bitAt x 1 = true := by
    rw [bitAt, Nat.testBit_eq_decide_div_mod_eq]
    simp
    omega
  simp only [opMovStop, ctlWrite_one hseen h3 h52 (.inr (.inl ha)), hbit, Bool.true_and, beq_iff_eq]

theorem opMovClear_one (ha : x % 8 = 4) : opMovClear im v c x m =
    if m.fld .MOV_STS_STATE c = 3 then
      setChState im c 0 ((m.setFld .MOV_STS_CH_ERR c 0).setFld .MOV_STS_CUR c (m.fld .MOV_LAST_INDEX c)) else m := by
  have hbit : bitAt x 2 = true := by
    rw [bitAt, Nat.testBit_eq_decide_div_mod_eq]
    simp
    omega
  simp only [opMovClear, ctlWrite_one hseen h3 h52 (.inr (.inr ha)), hbit, Bool.true_and, beq_iff_eq]

end Actions

/-! ### Settings (R174, R175) -/

section Settings

variable {im : Image} {v : View} {c x : Nat} {m : M} (hseen : chanSeen im v c = true)
include hseen

theorem opMovCfgWrite_list (h4 : bitAt x 4 = false) : opMovCfgWrite im v c true x m =
    if m.fld .MOV_STS_STATE c = 1 ∨ m.fld .MOV_STS_STATE c = 2 then m.setFlag .MOV_STS_CFG_REFUSED c true
    else (m.setFld .MOV_LIST_LSPACE c x).setFld .MOV_LIST_LIST_BASE c (x / 32) := by
  simp only [opMovCfgWrite, hseen, h4, cfgRefused, Bool.not_true, Bool.false_and, Bool.or_false, Bool.false_eq_true, if_false,
    if_true, Bool.or_eq_true, beq_iff_eq]

/-- The fields of MOV_CFG that every channel has. -/
def cfgFields (c x : Nat) (m : M) : M :=
  ((((m.setFld .MOV_CFG_TRIG c x).setFld .MOV_CFG_ARM c (x / 4)).setFld .MOV_CFG_CHAIN_SRC c (x / 2 ^ 8)).setFld
    .MOV_CFG_PERIOD c (x / 2 ^ 24)).setFld .MOV_CFG_TRIG_HEAD c (x / 2 ^ 44)

theorem opMovCfgWrite_cfg (h3 : x / 8 % 32 = 0) (h18 : x / 2 ^ 18 % 64 = 0) : opMovCfgWrite im v c false x m =
    if cfgRefused im m c false x = true then m.setFlag .MOV_STS_CFG_REFUSED c true
    else
      let k := if im.chanOwner c = 8 then (cfgFields c x m).setFld .MOV_CFG_AS_PART c (x / 2 ^ 40) else cfgFields c x m
      if !m.flag .MOV_CFG_ARM c && bitAt x 2 then
        k.setChan c { k.chan c with trigFrom := edgeCount k, armedAt := k.now } else k := by
  have hbad : (bitsAt x 3 5 != 0 || bitsAt x 18 6 != 0) = false := by
    rw [bitsAt_eq, bitsAt_eq, show x / 2 ^ 3 % 2 ^ 5 = 0 from h3, show x / 2 ^ 18 % 2 ^ 6 = 0 from h18]
    rfl
  simp only [opMovCfgWrite, hseen, hbad, Bool.not_true, Bool.false_eq_true, if_false]
  rfl

omit hseen in
theorem cfgFields_count (c x : Nat) (m : M) : (cfgFields c x m).fld .TCK_COUNT_COUNT 0 = m.fld .TCK_COUNT_COUNT 0 := by
  rw [cfgFields, M.fld_setFld_other _ _ (by decide), M.fld_setFld_other _ _ (by decide), M.fld_setFld_other _ _ (by decide),
    M.fld_setFld_other _ _ (by decide), M.fld_setFld_other _ _ (by decide)]

section Taken

variable (h3 : x / 8 % 32 = 0) (h18 : x / 2 ^ 18 % 64 = 0) (hr : cfgRefused im m c false x = false)
include h3 h18 hr

theorem opMovCfgWrite_stays (ha : m.flag .MOV_CFG_ARM c = true) (ho : im.chanOwner c ≠ 8) :
    opMovCfgWrite im v c false x m = cfgFields c x m := by
  rw [opMovCfgWrite_cfg hseen h3 h18, if_neg (by simp [hr])]
  simp only [if_neg ho, ha]
  rfl

/-- A write that arms the trigger begins its period at the latest edge and in this cycle. -/
theorem opMovCfgWrite_arms (ha : m.flag .MOV_CFG_ARM c = false) (hb : bitAt x 2 = true) :
    let t := opMovCfgWrite im v c false x m
    t.react = m.react ∧ (t.chan c).trigFrom = edgeCount m ∧ (t.chan c).armedAt = m.now := by
  intro t
  obtain ⟨k, hk⟩ := exists_eq (a' := if im.chanOwner c = 8 then (cfgFields c x m).setFld .MOV_CFG_AS_PART c (x / 2 ^ 40)
    else cfgFields c x m)
  have hframe : k = { m with f := k.f } := by
    rw [hk]
    split <;> rfl
  have hcount : k.fld .TCK_COUNT_COUNT 0 = m.fld .TCK_COUNT_COUNT 0 := by
    rw [hk]
    split
    · rw [M.fld_setFld_other _ _ (by decide), cfgFields_count]
    · exact cfgFields_count ..
  have hedge : edgeCount k = edgeCount m := by
    rw [edgeCount, edgeCount, hcount, hframe]
  have ht : t = k.setChan c { k.chan c with trigFrom := edgeCount k, armedAt := k.now } := by
    rw [show t = _ from opMovCfgWrite_cfg hseen h3 h18, if_neg (by simp [hr])]
    simp only [← hk, ha, hb, Bool.not_false, Bool.true_and, if_true]
  rw [ht, M.chan_setChan, hedge]
  constructor
  · rw [hframe]; rfl
  · refine ⟨rfl, ?_⟩
    rw [hframe]

end Taken

end Settings

/-! ### Triggers and descriptors (R168, R174) -/

section Runs

variable {im : Image} {c : Nat} {m : M}

theorem opTickTrigger_due (ha : m.flag .MOV_CFG_ARM c = true) (hp : m.fld .MOV_CFG_PERIOD c ≠ 0)
    (ht : m.fld .MOV_CFG_TRIG c = 1) (hd : (m.chan c).trigFrom + m.fld .MOV_CFG_PERIOD c ≤ m.fld .TCK_COUNT_COUNT 0) :
    opTickTrigger im c m = fireTrigger im c (m.setChan c { m.chan c with
      trigFrom := (m.chan c).trigFrom + m.fld .MOV_CFG_PERIOD c }) :=
  if_pos ⟨ht, ha, hp, hd⟩

theorem opTimerTrigger_due (ha : m.flag .MOV_CFG_ARM c = true) (hp : m.fld .MOV_CFG_PERIOD c ≠ 0)
    (ht : m.fld .MOV_CFG_TRIG c = 2) (hd : (m.chan c).armedAt + 64 * m.fld .MOV_CFG_PERIOD c ≤ m.now) :
    opTimerTrigger im c m = fireTrigger im c (m.setChan c { m.chan c with
      armedAt := (m.chan c).armedAt + 64 * m.fld .MOV_CFG_PERIOD c }) :=
  if_pos ⟨ht, ha, by omega, hd⟩

/-- The state in which the answer of a channel's descriptor read is taken. -/
def descHeard (im : Image) (c : Nat) (m : M) : M :=
  if asPart im m c = 8 then m else dropPurp (asPart im m c) (.desc c) m

theorem opDescriptorRead_reading {r : RdRes} (h : (m.chan c).reading.isSome = true) :
    opDescriptorRead im c r m = descAnswer im c r (descHeard im c m) := by
  rw [opDescriptorRead, if_pos h, descHeard]
  split
  · next h8 => rw [if_pos h8]
  · next h8 => rw [if_neg h8]

theorem descHeard_chan : (descHeard im c m).chan c = m.chan c := by
  rw [descHeard]
  split <;> rfl

theorem descHeard_fld (F : Fld) (i : Nat) : (descHeard im c m).fld F i = m.fld F i := by
  rw [descHeard]
  split <;> rfl

section Answer

variable {i : Nat} (hr : (m.chan c).reading = some i) (hs : m.fld .MOV_STS_STATE c = 1)
include hr hs

theorem descAnswer_data (b : List Byte) : descAnswer im c (.data b) m = takeDesc im c i b m := by
  simp only [descAnswer, hr]
  exact if_neg (by simp [hs])

theorem descAnswer_failed {r : RdRes} (h : ∀ b, r ≠ .data b) : descAnswer im c r m =
    settleChan im c (stopChannel im c (if srcErr r = 4 then 4 else 5)
      (m.setChan c { m.chan c with reading := none, reread := false })) := by
  cases r with
  | data b => exact absurd rfl (h b)
  | _ => simp only [descAnswer, hr]; exact if_neg (by simp [hs])

end Answer

/-- A descriptor with FENCE that was read ahead is not used. -/
theorem takeDesc_fence {i : Nat} {b : List Byte} (hr : (m.chan c).reread = false) (hd : (m.chan c).descs ≠ [])
    (hf : bitAt (leAt (descData m c i 32 b) 0 8) 11 = true) : takeDesc im c i b m = m.setChan c { m.chan c with
      reading := none, descs := (m.chan c).descs.map (fun a => { a with moved := false, fence := true }) } := by
  have hflag : dFlag [leAt (descData m c i 32 b) 0 8, leAt (descData m c i 32 b) 8 8, leAt (descData m c i 32 b) 16 8,
      leAt (descData m c i 32 b) 24 8] 11 = true := hf
  simp only [takeDesc, hr, hflag, Bool.false_eq_true, if_false]
  rw [if_pos (by simpa using hd), M.chan_setChan, M.setChan_setChan]

end Runs

namespace Machine

/-- Settles O41: each clause is the one branch of its channel operation; what a row's arrival notes changes no channel. -/
theorem channelsRun : Obligations.ChannelsRun := by
  unfold Obligations.ChannelsRun
  intro s v c x im n st a start stop clear list cfg hseen
  have hfld : ∀ (b : Access) (F : Fld) (i : Nat), (touchRow im b s.m).fld F i = s.m.fld F i := by
    intro b F i
    rw [touchRow_frame]
    rfl
  have hlt : x.toNat < 2 ^ 64 := x.isLt
  refine ⟨fun ht h3 h52 => ?_, fun ht h3 h52 ha => ?_, fun ht h3 h52 ha => ?_, fun ht h4 => ?_, fun ht h3 h18 => ?_,
    fun harm hp => ?_, fun i hr hs => ?_⟩
  · have hone : a = 1 → runRow im (.movStart v c x) start = _ := opMovStart_one (m := start) hseen h3 h52
    have hst : start.fld .MOV_STS_STATE n = st := hfld _ _ _
    refine ⟨fun ha h0 => completes_of_rowTaken ht rfl ?_, fun ha h1 => completes_of_rowTaken ht rfl ?_,
      fun ha h2 => completes_of_rowTaken ht rfl ?_, fun ha => completes_of_rowTaken ht rfl ?_⟩
    · exact (hone ha).trans (if_pos (hst.trans h0))
    · exact (hone ha).trans ((if_neg (by rw [hst]; omega)).trans (if_pos (hst.trans h1)))
    · exact (hone ha).trans ((if_neg (by rw [hst]; omega)).trans (if_neg (by rw [hst]; omega)))
    · exact opMovStart_several hseen ha
  · have hone : runRow im (.movStop v c x) stop = _ := opMovStop_one (m := stop) hseen h3 h52 ha
    have hst : stop.fld .MOV_STS_STATE n = st := hfld _ _ _
    exact ⟨fun h1 => completes_of_rowTaken ht rfl (hone.trans (if_pos (hst.trans h1))),
      fun h1 => completes_of_rowTaken ht rfl (hone.trans (if_neg (by rw [hst]; exact h1)))⟩
  · have hone : runRow im (.movClear v c x) clear = _ := opMovClear_one (m := clear) hseen h3 h52 ha
    have hst : clear.fld .MOV_STS_STATE n = st := hfld _ _ _
    refine ⟨fun h1 => completes_of_rowTaken ht rfl (hone.trans ((if_pos (hst.trans h1)).trans ?_)),
      fun h1 => completes_of_rowTaken ht rfl (hone.trans (if_neg (by rw [hst]; exact h1)))⟩
    rw [hfld]
    rfl
  · have hone : runRow im (.movCfgWrite v c true x) list = _ := opMovCfgWrite_list (m := list) hseen h4
    have hst : list.fld .MOV_STS_STATE n = st := hfld _ _ _
    refine ⟨fun h1 => completes_of_rowTaken ht rfl (hone.trans (if_pos (by rw [hst]; exact h1))),
      fun h1 => completes_of_rowTaken ht rfl (hone.trans (if_neg (by rw [hst]; omega)))⟩
  · have hone : runRow im (.movCfgWrite v c false x) cfg = _ := opMovCfgWrite_cfg (m := cfg) hseen h3 h18
    have hcfg : cfgRefused im cfg n false x.toNat = cfgRefused im s.m n false x.toNat := by
      rw [cfgRefused, cfgRefused, hfld]
    refine ⟨fun hrf => completes_of_rowTaken ht rfl (hone.trans (if_pos (hcfg.trans hrf))),
      fun hrf harm hown => completes_of_rowTaken ht rfl ?_, fun hrf harm hbit => ?_⟩
    · exact opMovCfgWrite_stays hseen h3 h18 (hcfg.trans hrf) ((congrArg (· != 0) (hfld _ _ _)).trans harm) hown
    · have harm' : cfg.flag .MOV_CFG_ARM n = false := (congrArg (· != 0) (hfld _ _ _)).trans harm
      obtain ⟨hreact, htrig, harmed⟩ := opMovCfgWrite_arms (m := cfg) hseen h3 h18 (hcfg.trans hrf) harm' hbit
      have hrow : runRow im (.movCfgWrite v c false x) cfg = opMovCfgWrite im v n false x.toNat cfg := rfl
      refine ⟨_, completes_of_rowTaken (c := .movCfgWrite v c false x) ht rfl rfl, fun hr => ?_⟩
      have hcalm : (opMovCfgWrite im v n false x.toNat cfg).react = [] := by
        rw [hreact, show cfg = _ from touchRow_frame ..]
        exact hr
      have htouch : edgeCount cfg = edgeCount s.m := by
        rw [edgeCount, edgeCount, hfld, show cfg = _ from touchRow_frame ..]
      rw [show runRow s.inForce (.movCfgWrite v c false x) (touchRow s.inForce (.movCfgWrite v c false x) s.m) = _ from hrow,
        settle_calm _ _ hcalm, htrig, harmed, htouch, show cfg = _ from touchRow_frame ..]
      exact ⟨rfl, rfl⟩
  · exact ⟨fun ht hd => completes_of_upd rfl (opTickTrigger_due harm hp ht hd),
      fun ht hd => completes_of_upd rfl (opTimerTrigger_due harm hp ht hd)⟩
  · intro m idle
    have hm : m = descHeard im n s.m := rfl
    have hread : ∀ r, opDescriptorRead im n r s.m = descAnswer im n r m := fun r =>
      opDescriptorRead_reading (by rw [hr]; rfl)
    have hr' : (m.chan n).reading = some i := by rw [hm, descHeard_chan]; exact hr
    have hs' : m.fld .MOV_STS_STATE n = 1 := by rw [hm, descHeard_fld]; exact hs
    exact ⟨fun b => completes_of_upd rfl ((hread _).trans (descAnswer_data hr' hs' b)), fun b => takeDesc_fence,
      completes_of_upd rfl ((hread _).trans (descAnswer_failed hr' hs' (by simp))),
      completes_of_upd rfl ((hread _).trans (descAnswer_failed hr' hs' (by simp)))⟩

end Machine

end Sys2Proof

end

section
/-! PROOFS. Elements of the movers (07, R160 to R182). -/

namespace Sys2Proof

theorem memRead_of_get (l : Mem) (a : Nat) (d : List Byte) (h : ∀ i (hi : i < d.length), memGet l (a + i) = d[i]) :
    memRead l a d.length = d := by
  induction d generalizing a with
  | nil => rfl
  | cons b d ih =>
    have htail : memRead l (a + 1) d.length = d := ih (a + 1) fun i hi => by
      rw [Nat.add_assoc, Nat.add_comm 1 i]
      exact h (i + 1) (Nat.succ_lt_succ hi)
    rw [List.length_cons, memRead, htail, show memGet l a = b from h 0 (Nat.succ_pos _)]

theorem memRead_write_same (l : Mem) (a : Nat) (d : List Byte) : memRead (memWrite l a d) a d.length = d :=
  memRead_of_get _ _ _ fun i hi => memGet_write_in l a i d hi

/-! ### One element between two places of the stage buffer (R176) -/

theorem rangeAt_single {r : Range} {n : Nat} (h : n < r.len) : rangeAt [r] n = some (r, n) := by
  rw [rangeAt, if_pos h]

theorem insElem_last (y : Elem) (l : List Elem) (h : ∀ e ∈ l, e.off ≤ y.off) : insElem y l = l ++ [y] := by
  induction l with
  | nil => rfl
  | cons e l ih =>
    rw [insElem, if_neg (by have := h e (by simp); omega), ih fun d hd => h d (List.mem_cons_of_mem _ hd)]
    rfl

section StageCopy

variable {im : Image} {e q a b len : Nat} {x : Xfer} {m : M}
  (hsrc : x.src = [⟨.ownerStage, a, len⟩]) (hdst : x.dst = [⟨.ownerStage, b, len⟩]) (hpos : x.pos < len) (htot : x.total = len)
  (hlate : x.late = [])

/-- The bytes an element takes: to the next 256-byte boundary of the destination, or the end of the work. -/
def stageCut (b len : Nat) (x : Xfer) : Nat := min (256 - (b + x.pos) % 256) (len - x.pos)

include htot hlate in
theorem Xfer.next_inOrder (m : M) : x.next m = (x.pos, len - x.pos) := by
  rw [Xfer.next, hlate, htot]
  split <;> rfl

include hsrc hdst hpos htot hlate in
theorem nextElem_stage (hs : x.stopped = false) (he : x.err = 0) (hav : x.avail = len) : nextElem m x =
    some (⟨.ownerStage, a, len⟩, x.pos, ⟨.ownerStage, b, len⟩, x.pos, stageCut b len x) := by
  have hlink : x.toLink = false := by simp [Xfer.toLink, hdst]
  have hcut : min (min (256 - (b + x.pos) % 256) (len - x.pos)) (min (len - x.pos) (len - x.pos)) = stageCut b len x := by
    rw [stageCut]
    omega
  have hfit : ¬x.avail < x.pos + stageCut b len x := by
    rw [stageCut]
    omega
  simp only [nextElem, Xfer.next_inOrder htot hlate, hsrc, hdst, rangeAt_single (r := ⟨.ownerStage, a, len⟩) hpos,
    rangeAt_single (r := ⟨.ownerStage, b, len⟩) hpos, hs, he, hlink, hcut]
  rw [if_neg (by simp; omega), if_neg hfit, if_neg (by simp)]

/-- An element of two places in the stage buffer is answered as it starts. -/
theorem startElem_stage (ho : x.owner = 8) (n : Nat) :
    startElem im e q ⟨.ok, false, false⟩ x (⟨.ownerStage, a, len⟩, x.pos, ⟨.ownerStage, b, len⟩, x.pos, n) m =
      ((x.begin (nextId e m).2 (mapGet 0 m.eng (e, 2)) n).setElem (mapGet 0 m.eng (e, 2)) .ok [],
        { m with
          eng := (nextId e m).2.eng
          bud := ((nextId e m).2.chargeO 1 8 e n).bud
          stage := memWrite m.stage (b + x.pos) (memRead m.stage (a + x.pos) n) }) := by
  rw [startElem, ho]
  rfl

include htot hlate in
theorem begin_pos (id n : Nat) : (x.begin m id n).pos = max x.pos (x.pos + n) := by
  rw [Xfer.begin, Xfer.next_inOrder htot hlate]

include htot hlate in
theorem begin_last (hel : ∀ y ∈ x.elems, y.off ≤ x.pos) (id n : Nat) :
    ((x.begin m id n).setElem id .ok []).elems.getLast? = some ⟨id, x.pos, n, .ok, []⟩ := by
  have hins : (x.begin m id n).elems = x.elems ++ [⟨id, x.pos, n, .reading, []⟩] := by
    rw [Xfer.begin, Xfer.next_inOrder htot hlate]
    exact insElem_last _ _ hel
  rw [Xfer.setElem]
  simp [hins]

end StageCopy

/-! ### The engine's requester, and answers (R177, R182) -/

section Engine

variable {im : Image} {e : Nat} {ends : ElemEnds} {m : M}

theorem opMoverElement_other {q : Req} (h : pickReq im m e ≠ some q) : opMoverElement im e q ends m = m := if_pos h

theorem opMoverElement_chan {c : Fin 1024} (h : pickReq im m e = some (.chan c)) :
    opMoverElement im e (.chan c) ends m = startChan im c.val ends (noteServed im e (.chan c) m) := by
  rw [opMoverElement, if_neg (by simp [h])]

theorem opMoverElement_queue {o : Fin 9} {a b : List Xfer} {x : Xfer} {t : Range × Nat × Range × Nat × Nat}
    (h : pickReq im m e = some (.queue o))
    (hq : queueStart (noteServed im e (.queue o) m) ((noteServed im e (.queue o) m).queue e o.val) = some ((a, x, b), t)) :
    let y := startElem im e (4096 + o.val) ends x t (noteServed im e (.queue o) m)
    opMoverElement im e (.queue o) ends m = settleQueue im e o.val (y.2.setQueue e o.val (a ++ y.1 :: b)) := by
  intro y
  rw [opMoverElement, if_neg (by simp [h])]
  simp only [hq]
  rfl

end Engine

section Answers

variable {im : Image} {c id : Nat} {d : DescRun} {m : M} (hd : chanDrains im m c = false)
  (hf : (m.chan c).descs.find? (fun r => r.wb == some (some id)) = some d)
include hd hf

theorem chanAnswer_written : chanAnswer im c id (.wrote .ok) m = settleChan im c (retireDesc im c d (wbStage c d m)) := by
  simp only [chanAnswer, hd, hf, Bool.false_eq_true, if_false]

theorem chanAnswer_refused {w : WrRes} (hw : w ≠ .ok) : chanAnswer im c id (.wrote w) m = settleChan im c (wbFail im c 6 d m) := by
  cases w with
  | ok => exact absurd rfl hw
  | _ => simp only [chanAnswer, hd, hf, Bool.false_eq_true, if_false]

end Answers

theorem queueAnswer_single {im : Image} {e o id : Nat} {a : Ans} {x : Xfer} {m : M} (h : m.queue e o = [x]) :
    queueAnswer im e o id a m = settleQueue im e o ((answerElem im e x id a m).2.setQueue e o [(answerElem im e x id a m).1]) := by
  rw [queueAnswer, h]
  rfl

namespace Machine

/-- Settles O42: an element of two stage places answers at once with the bytes read before it writes; the rest is the one
branch of each operation. -/
theorem elementsMove : Obligations.ElementsMove := by
  unfold Obligations.ElementsMove
  constructor
  · intro im e q x m a b len hsrc hdst hs he hpos htot hav ho hlate hel n
    have hlen : (memRead m.stage (a + x.pos) n).length = n := by simp
    refine ⟨_, _, _, nextElem_stage hsrc hdst hpos htot hlate hs he hav, startElem_stage ho _, ?_, ?_, ?_, ?_, rfl⟩
    · exact (begin_pos (m := (nextId e m).2) htot hlate (mapGet 0 m.eng (e, 2)) _).trans (max_eq_right (Nat.le_add_right _ _))
    · exact begin_last htot hlate hel _ _
    · have hread := memRead_write_same m.stage (b + x.pos) (memRead m.stage (a + x.pos) n)
      rw [hlen] at hread
      exact hread
    · intro z hz
      exact memGet_write_out _ _ _ _ (by rw [memRead_length]; exact hz)
  · intro s e q ends im served heard
    refine ⟨fun hr => ?_, fun hr hp => ?_, fun c hr hp => ?_, fun o a x b t hr hp hq => ?_, ?_, ?_, ?_⟩
    · exact completes_of_upd rfl (if_pos hr)
    · exact completes_of_upd rfl ((if_neg (by simp [hr])).trans (opMoverElement_other hp))
    · exact completes_of_upd rfl ((if_neg (by simp [hr])).trans (opMoverElement_chan hp))
    · exact completes_of_upd rfl ((if_neg (by simp [hr])).trans (opMoverElement_queue hp hq))
    · intro c off d m hd hf
      have hchan : ∀ a, opElementAnswer im e.val (.chan c) off a s.m = chanAnswer im c.val off a m :=
        fun a => if_neg (by have := c.isLt; simp only [reqCode]; omega)
      exact ⟨completes_of_upd rfl ((hchan _).trans (chanAnswer_written hd hf)),
        fun w hw => completes_of_upd rfl ((hchan _).trans (chanAnswer_refused hd hf hw))⟩
    · intro o off a x m hq
      have hqueue : opElementAnswer im e.val (.queue o) off a s.m = queueAnswer im e.val (4096 + o.val - 4096) off a m :=
        if_pos (Nat.le_add_right _ _)
      rw [Nat.add_sub_cancel_left] at hqueue
      exact completes_of_upd rfl (hqueue.trans (queueAnswer_single hq))
    · intro o id r x m hq hfl
      refine completes_of_upd rfl ((if_pos (Nat.le_add_right _ _)).trans ?_)
      rw [show reqCode (.queue o) - 4096 = o.val from Nat.add_sub_cancel_left ..]
      change settleQueue im e.val o.val (m.setQueue e.val o.val ((m.queue e.val o.val).map (answerFlush id r))) = _
      rw [hq]
      rfl

end Machine

end Sys2Proof

end

section
/-! PROOFS. States of the links, their time limits, lanes and octets (09, R217 to R223, R240, R254). -/

namespace Sys2Proof

/-! ### Requests of the owner (R218, R222, R240) -/

section Requests

variable {im : Image} {l : Nat} {m : M}

theorem M.linkState_setFlag_other (m : M) {F : Fld} (i : Nat) (b : Bool) (l : Nat) (h : Fld.LNK_STS_STATE ≠ F) :
    (m.setFlag F i b).linkState l = m.linkState l := M.fld_setFlag_other m b h

theorem opDisable_down (hl : isLink im l = true) (hd : m.linkState l ≠ lsDisabled) (ho : m.linkState l ≠ lsOff) :
    opDisable im l true m = leaveTo im l lsDisabled lcDisable false (m.setFlag .LNK_CTL_DISABLE l true) := by
  have hs : (m.setFlag .LNK_CTL_DISABLE l true).linkState l = m.linkState l := M.linkState_setFlag_other _ _ _ _ (by decide)
  rw [opDisable, if_neg (by simp [hl])]
  simp only [if_true, hs]
  exact if_neg (by simp [hd, ho])

theorem opDisable_end (hl : isLink im l = true) (hd : m.linkState l = lsDisabled) :
    opDisable im l false m = zeroBackoff l (enterState l lsWait ((m.setFlag .LNK_CTL_DISABLE l false).fld .LNK_STS_LAST_CAUSE l)
      (m.setFlag .LNK_CTL_DISABLE l false)) := by
  have hs : (m.setFlag .LNK_CTL_DISABLE l false).linkState l = lsDisabled :=
    (M.linkState_setFlag_other _ _ _ _ (by decide)).trans hd
  rw [opDisable, if_neg (by simp [hl])]
  simp only [Bool.false_eq_true, if_false]
  exact if_pos hs

theorem opBackoffExpire_starts (hw : m.linkState l = lsWait) (ho : octetReady m (l / 8) = true)
    (h : (m.link l).retryAt ≤ m.now ∨ m.flag .LNK_CTL_RETRY_NOW l = true) : opBackoffExpire im l m = toDetect im l m :=
  if_pos ⟨hw, ho, h⟩

theorem opBackoffExpire_waits (ht : m.now < (m.link l).retryAt) (hr : m.flag .LNK_CTL_RETRY_NOW l = false) :
    opBackoffExpire im l m = m :=
  if_neg fun h => by
    rcases h.2.2 with h | h
    · omega
    · simp [hr] at h

theorem octetReady_setFlag_other {F : Fld} {i : Nat} {b : Bool} {o : Nat} (h : Fld.LNK_OCT_STS_CAL_DONE ≠ F) :
    octetReady (m.setFlag F i b) o = octetReady m o := by
  rw [octetReady, octetReady, M.flag_setFlag_other _ _ h]
  rfl

theorem opRetryNow_starts (hl : isLink im l = true) (hw : m.linkState l = lsWait) (ho : octetReady m (l / 8) = true) :
    opRetryNow im l m = toDetect im l (m.setFlag .LNK_CTL_RETRY_NOW l true) := by
  rw [opRetryNow, if_neg (by simp [hl])]
  refine opBackoffExpire_starts ?_ ?_ (.inr (M.flag_setFlag_same _ _ _ _ (by decide)))
  · rw [M.linkState_setFlag_other _ _ _ _ (by decide)]
    exact hw
  · rw [octetReady_setFlag_other (by decide)]
    exact ho

end Requests

/-! ### Detection and training blocks (R217, R220, R221) -/

section Training

variable {im : Image} {l : Nat} {m : M}

theorem opReceiverDetect_none {term : BitVec 8} (h : ∀ k, k < im.linkWidth l → term.getLsbD k = false) :
    opReceiverDetect im l term m = m :=
  if_pos (.inr (by simpa using h))

/-- An entry of the event FIFO changes nothing but the counts of its register. -/
theorem evtPush_fld {F : Fld} (c a b i : Nat) (m : M) (hc : F ≠ .TRC_EVT_STS_COUNT) (hl : F ≠ .TRC_EVT_STS_LOST) :
    (evtPush l c a b m).fld F i = m.fld F i := by
  unfold evtPush
  extract_lets w q r n
  have hn : n.fld F i = m.fld F i := M.fld_setFld_other _ _ hc
  split
  · exact (M.fld_setFld_other _ _ hl).trans hn
  · exact hn

theorem evtPush_frame (c a b : Nat) (m : M) :
    ∃ f y e, evtPush l c a b m = { m with f := f, cyc := y, evt := e } := by
  unfold evtPush
  extract_lets w q r n
  split
  · exact ⟨_, _, _, rfl⟩
  · exact ⟨_, m.cyc, _, rfl⟩

theorem enterState_fld {F : Fld} (st c i : Nat) (m : M) (hs : F ≠ .LNK_STS_STATE) (hc : F ≠ .TRC_EVT_STS_COUNT)
    (hl : F ≠ .TRC_EVT_STS_LOST) : (enterState l st c m).fld F i = m.fld F i :=
  (evtPush_fld _ _ _ _ _ hc hl).trans ((M.fld_setFld_other _ _ hs).trans rfl)

theorem enterState_now (st c : Nat) (m : M) : (enterState l st c m).now = m.now := by
  obtain ⟨f, y, e, h⟩ := evtPush_frame (l := l) 1 st (if st = lsWait then c else 0)
    ((m.setFld .LNK_STS_STATE l st).setLink l { m.link l with since := m.now })
  exact (congrArg M.now h).trans rfl

/-- A termination on the one lane of a cut of width 1. -/
theorem opReceiverDetect_one {term : BitVec 8} (hs : m.linkState l = lsDetect) (hw : im.linkWidth l = 1)
    (ht : term.getLsbD 0 = true) :
    let m0 := enterState l lsTrain 0 m
    let m1 := (if m.flag .PWR_CTL_HUSH_ACTIVE 0 = true then
      m0.setLink l { m0.link l with lanesAt := m.now + 20000 } else m0).setFld .LNK_LANE_PRESET l 5
    let m2 := m1.setLink l { m1.link l with trn := [{ (default : LaneTr) with term := true }], cutWidth := 1 }
    opReceiverDetect im l term m = sendTrain im l 0 1 0 0 m2 := by
  intro m0 m1 m2
  have hhush : m0.flag .PWR_CTL_HUSH_ACTIVE 0 = m.flag .PWR_CTL_HUSH_ACTIVE 0 :=
    congrArg (· != 0) (enterState_fld _ _ _ _ (by decide) (by decide) (by decide))
  have hnow : m0.now = m.now := enterState_now ..
  have hgo : ¬(m.linkState l ≠ lsDetect ∨ (List.range 1).all (fun k => !term.getLsbD k) = true) := by
    simp [hs, ht]
  simp only [opReceiverDetect, hw]
  rw [if_neg hgo]
  simp only [List.range_one, List.foldl_cons, List.foldl_nil, List.map_cons, List.map_nil, ht, if_true, Nat.add_zero]
  have h1 : m1 = (if m0.flag .PWR_CTL_HUSH_ACTIVE 0 = true then
      m0.setLink l { m0.link l with lanesAt := m0.now + 20000 } else m0).setFld .LNK_LANE_PRESET l 5 := by rw [hhush, hnow]
  clear_value m1
  change _ = sendTrain im l 0 1 0 0 (m1.setLink l { m1.link l with trn := [{ (default : LaneTr) with term := true }], cutWidth := 1 })
  rw [h1]

theorem opTrainingBlock_idle {k : Nat} {x : BitVec 256} (ht : m.linkState l ≠ lsTrain) (hr : m.linkState l ≠ lsRetrain) :
    opTrainingBlock im l k x m = m := if_pos (.inr (.inl ⟨ht, hr⟩))

theorem opTrainingBlock_down {k : Nat} {x : BitVec 256} (h : pmaDown m l k = true) : opTrainingBlock im l k x m = m :=
  if_pos (.inl h)

theorem pmaDown_of_lanesAt (k : Nat) (h : m.now < (m.link l).lanesAt) : pmaDown m l k = true := by
  rw [pmaDown, decide_eq_true h, Bool.true_or]

theorem opTrainingBlock_taken {k : Nat} {x : BitVec 256} (hs : m.linkState l = lsTrain) (hp : pmaDown m l k = false)
    (hk : k < im.linkWidth l) (hl : laneState m (l + k) ≤ 1) (h1 : 1 ≤ x.toNat / 2 ^ 24 % 8) (h5 : x.toNat / 2 ^ 24 % 8 ≤ 5)
    (hm : x.toNat % 65536 = 0x4E4C) : opTrainingBlock im l k x m = trainBlock im l k x.toNat false m := by
  have hinv : (x.toNat % 65536 == 0xB1B3) = false := by simp [hm]
  have hstep : bitsAt x.toNat 24 3 = x.toNat / 2 ^ 24 % 8 := bitsAt_eq ..
  rw [opTrainingBlock, if_neg (by simp [hp, hs, hk]), if_neg (by omega)]
  simp only [hinv, hstep, Bool.false_eq_true, if_false]
  exact if_neg (by omega)

end Training

/-! ### Limits of time (R218, R219, R223, R228, R240) -/

section Limits

variable {im : Image} {l : Nat} {m : M}

theorem opCrossed_due (hs : m.linkState l = lsTrain) (ht : (m.link l).since + 20 * msSc ≤ m.now)
    (hc : crossedNow im m l = true) :
    opCrossed im l m = (cutLanes im l).foldl (fun m k => setLane l k 4 m) (toWait im l lcCrossed m) :=
  if_pos ⟨hs, ht, hc⟩

theorem opCrossed_early (ht : m.now < (m.link l).since + 20 * msSc) : opCrossed im l m = m := if_neg fun h => by omega

theorem opTrainTimeout_due (hs : m.linkState l = lsTrain) (ht : (m.link l).since + 20 * msSc ≤ m.now)
    (hc : crossedNow im m l = false) :
    opTrainTimeout im l m = toWait im l (if noLanes im m l then lcNoLanes else lcTrain) m :=
  (if_pos ⟨hs, ht⟩).trans (if_neg (by simp [hc]))

theorem opTrainTimeout_early (ht : m.now < (m.link l).since + 20 * msSc) : opTrainTimeout im l m = m := if_neg fun h => by omega

theorem opRetrainTimeout_due (hs : m.linkState l = lsRetrain) (ht : (m.link l).since + 2 * msSc ≤ m.now)
    (hn : noLanes im m l = false) : opRetrainTimeout im l m = toWait im l lcRetrain m :=
  (if_pos ⟨hs, ht⟩).trans (by rw [hn]; rfl)

theorem opRetrainTimeout_early (ht : m.now < (m.link l).since + 2 * msSc) : opRetrainTimeout im l m = m := if_neg fun h => by omega

theorem opAuthTimeout_due (hs : m.linkState l = lsHand) (ht : (m.link l).since + 50 * msSc ≤ m.now) :
    opAuthTimeout im l m = linkDown im l lcAuthTime m := if_pos ⟨hs, ht⟩

theorem opAuthTimeout_early (ht : m.now < (m.link l).since + 50 * msSc) : opAuthTimeout im l m = m := if_neg fun h => by omega

theorem opKeepaliveLost_due (hs : m.linkState l = lsActive) (ht : (m.link l).lastRx + 200000 ≤ m.now) :
    opKeepaliveLost im l m = linkDown im l lcKeep m := if_pos ⟨hs, ht⟩

theorem opKeepaliveLost_early (ht : m.now < (m.link l).lastRx + 200000) : opKeepaliveLost im l m = m := if_neg fun h => by omega

theorem M.linkLive_of_active (h : m.linkState l = lsActive) : m.linkLive l = true := by simp [M.linkLive, h]

/-- A group counter at its limit: the loom's own sends nothing more, the device's lets CLOSE go first. -/
theorem opRekeyOverdue_live (hs : m.linkState l = lsActive) : opRekeyOverdue im l m =
    if (m.link l).keyLimit ≤ m.fld .LNK_STS_TX_GROUPS l then toWait im l lcRekey m
    else if (m.link l).keyLimit ≤ (m.link l).rxGroups then linkDown im l lcRekey m else m := by
  rw [opRekeyOverdue, if_neg (by simp [M.linkLive_of_active hs])]

theorem opRekeyThreshold_reached (h : 2 ^ im.rekeyLog2 - 2 ^ 16 ≤ m.fld .LNK_STS_TX_GROUPS l) :
    opRekeyThreshold im l m = startRekey l m := by
  obtain ⟨t, ht⟩ := exists_eq (a' := 2 ^ im.rekeyLog2 - 2 ^ 16)
  simp only [opRekeyThreshold, ← ht] at h ⊢
  exact if_pos (.inl h)

end Limits

/-! ### Line faults (R223) -/

section Faults

variable {im : Image} {lane l : Nat} {m : M} (hl : im.linkOfLane lane = some l)
include hl

theorem laneFault_active {st : Nat} (hst : laneState m lane ≤ 1) (hs : m.linkState l = lsActive) :
    laneFault im lane st m = setLane l lane st
      (if laneActive m (if rxStateOk st then lane else l + rxLane im m l (lane - l)) then toRetrain im l false m else m) := by
  simp only [laneFault, hl]
  exact if_pos ⟨hst, .inr (.inr (.inl hs))⟩

theorem opBlockLockLost_of : opBlockLockLost im lane m =
    if laneActive m (l + rxLane im m l (lane - l)) then toRetrain im l false m else m := by
  simp only [opBlockLockLost, hl]

end Faults

/-! ### Octets (R254) -/

section Octets

variable {im : Image} {o c : Nat} {m : M}

theorem opCal_starts (hh : m.flag .LNK_OCT_STS_HOLDS_LINK o = true) (hc : m.flag .LNK_OCT_STS_CALIBRATING o = false)
    (hd : m.flag .LNK_OCT_STS_CAL_DONE o = false) : opCal o m =
      (((m.setFlag .LNK_OCT_CTL_CAL o true).setFlag .LNK_OCT_STS_CALIBRATING o true).setFlag .LNK_OCT_STS_CAL_FAIL o false).setFld
        .LNK_OCT_STS_FAIL_CAUSE o 0 :=
  (if_neg (by simp [hc])).trans (if_neg (by simp [hd, hh]))

/-- The cause a calibration of an octet ends with. -/
def calCause (m : M) (o c : Nat) : Nat :=
  if bitAt m.pins.onAbsent o = true then 1 else if bitAt m.pins.calBad (o / 6) = true ∧ c = 0 then 3 else c

/-- A calibration that is over, before what its outcome adds. -/
def calOver (o : Nat) (m : M) : M := (m.setFlag .LNK_OCT_CTL_CAL o false).setFlag .LNK_OCT_STS_CALIBRATING o false

theorem opCalComplete_fails (hc : m.flag .LNK_OCT_STS_CALIBRATING o = true) (h : calCause m o c ≠ 0)
    (ha : m.askedAgain .LNK_OCT_CTL_CAL o = false) : opCalComplete im o c m =
      ((calOver o m).setFlag .LNK_OCT_STS_CAL_FAIL o true).setFld .LNK_OCT_STS_FAIL_CAUSE o (calCause m o c) := by
  rw [opCalComplete, if_neg (by simp [hc])]
  exact (if_neg h).trans (if_neg (by simp [ha]))

theorem opCalComplete_succeeds (hc : m.flag .LNK_OCT_STS_CALIBRATING o = true) (h : calCause m o c = 0) :
    opCalComplete im o c m = (im.linksOfOctet o).foldl (fun m l => if m.linkState l = lsWait then zeroBackoff l m else m)
      ((calOver o m).setFlag .LNK_OCT_STS_CAL_DONE o true) := by
  rw [opCalComplete, if_neg (by simp [hc])]
  exact if_pos h

theorem calCause_lt (hc : c < 4) : calCause m o c < 4 := by
  rw [calCause]
  split
  · omega
  · split <;> omega

/-- A calibration succeeds only with its clock there. -/
theorem calCause_zero (h : calCause m o c = 0) : bitAt m.pins.onAbsent o = false := by
  by_contra hb
  rw [calCause, if_pos (Bool.eq_true_of_not_eq_false hb)] at h
  omega

theorem calOver_fld {F : Fld} {i : Nat} (h1 : F ≠ .LNK_OCT_CTL_CAL) (h2 : F ≠ .LNK_OCT_STS_CALIBRATING)
    (h3 : F ≠ .LNK_OCT_STS_CAL_DONE) : ((calOver o m).setFlag .LNK_OCT_STS_CAL_DONE o true).fld F i = m.fld F i := by
  rw [M.fld_setFlag_other _ _ h3, calOver, M.fld_setFlag_other _ _ h2, M.fld_setFlag_other _ _ h1]

theorem calOver_linkState {j : Nat} : ((calOver o m).setFlag .LNK_OCT_STS_CAL_DONE o true).linkState j = m.linkState j :=
  calOver_fld (by decide) (by decide) (by decide)

theorem bootStep_frame (n : Nat) (m : M) : ∃ f, bootStep n m = { m with f := f } := by
  rw [bootStep]
  split
  · exact ⟨_, rfl⟩
  · exact ⟨m.f, rfl⟩

theorem bootStep_fld {F : Fld} (n i : Nat) (m : M) (h : F ≠ .IMG_BOOT_STS_LAST_STEP) : (bootStep n m).fld F i = m.fld F i := by
  rw [bootStep]
  split
  · exact M.fld_setFld_other _ _ h
  · rfl

theorem opCalDone_eq (hb : octReady im m = false) : opCalDone im o c m =
    if octReady im (opCalComplete im o c m) then bootStep 8 (opCalComplete im o c m) else opCalComplete im o c m := by
  simp only [opCalDone, hb, Bool.not_false, Bool.and_true]

theorem opCalDone_fld {F : Fld} (i : Nat) (h : F ≠ .IMG_BOOT_STS_LAST_STEP) :
    (opCalDone im o c m).fld F i = (opCalComplete im o c m).fld F i := by
  simp only [opCalDone]
  split
  · exact bootStep_fld _ _ _ h
  · rfl

theorem opCalDone_frame : ∃ f, opCalDone im o c m = { opCalComplete im o c m with f := f } := by
  simp only [opCalDone]
  split
  · exact bootStep_frame ..
  · exact ⟨_, rfl⟩

/-- The links of an octet whose backoff a calibration ends: their fields stay. -/
theorem foldl_zeroBackoff_f (ls : List Nat) (m : M) :
    (ls.foldl (fun m l => if m.linkState l = lsWait then zeroBackoff l m else m) m).f = m.f := by
  induction ls generalizing m with
  | nil => rfl
  | cons a ls ih =>
    rw [List.foldl_cons, ih]
    split <;> rfl

theorem foldl_zeroBackoff_now (ls : List Nat) (m : M) :
    (ls.foldl (fun m l => if m.linkState l = lsWait then zeroBackoff l m else m) m).now = m.now ∧
    (ls.foldl (fun m l => if m.linkState l = lsWait then zeroBackoff l m else m) m).pins = m.pins := by
  induction ls generalizing m with
  | nil => exact ⟨rfl, rfl⟩
  | cons a ls ih =>
    rw [List.foldl_cons, (ih _).1, (ih _).2]
    split <;> exact ⟨rfl, rfl⟩

/-- A link in WAIT attempts at once. -/
def NoBackoff (t : Nat) (k : LinkSt) : Prop := k.retryAt = t ∧ k.backoff = 1

theorem zeroBackoff_keeps {j l : Nat} {m : M} (h : NoBackoff m.now (m.link j)) :
    NoBackoff m.now ((if m.linkState l = lsWait then zeroBackoff l m else m).link j) := by
  split
  · by_cases hj : j = l
    · subst hj
      rw [zeroBackoff, M.link_setLink]
      exact ⟨rfl, rfl⟩
    · rw [zeroBackoff, M.link_setLink_ne _ _ hj]
      exact h
  · exact h

theorem foldl_zeroBackoff_keeps {j : Nat} (ls : List Nat) {m : M} (h : NoBackoff m.now (m.link j)) :
    NoBackoff m.now ((ls.foldl (fun m l => if m.linkState l = lsWait then zeroBackoff l m else m) m).link j) := by
  induction ls generalizing m with
  | nil => exact h
  | cons a ls ih =>
    have hnow : (if m.linkState a = lsWait then zeroBackoff a m else m).now = m.now := by split <;> rfl
    have hk := ih (m := if m.linkState a = lsWait then zeroBackoff a m else m) (by rw [hnow]; exact zeroBackoff_keeps h)
    rwa [hnow] at hk

theorem foldl_zeroBackoff_link {j : Nat} {ls : List Nat} (hj : j ∈ ls) {m : M} (hw : m.linkState j = lsWait) :
    NoBackoff m.now ((ls.foldl (fun m l => if m.linkState l = lsWait then zeroBackoff l m else m) m).link j) := by
  induction ls generalizing m with
  | nil => cases hj
  | cons a ls ih =>
    have hnow : (if m.linkState a = lsWait then zeroBackoff a m else m).now = m.now := by split <;> rfl
    rw [List.foldl_cons, ← hnow]
    rcases List.mem_cons.mp hj with rfl | hmem
    · refine foldl_zeroBackoff_keeps ls ?_
      rw [if_pos hw, zeroBackoff, M.link_setLink]
      exact ⟨rfl, rfl⟩
    · refine ih hmem ?_
      split
      · exact hw
      · exact hw

end Octets

namespace Machine

theorem octReady_bootStep (im : Image) (n : Nat) (m : M) : octReady im (bootStep n m) = octReady im m := by
  simp only [octReady, M.flag, bootStep_fld _ _ _ (show Fld.LNK_OCT_STS_CAL_DONE ≠ .IMG_BOOT_STS_LAST_STEP by decide)]

/-- The last octet in use is ready: step 8 of the boot. -/
theorem opCalDone_lastStep {im : Image} {o c : Nat} {m : M} (hb : octReady im m = false)
    (ht : octReady im (opCalDone im o c m) = true) (h9 : (opCalComplete im o c m).fld .IMG_BOOT_STS_LAST_STEP 0 < 9) :
    (opCalDone im o c m).fld .IMG_BOOT_STS_LAST_STEP 0 = 8 := by
  have heq := opCalDone_eq (o := o) (c := c) hb
  have hr : octReady im (opCalComplete im o c m) = true := by
    rw [heq] at ht
    split at ht
    · rwa [octReady_bootStep] at ht
    · exact ht
  rw [heq, if_pos hr, bootStep, if_pos h9]
  exact (M.fld_setFld_same ..).trans rfl

/-- Settles O43: the requests of the owner, the limits of time and the line faults, each by the lemma that says when it
acts; the octets by `opCalComplete_fails`, `opCalComplete_succeeds` and `foldl_zeroBackoff_link`. -/
theorem linkStatesMove : Obligations.LinkStatesMove := by
  unfold Obligations.LinkStatesMove
  intro s l im st since
  have quiet : ∀ {a : Access}, rowPart im a = none → touchRow im a s.m = s.m := fun h => touchRow_none h s.m
  refine ⟨fun hl => ⟨fun ht hd ho => ?_, fun ht hd => ?_, fun ht hw ho => ?_⟩,
    fun hw ho hr => completes_of_upd rfl (opBackoffExpire_starts hw ho (.inl hr)),
    fun _ ht hr => completes_of_upd rfl (opBackoffExpire_waits ht hr),
    fun _ _ h => completes_of_upd rfl (opReceiverDetect_none h),
    fun _ hs hw ht => ?_,
    fun _ _ ht hr => completes_of_upd rfl (opTrainingBlock_idle ht hr),
    fun lane _ _ h => completes_of_upd rfl (opTrainingBlock_down (h.elim (pmaDown_of_lanesAt lane.val) id)),
    fun _ _ hs hp hk hl h1 h5 hm => completes_of_upd rfl (opTrainingBlock_taken hs hp hk hl h1 h5 hm),
    fun hs ht => ⟨fun hc => completes_of_upd rfl (opCrossed_due hs ht hc),
      fun hc hn => completes_of_upd rfl ((opTrainTimeout_due hs ht hc).trans (by rw [hn]; rfl)),
      fun hc hn => completes_of_upd rfl ((opTrainTimeout_due hs ht hc).trans (by rw [hn]; rfl))⟩,
    fun _ ht => ⟨completes_of_upd rfl (opTrainTimeout_early ht), completes_of_upd rfl (opCrossed_early ht)⟩,
    fun hs ht hn => completes_of_upd rfl (opRetrainTimeout_due hs ht hn),
    fun _ ht => completes_of_upd rfl (opRetrainTimeout_early ht),
    fun hs ht => completes_of_upd rfl (opAuthTimeout_due hs ht),
    fun _ ht => completes_of_upd rfl (opAuthTimeout_early ht),
    fun hs ht => completes_of_upd rfl (opKeepaliveLost_due hs ht),
    fun _ ht => completes_of_upd rfl (opKeepaliveLost_early ht),
    fun hs h => completes_of_upd rfl ((opRekeyOverdue_live hs).trans (if_pos h)),
    fun hs h => ⟨fun hr => completes_of_upd rfl ((opRekeyOverdue_live hs).trans ((if_neg (by omega)).trans (if_pos hr))),
      fun hr => completes_of_upd rfl ((opRekeyOverdue_live hs).trans ((if_neg (by omega)).trans (if_neg (by omega))))⟩,
    fun ht => ⟨fun hs => ?_, fun hs => ?_⟩,
    fun ht h => ?_,
    fun ht h => ⟨fun hs => ?_, fun hs => ?_⟩,
    fun h => completes_of_upd rfl (opRekeyThreshold_reached h),
    ?_, ?_⟩
  · exact completes_of_rowTaken ht rfl ((congrArg _ (quiet rfl)).trans (opDisable_down hl hd ho))
  · exact completes_of_rowTaken ht rfl ((congrArg _ (quiet rfl)).trans (opDisable_end hl hd))
  · exact completes_of_rowTaken ht rfl ((congrArg _ (quiet rfl)).trans (opRetryNow_starts hl hw ho))
  · exact completes_of_upd rfl (opReceiverDetect_one hs hw ht)
  · exact completes_of_rowTaken ht rfl ((congrArg _ (quiet rfl)).trans (if_pos hs))
  · exact completes_of_rowTaken ht rfl ((congrArg _ (quiet rfl)).trans (if_neg hs))
  · exact completes_of_rowTaken ht rfl ((congrArg _ (quiet rfl)).trans (if_pos h))
  · exact completes_of_rowTaken ht rfl ((congrArg _ (quiet rfl)).trans ((if_neg (by simp [h])).trans (if_pos hs)))
  · exact completes_of_rowTaken ht rfl ((congrArg _ (quiet rfl)).trans ((if_neg (by simp [h])).trans (if_neg hs)))
  · intro lane hlane hst hs user
    have rx (n : Nat) (hx : rxStateOk n = false) : laneFault im lane.val n s.m = setLane l.val lane.val n
        (if laneActive s.m user then toRetrain im l.val false s.m else s.m) :=
      (laneFault_active hlane hst hs).trans (by rw [hx]; rfl)
    have short : laneFault im lane.val 5 s.m = setLane l.val lane.val 5
        (if laneActive s.m lane.val then toRetrain im l.val false s.m else s.m) := laneFault_active hlane hst hs
    have lost : opBlockLockLost im lane.val s.m = _ := opBlockLockLost_of hlane
    refine ⟨fun ha => ⟨completes_of_upd rfl ((rx 3 rfl).trans ?_), completes_of_upd rfl ((rx 6 rfl).trans ?_),
        completes_of_upd rfl (lost.trans (if_pos ha))⟩,
      fun ha => ⟨completes_of_upd rfl ((rx 3 rfl).trans ?_), completes_of_upd rfl ((rx 6 rfl).trans ?_),
        completes_of_upd rfl (lost.trans (if_neg (ne_true_of_eq_false ha)))⟩,
      fun ha => completes_of_upd rfl (short.trans ?_), fun ha => completes_of_upd rfl (short.trans ?_)⟩ <;>
    rw [ha] <;> rfl
  · intro o hh
    refine ⟨fun ht hc hd => completes_of_rowTaken ht rfl ((congrArg _ (quiet rfl)).trans (opCal_starts hh hc hd)), ?_⟩
    intro hc c t cause
    have hfld {F : Fld} (i : Nat) (h : F ≠ .IMG_BOOT_STS_LAST_STEP) : t.fld F i = (opCalComplete im o.val c.val s.m).fld F i :=
      opCalDone_fld i h
    have hflag {F : Fld} (i : Nat) (h : F ≠ .IMG_BOOT_STS_LAST_STEP) : t.flag F i = (opCalComplete im o.val c.val s.m).flag F i :=
      congrArg (· != 0) (hfld i h)
    refine ⟨completes_of_upd rfl rfl, fun hcause ha => ?_, fun hcause => ?_⟩
    · have hend := opCalComplete_fails (im := im) hc hcause ha
      have hlt : cause < 4 := calCause_lt c.isLt
      rw [hfld _ (by decide), hflag _ (by decide), hflag _ (by decide), hend]
      have hwidth : (fldSpec .LNK_OCT_STS_FAIL_CAUSE).w = 2 := rfl
      have hcut : calCause s.m o.val c.val % 2 ^ (fldSpec .LNK_OCT_STS_FAIL_CAUSE).w = cause := by
        rw [hwidth]
        exact Nat.mod_eq_of_lt hlt
      have hother {F : Fld} {m : M} {v : Nat} (h : F ≠ .LNK_OCT_STS_FAIL_CAUSE) :
          (m.setFld .LNK_OCT_STS_FAIL_CAUSE o.val v).flag F o.val = m.flag F o.val :=
        congrArg (· != 0) (M.fld_setFld_other _ _ h)
      have hcal : ((calOver o.val s.m).setFlag .LNK_OCT_STS_CAL_FAIL o.val true).flag .LNK_OCT_STS_CALIBRATING o.val = false :=
        (M.flag_setFlag_other _ _ (by decide)).trans (M.flag_setFlag_same _ .LNK_OCT_STS_CALIBRATING _ _ (by decide))
      rw [hother (by decide), hother (by decide), hcal]
      exact ⟨(M.fld_setFld_same ..).trans hcut, M.flag_setFlag_same _ .LNK_OCT_STS_CAL_FAIL _ _ (by decide), rfl⟩
    · have hend := opCalComplete_succeeds (im := im) hc hcause
      have hf := foldl_zeroBackoff_f (im.linksOfOctet o.val) ((calOver o.val s.m).setFlag .LNK_OCT_STS_CAL_DONE o.val true)
      have hend' {F : Fld} (i : Nat) (h : F ≠ .IMG_BOOT_STS_LAST_STEP) :
          t.flag F i = ((calOver o.val s.m).setFlag .LNK_OCT_STS_CAL_DONE o.val true).flag F i := by
        rw [hflag i h, hend]
        exact congrArg (· != 0) (M.fld_congr hf _ _)
      have hdone : t.flag .LNK_OCT_STS_CAL_DONE o.val = true :=
        (hend' _ (by decide)).trans (M.flag_setFlag_same _ _ _ _ (by decide))
      have hthere : bitAt s.m.pins.onAbsent o.val = false := calCause_zero (m := s.m) (o := o.val) (c := c.val) hcause
      obtain ⟨f, hframe⟩ := opCalDone_frame (im := im) (o := o.val) (c := c.val) (m := s.m)
      have hkept := foldl_zeroBackoff_now (im.linksOfOctet o.val) ((calOver o.val s.m).setFlag .LNK_OCT_STS_CAL_DONE o.val true)
      have hpins : t.pins = s.m.pins := by
        rw [show t = _ from hframe, hend]
        exact hkept.2
      refine ⟨hdone, ?_, ?_, by rw [octetReady, hdone, hpins, hthere]; rfl, fun j hj hw => ?_, fun hb ht h9 => ?_⟩
      · rw [hend' _ (by decide), M.flag_setFlag_other _ _ (by decide)]
        exact M.flag_setFlag_same _ _ _ _ (by decide)
      · rw [hend' _ (by decide), M.flag_setFlag_other _ _ (by decide)]
        exact (M.flag_setFlag_other _ _ (by decide)).trans (M.flag_setFlag_same _ _ _ _ (by decide))
      · rw [show t = _ from hframe, hend]
        exact foldl_zeroBackoff_link (m := (calOver o.val s.m).setFlag .LNK_OCT_STS_CAL_DONE o.val true) hj
          (calOver_linkState.trans hw)
      · refine opCalDone_lastStep hb ht ?_
        rw [hend, M.fld_congr hf _ _, calOver_fld (by decide) (by decide) (by decide)]
        exact h9

end Machine

end Sys2Proof

end

section
/-! PROOFS. A flit that starts (09, R225 to R227, R240). -/

namespace Sys2Proof

section Flits

variable {l : Nat} {m : M}

theorem closesGroup_iff (m : M) (l : Nat) (more : Bool) :
    closesGroup m l more = true ↔ m.linkState l = lsActive ∧ (more = false ∨ (m.link l).txOpen.length = 15) := by
  simp [closesGroup]

/-! ### The end of a transmit group (R226, R240) -/

theorem groupClosed_stays (h : (m.link l).txSwitch = false) :
    groupClosed l m = m.setFld .LNK_STS_TX_GROUPS l (m.fld .LNK_STS_TX_GROUPS l + 1) := if_neg (by
  rw [show (m.setFld .LNK_STS_TX_GROUPS l (m.fld .LNK_STS_TX_GROUPS l + 1)).link l = m.link l from rfl, h]
  decide)

theorem groupClosed_switches (h : (m.link l).txSwitch = true) :
    groupClosed l m = ((m.setFld .LNK_STS_TX_GROUPS l (m.fld .LNK_STS_TX_GROUPS l + 1)).setLink l
      { m.link l with kTx := !(m.link l).kTx, txKeys := (m.link l).fresh, txSwitch := false }).setFld .LNK_STS_TX_GROUPS l 0 :=
  if_pos h

theorem groupClosed_link : (groupClosed l m).link l = if (m.link l).txSwitch = true then
    { m.link l with kTx := !(m.link l).kTx, txKeys := (m.link l).fresh, txSwitch := false } else m.link l := by
  split
  · next h =>
    rw [groupClosed_switches h]
    exact M.link_setLink (m.setFld .LNK_STS_TX_GROUPS l (m.fld .LNK_STS_TX_GROUPS l + 1)) l _
  · next h => rw [groupClosed_stays (eq_false_of_ne_true h)]; rfl

theorem groupClosed_link_other {j : Nat} (hj : j ≠ l) : (groupClosed l m).link j = m.link j := by
  by_cases h : (m.link l).txSwitch = true
  · rw [groupClosed_switches h]
    exact M.link_setLink_ne (m.setFld .LNK_STS_TX_GROUPS l (m.fld .LNK_STS_TX_GROUPS l + 1)) _ hj
  · rw [groupClosed_stays (eq_false_of_ne_true h)]
    rfl

theorem groupClosed_fld {F : Fld} {i : Nat} (h : (F, i) ∉ [(Fld.LNK_STS_TX_GROUPS, l)]) :
    (groupClosed l m).fld F i = m.fld F i := by
  have hne : ¬ (F = .LNK_STS_TX_GROUPS ∧ i = l) := by simpa using h
  have hup := M.fld_setFld_ne m (m.fld .LNK_STS_TX_GROUPS l + 1) hne
  by_cases hs : (m.link l).txSwitch = true
  · rw [groupClosed_switches hs, M.fld_setFld_ne _ _ hne]
    exact hup
  · rw [groupClosed_stays (eq_false_of_ne_true hs)]
    exact hup

theorem groupClosed_restarts (h : (m.link l).txSwitch = true) : (groupClosed l m).fld .LNK_STS_TX_GROUPS l = 0 := by
  rw [groupClosed_switches h, M.fld_setFld_same]
  rfl

theorem groupClosed_frame : ∃ f k, groupClosed l m = { m with f := f, links := k } := by
  by_cases h : (m.link l).txSwitch = true
  · exact ⟨_, _, groupClosed_switches h⟩
  · exact ⟨_, m.links, groupClosed_stays (eq_false_of_ne_true h)⟩

/-! ### A flit (R225 to R227) -/

theorem flitHead_raw (f : TxFlit) (r : List Byte) : flitHead { f with raw := r } = flitHead f := rfl

/-- The bytes of a body do not depend on those of the flit as transmitted. -/
theorem flitBody_raw (key nonce : List Byte) (enc : Bool) (o : List TxFlit) (f : TxFlit) (r : List Byte) :
    flitBody key nonce enc o { f with raw := r } = flitBody key nonce enc o f := by
  simp only [flitBody, flitCipher, flitPlain, List.map_append, List.map_cons, List.map_nil, flitHead_raw]

theorem makeFlit_raw (m : M) (l type vl : Nat) (b : List Byte) (close : Bool) :
    let f := makeFlit m l type vl b close
    let k := m.link l
    f.raw = flitRaw (flitHead f) (flitBody k.txKeys.l2d (groupNonce k.txKeys.l2dIv (m.fld .LNK_STS_TX_GROUPS l))
      (m.linkState l == lsActive) k.txOpen f) := by
  intro f k
  have hf : ∃ g r, f = { g with raw := r } ∧ r = flitRaw (flitHead g) (flitBody k.txKeys.l2d
      (groupNonce k.txKeys.l2dIv (m.fld .LNK_STS_TX_GROUPS l)) (m.linkState l == lsActive) k.txOpen g) := ⟨_, _, rfl, rfl⟩
  obtain ⟨g, r, hf, hr⟩ := hf
  rw [hf, flitBody_raw, flitHead_raw, ← hr]

/-- A link once a flit has left. -/
def flitLink (m : M) (l type vl : Nat) (b : List Byte) (close : Bool) : LinkSt :=
  { m.link l with
    txSeq := ((m.link l).txSeq + 1) % 65536
    replay := (m.link l).replay ++ [makeFlit m l type vl b close]
    lastTx := m.now
    txOpen := if m.linkState l == lsActive && !close then (m.link l).txOpen ++ [makeFlit m l type vl b close] else [] }

/-- The loom once a flit has left, before the end of its group counts. -/
def flitOut (l type vl : Nat) (b : List Byte) (close : Bool) (m : M) : M :=
  (emitFlit l (makeFlit m l type vl b close) m).setLink l (flitLink m l type vl b close)

theorem sendFlit_eq (type vl : Nat) (b : List Byte) (more : Bool) : sendFlit l type vl b more m =
    if closesGroup m l more = true then groupClosed l (flitOut l type vl b true m) else flitOut l type vl b false m := by
  have h : sendFlit l type vl b more m = if closesGroup m l more = true then
      groupClosed l (flitOut l type vl b (closesGroup m l more) m) else flitOut l type vl b (closesGroup m l more) m := rfl
  rw [h]
  cases closesGroup m l more <;> rfl

theorem flitOut_link (type vl : Nat) (b : List Byte) (close : Bool) :
    (flitOut l type vl b close m).link l = flitLink m l type vl b close := M.link_setLink ..

theorem flitOut_link_other {j : Nat} (type vl : Nat) (b : List Byte) (close : Bool) (hj : j ≠ l) :
    (flitOut l type vl b close m).link j = m.link j := M.link_setLink_ne _ _ hj

/-- What a flit leaves on its own link, but for the keys of a direction that goes over. -/
structure FlitLeft (m : M) (l type vl : Nat) (b : List Byte) (close : Bool) (k : LinkSt) : Prop where
  seq : k.txSeq = ((m.link l).txSeq + 1) % 65536
  replay : k.replay = (m.link l).replay ++ [makeFlit m l type vl b close]
  lastTx : k.lastTx = m.now
  txOpen : k.txOpen = if m.linkState l == lsActive && !close then (m.link l).txOpen ++ [makeFlit m l type vl b close] else []
  cmds : k.cmds = (m.link l).cmds
  cmdq : k.cmdq = (m.link l).cmdq
  cr : k.cr = (m.link l).cr

theorem sendFlit_left (type vl : Nat) (b : List Byte) (more : Bool) :
    FlitLeft m l type vl b (closesGroup m l more) ((sendFlit l type vl b more m).link l) := by
  rw [sendFlit_eq]
  split
  · next h =>
    rw [groupClosed_link, flitOut_link, h]
    split <;> exact ⟨rfl, rfl, rfl, rfl, rfl, rfl, rfl⟩
  · next h =>
    rw [flitOut_link, eq_false_of_ne_true h]
    exact ⟨rfl, rfl, rfl, rfl, rfl, rfl, rfl⟩

theorem sendFlit_link_other {j : Nat} (type vl : Nat) (b : List Byte) (more : Bool) (hj : j ≠ l) :
    (sendFlit l type vl b more m).link j = m.link j := by
  rw [sendFlit_eq]
  split
  · exact (groupClosed_link_other hj).trans (flitOut_link_other _ _ _ _ hj)
  · exact flitOut_link_other _ _ _ _ hj

theorem sendFlit_fld {F : Fld} {i : Nat} (type vl : Nat) (b : List Byte) (more : Bool)
    (h : (F, i) ∉ [(Fld.LNK_STS_TX_GROUPS, l)]) : (sendFlit l type vl b more m).fld F i = m.fld F i := by
  rw [sendFlit_eq]
  split
  · exact groupClosed_fld h
  · rfl

theorem sendFlit_fld_open {F : Fld} {i : Nat} (type vl : Nat) (b : List Byte) {more : Bool}
    (h : closesGroup m l more = false) : (sendFlit l type vl b more m).fld F i = m.fld F i := by
  rw [sendFlit_eq, h]
  rfl

theorem sendFlit_frame (type vl : Nat) (b : List Byte) (more : Bool) :
    ∃ f k o, sendFlit l type vl b more m = { m with f := f, links := k, out := o } := by
  rw [sendFlit_eq]
  split
  · obtain ⟨f, k, h⟩ := groupClosed_frame (l := l) (m := flitOut l type vl b true m)
    exact ⟨f, k, _, h⟩
  · exact ⟨m.f, _, _, rfl⟩

/-- The direction goes over to the keys of a rekey only at the end of a group, and only when one waits for it (R240). -/
theorem sendFlit_keys (type vl : Nat) (b : List Byte) {more : Bool}
    (h : closesGroup m l more = false ∨ (m.link l).txSwitch = false) :
    let k := (sendFlit l type vl b more m).link l
    k.kTx = (m.link l).kTx ∧ k.txKeys = (m.link l).txKeys ∧ k.txSwitch = (m.link l).txSwitch := by
  intro k
  have hk : k = flitLink m l type vl b (closesGroup m l more) := by
    have heq : k = (sendFlit l type vl b more m).link l := rfl
    rw [heq, sendFlit_eq]
    split
    · next hc =>
      have hs : (m.link l).txSwitch = false := h.resolve_left (by simp [hc])
      rw [groupClosed_link, flitOut_link, hc]
      exact if_neg (by simp [flitLink, hs])
    · next hc => rw [flitOut_link, eq_false_of_ne_true hc]
  rw [hk]
  exact ⟨rfl, rfl, rfl⟩

theorem sendFlit_switches (type vl : Nat) (b : List Byte) {more : Bool} (h : closesGroup m l more = true)
    (hs : (m.link l).txSwitch = true) :
    let t := sendFlit l type vl b more m
    (t.link l).kTx = !(m.link l).kTx ∧ (t.link l).txKeys = (m.link l).fresh ∧ (t.link l).txSwitch = false ∧
      t.fld .LNK_STS_TX_GROUPS l = 0 := by
  intro t
  have ht : t = groupClosed l (flitOut l type vl b true m) := (sendFlit_eq ..).trans (if_pos h)
  have hs' : ((flitOut l type vl b true m).link l).txSwitch = true := by
    rw [flitOut_link]
    exact hs
  have hlink : t.link l = { flitLink m l type vl b true with kTx := !(m.link l).kTx, txKeys := (m.link l).fresh, txSwitch := false } := by
    rw [ht, groupClosed_link, if_pos hs', flitOut_link]
    rfl
  refine ⟨by rw [hlink], by rw [hlink], by rw [hlink], ?_⟩
  rw [ht]
  exact groupClosed_restarts hs'

end Flits

namespace Machine

/-- Settles O44: what a flit leaves on its link (`sendFlit_left`), elsewhere (`sendFlit_link_other`, `sendFlit_fld`,
`sendFlit_frame`), and when the direction changes keys (`sendFlit_keys`, `sendFlit_switches`). -/
theorem flitsAreNumbered : Obligations.FlitsAreNumbered := by
  unfold Obligations.FlitsAreNumbered
  intro l type vl b more m k t active close
  have hleft : FlitLeft m l type vl b (closesGroup m l more) (t.link l) := sendFlit_left ..
  have hclose : closesGroup m l more = true ↔ close := closesGroup_iff ..
  have hopen : ¬ close → closesGroup m l more = false := fun h => eq_false_of_ne_true fun hc => h (hclose.mp hc)
  refine ⟨hleft.seq, ?_, ?_, ⟨makeFlit m l type vl b (closesGroup m l more), ?_, rfl, rfl, rfl, bytesAt_length .., hclose,
      ?_, makeFlit_raw .., fun ha hc => ?_⟩,
    hleft.lastTx, fun hc => ?_, fun hc _ _ => sendFlit_fld_open _ _ _ (hopen hc),
    fun h => sendFlit_keys _ _ _ (h.imp_left hopen), fun hc hs => sendFlit_switches _ _ _ (hclose.mpr hc) hs,
    fun _ _ _ h => sendFlit_fld _ _ _ _ h, fun _ hj => sendFlit_link_other _ _ _ _ hj, hleft.cmds, hleft.cmdq, hleft.cr, ?_⟩
  · rw [hleft.replay, List.length_append, List.length_singleton]
  · rw [hleft.replay]
    exact List.take_left
  · rw [hleft.replay, List.getLast?_concat]
  · simp [makeFlit, active, k]
  · rw [hleft.txOpen, hopen hc, if_pos (by simp [show m.linkState l = lsActive from ha])]
  · rw [hleft.txOpen, hclose.mpr hc, if_neg (by simp)]
  · obtain ⟨f, kl, o, h⟩ := sendFlit_frame (l := l) (m := m) type vl b more
    have ht : t = _ := h
    rw [ht]

end Machine

end Sys2Proof

end

section
/-! PROOFS. What a link sends: command frames, rehearsals, data, credit, and the limits of what it sent (09, 05). -/

namespace Sys2Proof

/-! ### The queue of the command virtual lane (R229, R230, R233) -/

section Frames

variable {im : Image} {l : Nat} {m : M}

/-- A link that may start a flit of the command virtual lane. -/
def Sendable (m : M) (l : Nat) : Prop := m.linkState l = lsActive ∧ mayFlit m l = true ∧ 0 < txCredit m l 0

theorem Sendable.goes (h : Sendable m l) : ¬ (m.linkState l ≠ lsActive ∨ mayFlit m l = false ∨ txCredit m l 0 = 0) := by
  obtain ⟨hs, hf, hc⟩ := h
  rintro (h | h | h)
  · exact h hs
  · exact Bool.false_ne_true (h.symm.trans hf)
  · omega

theorem not_sendable (h : ¬ Sendable m l) : m.linkState l ≠ lsActive ∨ mayFlit m l = false ∨ txCredit m l 0 = 0 := by
  by_contra hn
  push Not at hn
  exact h ⟨hn.1, by simpa using hn.2.1, Nat.pos_of_ne_zero hn.2.2⟩

/-- The oldest frame goes first when it is selected and its budget covers a flit. -/
theorem pickFrame_head {sel : QFrame → Bool} {f : QFrame} {o : Nat} {q : List QFrame} (ho : frameOwner f = o)
    (hb : m.covers 3 (fidx o l) 1 = true) (hs : sel f = true) : pickFrame m l sel [] (f :: q) = some f :=
  if_pos ⟨hs, List.not_mem_nil, .inr (ho ▸ hb)⟩

theorem pickFrame_refused {sel : QFrame → Bool} {f : QFrame} (hs : sel f = false) : pickFrame m l sel [] [f] = none :=
  if_neg fun h => Bool.false_ne_true (hs.symm.trans h.1)

variable {more : Bool} {p mask : Nat} {q : List QFrame}

theorem opCmd_idle (h : ¬ Sendable m l) : opCmd im l more m = m := if_pos (not_sendable h)

theorem opGo_idle (h : ¬ Sendable m l) : opGo im l more m = m := if_pos (not_sendable h)

theorem opStrike_idle (h : ¬ Sendable m l) : opStrike l more m = m := if_pos (not_sendable h)

theorem opCmd_clear {slot t : Nat} (h : Sendable m l) (hq : (m.link l).cmdq = .clear p slot :: q)
    (hb : m.covers 3 (fidx p l) 1 = true) (ht : freeTagOf m l = some t) :
    let m2 := sendVl0 l 1 (.clear p slot) (cmdFrame 3 0 0 (slotNum slot) t 0 0 0 []) more m
    opCmd im l more m = addCmd l { newCmd m2 l t p 0 false 0 (slotNum slot) 0 0 with clear := true } m2 := by
  intro m2
  rw [opCmd, if_neg h.goes, hq, pickFrame_head (f := .clear p slot) (o := p) rfl hb rfl]
  simp only [ht]
  rfl

theorem opCmd_cmd {tag : Nat} {dst : Bool} (h : Sendable m l) (hq : (m.link l).cmdq = .cmd p tag dst :: q)
    (hb : m.covers 3 (fidx p l) 1 = true) : opCmd im l more m = startCmd im l p tag dst more (.cmd p tag dst) m := by
  rw [opCmd, if_neg h.goes, hq, pickFrame_head (f := .cmd p tag dst) (o := p) rfl hb rfl]

/-- The CMD of a READ. -/
theorem startCmd_read {tag t : Nat} {x : Script} {c : PCue} {w : List PCue} (hx : m.script p tag = some x) (hw : x.win = c :: w)
    (hcap : (m.capOf c.cue.slot).isSome = true) (ht : freeTagOf m l = some t) (hop : c.cue.op = 2) :
    let m2 := sendVl0 l 1 (.cmd p tag false)
      (cmdFrame 1 2 c.cue.cmd (slotNum c.cue.slot) t 0 (groupTotal x.head) c.cue.param []) more m
    startCmd im l p tag false more (.cmd p tag false) m =
      markSent im p tag (addCmd l (newCmd m2 l t p tag false 2 (slotNum c.cue.slot) (groupTotal x.head) 0) m2) := by
  intro m2
  have hnone : (m.capOf c.cue.slot).isNone = false := by simp [Option.isNone_eq_false_iff, hcap]
  have hread : c.cue.isWrite = false := by rw [Cue.isWrite, hop]; rfl
  simp only [startCmd, hx, hw, hop, hread, hnone, ht, Bool.false_eq_true, if_false, Bool.false_and, (by decide : (2 : Nat) ≠ 5),
    List.length_nil]
  rfl

/-- A rehearsal is young enough for its GO before the 224th edge from its start (R124). -/
def youngRh (m : M) (l n : Nat) : Bool :=
  match m.rh l n with | some r => decide (edgeCount m < r.start + 224) | none => false

theorem youngRh_of {n : Nat} (h : ∃ r, m.rh l n = some r ∧ edgeCount m < r.start + 224) : youngRh m l n = true := by
  obtain ⟨r, hr, he⟩ := h
  rw [youngRh, hr]
  exact decide_eq_true he

theorem not_youngRh {n : Nat} {r : Rehearsal} (hr : m.rh l n = some r) (he : r.start + 224 ≤ edgeCount m) :
    youngRh m l n = false := by
  rw [youngRh, hr]
  exact decide_eq_false (by omega)

/-- The frames GO may start: those all of whose numbers are young enough. -/
def goYoung (m : M) (l : Nat) : QFrame → Bool
  | .go _ b => (setBits b 64).all (youngRh m l)
  | _ => false

/-- What GO does with the frame it found. -/
def goFrame (im : Image) (l : Nat) (more : Bool) (m : M) : Option QFrame → M
  | some (.go p mask) => (setBits mask 64).foldl (commitRh im l)
      ((sendVl0 l 5 (.go p mask) (leBytes 8 mask) more m).bump .SPC_RHS_GO (pinst p 0))
  | _ => m

theorem opGo_eq : opGo im l more m = if m.linkState l ≠ lsActive ∨ mayFlit m l = false ∨ txCredit m l 0 = 0 then m
    else goFrame im l more m (pickFrame m l (goYoung m l) [] (m.link l).cmdq) := rfl

theorem opGo_sends (h : Sendable m l) (hq : (m.link l).cmdq = .go p mask :: q) (hb : m.covers 3 (fidx p l) 1 = true)
    (hy : ∀ n ∈ setBits mask 64, youngRh m l n = true) : opGo im l more m = (setBits mask 64).foldl (commitRh im l)
      ((sendVl0 l 5 (.go p mask) (leBytes 8 mask) more m).bump .SPC_RHS_GO (pinst p 0)) := by
  have hsel : goYoung m l (.go p mask) = true := List.all_eq_true.mpr hy
  rw [opGo_eq, if_neg h.goes, hq, pickFrame_head (f := .go p mask) (o := p) rfl hb hsel]
  rfl

theorem opGo_late {n : Nat} (hq : (m.link l).cmdq = [.go p mask]) (hn : n ∈ setBits mask 64)
    (hy : youngRh m l n = false) : opGo im l more m = m := by
  have hsel : goYoung m l (.go p mask) = false := List.all_eq_false.mpr ⟨n, hn, by simp [hy]⟩
  rw [opGo_eq, hq, pickFrame_refused hsel]
  exact ite_self m

theorem opStrike_sends (h : Sendable m l) (hq : (m.link l).cmdq = .strike p mask :: q) (hb : m.covers 3 (fidx p l) 1 = true) :
    let m2 := sendVl0 l 6 (.strike p mask) (leBytes 8 mask) more m
    opStrike l more m = (strikeParts m2 l p mask).foldl (fun m q => m.bump .SPC_RHS_STRIKE (pinst q 0)) m2 := by
  intro m2
  rw [opStrike, if_neg h.goes, hq, pickFrame_head (f := .strike p mask) (o := p) rfl hb rfl]

end Frames

/-! ### Rehearsals (R119, R120, R124, R128) -/

section Rehearsals

variable {im : Image} {l : Nat} {m : M} {more : Bool}

theorem opRehearse_empty (h : (m.link l).cmdq = []) : opRehearse im l more m = m := by
  rw [opRehearse, h]
  exact ite_self m

section Picked

variable {p tag sn h : Nat} {q : List QFrame} {x : Script} {c : PCue} {t : List PCue} (hs : Sendable m l)
  (hq : (m.link l).cmdq = .rehearse p tag sn :: q) (hb : m.covers 3 (fidx p l) 1 = true) (hx : m.script p tag = some x)
include hs hq hb hx

theorem opRehearse_full (hn : freeRhs m l = none) : opRehearse im l more m = unqueueRehearse l p tag sn m := by
  rw [opRehearse, if_neg hs.goes, hq, pickFrame_head (f := .rehearse p tag sn) (o := p) rfl hb rfl]
  simp only [hx, hn]

theorem opRehearse_stale (hn : freeRhs m l = some h) (hg : groupAt sn x.win = c :: t) (hr : stillRehearses m x c = false) :
    opRehearse im l more m = unqueueRehearse l p tag sn m := by
  rw [opRehearse, if_neg hs.goes, hq, pickFrame_head (f := .rehearse p tag sn) (o := p) rfl hb rfl]
  simp only [hx, hn, hg, hr]
  rfl

/-- A REHEARSE that starts takes the free number. -/
theorem opRehearse_sends (hn : freeRhs m l = some h) (hg : groupAt sn x.win = c :: t) (hr : stillRehearses m x c = true) :
    let total := groupTotal (c :: t)
    let m2 := sendVl0 l 4 (.rehearse p tag sn)
      (cmdFrame 1 c.cue.op c.cue.cmd (slotNum c.cue.slot) h c.runits total c.cue.param []) more m
    let m3 := m2.setRh l h ⟨p, tag, sn, c.cue.slot, .out, false, c.runits, total, [], false, edgeCount m2, none, 0, 0,
      m2.now, none, m2.respLimit c.cue.slot, false⟩
    opRehearse im l more m = specWork im p tag (((syncRhs l m3).bump .SPC_RHS_SENT (pinst p 0)).setScript { x with
      win := x.win.map (fun c => if c.sn = sn then { c with rhs := some h, rq := false, runits := 0, sent := true } else c) }) := by
  intro total m2 m3
  rw [opRehearse, if_neg hs.goes, hq, pickFrame_head (f := .rehearse p tag sn) (o := p) rfl hb rfl]
  simp only [hx, hn, hg, hr]
  rfl

end Picked

variable {n : Nat} {r : Rehearsal} (hr : m.rh l n = some r)
include hr

theorem opWithdraw_due (hs : r.st = .out) (he : r.start + 224 ≤ edgeCount m) : opWithdraw im l n m =
    loseRehearsal im l n r.part r.tag r.sn ((strikeRh l n m).bump .SPC_RHS_MISS_WITHDRAWN (pinst r.part 0)) := by
  simp only [opWithdraw, hr]
  exact if_pos ⟨.inl hs, he⟩

theorem opWithdraw_early (he : edgeCount m < r.start + 224) : opWithdraw im l n m = m := by
  simp only [opWithdraw, hr]
  exact if_neg fun h => by omega

theorem opNumberRelease_due {e : Nat} (hf : r.freeAt = some e) (he : e ≤ edgeCount m) :
    opNumberRelease l n m = releaseRh l n (dropStrike l n m) := by
  simp only [opNumberRelease, hr, hf]
  exact if_pos he

theorem opNumberRelease_early {e : Nat} (hf : r.freeAt = some e) (he : edgeCount m < e) : opNumberRelease l n m = m := by
  simp only [opNumberRelease, hr, hf]
  exact if_neg (by omega)

end Rehearsals

/-! ### Data (R225, R226, R231, R236, R245) -/

section Data

variable {im : Image} {l : Nat} {m : M} {more : Bool}

theorem dataCut_le (ctag p r : Nat) : (dataCut m l ctag p r more).1 ≤ 240 ∧ (dataCut m l ctag p r more).1 ≤ r := by
  simp only [dataCut]
  split <;> omega

theorem dataCut_pos (ctag p r : Nat) (h : 0 < r) : (dataCut m l ctag p r more).1 ≠ 0 := by
  simp only [dataCut]
  split <;> omega

theorem dataCut_more (ctag p r : Nat) : (dataCut m l ctag p r true).2 = true := by
  simp only [dataCut, Bool.true_or]

/-- A flit of 240 bytes is neither the 16th of its group nor one that nothing follows. -/
theorem dataCut_closing (ctag p r : Nat) (h : closesGroup m l (dataCut m l ctag p r more).2 = true) :
    (dataCut m l ctag p r more).1 ≤ 224 := by
  have hc := ((closesGroup_iff m l _).mp h).2
  generalize hcut : dataCut m l ctag p r more = d at hc ⊢
  simp only [dataCut] at hcut
  split at hcut
  · next hlong =>
    simp only [Bool.and_eq_true, Bool.not_eq_true', Bool.or_eq_true, decide_eq_true_eq, beq_eq_false_iff_ne] at hlong
    obtain ⟨hfull, hgo⟩ := hlong
    subst hcut
    rcases hc with hc | hc
    · simp only [Bool.or_eq_false_iff, Bool.and_eq_false_iff, decide_eq_false_iff_not] at hc
      rcases hgo with (hm | hf) | ⟨⟨h1, hcov⟩, hr⟩
      · simp [hm] at hc
      · simp [hf] at hc
      · have hown := hc.2
        simp only [h1, hcov, not_true_eq_false, false_or, Bool.true_eq_false] at hown
        dsimp only
        omega
    · omega
  · subst hcut
    dsimp only
    omega

theorem opDataTransmit_sends {ctag : Nat} {c : Cmd} {cl : Nat} {x : Xfer} (hs : m.linkState l = lsActive) (hf : mayFlit m l = true)
    (hcr : 0 < txCredit m l 1) (hc : findCmd m l ctag = some c) (hd : c.dead = false) (hcl : c.clear = false)
    (hl : c.sentLast = false) (ho : c.opc = 1) (hb : m.covers 3 (fidx c.part l) 1 = true) (hx : cmdXfer m c = some (cl, x))
    (h0 : (dataCut m l ctag c.part (readyBytes c.sent x.elems).length more).1 ≠ 0) :
    let r := readyBytes c.sent x.elems
    let d := dataCut m l ctag c.part r.length more
    let last := c.sent + d.1 == x.total
    let m2 := sendFlit l 2 1 (dataFrame ctag last c.sent (r.take d.1)) d.2 (chargeFlit c.part l (spendCredit l 1 m))
    let m3 := updCmd l ctag (fun e => { e with sent := e.sent + d.1, sentLast := last, timer := m2.now }) m2
    opDataTransmit im l ctag more m = settleQueue im cl c.part (updQueue cl c.part
      (fun y => if y.who = x.who then { y with elems := dropBytes d.1 y.elems } else y) m3) := by
  intro r d last m2 m3
  have hgo : ¬ (m.linkState l ≠ lsActive ∨ mayFlit m l = false ∨ txCredit m l 1 = 0) := by
    rintro (h | h | h)
    · exact h hs
    · exact Bool.false_ne_true (h.symm.trans hf)
    · omega
  have hcmd : ¬ (c.dead = true ∨ c.clear = true ∨ c.sentLast = true ∨ (c.opc ≠ 1 ∧ c.opc ≠ 3) ∨
      m.covers 3 (fidx c.part l) 1 = false) := by simp [hd, hcl, hl, ho, hb]
  rw [opDataTransmit, if_neg hgo]
  simp only [hc]
  rw [if_neg hcmd]
  simp only [hx]
  exact if_neg fun h => h0 h.1

end Data

/-! ### Credit, keepalive, owner messages (R228, R234, R250) -/

section Credit

variable {im : Image} {l : Nat} {m : M} {more : Bool}

theorem opCreditSend_plain (hf : mayFlit m l = true) (hn : (m.link l).nakDue = false) :
    let k := m.link l
    let m2 := m.setLink l { k with
      rxCr := (List.range 4).map (fun v => k.rxCr.getD v 0 + k.ret.getD v 0)
      ret := [0, 0, 0, 0], unacked := 0, nakDue := false, nakTx := k.nakTx }
    opCreditSend l [] more m = sendFlit l 7 0 (creditFrame ((k.rxSeq + 65535) % 65536) false k.ret [])
      (more || flitReady m2 l none) m2 := by
  intro k m2
  have hn' : k.nakDue = false := hn
  rw [opCreditSend, if_neg (by simp [hf])]
  simp only [List.take_nil, List.foldl_nil, hn, Bool.false_eq_true, if_false]
  rfl

theorem opKeepalive_due (hf : mayFlit m l = true) (ht : (m.link l).lastTx + 20000 ≤ m.now) :
    opKeepalive l m = sendFlit l 8 0 [] (flitReady m l none) m := if_pos ⟨hf, ht⟩

theorem opKeepalive_early (ht : m.now < (m.link l).lastTx + 20000) : opKeepalive l m = m := if_neg fun h => by omega

theorem opOwnerSend_sends (hl : isLink im l = true) (hf : m.flag .LNK_OWN_TX_SEND l = false) (hs : m.linkState l = lsActive)
    (h1 : 1 ≤ m.fld .LNK_OWN_TX_LEN l) (h2 : m.fld .LNK_OWN_TX_LEN l ≤ 57344) : opOwnerSend im l m =
      sendMgmt l 9 (memRead m.stage (m.fld .LNK_OWN_TX_OFF l) (m.fld .LNK_OWN_TX_LEN l)) (m.setFlag .LNK_OWN_TX_SEND l true) := by
  have hgo : ¬ (m.linkState l ≠ lsActive ∨ m.fld .LNK_OWN_TX_LEN l = 0 ∨ 57344 < m.fld .LNK_OWN_TX_LEN l) := by
    rintro (h | h | h)
    · exact h hs
    · omega
    · omega
  rw [opOwnerSend, if_neg (by simp [hl]), if_neg (by simp [hf]), if_neg hgo]

theorem opOwnerSend_refused (hl : isLink im l = true) (hf : m.flag .LNK_OWN_TX_SEND l = false)
    (h : m.linkState l ≠ lsActive ∨ m.fld .LNK_OWN_TX_LEN l = 0 ∨ 57344 < m.fld .LNK_OWN_TX_LEN l) :
    opOwnerSend im l m = m.setFlag .LNK_OWN_TX_REFUSED l true := by
  rw [opOwnerSend, if_neg (by simp [hl]), if_neg (by simp [hf]), if_pos h]

theorem opOwnerSent_over (hf : m.flag .LNK_OWN_TX_SEND l = true) (hq : ∀ f ∈ (m.link l).mgmtq, f.1 ≠ 9)
    (ha : m.askedAgain .LNK_OWN_TX_SEND l = false) :
    opOwnerSent im l m = irqPulse im 8 (0x900 + l) (m.setFlag .LNK_OWN_TX_SEND l false) :=
  (if_pos ⟨hf, by simpa using hq⟩).trans (by rw [ha]; rfl)

end Credit

/-! ### Limits of what was sent (R247) -/

section Limits

variable {im : Image} {l ctag : Nat} {m : M}

section Ordinary

variable {c : Cmd} (hs : m.linkState l = lsActive) (h64 : 64 ≤ ctag) (hc : findCmd m l ctag = some c)
include hs h64 hc

theorem opResponseTimeout_due (hd : c.dead = false) (hcl : c.clear = false) (ht : c.timer + c.limit < m.now) :
    opResponseTimeout im l ctag m = abortCmd im l ctag c.part c.tag 0x15 m := by
  rw [opResponseTimeout, if_neg (by simp [hs]), if_neg (by omega)]
  simp only [hc]
  exact if_pos (by simp [hd, hcl, ht])

theorem opResponseTimeout_early (ht : m.now ≤ c.timer + c.limit) : opResponseTimeout im l ctag m = m := by
  rw [opResponseTimeout, if_neg (by simp [hs]), if_neg (by omega)]
  simp only [hc]
  exact if_neg (by simp; omega)

end Ordinary

section Committed

variable {r : Rehearsal} (hs : m.linkState l = lsActive) (h64 : ctag < 64) (hr : m.rh l ctag = some r)
include hs h64 hr

theorem opResponseTimeout_rehearsal_due (hc : r.st = .committed) (hd : r.detached = false) (ht : r.timer + r.limit < m.now) :
    opResponseTimeout im l ctag m = abortCmd im l ctag r.part r.tag 0x15 m := by
  rw [opResponseTimeout, if_neg (by simp [hs]), if_pos h64]
  simp only [hr]
  exact if_pos ⟨hc, hd, ht⟩

theorem opResponseTimeout_rehearsal_early (ht : m.now ≤ r.timer + r.limit) : opResponseTimeout im l ctag m = m := by
  rw [opResponseTimeout, if_neg (by simp [hs]), if_pos h64]
  simp only [hr]
  exact if_neg fun h => by omega

end Committed

theorem abortLate_due {t : Nat} (h : t + 256 ≤ edgeCount m) : abortLate m (some t) = true := decide_eq_true h

theorem abortLate_early {t : Nat} (h : edgeCount m < t + 256) : abortLate m (some t) = false := decide_eq_false (by omega)

/-- What an ABORT without an answer leaves: its event and its fault. -/
def abortUnansweredFires (im : Image) (l ctag : Nat) (m : M) : M :=
  fireL im (0x0D3 + 8 * (l / 8)) (l + 2 ^ 16 * ctag) l (evtPush l 9 (ctag % 256) (ctag / 256) m)

theorem opAbortUnanswered_cmd {c : Cmd} (hc : findCmd m l ctag = some c) : opAbortUnanswered im l ctag m =
    if (abortLate m c.abortTick && !c.stuck) = true then
      abortUnansweredFires im l ctag (updCmd l ctag (fun c => { c with stuck := true }) m) else m := by
  simp only [opAbortUnanswered, hc]
  rfl

theorem opAbortUnanswered_rehearsal {r : Rehearsal} (hc : findCmd m l ctag = none) (hr : m.rh l ctag = some r) :
    opAbortUnanswered im l ctag m = if (abortLate m r.abortTick && !r.stuck) = true then
      abortUnansweredFires im l ctag (m.setRh l ctag { r with stuck := true }) else m := by
  simp only [opAbortUnanswered, hc, hr]
  rfl

end Limits

namespace Machine

/-- Settles O45: each clause by the lemma that says what its command does with the frame, the bytes or the limit it finds. -/
theorem linksTransmit : Obligations.LinksTransmit := by
  unfold Obligations.LinksTransmit
  intro s l more im n k sendable
  have hsend (h : sendable) : Sendable s.m n := h
  refine ⟨fun p slot q h hq _ hb t ht => ?_, fun p tag dst q h hq _ hb => completes_of_upd rfl (opCmd_cmd h hq hb),
    fun p tag x c w t hx hw hcap ht hop => startCmd_read hx hw hcap ht hop,
    fun p mask q h hq _ hb hy => completes_of_upd rfl (opGo_sends h hq hb fun i hi => youngRh_of (hy i hi)),
    fun p mask i r _ hq hi hr he => completes_of_upd rfl (opGo_late hq hi (not_youngRh hr he)),
    fun p mask q h hq _ hb => ?_,
    fun h => ⟨completes_of_upd rfl (opCmd_idle h), completes_of_upd rfl (opGo_idle h), completes_of_upd rfl (opStrike_idle h)⟩,
    fun hn _ hq => ?_, fun p tag sn q x => ?_, fun ctag c cl x hs hf hcr hc hd hcl hl ho hb hx => ?_, fun h r hr => ?_,
    fun hf hn => ?_, fun hf ht => completes_of_upd rfl (opKeepalive_due hf ht),
    fun ht => completes_of_upd rfl (opKeepalive_early ht), fun ht hl hf => ?_,
    fun hf hq ha => completes_of_upd rfl (opOwnerSent_over hf hq ha), fun ctag c h64 hs hc hd hcl => ?_,
    fun ctag r h64 hs hr hcm hdt => ?_, fun ctag r e hc hr ha hst he => ?_, fun ctag c hc hst => ?_, fun ctag c e hc ha hst => ?_⟩
  · intro m
    exact completes_of_upd rfl (opCmd_clear h hq hb ht)
  · intro m
    exact completes_of_upd rfl (opStrike_sends h hq hb)
  · have hrow : opRehearseRow im n more s.m = opRehearse im n more s.m := by rw [opRehearseRow, hn]; rfl
    exact completes_of_upd rfl (hrow.trans (opRehearse_empty hq))
  · intro m hs hf hcr hq _ hb hx
    have hrow : opRehearseRow im n more s.m = opRehearse im n more m := rfl
    have hgo : Sendable m n := ⟨hs, hf, hcr⟩
    clear_value m
    refine ⟨fun hn => completes_of_upd rfl (hrow.trans (opRehearse_full hgo hq hb hx hn)),
      fun h c t hn hg hst => completes_of_upd rfl (hrow.trans (opRehearse_stale hgo hq hb hx hn hg hst)), fun h c t hn hg hst => ?_⟩
    intro total m2 m3
    exact completes_of_upd rfl (hrow.trans (opRehearse_sends hgo hq hb hx hn hg hst))
  · intro r d
    obtain ⟨h240, hlen⟩ := dataCut_le (m := s.m) (l := n) (more := more) ctag.toNat c.part r.length
    refine ⟨⟨h240, hlen, dataCut_closing _ _ _, ?_, fun hr => dataCut_pos _ _ _ (List.length_pos_of_ne_nil hr)⟩, fun h0 => ?_⟩
    · rintro rfl
      exact dataCut_more ..
    · intro last m m3
      exact completes_of_upd rfl (opDataTransmit_sends hs hf hcr hc hd hcl hl ho hb hx h0)
  · exact ⟨fun hs he => completes_of_upd rfl (opWithdraw_due hr hs he),
      fun _ he => completes_of_upd rfl (opWithdraw_early hr he),
      fun e hf he => completes_of_upd rfl (opNumberRelease_due hr hf he),
      fun e hf he => completes_of_upd rfl (opNumberRelease_early hr hf he)⟩
  · intro m
    exact completes_of_upd rfl (opCreditSend_plain hf hn)
  · intro len
    have quiet : touchRow im (.ownerMessageSend l) s.m = s.m := touchRow_none rfl s.m
    exact ⟨fun hs h1 h2 => completes_of_rowTaken ht rfl ((congrArg _ quiet).trans (opOwnerSend_sends hl hf hs h1 h2)),
      fun h => completes_of_rowTaken ht rfl ((congrArg _ quiet).trans (opOwnerSend_refused hl hf h))⟩
  · exact ⟨fun ht => completes_of_upd rfl (opResponseTimeout_due hs h64 hc hd hcl ht),
      fun ht => completes_of_upd rfl (opResponseTimeout_early hs h64 hc ht)⟩
  · exact ⟨fun ht => completes_of_upd rfl (opResponseTimeout_rehearsal_due hs h64 hr hcm hdt ht),
      fun ht => completes_of_upd rfl (opResponseTimeout_rehearsal_early hs h64 hr ht)⟩
  · refine completes_of_upd rfl ((opAbortUnanswered_rehearsal hc hr).trans (if_pos ?_))
    rw [ha, abortLate_due he, hst]
    rfl
  · refine completes_of_upd rfl ((opAbortUnanswered_cmd hc).trans (if_neg ?_))
    simp [hst]
  · refine ⟨fun he => completes_of_upd rfl ((opAbortUnanswered_cmd hc).trans (if_pos ?_)),
      fun he => completes_of_upd rfl ((opAbortUnanswered_cmd hc).trans (if_neg ?_))⟩
    · rw [ha, abortLate_due he, hst]
      rfl
    · rw [ha, abortLate_early he]
      exact Bool.false_ne_true

end Machine

end Sys2Proof

end

section
/-! PROOFS. What a link does with what it receives: flits, tags, the handshake, owner messages (09, R226, R227, R239, R241,
R250). -/

namespace Sys2Proof

/-! ### Flits (R226, R227, R241) -/

section Flits

variable {im : Image} {l : Nat} {m : M} {f : RxFlit}

theorem opFlitReceive_idle (ha : m.linkState l ≠ lsActive) (hh : m.linkState l ≠ lsHand) : opFlitReceive im l f m = m :=
  if_pos ⟨ha, hh⟩

/-- A flit for a link that carries flits, without symbol corrections. -/
theorem opFlitReceive_eq (hs : m.linkState l = lsActive ∨ m.linkState l = lsHand) (hc : f.corr = []) :
    opFlitReceive im l f m = if (!f.fecOk) = true then rxBadFlit l (m.bump .LNK_CNT_A_UNCORR l)
      else if (!flitCrcOk f.raw) = true then rxBadFlit l (m.bump .LNK_CNT_A_CRC_ERR l)
      else
        let m := m.setLink l { m.link l with lastRx := m.now }
        if leAt f.raw 2 2 = (m.link l).rxSeq then rxAccept im l f m
        else if (m.link l).rxBad = true ∨ 32768 ≤ (leAt f.raw 2 2 + 65536 - (m.link l).rxSeq) % 65536 then m else rxBadFlit l m := by
  rw [opFlitReceive, if_neg (by tauto)]
  simp only [hc, List.filter_nil, List.foldl_nil]

/-- A link that has taken the flit with the next SEQ (R227). -/
def seqTaken (m : M) (l : Nat) : LinkSt := { m.link l with
  rxSeq := ((m.link l).rxSeq + 1) % 65536, rxBad := false, nakDue := false, nakTx := 0, unacked := (m.link l).unacked + 1,
  unackedAt := if (m.link l).unacked = 0 then m.now else (m.link l).unackedAt }

theorem rxAccept_active (h : m.linkState l ≠ lsHand) : rxAccept im l f m =
    let x := leAt f.raw 0 1
    rxEncrypted im l ⟨x % 16, bitsAt x 4 2, f.area, bitAt x 6, leAt f.raw 1 1 != 0⟩ (bitAt x 7) f.tagOk
      (m.setLink l (seqTaken m l)) := if_neg h

/-- A tag that fails: the group's frames have no effect and the link goes down. -/
theorem rxEncrypted_badTag {g : RxFrame} {phase : Bool} (hp : (m.link l).kRx = phase) (hc : g.close = true) :
    rxEncrypted im l g phase false m = tagFailure im l m := by
  have hflip : (phase != (m.link l).kRx) = false := by simp [hp]
  simp only [rxEncrypted, hflip, hc, Bool.false_and, Bool.false_eq_true, if_false, if_true]

theorem rxAccept_badTag (ht : f.tagOk = false) (hp : (m.link l).kRx = bitAt (leAt f.raw 0 1) 7) (hs : m.linkState l = lsActive)
    (hc : bitAt (leAt f.raw 0 1) 6 = true) : rxAccept im l f m = tagFailure im l (m.setLink l (seqTaken m l)) := by
  rw [rxAccept_active (by rw [hs]; decide), ht]
  refine rxEncrypted_badTag ?_ hc
  rw [M.link_setLink]
  exact hp

end Flits

/-! ### The handshake (R239, R241, R282) -/

section Handshake

variable {im : Image} {l : Nat} {v : Verdict} {m : M}

theorem linkVerdict_accepts (h : v = ⟨true, true⟩) : linkVerdict im v m = (true, m) := by rw [h]; rfl

theorem linkVerdict_refuses (h : v = ⟨false, false⟩) : linkVerdict im v m = (false, m) := by rw [h]; rfl

theorem linkVerdict_differs (h : v.a ≠ v.b) : linkVerdict im v m = (false, pathDisagree im 5 m) := if_neg h

section HelloR

variable (hs : m.linkState l = lsHand) (hk : (m.link l).hs = 2)
include hs hk

theorem opHelloR_unverified (h : m.flag .SEC_STS_DS_OK 0 = false) : opHelloR im l v m = authFail im l m := by
  rw [opHelloR, if_neg (by simp [hs, hk]), if_pos (.inr (.inl h))]

variable (hb : helloRSound (m.link l).helloR = true) (hd : m.flag .SEC_STS_DS_OK 0 = true)
  (hc : m.flag .SEC_STS_CERT_MISMATCH 0 = false)
include hb hd hc

/-- The keys and the message that a verified HELLO_R gives (R239). -/
theorem opHelloR_accepts {d : Nat} {h : BitVec 384}
    (hv : pathsOf v (helloROk im (m.link l).hello (m.link l).helloR) = ⟨true, true⟩) (hsh : (m.link l).share = some d)
    (hdv : m.sec.derived = some h) :
    let k := m.link l
    let m2 := m.draw.2
    let keys := sessionKeys d k.hello k.helloR
    let b := authMsg im h keys.lFin k.hello k.helloR m.draw.1
    opHelloR im l v m = sendMgmt l 3 b (m2.setLink l { m2.link l with
      hs := 3, adv := (List.range 4).map (fun i => leAt k.helloR (8 + 2 * i) 2)
      txKeys := keys, rxKeys := keys, share := none, auth := b }) := by
  intro k m2 keys b
  rw [opHelloR, if_neg (by simp [hs, hk]), if_neg (by simp [hb, hd, hc]), linkVerdict_accepts hv]
  simp only [hsh, hdv]
  rfl

theorem opHelloR_fails {m2 : M}
    (hv : linkVerdict im (pathsOf v (helloROk im (m.link l).hello (m.link l).helloR)) m = (false, m2)) :
    opHelloR im l v m = authFail im l m2 := by
  rw [opHelloR, if_neg (by simp [hs, hk]), if_neg (by simp [hb, hd, hc]), hv]

end HelloR

section Finish

/-- A link when its session begins (R236, R239). -/
def sessionLink (im : Image) (m : M) (k : LinkSt) : LinkSt := { k with
  hs := 0, hello := [], helloR := [], auth := [], fin := [], sessStart := m.now, cr := k.adv, crMax := k.adv, rxCr := [0, 0, 128, 32],
  ret := [0, 0, 0, 0], group := [], txOpen := [], rxGroups := 0, kTx := false, kRx := false, kOld := false,
  caps := [], mgmtq := [], keyLimit := 2 ^ im.rekeyLog2 - 1, lastRx := m.now }

/-- The loom with the link's session, before the link enters ACTIVE. -/
def sessionStarts (im : Image) (l : Nat) (m : M) : M :=
  ((m.setLink l (sessionLink im m (m.link l))).setFld .LNK_STS_TX_GROUPS l 0).setFld .LNK_STS_WIDTH l
    ((m.setLink l (sessionLink im m (m.link l))).link l).cutWidth

variable (hs : m.linkState l = lsHand) (hk : (m.link l).hs = 4) (hn : (m.link l).fin.length = 48)
include hs hk hn

theorem opFinish_accepts
    (hv : pathsOf v ((m.link l).fin == finishMac (m.link l).txKeys.dFin (m.link l).hello (m.link l).helloR (m.link l).auth) =
      ⟨true, true⟩) : opFinish im l v m = enterState l lsActive 0 (sessionStarts im l m) := by
  rw [opFinish, if_neg (by simp [hs, hk]), if_neg (by simp [hn]), linkVerdict_accepts hv]
  rfl

theorem opFinish_fails {m2 : M}
    (hv : linkVerdict im (pathsOf v ((m.link l).fin == finishMac (m.link l).txKeys.dFin (m.link l).hello (m.link l).helloR
      (m.link l).auth)) m = (false, m2)) : opFinish im l v m = authFail im l m2 := by
  rw [opFinish, if_neg (by simp [hs, hk]), if_neg (by simp [hn]), hv]
  rfl

end Finish

theorem enterState_link (st c : Nat) : (enterState l st c m).link l = { m.link l with since := m.now } := by
  obtain ⟨f, y, e, h⟩ := evtPush_frame (l := l) 1 st (if st = lsWait then c else 0)
    ((m.setFld .LNK_STS_STATE l st).setLink l { m.link l with since := m.now })
  exact (congrArg (fun m => M.link m l) h).trans (M.link_setLink (m.setFld .LNK_STS_STATE l st) l _)

theorem enterState_link_other {j : Nat} (st c : Nat) (hj : j ≠ l) : (enterState l st c m).link j = m.link j := by
  obtain ⟨f, y, e, h⟩ := evtPush_frame (l := l) 1 st (if st = lsWait then c else 0)
    ((m.setFld .LNK_STS_STATE l st).setLink l { m.link l with since := m.now })
  exact (congrArg (fun m => M.link m j) h).trans (M.link_setLink_ne (m.setFld .LNK_STS_STATE l st) _ hj)

theorem enterState_kept (st c : Nat) :
    (enterState l st c m).react = m.react ∧ (enterState l st c m).scripts = m.scripts := by
  obtain ⟨f, y, e, h⟩ := evtPush_frame (l := l) 1 st (if st = lsWait then c else 0)
    ((m.setFld .LNK_STS_STATE l st).setLink l { m.link l with since := m.now })
  exact ⟨(congrArg M.react h).trans rfl, (congrArg M.scripts h).trans rfl⟩

theorem enterState_state (st c : Nat) (h : st < 2 ^ (fldSpec .LNK_STS_STATE).w) : (enterState l st c m).linkState l = st := by
  refine (evtPush_fld _ _ _ _ _ (by decide) (by decide)).trans ?_
  exact (M.fld_setFld_same m .LNK_STS_STATE l st).trans (Nat.mod_eq_of_lt h)

end Handshake

/-! ### Owner messages (R250) -/

theorem opRxAck_empty {im : Image} {l : Nat} {m : M} (hl : isLink im l = true) :
    let m2 := irqSync im 8 (0x980 + l) (m.setFlag .LNK_OWN_RX_RX_FULL l false)
    (m2.link l).ownHeld = [] → opRxAck im l m = m2.setLink l
      { m2.link l with ret := (m2.link l).ret.set 3 ((m2.link l).ret.getD 3 0 + (m2.link l).rxOwed), rxOwed := 0 } := by
  intro m2 h
  rw [opRxAck, if_neg (by simp [hl])]
  simp only [show irqSync im 8 (0x980 + l) (m.setFlag .LNK_OWN_RX_RX_FULL l false) = m2 from rfl, h]

namespace Machine

/-- Settles O46: flits by `opFlitReceive_eq`, a bad tag by `rxAccept_badTag`, the handshake by what its messages do on each
verdict of their two paths. -/
theorem linksReceive : Obligations.LinksReceive := by
  unfold Obligations.LinksReceive
  intro s l im n k bad
  refine ⟨fun f ha hh => completes_of_upd rfl (opFlitReceive_idle ha hh), fun f hs hc => ?_, fun f m ht hp hs hc => ?_,
    fun v hs hk hb hd hcm => ?_, fun v hs hk hd => completes_of_upd rfl (opHelloR_unverified hs hk hd), fun v hs hk hn => ?_,
    fun ht hl => ?_⟩
  · have heq : opFlitReceive im n f s.m = _ := opFlitReceive_eq hs hc
    refine ⟨fun hf => completes_of_upd rfl (heq.trans (if_pos (by rw [hf]; rfl))), fun hf hr => completes_of_upd rfl (heq.trans ?_),
      fun hf hr => ?_⟩
    · exact (if_neg (by rw [hf]; decide)).trans (if_pos (by rw [hr]; rfl))
    · intro m
      have hm : m.link n = { k with lastRx := s.m.now } := M.link_setLink ..
      have hgood : opFlitReceive im n f s.m = if leAt f.raw 2 2 = (m.link n).rxSeq then rxAccept im n f m
          else if (m.link n).rxBad = true ∨ 32768 ≤ (leAt f.raw 2 2 + 65536 - (m.link n).rxSeq) % 65536 then m else rxBadFlit n m :=
        heq.trans ((if_neg (by rw [hf]; decide)).trans (if_neg (by rw [hr]; decide)))
      rw [hm] at hgood
      refine ⟨fun h => completes_of_upd rfl (hgood.trans (if_pos h)), fun h hb hlt => completes_of_upd rfl (hgood.trans ?_),
        fun h hge => completes_of_upd rfl (hgood.trans ((if_neg h).trans (if_pos (.inr hge))))⟩
      refine (if_neg h).trans (if_neg ?_)
      rintro (h | h)
      · exact Bool.false_ne_true (hb.symm.trans h)
      · exact absurd hlt (by simpa using h)
  · refine ⟨_, rxAccept_badTag ht hp hs hc, ?_⟩
    rw [M.link_setLink]
    rfl
  · intro o
    refine ⟨fun d h ho hsh hdv => ?_, fun ho => ?_, fun ho => ?_⟩
    · intro m keys b
      exact completes_of_upd rfl (opHelloR_accepts hs hk hb hd hcm ho hsh hdv)
    · exact completes_of_upd rfl (opHelloR_fails hs hk hb hd hcm (linkVerdict_refuses ho))
    · exact completes_of_upd rfl (opHelloR_fails hs hk hb hd hcm (linkVerdict_differs ho))
  · intro o
    refine ⟨fun ho hreact => ?_, fun ho => completes_of_upd rfl (opFinish_fails hs hk hn (linkVerdict_refuses ho)),
      fun ho => completes_of_upd rfl (opFinish_fails hs hk hn (linkVerdict_differs ho))⟩
    have heq : opFinish im n v s.m = enterState n lsActive 0 (sessionStarts im n s.m) := opFinish_accepts hs hk hn ho
    have hlink : (enterState n lsActive 0 (sessionStarts im n s.m)).link n = { sessionLink im s.m k with since := s.m.now } := by
      rw [enterState_link]
      exact congrArg (fun k => { k with since := s.m.now }) (M.link_setLink s.m n (sessionLink im s.m k))
    have hkept := enterState_kept (l := n) (m := sessionStarts im n s.m) lsActive 0
    have hcalm : (opFinish im n v s.m).react = [] := by
      rw [heq, hkept.1]
      exact hreact
    refine ⟨_, rfl, ?_⟩
    rw [State.upd_calm s _ hcalm]
    dsimp only
    rw [heq, hlink]
    refine ⟨enterState_state _ _ (by decide), rfl, rfl, rfl, ?_, rfl, rfl, rfl, rfl, rfl, fun j hj => ?_, hkept.2⟩
    · rw [enterState_fld _ _ _ _ (by decide) (by decide) (by decide), sessionStarts, M.fld_setFld_other _ _ (by decide)]
      exact M.fld_setFld_same ..
    · rw [enterState_link_other _ _ hj]
      exact M.link_setLink_ne s.m _ hj
  · intro m hheld
    have quiet : touchRow im (.rxAck l) s.m = s.m := touchRow_none rfl s.m
    exact completes_of_rowTaken ht rfl ((congrArg _ quiet).trans (opRxAck_empty hl hheld))

end Machine

end Sys2Proof

end

section
/-! PROOFS. A port event before READY keeps a mailbox FIFO of no direction (10, 14). -/

namespace Sys2Proof

namespace Machine

/-- An image of one partition, partition 0 on host port 0. -/
def onePartition : Image := { Image.empty with parts := [⟨0, 0, 16, 5, 8, 8, 0, 2, 0, 0, 0, []⟩] }

/-- A running loom, partition 0 not ready, with an item in a FIFO whose number is neither of the two directions of R344. -/
def strayFifoState : State :=
  { State.reset with img := onePartition, m := { M.reset.setMbx 0 2 ⟨[[7]], none⟩ with boot := { M.reset.boot with phase := .run } } }

theorem strayFifo_enabled : strayFifoState.inForce.enabled 0 = true ∧ isReady strayFifoState.m 0 = false ∧
    strayFifoState.m.flag .HPT_STS_DRAINING (pinst 0 0) = false := by decide +kernel

/-- The end of a partition reset removes FIFO 0 and FIFO 1 alone. -/
theorem strayFifo_stays : (partReset strayFifoState.inForce 0 2 strayFifoState.m).mbxOf 0 2 = ⟨[[7]], none⟩ := by decide +kernel

/-- Refutes O49: the statement has every FIFO number of the partition empty after a port event before READY, and the state of the
model may hold an item under a number that is no direction (R344), which the reset keeps. -/
theorem not_partitionResets : ¬ Obligations.PartitionResets := by
  unfold Obligations.PartitionResets
  intro h
  obtain ⟨-, -, -, -, -, -, hevent, -⟩ := h strayFifoState 0
  obtain ⟨hen, hready, hdrain⟩ := strayFifo_enabled
  obtain ⟨-, -, -, -, -, -, -, hempty, -⟩ := hevent 2 (by decide) hen hready hdrain
  have hstay : (partReset strayFifoState.inForce 0 2 strayFifoState.m).mbxOf 0 2 = Mbx.empty := hempty 2
  rw [strayFifo_stays] at hstay
  exact absurd hstay (by decide)

end Machine

end Sys2Proof

end

section
/-! PROOFS. Owner commands: their submission, the checks of a signed one, and what each does (11, R282, R293 to R299). -/

namespace Sys2Proof

/-! ### One decision on two paths (R282) -/

section Checks

variable {im : Image} {s : Nat} {b : List Byte} {x : CmdPaths} {m : M}

theorem decide2_yes {v : Verdict} {bad go : M → Option Nat × M} (h : v = ⟨true, true⟩) : decide2 im s v bad go m = go m := by
  rw [h]
  rfl

theorem decide2_no {v : Verdict} {bad go : M → Option Nat × M} (h : v = ⟨false, false⟩) : decide2 im s v bad go m = bad m := by
  rw [h]
  rfl

theorem decide2_differ {v : Verdict} {bad go : M → Option Nat × M} (h : v.a ≠ v.b) :
    decide2 im s v bad go m = (some 7, rejectCmd im s 7 (pathDisagree im 3 m)) := if_pos h

/-! ### The checks of a signed command (R296) -/

theorem secVerify_die_no (hd : pathsOf x.die (dieOk b) = ⟨false, false⟩) : secVerify im s b x [] m = (some 4, m) := by
  simp only [secVerify, decide2_no hd, orWrongDie]

theorem secVerify_die_differ (hd : (pathsOf x.die (dieOk b)).a ≠ (pathsOf x.die (dieOk b)).b) :
    secVerify im s b x [] m = (some 7, rejectCmd im s 7 (pathDisagree im 3 m)) := by
  simp only [secVerify, decide2_differ hd]

section Nonce

variable (hd : pathsOf x.die (dieOk b) = ⟨true, true⟩)
include hd

theorem secVerify_nonce_no (hn : pathsOf x.nonce (nonceOk m s b) = ⟨false, false⟩) : secVerify im s b x [] m = (some 5, m) := by
  simp only [secVerify, decide2_yes hd, decide2_no hn, orBadNonce]

theorem secVerify_nonce_differ (hn : (pathsOf x.nonce (nonceOk m s b)).a ≠ (pathsOf x.nonce (nonceOk m s b)).b) :
    secVerify im s b x [] m = (some 7, rejectCmd im s 7 (pathDisagree im 3 m)) := by
  simp only [secVerify, decide2_yes hd, decide2_differ hn]

variable (hn : pathsOf x.nonce (nonceOk m s b) = ⟨true, true⟩)
include hn

theorem secVerify_unread (hr : (voteReads im (hashWords []) m).1 = false) :
    secVerify im s b x [] m = (some 7, rejectCmd im s 7 (voteReads im (hashWords []) m).2) := by
  simp only [secVerify, decide2_yes hd, decide2_yes hn, hr, if_true, pathReject, orPath]

/-- The checks of the key and the signature, once OWNER_HASH is read. -/
theorem secVerify_read {r : M} (hr : voteReads im (hashWords []) m = (true, r)) :
    secVerify im s b x [] m = decide2 im s (pathsOf x.key (ownerKeyOk r))
    (fun m => (some 6, rejectCmd im s 6 m))
    (fun m => decide2 im s (pathsOf x.sig (cmdSigOk m b)) (fun m => (some 6, rejectCmd im s 6 m)) (fun m => (none, m)) m) r := by
  simp only [secVerify, decide2_yes hd, decide2_yes hn, hr, Bool.true_eq_false, if_false, orBadSig]

variable {r : M} (hr : voteReads im (hashWords []) m = (true, r))
include hr

theorem secVerify_key_no (hk : pathsOf x.key (ownerKeyOk r) = ⟨false, false⟩) :
    secVerify im s b x [] m = (some 6, rejectCmd im s 6 r) := by rw [secVerify_read hd hn hr, decide2_no hk]

theorem secVerify_key_differ (hk : (pathsOf x.key (ownerKeyOk r)).a ≠ (pathsOf x.key (ownerKeyOk r)).b) :
    secVerify im s b x [] m = (some 7, rejectCmd im s 7 (pathDisagree im 3 r)) := by
  rw [secVerify_read hd hn hr, decide2_differ hk]

variable (hk : pathsOf x.key (ownerKeyOk r) = ⟨true, true⟩)
include hk

theorem secVerify_sig_no (hs : pathsOf x.sig (cmdSigOk r b) = ⟨false, false⟩) :
    secVerify im s b x [] m = (some 6, rejectCmd im s 6 r) := by
  rw [secVerify_read hd hn hr, decide2_yes hk, decide2_no hs]

theorem secVerify_sig_differ (hs : (pathsOf x.sig (cmdSigOk r b)).a ≠ (pathsOf x.sig (cmdSigOk r b)).b) :
    secVerify im s b x [] m = (some 7, rejectCmd im s 7 (pathDisagree im 3 r)) := by
  rw [secVerify_read hd hn hr, decide2_yes hk, decide2_differ hs]

theorem secVerify_passes (hs : pathsOf x.sig (cmdSigOk r b) = ⟨true, true⟩) : secVerify im s b x [] m = (none, r) := by
  rw [secVerify_read hd hn hr, decide2_yes hk, decide2_yes hs]

end Nonce

/-! ### The command in progress (R296, R297, R298) -/

theorem unlessIn_out {n : Nat} {run : M → M} (h : m.inReset n 0 = false) : unlessIn n run m = run m := if_neg (by simp [h])

theorem cmdOfType_front {t : Nat} {rest : List (Nat × List Byte)} (hc : m.sec.cmds = (s, b) :: rest) (hf : m.sec.fw = none)
    (ht : ctypeOf b = t) : cmdOfType m t = some (s, b) := by
  rw [cmdOfType, hc]
  exact if_pos ⟨ht, hf⟩

section Signed

variable {t : Nat} (hc : cmdOfType m t = some (s, b))
include hc

theorem signedCmd_fails {cond : M → List Byte → Bool} {run : Nat → List Byte → M → M} {r : Nat} {m2 : M}
    (hv : secVerify im s b x [] m = (some r, m2)) : signedCmd im t x [] cond run m = endCmd im r [] m2 := by
  simp only [signedCmd, hc, hv]

theorem signedCmd_runs {cond : M → List Byte → Bool} {run : Nat → List Byte → M → M} {m2 : M}
    (hv : secVerify im s b x [] m = (none, m2)) (hcond : cond m2 b = true) :
    signedCmd im t x [] cond run m = run s b (countAccepted m2) := by
  simp only [signedCmd, hc, hv, hcond, if_true]

theorem signedCmd_refused {cond : M → List Byte → Bool} {run : Nat → List Byte → M → M} {m2 : M}
    (hv : secVerify im s b x [] m = (none, m2)) (hcond : cond m2 b = false) :
    signedCmd im t x [] cond run m = endCmd im 8 [] m2 := by
  simp only [signedCmd, hc, hv, hcond]
  rfl

end Signed

section Fuses

variable {u : Fuses}

theorem opAdvanceSvn_fails {r : Nat} {m2 : M} (hc : cmdOfType m 0x103 = some (s, b))
    (hv : secVerify im s b x [] m = (some r, m2)) : opAdvanceSvn im x [] [] u m = (u, endCmd im r [] m2) := by
  simp only [opAdvanceSvn, hc, hv]

theorem opAdvanceSvn_refused {m2 : M} (hc : cmdOfType m 0x103 = some (s, b)) (hv : secVerify im s b x [] m = (none, m2))
    (hlt : im.svn < leAt b 0x40 1) : opAdvanceSvn im x [] [] u m = (u, endCmd im 8 [] m2) := by
  simp only [opAdvanceSvn, hc, hv]
  exact if_pos (.inr hlt)

theorem opAdvanceSvn_advances {m2 : M} (hc : cmdOfType m 0x103 = some (s, b)) (hv : secVerify im s b x [] m = (none, m2))
    (h64 : leAt b 0x40 1 ≤ 64) (hle : leAt b 0x40 1 ≤ im.svn) :
    let w := advanceTo (leAt b 0x40 1) [] (List.range 64) u
    opAdvanceSvn im x [] [] u m = (w.1, endCmd im (if w.2 then 1 else 9) [] (senseAfterBlow w.1 (countAccepted m2))) := by
  intro w
  simp only [opAdvanceSvn, hc, hv]
  exact if_neg (by omega)

theorem opDisableDebug_fails {r : Nat} {m2 : M} (hc : cmdOfType m 0x104 = some (s, b))
    (hv : secVerify im s b x [] m = (some r, m2)) : opDisableDebug im x [] [] u m = (u, endCmd im r [] m2) := by
  simp only [opDisableDebug, hc, hv]

theorem opDisableDebug_blows {m2 : M} (hc : cmdOfType m 0x104 = some (s, b)) (hv : secVerify im s b x [] m = (none, m2)) :
    let w := blowBit .dbg 0 [] u
    opDisableDebug im x [] [] u m =
      (w, endCmd im (if allBlown w .dbg 0 then 1 else 9) [] (endDebug (senseAfterBlow w (countAccepted m2)))) := by
  intro w
  simp only [opDisableDebug, hc, hv]
  rfl

end Fuses

theorem opChipResetCmd_delays {m2 : M} (hc : cmdOfType m 0x102 = some (s, b)) (hv : secVerify im s b x [] m = (none, m2)) :
    opChipResetCmd im x [] m = endCmd im 1 []
      { countAccepted m2 with sec := { (countAccepted m2).sec with chipResetAt := some (m2.now + 2000000) } } :=
  (signedCmd_runs hc hv rfl).trans rfl

/-- What a verified RESET_PARTITION does. -/
def resetPartitionRun (im : Image) (p erase : Nat) (m : M) : M :=
  partReset im p 5 (if erase = 1 ∧ m.sec.erase.contains p = false then
    { m with sec := { m.sec with erase := m.sec.erase ++ [p] } } else m)

theorem opResetPartition_resets {m2 : M} (hc : cmdOfType m 0x101 = some (s, b)) (hv : secVerify im s b x [] m = (none, m2))
    (h8 : leAt b 0x40 1 < 8) (hen : im.enabled (leAt b 0x40 1) = true) (hle : leAt b 0x41 1 ≤ 1) :
    opResetPartition im x [] m = resetPartitionRun im (leAt b 0x40 1) (leAt b 0x41 1) (endCmd im 1 [] (countAccepted m2)) :=
  signedCmd_runs (run := fun _ b m => resetPartitionRun im (leAt b 0x40 1) (leAt b 0x41 1) (endCmd im orOk [] m)) hc hv
    (by simp [h8, hen, hle])

theorem resetPartitionRun_keeps (p : Nat) : resetPartitionRun im p 0 m = partReset im p 5 m :=
  congrArg (partReset im p 5) (if_neg (by simp))

theorem resetPartitionRun_erases {p : Nat} (h : m.sec.erase.contains p = false) : resetPartitionRun im p 1 m =
    partReset im p 5 { m with sec := { m.sec with erase := m.sec.erase ++ [p] } } :=
  congrArg (partReset im p 5) (if_pos ⟨rfl, h⟩)

theorem opResetPartition_refused {m2 : M} (hc : cmdOfType m 0x101 = some (s, b)) (hv : secVerify im s b x [] m = (none, m2))
    (h : 2 ≤ leAt b 0x41 1) : opResetPartition im x [] m = endCmd im 8 [] m2 :=
  signedCmd_refused hc hv (by simp; omega)

theorem opFirmware_refused {m2 : M} (hc : cmdOfType m 0x105 = some (s, b)) (hv : secVerify im s b x [] m = (none, m2))
    (ha : m2.flag .SEC_FWCMD_ARMED 0 = false) : opFirmware im x [] m = endCmd im 8 [] m2 := signedCmd_refused hc hv ha

theorem opFirmware_hands {m2 : M} (hc : cmdOfType m 0x105 = some (s, b)) (hv : secVerify im s b x [] m = (none, m2))
    (ha : m2.flag .SEC_FWCMD_ARMED 0 = true) :
    let m3 := ownWrite im (m2.fld .SEC_FWCMD_DEST 0) b (countAccepted m2)
    let m4 := ((m3.setFlag .SEC_FWCMD_PENDING 0 true).setFld .SEC_FWCMD_SRC 0 s).setFlag .SEC_FWCMD_ARMED 0 false
    opFirmware im x [] m = irqSync im 8 0x802 { m4 with sec := { m4.sec with fw := some (s, m4.now), lastFw := none } } := by
  intro m3 m4
  exact (signedCmd_runs hc hv ha).trans rfl

end Checks

/-! ### Submission (R293, R294) -/

section Submit

variable {im : Image} {p v : Nat} {m : M}

section Port

variable {i : Fin 8} (hq : (im.partOfPort i.val).isNone = false)
include hq

theorem opSubmit_port_plain (hv : v.testBit 0 = false) : opSubmit im (.port i) v m = m := by
  have h8 : i.val ≠ 8 := by omega
  rw [opSubmit, if_neg (by simp [srcNum, hq])]
  simp only [srcNum, h8, if_false, bitAt, hv, if_true]

theorem opSubmit_port_lost (hv : v.testBit 0 = true) (hb : m.fld .OCMD_STS_BUSY i.val ≠ 0) :
    opSubmit im (.port i) v m = m.setFld .OCMD_STS_SUBMIT_LOST i.val 1 := by
  have h8 : i.val ≠ 8 := by omega
  rw [opSubmit, if_neg (by simp [srcNum, hq])]
  simp only [srcNum, h8, if_false, bitAt, hv, Bool.true_eq_false, stsOf, setSts]
  exact if_pos hb

theorem opSubmit_port_takes (hv : v.testBit 0 = true) (hb : m.fld .OCMD_STS_BUSY i.val = 0) :
    let m2 := m.setFld .OCMD_STS_BUSY i.val 1
    opSubmit im (.port i) v m = secPump im (m2.sec.cmds.length + 1) { m2 with sec := { m2.sec with
      cmds := m2.sec.cmds ++ [(i.val, memRead (mapGet [] m2.sec.mbuf (i.val, 0)) 0 (v / 2 ^ 32 % 2 ^ 15))] } } := by
  have h8 : i.val ≠ 8 := by omega
  rw [opSubmit, if_neg (by simp [srcNum, hq])]
  simp only [srcNum, h8, if_false, bitAt, hv, Bool.true_eq_false, stsOf, setSts, bitsAt_eq]
  exact if_neg (by simp [hb])

end Port

/-- The register of the wings' submissions after a write. -/
def wingsCmd (v : Nat) (m : M) : M :=
  (m.setFld .SEC_WCMD_OFF 0 (v / 2 ^ 6 % 2 ^ 19)).setFld .SEC_WCMD_LEN 0 (v / 2 ^ 32 % 2 ^ 15)

theorem opSubmit_wings_plain (hv : v.testBit 0 = false) : opSubmit im .wings v m = wingsCmd v m := by
  rw [opSubmit, if_neg (by simp [srcNum])]
  simp only [srcNum, if_true, bitAt, hv, bitsAt_eq, wingsCmd]

theorem opSubmit_wings_lost (hv : v.testBit 0 = true) (hb : (wingsCmd v m).fld .SEC_WSTS_BUSY 0 ≠ 0) :
    opSubmit im .wings v m = (wingsCmd v m).setFld .SEC_WSTS_SUBMIT_LOST 0 1 := by
  rw [opSubmit, if_neg (by simp [srcNum])]
  simp only [srcNum, if_true, bitAt, hv, Bool.true_eq_false, if_false, stsOf, setSts, bitsAt_eq]
  exact if_pos hb

theorem opSubmit_wings_takes (hv : v.testBit 0 = true) (hb : (wingsCmd v m).fld .SEC_WSTS_BUSY 0 = 0) :
    let m2 := (wingsCmd v m).setFld .SEC_WSTS_BUSY 0 1
    opSubmit im .wings v m = secPump im (m2.sec.cmds.length + 1) { m2 with sec := { m2.sec with
      cmds := m2.sec.cmds ++ [(8, ownRead im (wingsCmd v m) (64 * (v / 2 ^ 6 % 2 ^ 19)) (v / 2 ^ 32 % 2 ^ 15))] } } := by
  have hb' : ¬ (wingsCmd v m).fld .SEC_WSTS_BUSY 0 ≠ 0 := by simp [hb]
  rw [opSubmit, if_neg (by simp [srcNum])]
  simp only [srcNum, if_true, bitAt, hv, Bool.true_eq_false, if_false, stsOf, setSts, bitsAt_eq]
  exact if_neg hb'

end Submit

/-! ### Firmware commands (R298) -/

section Firmware

variable {im : Image} {m : M} {src t : Nat}

theorem opFinishFw_ends {v : Nat} (hf : m.sec.fw = some (src, t)) (h27 : v.testBit 27 = true) (h28 : v.testBit 28 = false)
    (hs : src < 8) :
    let m2 := (m.setFld .SEC_FWCMD_DEST 0 (v % 2 ^ 25)).setFlag .SEC_FWCMD_ARMED 0 (v.testBit 25)
    opFinishFw im v m = endCmd im 1 (ownRead im m2 (v % 2 ^ 25) (min (v / 2 ^ 36 % 2 ^ 12) 3840))
      ((fwClear im m2).setFld .OCMD_STS_FW_CODE src (v / 2 ^ 48 % 2 ^ 8)) := by
  intro m2
  have hm2 : (m.setFld .SEC_FWCMD_DEST 0 (v % 2 ^ 25)).setFlag .SEC_FWCMD_ARMED 0 (v.testBit 25) = m2 := rfl
  have hf2 : m2.sec.fw = some (src, t) := hf
  have h8 : src ≠ 8 := by omega
  rw [opFinishFw, if_neg (by simp [bitAt, h27])]
  simp only [bitAt, h28, Bool.false_eq_true, if_false, bitsAt_eq, pow_zero, Nat.div_one, hm2, hf2, setSts, h8, orOk]

theorem opFwTimeout_due (hf : m.sec.fw = some (src, t)) (ht : t + 2000000000 ≤ m.now) : opFwTimeout im m =
    endCmd im 10 [] (fwClear im { m with sec := { m.sec with lastFw := some src } }) := by
  simp only [opFwTimeout, hf]
  exact if_neg (by omega)

theorem opFwTimeout_early (hf : m.sec.fw = some (src, t)) (ht : m.now < t + 2000000000) : opFwTimeout im m = m := by
  simp only [opFwTimeout, hf]
  exact if_pos ht

end Firmware

/-! ### Attestation and keys (R297, R299) -/

section Attestation

variable {im : Image} {m : M} {s : Nat} {b : List Byte}

section Keys

variable (hc : cmdOfType m 2 = some (s, b))
include hc

theorem opGetKeys_differ : opGetKeys im false m = endCmd im 7 [] (rejectCmd im s 7 (pathDisagree im 3 m)) := by
  simp only [opGetKeys, hc]
  rfl

variable {h : BitVec 384} (hh : m.sec.derived = some h)
include hh

theorem opGetKeys_gives (hd : m.flag .SEC_STS_DS_OK 0 = true) (hs : leAt b 0x40 1 ≤ 1) :
    opGetKeys im true m = endCmd im 1 (if leAt b 0x40 1 = 0 then attestKey h else linkKey h) m := by
  simp only [opGetKeys, hc, hd, hh, hs, decide_true, Bool.and_true, Bool.true_eq_false, if_false, orOk]

theorem opGetKeys_refused (hs : 2 ≤ leAt b 0x40 1) : opGetKeys im true m = endCmd im 8 [] m := by
  have hn : ¬ leAt b 0x40 1 ≤ 1 := by omega
  simp only [opGetKeys, hc, hh, hn, decide_false, Bool.and_false, Bool.true_eq_false, if_false, orRefused]

end Keys

variable (hc : cmdOfType m 1 = some (s, b))
include hc

theorem opAttest_differ (votes : List Vote) :
    opAttest im false votes m = endCmd im 7 [] (rejectCmd im s 7 (pathDisagree im 3 m)) := by
  simp only [opAttest, hc]
  rfl

theorem opAttest_refused (hd : m.flag .SEC_STS_DS_OK 0 = false) : opAttest im true [] m = endCmd im 8 [] m := by
  simp only [opAttest, hc, hd, Bool.true_eq_false, if_false, if_true, orRefused]

theorem opAttest_reports {h : BitVec 384} {w : M} (hd : m.flag .SEC_STS_DS_OK 0 = true)
    (hw : voteReads im ((List.range 6).map (fun i => (VWord.rootHash (Fin.ofNat 6 i), Vote.agree)) ++ hashWords []) m = (true, w))
    (hh : w.sec.derived = some h) :
    let r := attestReport im m s h (bytesAt b 0x40 32)
    opAttest im true [] m = endCmd im 1 (r ++ attestSign h r w.draw.1) w.draw.2 := by
  intro r
  simp only [opAttest, hc, hd, Bool.true_eq_false, if_false, List.getD_nil, List.drop_nil, hw, hh, orOk]
  rfl

end Attestation

/-! ### The end of a debug token (R297) -/

/-- The instructions that need a token's scope are left for bypass. -/
theorem endDebug_ir (m : M) : (endDebug m).mgt.ir =
    if [0x02, 0x03, 0x30, 0x40, 0x41].contains m.mgt.ir then 0xFF else m.mgt.ir := rfl

theorem endDebug_over (m : M) : (endDebug m).flag .SEC_STS_DEBUG_ACTIVE 0 = false ∧
    (endDebug m).fld .SEC_STS_DEBUG_SCOPE 0 = 0 ∧ (endDebug m).mgt.wdbg = 0 := by
  refine ⟨?_, M.fld_setFld_same .., rfl⟩
  refine (congrArg (· != 0) (M.fld_setFld_other _ _ (by decide))).trans ?_
  exact M.flag_setFlag_same m .SEC_STS_DEBUG_ACTIVE 0 false (by decide)

theorem eq_pair_of_fst {α β : Type} {r : α × β} {a : α} (h : r.1 = a) : r = (a, r.2) := by rw [← h]

namespace Machine

theorem completes_of_updFuses {s : State} {c : Instr} {f : Image → M → Fuses × M} {u : Fuses} {m : M}
    (hc : exec c s = .next (s.updFuses f)) (hm : f s.inForce s.m = (u, m)) :
    exec c s = .next { s with fuses := u, m := settle s.inForce reactRounds m } := by
  rw [hc, State.updFuses, hm]

section Commands

variable {s : Nat} {b : List Byte} {x : CmdPaths}

/-- A command whose checks end with a result, whatever its type. -/
theorem exec_of_checks {st : State} {r : Nat} {m2 : M} {rest : List (Nat × List Byte)} (hb : st.m.inReset 3 0 = false)
    (hc : st.m.sec.cmds = (s, b) :: rest) (hf : st.m.sec.fw = none)
    (hv : secVerify st.inForce s b x [] st.m = (some r, m2)) :
    let m := endCmd st.inForce r [] m2
    (ctypeOf b = 0x101 → Completes (.resetPartition x.toIdPaths x.toKeyPaths []) st m) ∧
    (ctypeOf b = 0x102 → Completes (.chipReset x.toIdPaths x.toKeyPaths []) st m) ∧
    (ctypeOf b = 0x105 → Completes (.firmware x.toIdPaths x.toKeyPaths []) st m) ∧
    (ctypeOf b = 0x103 → Completes (.advanceSvn x.toIdPaths x.toKeyPaths [] []) st m) ∧
    (ctypeOf b = 0x104 → Completes (.disableDebug x.toIdPaths x.toKeyPaths [] []) st m) := by
  intro m
  have front {t : Nat} (ht : ctypeOf b = t) : cmdOfType st.m t = some (s, b) := cmdOfType_front hc hf ht
  refine ⟨fun ht => completes_of_upd rfl ((unlessIn_out hb).trans (signedCmd_fails (front ht) hv)),
    fun ht => completes_of_upd rfl ((unlessIn_out hb).trans (signedCmd_fails (front ht) hv)),
    fun ht => completes_of_upd rfl ((unlessIn_out hb).trans (signedCmd_fails (front ht) hv)), fun ht => ?_, fun ht => ?_⟩
  · exact completes_of_updFuses rfl ((if_neg (by simp [hb])).trans (opAdvanceSvn_fails (front ht) hv))
  · exact completes_of_updFuses rfl ((if_neg (by simp [hb])).trans (opDisableDebug_fails (front ht) hv))

end Commands

/-- Settles O50: submissions by `opSubmit_port_takes`, `opSubmit_wings_takes` and their like, the checks by the results of
`secVerify` on each verdict (`exec_of_checks`), and the effects by what each command does once it is verified. -/
theorem ownerCommands : Obligations.OwnerCommands := by
  unfold Obligations.OwnerCommands
  intro s src b rest im yes no good read die nonce key sig verified ends
  have front {t : Nat} (hg : good) (ht : ctypeOf b = t) : cmdOfType s.m t = some (src, b) := by
    obtain ⟨-, hc, hf⟩ := hg
    exact cmdOfType_front hc hf ht
  have done {x : CmdPaths} {r : Nat} {m2 : M} (hg : good) (hv : secVerify im src b x [] s.m = (some r, m2)) :
      ends x (endCmd im r [] m2) := by
    obtain ⟨hb, hc, hf⟩ := hg
    exact exec_of_checks hb hc hf hv
  have hread (h : read.1 = true) : voteReads im (hashWords []) s.m = (true, read.2) := eq_pair_of_fst h
  refine ⟨fun p v q ht hq => ?_, fun v ht => ?_, fun x hg => ⟨fun hd => done hg (secVerify_die_no hd),
      fun hd => done hg (secVerify_die_differ hd), fun hd => ⟨fun hn => done hg (secVerify_nonce_no hd hn),
        fun hn => done hg (secVerify_nonce_differ hd hn), fun hn hr => done hg (secVerify_unread hd hn hr), fun hn hr =>
          ⟨fun hk => done hg (secVerify_key_no hd hn (hread hr) hk), fun hk => done hg (secVerify_key_differ hd hn (hread hr) hk),
            fun hk hs => done hg (secVerify_sig_no hd hn (hread hr) hk hs),
            fun hk hs => done hg (secVerify_sig_differ hd hn (hread hr) hk hs)⟩⟩⟩,
    fun x hver => ?_, fun v at0 ht hf h27 h28 h8 => ?_, fun at0 hf => ⟨fun ht => completes_of_upd rfl (opFwTimeout_due hf ht),
      fun ht => completes_of_upd rfl (opFwTimeout_early hf ht)⟩, fun hg ht hd h hh => ?_, fun hg => ⟨fun ht => ?_, fun ht l => ?_⟩,
    fun hg ht hd => ?_, fun hg ht hd => ?_, fun m => ?_⟩
  · intro m0
    have hbound : (im.partOfPort p.val).isNone = false := by rw [hq]; rfl
    have hrow (m : M) : runRow im (.submit (.port p) v) m = opSubmit im (.port p) v.toNat (noteRsvd (bar4Of q) .OCMD_CTL 0 v.toNat m) := by
      simp only [runRow, noteSubmit, hq]
    refine ⟨fun hv => completes_of_rowTaken ht rfl ((hrow _).trans (opSubmit_port_plain hbound hv)),
      fun hv hb => completes_of_rowTaken ht rfl ((hrow _).trans (opSubmit_port_lost hbound hv hb)), fun hv hb => ?_⟩
    intro m
    exact completes_of_rowTaken ht rfl ((hrow _).trans (opSubmit_port_takes hbound hv hb))
  · intro off len m0
    have hrow : runRow im (.submit .wings v) (touchRow im (.submit .wings v) s.m) =
        opSubmit im .wings v.toNat (noteRsvd .owner .SEC_WCMD 0 v.toNat s.m) := by rw [touchRow_none rfl]; rfl
    refine ⟨fun hv => completes_of_rowTaken ht rfl (hrow.trans (opSubmit_wings_plain hv)),
      fun hv hb => completes_of_rowTaken ht rfl (hrow.trans (opSubmit_wings_lost hv hb)), fun hv hb => ?_⟩
    intro m
    exact completes_of_rowTaken ht rfl (hrow.trans (opSubmit_wings_takes hv hb))
  · obtain ⟨hg, hd, hn, hr, hk, hs⟩ := hver
    have hv : secVerify im src b x [] s.m = (none, read.2) := secVerify_passes hd hn (hread hr) hk hs
    have hb : s.m.inReset 3 0 = false := hg.1
    refine ⟨fun ht => ?_, fun ht h8 hen => ⟨fun h0 => ?_, ?_, fun h2 => ?_⟩, fun ht h64 hle => ?_, fun ht hlt => ?_, fun ht => ?_,
      fun ht ha => ?_, fun ht ha => ?_⟩
    · exact completes_of_upd rfl ((unlessIn_out hb).trans (opChipResetCmd_delays (front hg ht) hv))
    · have hres := opResetPartition_resets (front hg ht) hv h8 hen (by omega)
      rw [h0] at hres
      exact completes_of_upd rfl ((unlessIn_out hb).trans (hres.trans (resetPartitionRun_keeps _)))
    · intro h1 m he
      have hres := opResetPartition_resets (front hg ht) hv h8 hen (by omega)
      have hrun := resetPartitionRun_erases (im := im) he
      rw [h1] at hres
      exact completes_of_upd rfl ((unlessIn_out hb).trans (hres.trans hrun))
    · have hres := opResetPartition_refused (front hg ht) hv h2
      exact completes_of_upd rfl ((unlessIn_out hb).trans hres)
    · intro u
      have hrun := opAdvanceSvn_advances (u := s.fuses) (front hg ht) hv h64 hle
      exact completes_of_updFuses rfl ((if_neg (by simp [hb])).trans hrun)
    · have hrun := opAdvanceSvn_refused (u := s.fuses) (front hg ht) hv hlt
      exact completes_of_updFuses rfl ((if_neg (by simp [hb])).trans hrun)
    · intro u
      have hrun := opDisableDebug_blows (u := s.fuses) (front hg ht) hv
      exact completes_of_updFuses rfl ((if_neg (by simp [hb])).trans hrun)
    · intro m m2
      have hrun := opFirmware_hands (front hg ht) hv ha
      exact completes_of_upd rfl ((unlessIn_out hb).trans hrun)
    · have hrun := opFirmware_refused (front hg ht) hv ha
      exact completes_of_upd rfl ((unlessIn_out hb).trans hrun)
  · intro m
    have hrow : runRow im (.finishFirmwareCommand v) (touchRow im (.finishFirmwareCommand v) s.m) =
        opFinishFw im v.toNat (noteRsvd .owner .SEC_FWCMD 0 v.toNat s.m) := by rw [touchRow_none rfl]; rfl
    have hfw : (noteRsvd .owner .SEC_FWCMD 0 v.toNat s.m).sec.fw = some (src, at0) := by
      rw [noteRsvd_frame]
      exact hf
    exact completes_of_rowTaken ht rfl (hrow.trans (opFinishFw_ends hfw h27 h28 h8))
  · have gives (hs : leAt b 0x40 1 ≤ 1) := opGetKeys_gives (im := im) (front hg ht) hh hd hs
    exact ⟨fun h0 => completes_of_upd rfl ((unlessIn_out hg.1).trans ((gives (by omega)).trans (by rw [if_pos h0]))),
      fun h1 => completes_of_upd rfl ((unlessIn_out hg.1).trans ((gives (by omega)).trans (by rw [if_neg (by omega)]))),
      fun h2 => completes_of_upd rfl ((unlessIn_out hg.1).trans (opGetKeys_refused (front hg ht) hh h2))⟩
  · exact completes_of_upd rfl ((unlessIn_out hg.1).trans (opGetKeys_differ (front hg ht)))
  · exact completes_of_upd rfl ((unlessIn_out hg.1).trans (opAttest_differ (front hg ht) l))
  · intro w h hw hh r
    exact completes_of_upd rfl ((unlessIn_out hg.1).trans (opAttest_reports (front hg ht) hd (eq_pair_of_fst hw) hh))
  · exact completes_of_upd rfl ((unlessIn_out hg.1).trans (opAttest_refused (front hg ht) hd))
  · intro t
    obtain ⟨hoff, hscope, hdbg⟩ := endDebug_over m
    have hir := endDebug_ir m
    refine ⟨hoff, hscope, hdbg, ?_, fun h => ?_⟩
    · rw [show t.mgt.ir = _ from hir]
      split
      · decide
      · next h => simpa using h
    · rw [show t.mgt.ir = _ from hir, if_neg (by simpa using h)]

end Machine

end Sys2Proof

end

section
/-! PROOFS. The state of the boot is left by what latches interrupts, fires faults and finishes owner commands (R38, R44). -/

namespace Sys2Proof

/-- An effect that leaves the state of the boot. -/
def KeepsBoot (g : M → M) : Prop := ∀ m, (g m).boot = m.boot

@[simp] theorem ite_boot (c : Prop) [Decidable c] (a b : M) : (if c then a else b).boot = if c then a.boot else b.boot :=
  apply_ite M.boot c a b

@[simp] theorem foldl_boot {α : Type} {g : M → α → M} (h : ∀ m a, (g m a).boot = m.boot) (l : List α) (m : M) :
    (l.foldl g m).boot = m.boot := by
  induction l generalizing m with
  | nil => rfl
  | cons a l ih => rw [List.foldl_cons, ih, h]

theorem foldl_snd_boot {α β : Type} {g : β × M → α → β × M} (h : ∀ acc a, (g acc a).2.boot = acc.2.boot) (l : List α)
    (acc : β × M) : (l.foldl g acc).2.boot = acc.2.boot := by
  induction l generalizing acc with
  | nil => rfl
  | cons a l ih => rw [List.foldl_cons, ih, h]

theorem foldl_thd_boot {α β γ : Type} {g : β × γ × M → α → β × γ × M} (h : ∀ acc a, (g acc a).2.2.boot = acc.2.2.boot)
    (l : List α) (acc : β × γ × M) : (l.foldl g acc).2.2.boot = acc.2.2.boot := by
  induction l generalizing acc with
  | nil => rfl
  | cons a l ih => rw [List.foldl_cons, ih, h]

/-- Effects in the order of their ranks. -/
theorem foldl_byRank_boot {l : List (Nat × (M → M))} (h : ∀ e ∈ l, KeepsBoot e.2) (m : M) :
    ((byRank l).foldl (fun m g => g m) m).boot = m.boot := by
  have hg : ∀ g ∈ byRank l, KeepsBoot g := by
    intro g hg
    obtain ⟨t, -, hg⟩ := List.mem_flatMap.mp hg
    obtain ⟨e, he, rfl⟩ := List.mem_map.mp hg
    exact h e (List.mem_filter.mp he).1
  generalize byRank l = gs at hg
  induction gs generalizing m with
  | nil => rfl
  | cons g gs ih => exact (ih _ fun g hg' => hg g (List.mem_cons_of_mem _ hg')).trans (hg g List.mem_cons_self m)

@[simp] theorem standStill_boot (b n : Nat) (m : M) : (standStill b n m).boot = m.boot := rfl

@[simp] theorem noteStart_boot (im : Image) (o src : Nat) (ev : Bool) (m : M) : (noteStart im o src ev m).boot = m.boot := rfl

@[simp] theorem setSrcBit_boot (im : Image) (k : BankReg) (o src : Nat) (v : Bool) (m : M) :
    (setSrcBit im k o src v m).boot = m.boot := rfl

@[simp] theorem irqLatch_boot (im : Image) (o src : Nat) (m : M) : (irqLatch im o src m).boot = m.boot := by
  simp [irqLatch]

@[simp] theorem irqEvent_boot (im : Image) (o src : Nat) (m : M) : (irqEvent im o src m).boot = m.boot := by
  simp [irqEvent]

@[simp] theorem irqSync_boot (im : Image) (o src : Nat) (m : M) : (irqSync im o src m).boot = m.boot := by
  simp [irqSync]

@[simp] theorem fwClear_boot (im : Image) (m : M) : (fwClear im m).boot = m.boot := by
  simp [fwClear]

@[simp] theorem setSts_boot (s : Nat) (port wings : Fld) (v : Nat) (m : M) : (setSts s port wings v m).boot = m.boot := by
  simp [setSts]

@[simp] theorem ownWrite_boot (im : Image) (a : Nat) (b : List Byte) (m : M) : (ownWrite im a b m).boot = m.boot := by
  unfold ownWrite
  rfl

@[simp] theorem setNonce_boot (s v : Nat) (m : M) : (setNonce s v m).boot = m.boot := rfl

@[simp] theorem renewNonce_boot (s : Nat) (m : M) : (renewNonce s m).boot = m.boot := by
  simp [renewNonce]

@[simp] theorem syncDone_boot (im : Image) (s : Nat) (m : M) : (syncDone im s m).boot = m.boot := by
  unfold syncDone
  (repeat' split) <;> simp

@[simp] theorem finishCmd_boot (im : Image) (s result : Nat) (msg resp : List Byte) (m : M) :
    (finishCmd im s result msg resp m).boot = m.boot := by
  simp [finishCmd]

@[simp] theorem secPump_boot (im : Image) (k : Nat) (m : M) : (secPump im k m).boot = m.boot := by
  induction k generalizing m with
  | zero => rfl
  | succ k ih =>
    rw [secPump]
    split
    · rfl
    · split
      · rfl
      · exact (ih _).trans (finishCmd_boot ..)

@[simp] theorem endCmd_boot (im : Image) (result : Nat) (resp : List Byte) (m : M) : (endCmd im result resp m).boot = m.boot := by
  unfold endCmd
  split
  · rfl
  · exact (secPump_boot ..).trans (finishCmd_boot ..)

@[simp] theorem secAbandon_boot (im : Image) (m : M) : (secAbandon im m).boot = m.boot := by
  simp [secAbandon]

@[simp] theorem agedForEvent_boot (im : Image) (f : Nat) (m : M) : (agedForEvent im f m).boot = m.boot := by
  simp [agedForEvent]

@[simp] theorem irqNext_boot (o src : Nat) (pulse : Bool) (m : M) : (irqNext o src pulse m).boot = m.boot := rfl

@[simp] theorem irqPulse_boot (im : Image) (o src : Nat) (m : M) : (irqPulse im o src m).boot = m.boot := by
  simp [irqPulse]

@[simp] theorem sendNmt_boot (im : Image) (f : Nat) (m : M) : (sendNmt im f m).boot = m.boot := by
  unfold sendNmt
  split <;> simp

@[simp] theorem driveFault_boot (m : M) : (driveFault m).boot = m.boot := rfl

@[simp] theorem pinReaction_boot (f : Nat) (m : M) : (pinReaction f m).boot = m.boot := by
  simp [pinReaction]

@[simp] theorem addReact_boot (r : React) (m : M) : (addReact r m).boot = m.boot := rfl

@[simp] theorem reactions_boot (im : Image) (f set : Nat) (ps : List Nat) (core : Nat) (m : M) :
    (reactions im f set ps core m).boot = m.boot := by
  unfold reactions
  (repeat' split) <;> simp

@[simp] theorem faultEvent_boot (im : Image) (f info : Nat) (ps : List Nat) (core : Nat) (forced : Bool) (m : M) :
    (faultEvent im f info ps core forced m).boot = m.boot := by
  unfold faultEvent
  split <;> simp

@[simp] theorem fireL_boot (im : Image) (f info l : Nat) (m : M) : (fireL im f info l m).boot = m.boot := by
  simp [fireL]

end Sys2Proof
end

section
/-! PROOFS. The state of the boot is left by scripts, their cues and the data queues. -/

namespace Sys2Proof

@[simp] theorem killPurp_boot (p tag : Nat) (u : Purp) (m : M) : (killPurp p tag u m).boot = m.boot := rfl

@[simp] theorem oweFetch_boot (s : Script) (m : M) : (oweFetch s m).boot = m.boot := by
  unfold oweFetch
  split <;> simp

@[simp] theorem killFetch_boot (s : Script) (m : M) : (killFetch s m).2.boot = m.boot := by
  unfold killFetch
  split <;> simp

@[simp] theorem oweList_boot (s : Script) (m : M) : (oweList s m).boot = m.boot := by
  unfold oweList
  split <;> simp

@[simp] theorem killList_boot (c : PCue) (s : Script) (m : M) : (killList c s m).2.boot = m.boot := by
  unfold killList
  split <;> simp

@[simp] theorem dropFrames_boot (l : Nat) (p : QFrame → Bool) (m : M) : (dropFrames l p m).boot = m.boot := rfl

@[simp] theorem dropGo_boot (l n : Nat) (m : M) : (dropGo l n m).boot = m.boot := rfl

@[simp] theorem enqFrame_boot (l : Nat) (f : QFrame) (m : M) : (enqFrame l f m).boot = m.boot := rfl

@[simp] theorem strikeRh_boot (l n : Nat) (m : M) : (strikeRh l n m).boot = m.boot := by
  unfold strikeRh
  split <;> simp

@[simp] theorem strikeSquash_boot (l n : Nat) (m : M) : (strikeSquash l n m).boot = m.boot := by
  unfold strikeSquash
  split <;> simp

@[simp] theorem putQueue_boot (cl own : Nat) (q : List Xfer) (m : M) : (putQueue cl own q m).boot = m.boot := rfl

@[simp] theorem dropGone_boot (cl own : Nat) (m : M) : (dropGone cl own m).boot = m.boot := rfl

@[simp] theorem updQueue_boot (cl own : Nat) (g : Xfer → Xfer) (m : M) : (updQueue cl own g m).boot = m.boot := rfl

@[simp] theorem discardXfer_boot (p tag sn : Nat) (m : M) : (discardXfer p tag sn m).boot = m.boot := by
  unfold discardXfer
  split <;> simp

@[simp] theorem dropCue_boot (acc : Script × M) (c : PCue) : (dropCue acc c).2.boot = acc.2.boot := by
  unfold dropCue
  dsimp only
  (repeat' split) <;> simp

@[simp] theorem squash_boot (keep : Nat) (s : Script) (m : M) : (squash keep s m).2.boot = m.boot := by
  have hfetch := killFetch_boot s m
  have hdrop := foldl_snd_boot dropCue_boot (s.win.drop keep) (killFetch s m)
  change (if (s.win.drop keep).isEmpty then ((s.win.drop keep).foldl dropCue (killFetch s m)).2 else _ : M).boot = _
  split <;> exact hdrop.trans hfetch

@[simp] theorem detachRhs_boot (p tag : Nat) (m : M) : (detachRhs p tag m).boot = m.boot := rfl

@[simp] theorem killCmds_boot (p tag : Nat) (m : M) : (killCmds p tag m).boot = m.boot := rfl

@[simp] theorem leaveL1_boot (im : Image) (p : Nat) (m : M) : (leaveL1 im p m).boot = m.boot := by
  simp [leaveL1]

@[simp] theorem wakePort_boot (im : Image) (p : Nat) (m : M) : (wakePort im p m).boot = m.boot := by
  simp [wakePort]

@[simp] theorem drivePme_boot (im : Image) (p : Nat) (m : M) : (drivePme im p m).boot = m.boot := by
  simp [drivePme]

@[simp] theorem sendPme_boot (im : Image) (p : Nat) (m : M) : (sendPme im p m).boot = m.boot := by
  simp [sendPme]

@[simp] theorem fireP_boot (im : Image) (f info p : Nat) (m : M) : (fireP im f info p m).boot = m.boot := by
  simp [fireP]

@[simp] theorem holdEntry_boot (im : Image) (p r : Nat) (e : Entry) (m : M) : (holdEntry im p r e m).boot = m.boot := by
  simp [holdEntry]

@[simp] theorem stageEntry_boot (p r : Nat) (e : Entry) (m : M) : (stageEntry p r e m).boot = m.boot := rfl

@[simp] theorem postEntry_boot (im : Image) (p : Nat) (e : Entry) (m : M) : (postEntry im p e m).2.boot = m.boot := by
  unfold postEntry
  dsimp only
  (repeat' split) <;> simp

@[simp] theorem endScript_boot (im : Image) (s : Script) (e : Entry) (m : M) : (endScript im s e m).boot = m.boot := by
  simp [endScript]

@[simp] theorem abortOuts_boot (p tag : Nat) (m : M) : (abortOuts p tag m).boot = m.boot := by
  refine foldl_boot (fun m e => ?_) m.links m
  exact foldl_boot (fun m (c : Cmd) => enqFrame_boot e.1.1 (.abort p c.ctag c.slot) m) _ m

@[simp] theorem postXfer_boot (cl own : Nat) (x : Xfer) (m : M) : (postXfer cl own x m).boot = m.boot := rfl

@[simp] theorem specGroup_boot (im : Image) (s : Script) (acc : List PCue × Bool × M) (g : List PCue) :
    (specGroup im s acc g).2.2.boot = acc.2.2.boot := by
  unfold specGroup
  dsimp only
  (repeat' split) <;> simp

/-- The groups of a script, asked one after the other. -/
theorem foldl_specGroup_boot (im : Image) (s : Script) (l : List (List PCue)) (acc : List PCue × Bool × M) :
    (l.foldl (specGroup im s) acc).2.2.boot = acc.2.2.boot := foldl_thd_boot (specGroup_boot im s) l acc

@[simp] theorem specWork_boot (im : Image) (p tag : Nat) (m : M) : (specWork im p tag m).boot = m.boot := by
  unfold specWork
  split
  · rfl
  · next s _ =>
    split
    · rfl
    · split
      · rfl
      · next h t _ =>
        dsimp only
        rw [M.setScript_boot]
        split
        · exact foldl_specGroup_boot im s (h :: t) _
        · exact foldl_specGroup_boot im s t _

@[simp] theorem fireSevere_boot (im : Image) (f info : Nat) (m : M) : (fireSevere im f info m).boot = m.boot := by
  simp [fireSevere]

@[simp] theorem fire_boot (im : Image) (f info : Nat) (m : M) : (fire im f info m).boot = m.boot := by
  simp [fire]

@[simp] theorem voteRead_boot (im : Image) (w : VWord) (v : Vote) (m : M) : (voteRead im w v m).2.boot = m.boot := by
  unfold voteRead
  dsimp only
  (repeat' split) <;> simp

@[simp] theorem pathDisagree_boot (im : Image) (row : Nat) (m : M) : (pathDisagree im row m).boot = m.boot := by
  simp [pathDisagree]

@[simp] theorem rightsRead_boot (im : Image) (row : Nat) (w : VWord) (m : M) : (rightsRead im row w m).2.boot = m.boot := by
  unfold rightsRead
  dsimp only
  (repeat' split) <;> simp

@[simp] theorem accessWords_boot (im : Image) (l : List VWord) (m : M) : (accessWords im l m).2.boot = m.boot := by
  induction l generalizing m with
  | nil => rfl
  | cons w t ih =>
    have h := rightsRead_boot im 6 w m
    rw [accessWords]
    generalize rightsRead im 6 w m = r at h ⊢
    obtain ⟨ok, m2⟩ := r
    cases ok
    · exact h
    · exact (ih m2).trans h

@[simp] theorem winCheckV_boot (im : Image) (p a len right : Nat) (m : M) : (winCheckV im p a len right m).2.boot = m.boot :=
  accessWords_boot ..

@[simp] theorem listNext_boot (im : Image) (p : Nat) (c : PCue) (m : M) : (listNext im p c m).2.boot = m.boot := by
  unfold listNext
  dsimp only
  (repeat' split) <;> simp

@[simp] theorem noteAsk_boot (k : Key) (b : Nat) (m : M) : (noteAsk k b m).boot = m.boot := rfl

@[simp] theorem noteLines_boot (im : Image) (q a n : Nat) (m : M) : (noteLines im q a n m).boot = m.boot := by
  simp [noteLines]

@[simp] theorem dramRead_boot (im : Image) (k : Key) (src own q a n : Nat) (m : M) :
    (dramRead im k src own q a n m).boot = m.boot := by
  simp [dramRead]

@[simp] theorem chargeTlp_boot (p : Nat) (t : Tlp) (m : M) : (chargeTlp p t m).boot = m.boot := by
  unfold chargeTlp
  split <;> simp

@[simp] theorem sendTlp_boot (p : Nat) (t : Tlp) (m : M) : (sendTlp p t m).boot = m.boot := by
  unfold sendTlp
  (repeat' split) <;> simp

@[simp] theorem issueTlps_boot (p k : Nat) (t : Tlp) (m : M) : (issueTlps p k t m).boot = m.boot := by
  induction k generalizing t m with
  | zero => rfl
  | succ k ih =>
    rw [issueTlps]
    generalize cutTlp (m.hostOf p) t = r
    obtain ⟨a, o⟩ := r
    dsimp only
    split
    · cases o with
      | none => exact sendTlp_boot ..
      | some b => exact (ih ..).trans (sendTlp_boot ..)
    · rfl

@[simp] theorem reqTlp_boot (p : Nat) (t : Tlp) (m : M) : (reqTlp p t m).boot = m.boot := by
  rw [reqTlp]
  split
  · rfl
  · exact issueTlps_boot ..

@[simp] theorem winRead_boot (im : Image) (k : Key) (src p a len : Nat) (purp : Purp) (m : M) :
    (winRead im k src p a len purp m).boot = m.boot := by
  unfold winRead
  split <;> simp

@[simp] theorem checksLateV_boot (im : Image) (p : Nat) (c : Cue) (list : List (Nat × Nat)) (bufs : List SBuf) (total : Nat)
    (ranged : Bool) (m : M) : (checksLateV im p c list bufs total ranged m).2.boot = m.boot := by
  have hw := accessWords_boot im (rightsWords c) m
  unfold checksLateV
  generalize accessWords im (rightsWords c) m = r at hw ⊢
  obtain ⟨ok, m2⟩ := r
  dsimp only
  split
  · exact hw
  · split
    · exact hw
    · exact (accessWords_boot im (rangeWords im p c list) m2).trans hw

@[simp] theorem declareBuf_boot (c : PCue) (s : Script) (m : M) : (declareBuf c s m).2.2.boot = m.boot := by
  unfold declareBuf
  split <;> simp

@[simp] theorem checkCue_boot (im : Image) (pre : List PCue) (c : PCue) (s : Script) (m : M) :
    (checkCue im pre c s m).2.2.boot = m.boot := by
  have hn := listNext_boot im s.part c m
  unfold checkCue
  extract_lets before conf
  split
  · rfl
  · split
    · rfl
    · generalize listNext im s.part c m = r at hn ⊢
      obtain ⟨o, m2⟩ := r
      rcases o with ⟨st, d⟩ | whole
      · exact hn
      · cases whole
        · dsimp only
          split
          · exact hn
          · exact (winRead_boot ..).trans hn
        · have hl := checksLateV_boot im s.part c.cue c.list s.bufs ((before.map (fun x => x.cue.count)).sum + c.cue.count)
            ((before ++ [c]).any (fun x => x.cue.hasRange)) m2
          dsimp only
          generalize checksLateV im s.part c.cue c.list s.bufs ((before.map (fun x => x.cue.count)).sum + c.cue.count)
            ((before ++ [c]).any (fun x => x.cue.hasRange)) m2 = l at hl ⊢
          obtain ⟨f, m3⟩ := l
          cases f with
          | some f => exact hl.trans hn
          | none => exact (declareBuf_boot ..).trans (hl.trans hn)

@[simp] theorem checkFrom_boot (im : Image) (pre l : List PCue) (s : Script) (m : M) :
    (checkFrom im pre l s m).2.2.boot = m.boot := by
  induction l generalizing pre s m with
  | nil => rfl
  | cons c t ih =>
    have h := checkCue_boot im pre c s m
    rw [checkFrom]
    split
    · exact ih ..
    · generalize checkCue im pre c s m = r at h ⊢
      obtain ⟨c2, s2, m2⟩ := r
      dsimp only
      split
      · exact h
      · exact (ih ..).trans h

@[simp] theorem runChecks_boot (im : Image) (s : Script) (m : M) : (runChecks im s m).2.boot = m.boot := checkFrom_boot ..

@[simp] theorem cueStep_boot (s : Script) (m : M) : (cueStep s m).boot = m.boot := by
  unfold cueStep
  split <;> simp

@[simp] theorem addCue_boot (im : Image) (ptr : Nat) (inl : Bool) (c : Cue) (chk : Chk) (s : Script) (m : M) :
    (addCue im ptr inl c chk s m).2.boot = m.boot := by
  simp [addCue]

@[simp] theorem decodeNext_boot (im : Image) (s : Script) (m : M) : (decodeNext im s m).2.boot = m.boot := by
  unfold decodeNext
  (repeat' split) <;> simp

@[simp] theorem actHead_boot (im : Image) (s : Script) (m : M) : (actHead im s m).boot = m.boot := by
  unfold actHead
  dsimp only
  (repeat' split) <;> simp

@[simp] theorem confirmHead_boot (im : Image) (p tag : Nat) (m : M) : (confirmHead im p tag m).boot = m.boot := by
  unfold confirmHead
  (repeat' split) <;> simp

@[simp] theorem goOn_boot (im : Image) (p tag : Nat) (m : M) : (goOn im p tag m).boot = m.boot := by
  unfold goOn
  split <;> simp

@[simp] theorem completeCue_boot (im : Image) (p tag n : Nat) (skip : Bool) (m : M) : (completeCue im p tag n skip m).boot = m.boot := by
  have hpost (c d : Prop) [Decidable c] [Decidable d] (e f : Entry) (m : M) :
      (if c then postEntry im p e m else if d then postEntry im p f m else (false, m)).2.boot = m.boot := by
    split
    · exact postEntry_boot ..
    · split
      · exact postEntry_boot ..
      · rfl
  unfold completeCue
  split
  · rfl
  · extract_lets +onlyGivenNames g
    split
    · next s _ c z _ _ =>
      extract_lets +onlyGivenNames ends sk cleared m1 s1 mark
      have h1 : m1.boot = m.boot := discardXfer_boot ..
      clear_value m1 s1 mark
      split
      · split
        next held m2 hx =>
        have h2 : m2.boot = m1.boot := by
          rw [← congrArg (fun x => x.2.boot) hx]
          split
          · exact postEntry_boot ..
          · rfl
        split
        · exact h2.trans h1
        · exact (endScript_boot ..).trans (h2.trans h1)
      · split
        · exact (endScript_boot ..).trans h1
        · split
          · exact (endScript_boot ..).trans h1
          · split
            next held m2 hx =>
            have h2 : m2.boot = m.boot := by
              rw [← congrArg (fun x => x.2.boot) hx]
              exact (hpost ..).trans h1
            extract_lets +onlyGivenNames s2
            split
            · exact (endScript_boot ..).trans h2
            · split
              next s3 m3 hy =>
              have h3 : m3.boot = m.boot := by
                rw [← congrArg (fun x => x.2.boot) hy]
                split <;> [split; exact h2]
                next s4 m4 hz =>
                have h4 : m4.boot = m.boot := by
                  rw [← congrArg (fun x => x.2.boot) hz]
                  exact (squash_boot ..).trans h2
                split <;> exact h4
              split
              · exact (specWork_boot ..).trans h3
              · exact (goOn_boot ..).trans h3
    · rfl

@[simp] theorem actStatus_boot (im : Image) (s : Script) (d n x : Nat) (m : M) : (actStatus im s d n x m).boot = m.boot := by
  simp [actStatus]

@[simp] theorem endNow_boot (im : Image) (s : Script) (status detail : Nat) (m : M) :
    (endNow im s status detail m).boot = m.boot := by
  unfold endNow
  dsimp only
  (repeat' split) <;> simp

@[simp] theorem nextId_boot (e : Nat) (m : M) : (nextId e m).2.boot = m.boot := rfl

@[simp] theorem flushXfer_boot (e q : Nat) (x : Xfer) (m : M) : (flushXfer e q x m).2.boot = m.boot := by
  unfold flushXfer
  dsimp only
  (repeat' split) <;> simp

@[simp] theorem flushQueue_boot (cl own : Nat) (m : M) : (flushQueue cl own m).boot = m.boot := by
  have h := foldl_snd_boot (g := fun (acc : List Xfer × M) x =>
    let (x, m) := flushXfer cl (4096 + own) x acc.2
    (acc.1 ++ [x], m)) (fun acc x => flushXfer_boot cl (4096 + own) x acc.2) (m.queue cl own) ([], m)
  exact (putQueue_boot ..).trans h

theorem forCues_boot (l : List Xfer) {f : Nat → Nat → Nat → Xfer → M → M} (hf : ∀ p t n x m, (f p t n x m).boot = m.boot) (m : M) :
    (forCues l f m).boot = m.boot := by
  refine foldl_byRank_boot (fun e he => ?_) m
  obtain ⟨x, -, rfl⟩ := List.mem_map.mp he
  split
  · exact hf _ _ _ _
  · exact fun _ => rfl

@[simp] theorem cueErr_boot (im : Image) (x : Xfer) (m : M) : (cueErr im x m).boot = m.boot := by
  unfold cueErr
  (repeat' split) <;> simp

@[simp] theorem evalCue_boot (im : Image) (p tag : Nat) (m : M) : (evalCue im p tag m).boot = m.boot := by
  unfold evalCue
  (repeat' split) <;> simp

@[simp] theorem cueItemDone_boot (im : Image) (p tag sn : Nat) (x : Xfer) (m : M) :
    (cueItemDone im p tag sn x m).boot = m.boot := by
  unfold cueItemDone
  (repeat' split) <;> simp

@[simp] theorem settleQueues_boot (im : Image) (ks : List (Nat × Nat)) (m : M) : (settleQueues im ks m).boot = m.boot := by
  have hflush : (ks.foldl (fun m k => flushQueue k.1 k.2 m) m).boot = m.boot :=
    foldl_boot (g := fun m (k : Nat × Nat) => flushQueue k.1 k.2 m) (fun m k => flushQueue_boot k.1 k.2 m) ks m
  have hbad (l : List Xfer) (m : M) : (forCues l (fun _ _ _ x m => cueErr im x m) m).boot = m.boot :=
    forCues_boot l (f := fun _ _ _ x m => cueErr im x m) (fun _ _ _ x m => cueErr_boot im x m) m
  have hdone (l : List Xfer) (m : M) : (forCues l (cueItemDone im) m).boot = m.boot :=
    forCues_boot l (f := cueItemDone im) (cueItemDone_boot im) m
  have htake (m : M) := foldl_snd_boot (g := fun (acc : List Xfer × M) (k : Nat × Nat) =>
    let q := m.queue k.1 k.2
    (acc.1 ++ q.filter (Xfer.leaves m), putQueue k.1 k.2 (q.filter (fun x => !(x.leaves m))) acc.2))
    (fun acc k => putQueue_boot ..) ks ([], m)
  rw [settleQueues, hdone]
  refine (htake _).trans ?_
  dsimp only
  rw [hbad, hflush]

@[simp] theorem settleQueue_boot (im : Image) (cl own : Nat) (m : M) : (settleQueue im cl own m).boot = m.boot :=
  settleQueues_boot ..

end Sys2Proof
end

section
/-! PROOFS. The state of the boot is left by the links of the part. -/

namespace Sys2Proof

@[simp] theorem updCueXfer_boot (p tag sn : Nat) (g : Xfer → Xfer) (m : M) : (updCueXfer p tag sn g m).boot = m.boot := by
  unfold updCueXfer
  split <;> simp

@[simp] theorem endCause_boot (im : Image) (s : Script) (status detail : Nat) (m : M) :
    (endCause im s status detail m).boot = m.boot := by
  unfold endCause
  (repeat' split) <;> simp

@[simp] theorem endCue_boot (im : Image) (p tag status detail : Nat) (m : M) :
    (endCue im p tag status detail m).boot = m.boot := by
  unfold endCue
  split <;> simp

@[simp] theorem frameLinkLoss_boot (im : Image) (m : M) (f : QFrame) : (frameLinkLoss im m f).boot = m.boot := by
  unfold frameLinkLoss
  (repeat' split) <;> simp

@[simp] theorem syncRhs_boot (l : Nat) (m : M) : (syncRhs l m).boot = m.boot := rfl

@[simp] theorem releaseRh_boot (l n : Nat) (m : M) : (releaseRh l n m).boot = m.boot := by
  unfold releaseRh
  split <;> simp

@[simp] theorem loseRehearsal_boot (im : Image) (l n : Nat) (p tag sn : Nat) (m : M) :
    (loseRehearsal im l n p tag sn m).boot = m.boot := by
  unfold loseRehearsal
  dsimp only
  (repeat' split) <;> simp

@[simp] theorem rhLinkLoss_boot (im : Image) (l : Nat) (m : M) (e : Nat × Rehearsal) : (rhLinkLoss im l m e).boot = m.boot := by
  simp [rhLinkLoss]

@[simp] theorem sessionEnd_boot (im : Image) (l : Nat) (m : M) : (sessionEnd im l m).2.boot = m.boot := rfl

theorem sessionEnd_keeps {im : Image} {l : Nat} {m : M} {e : Nat × (M → M)} (he : e ∈ (sessionEnd im l m).1) : KeepsBoot e.2 := by
  rcases List.mem_append.mp he with he | he
  · rcases List.mem_append.mp he with he | he
    · obtain ⟨c, -, rfl⟩ := List.mem_map.mp he
      exact endCue_boot im c.part c.tag 0x16 0
    · obtain ⟨f, -, rfl⟩ := List.mem_map.mp he
      exact fun m => frameLinkLoss_boot im m f
  · obtain ⟨r, -, rfl⟩ := List.mem_map.mp he
    exact fun m => rhLinkLoss_boot im l m r

@[simp] theorem clearActive_boot (im : Image) (l : Nat) (m : M) : (clearActive im l m).boot = m.boot :=
  foldl_boot (fun m k => M.setFlag_boot m .LNK_LANE_ACTIVE k false) (cutLanes im l) m

@[simp] theorem evtPush_boot (l code a b : Nat) (m : M) : (evtPush l code a b m).boot = m.boot := by
  simp [evtPush]

@[simp] theorem enterState_boot (l st cause : Nat) (m : M) : (enterState l st cause m).boot = m.boot := by
  simp [enterState]

@[simp] theorem setBackoff_boot (wasUp : Bool) (l : Nat) (m : M) : (setBackoff wasUp l m).boot = m.boot := by
  simp [setBackoff]

@[simp] theorem leaveState_boot (im : Image) (st cause : Nat) (conseq : Bool) (l : Nat) (m : M) :
    (leaveState im st cause conseq l m).2.boot = m.boot := by
  simp [leaveState]

theorem leaveState_keeps {im : Image} {st cause : Nat} {conseq : Bool} {l : Nat} {m : M} {e : Nat × (M → M)}
    (he : e ∈ (leaveState im st cause conseq l m).1) : KeepsBoot e.2 := sessionEnd_keeps he

@[simp] theorem refuseCue_boot (im : Image) (p tag : Nat) (m : M) : (refuseCue im p tag m).boot = m.boot := by
  unfold refuseCue
  (repeat' split) <;> simp

theorem refusals_keeps {im : Image} {m : M} {e : Nat × (M → M)} (he : e ∈ refusals im m) : KeepsBoot e.2 := by
  obtain ⟨x, -, rfl⟩ := List.mem_map.mp he
  exact refuseCue_boot im x.1.1 x.1.2

/-- The links that leave their state: what they ask of the cues is all that can still change. -/
theorem foldl_leaveState {im : Image} {st cause : Nat} {conseq : Bool} (ls : List Nat) (acc : List (Nat × (M → M)) × M)
    (h : ∀ e ∈ acc.1, KeepsBoot e.2) :
    let r := ls.foldl (fun (acc : List (Nat × (M → M)) × M) l =>
      let (w, m) := leaveState im st cause conseq l acc.2
      (acc.1 ++ w, m)) acc
    (∀ e ∈ r.1, KeepsBoot e.2) ∧ r.2.boot = acc.2.boot := by
  induction ls generalizing acc with
  | nil => exact ⟨h, rfl⟩
  | cons l ls ih =>
    obtain ⟨hk, hb⟩ := ih (acc.1 ++ (leaveState im st cause conseq l acc.2).1, (leaveState im st cause conseq l acc.2).2) fun e he =>
      (List.mem_append.mp he).elim (h e) leaveState_keeps
    exact ⟨hk, hb.trans (leaveState_boot ..)⟩

@[simp] theorem leaveAll_boot (im : Image) (ls : List Nat) (st cause : Nat) (conseq : Bool) (m : M) :
    (leaveAll im ls st cause conseq m).boot = m.boot := by
  obtain ⟨hk, hb⟩ := foldl_leaveState (im := im) (st := st) (cause := cause) (conseq := conseq) ls ([], m) (by simp)
  refine (foldl_boot (fun _ _ => syncRhs_boot ..) ..).trans ((foldl_byRank_boot (fun e he => ?_) _).trans hb)
  exact (List.mem_append.mp he).elim (hk e) refusals_keeps

@[simp] theorem leaveTo_boot (im : Image) (l st cause : Nat) (conseq : Bool) (m : M) : (leaveTo im l st cause conseq m).boot = m.boot :=
  leaveAll_boot ..

@[simp] theorem toWait_boot (im : Image) (l cause : Nat) (m : M) : (toWait im l cause m).boot = m.boot :=
  leaveTo_boot ..

@[simp] theorem spendCredit_boot (l vl : Nat) (m : M) : (spendCredit l vl m).boot = m.boot := rfl

@[simp] theorem emitFlit_boot (l : Nat) (f : TxFlit) (m : M) : (emitFlit l f m).boot = m.boot := rfl

@[simp] theorem switchTx_boot (l : Nat) (m : M) : (switchTx l m).boot = m.boot := rfl

@[simp] theorem groupClosed_boot (l : Nat) (m : M) : (groupClosed l m).boot = m.boot := by
  unfold groupClosed
  dsimp only
  (repeat' split) <;> simp

@[simp] theorem sendFlit_boot (l type vl : Nat) (frame : List Byte) (more : Bool) (m : M) :
    (sendFlit l type vl frame more m).boot = m.boot := by
  simp [sendFlit]

@[simp] theorem pumpMgmt_boot (l n : Nat) (m : M) : (pumpMgmt l n m).boot = m.boot := by
  induction n generalizing m with
  | zero => rfl
  | succ n ih =>
    rw [pumpMgmt]
    split
    · rfl
    · split
      · exact (ih _).trans (sendFlit_boot ..)
      · rfl

@[simp] theorem sendMgmt_boot (l type : Nat) (b : List Byte) (m : M) : (sendMgmt l type b m).boot = m.boot :=
  pumpMgmt_boot ..

@[simp] theorem sendClose_boot (l cause : Nat) (m : M) : (sendClose l cause m).boot = m.boot := by
  simp [sendClose]

@[simp] theorem linkDown_boot (im : Image) (l cause : Nat) (m : M) : (linkDown im l cause m).boot = m.boot :=
  (toWait_boot ..).trans (sendClose_boot ..)

@[simp] theorem authFail_boot (im : Image) (l : Nat) (m : M) : (authFail im l m).boot = m.boot := by
  simp [authFail]

end Sys2Proof
end

section
/-! PROOFS. The state of the boot is left by block resets (R368). -/

namespace Sys2Proof

@[simp] theorem resetSec_boot (im : Image) (m : M) : (resetSec im m).boot = m.boot := by
  simp [resetSec]

@[simp] theorem clearB_boot (b c : Nat) (m : M) : (clearB b c m).boot = m.boot := rfl

@[simp] theorem resetCore_boot (c : Nat) (m : M) : (resetCore c m).boot = m.boot := rfl

@[simp] theorem setChState_boot (im : Image) (c st : Nat) (m : M) : (setChState im c st m).boot = m.boot := by
  simp [setChState]

@[simp] theorem resetChan_boot (im : Image) (m : M) (c : Nat) : (resetChan im m c).boot = m.boot := by
  simp [resetChan]

@[simp] theorem resetMov_boot (im : Image) (m : M) : (resetMov im m).boot = m.boot := by
  rw [resetMov, settleQueues_boot, foldl_boot fun m e => updQueue_boot .., foldl_boot fun m c => resetChan_boot ..]

@[simp] theorem resetIrq_boot (im : Image) (m : M) : (resetIrq im m).boot = m.boot := by
  rw [resetIrq, foldl_boot fun m p => M.setFlag_boot m .IRQ_CFG_LOST (pinst p 0) true]
  exact clearB_boot 26 0 m

@[simp] theorem mbxSync_boot (im : Image) (p : Nat) (m : M) : (mbxSync im p m).boot = m.boot := by
  simp [mbxSync]

@[simp] theorem resetMbx_boot (im : Image) (m : M) : (resetMbx im m).boot = m.boot := by
  simp [resetMbx]

@[simp] theorem trcSync_boot (m : M) : (trcSync m).boot = m.boot := rfl

@[simp] theorem trcEmpty_boot (m : M) : (trcEmpty m).boot = m.boot := rfl

@[simp] theorem opTagWriteback_boot (c tl : Nat) (m : M) : (opTagWriteback c tl m).boot = m.boot := by
  unfold opTagWriteback
  split <;> simp

@[simp] theorem selfRefresh_boot (c : Nat) (on : Bool) (m : M) : (selfRefresh c on m).boot = m.boot := rfl

@[simp] theorem endScrub_boot (im : Image) (c : Nat) (stopped : Bool) (m : M) : (endScrub im c stopped m).boot = m.boot := by
  simp [endScrub]

@[simp] theorem opScrubStop_boot (im : Image) (c : Nat) (m : M) : (opScrubStop im c m).boot = m.boot := by
  simp [opScrubStop]

@[simp] theorem memBlockReset_boot (im : Image) (c : Nat) (m : M) : (memBlockReset im c m).boot = m.boot := by
  simp [memBlockReset]

@[simp] theorem resetLinks_boot (im : Image) (ls : List Nat) (m : M) : (resetLinks im ls m).boot = m.boot := by
  rw [resetLinks, foldl_boot fun m l => M.setLink_boot ..]
  exact leaveAll_boot ..

@[simp] theorem afterReset_boot (m0 : M) (m : M) (l : Nat) : (afterReset m0 m l).boot = m.boot := by
  simp [afterReset]

@[simp] theorem resetOctet_boot (im : Image) (o : Nat) (m : M) : (resetOctet im o m).boot = m.boot := by
  simp [resetOctet]

@[simp] theorem resetEffect_boot (im : Image) (b c : Nat) (m : M) : (resetEffect im b c m).boot = m.boot := by
  simp [resetEffect]

@[simp] theorem blockReset_boot (im : Image) (b core : Nat) (m : M) : (blockReset im b core m).boot = m.boot := by
  unfold blockReset
  generalize (if b = 22 then core else 0) = c
  dsimp only
  split
  · rfl
  · rw [resetEffect_boot, foldl_boot fun m n => M.bump_boot m .FLT_STS_NEIGHBOUR n]
    rfl

@[simp] theorem aliveLow_boot (m : M) : (aliveLow m).boot = m.boot := rfl

end Sys2Proof
end

section
/-! PROOFS. The state of the boot is left by mover channels and request rings. -/

namespace Sys2Proof

@[simp] theorem flushDescs_boot (c : Nat) (m : M) : (flushDescs c m).boot = m.boot := by
  have h := foldl_snd_boot (g := fun (acc : List DescRun × M) (d : DescRun) =>
    let (x, m) := flushXfer (c / 64) c d.x acc.2
    (acc.1 ++ [{ d with x := x }], m)) (fun acc d => flushXfer_boot (c / 64) c d.x acc.2) (m.chan c).descs ([], m)
  exact h

@[simp] theorem recordDesc_boot (c : Nat) (d : DescRun) (m : M) : (recordDesc c d m).boot = m.boot := by
  simp [recordDesc]

@[simp] theorem descIrq_boot (im : Image) (c : Nat) (d : DescRun) (m : M) : (descIrq im c d m).boot = m.boot := by
  simp [descIrq]

@[simp] theorem stoppedNow_boot (im : Image) (c : Nat) (m : M) : (stoppedNow im c m).boot = m.boot := by
  simp [stoppedNow]

@[simp] theorem nextCur_boot (c : Nat) (d : DescRun) (m : M) : (nextCur c d m).boot = m.boot := by
  simp [nextCur]

@[simp] theorem stopChannel_boot (im : Image) (c err : Nat) (m : M) : (stopChannel im c err m).boot = m.boot := by
  simp [stopChannel]

@[simp] theorem chanRangeV_boot (im : Image) (c sp a n right : Nat) (m : M) : (chanRangeV im c sp a n right m).2.boot = m.boot := by
  rw [chanRangeV]
  split
  · exact accessWords_boot ..
  · rfl

@[simp] theorem readDesc_boot (im : Image) (c i : Nat) (again : Bool) (m : M) : (readDesc im c i again m).boot = m.boot := by
  rw [readDesc]
  split
  · exact stopChannel_boot ..
  · extract_lets n a
    have hr := chanRangeV_boot im c (lspace m c) a n rScript m
    generalize chanRangeV im c (lspace m c) a n rScript m = x at hr ⊢
    obtain ⟨o, m2⟩ := x
    rcases o with _ | r
    · exact (stopChannel_boot ..).trans hr
    · dsimp only
      split
      · split
        · exact (stopChannel_boot ..).trans hr
        · exact (reqTlp_boot ..).trans hr
      · exact (dramRead_boot ..).trans hr
      · exact hr

@[simp] theorem startRun_boot (im : Image) (c head : Nat) (m : M) : (startRun im c head m).boot = m.boot := by
  simp [startRun]

@[simp] theorem missTrig_boot (c : Nat) (m : M) : (missTrig c m).boot = m.boot := rfl

@[simp] theorem fireTrigger_boot (im : Image) (c : Nat) (m : M) : (fireTrigger im c m).boot = m.boot := by
  simp [fireTrigger]

@[simp] theorem chainFrom_boot (im : Image) (c : Nat) (m : M) : (chainFrom im c m).boot = m.boot :=
  foldl_boot (fun m n => fireTrigger_boot im n m) _ m

@[simp] theorem endRun_boot (im : Image) (c i : Nat) (m : M) : (endRun im c i m).boot = m.boot := by
  simp [endRun]

@[simp] theorem follow_boot (im : Image) (c nxt : Nat) (m : M) : (follow im c nxt m).boot = m.boot := by
  simp [follow]

@[simp] theorem retireDesc_boot (im : Image) (c : Nat) (d : DescRun) (m : M) : (retireDesc im c d m).boot = m.boot := by
  simp [retireDesc]

@[simp] theorem wbFail_boot (im : Image) (c err : Nat) (d : DescRun) (m : M) : (wbFail im c err d m).boot = m.boot := by
  simp [wbFail]

@[simp] theorem setWb_boot (c : Nat) (d : DescRun) (w : Option Nat) (m : M) : (setWb c d w m).boot = m.boot := rfl

@[simp] theorem dramWrite_boot (im : Image) (src own q a : Nat) (b : List Byte) (m : M) :
    (dramWrite im src own q a b m).boot = m.boot := by
  simp [dramWrite]

@[simp] theorem completeFirst_boot (im : Image) (c : Nat) (m : M) : (completeFirst im c m).boot = m.boot := by
  rw [completeFirst]
  split
  · rfl
  · next d _ _ =>
    split
    · rfl
    · extract_lets m1
      have h1 : m1.boot = m.boot := recordDesc_boot c d m
      clear_value m1
      split
      · exact (retireDesc_boot ..).trans h1
      · have hr := (chanRangeV_boot im c (lspace m1 c) (descAddr m1 c d.idx) 32 rStore m1).trans h1
        generalize chanRangeV im c (lspace m1 c) (descAddr m1 c d.idx) 32 rStore m1 = x at hr ⊢
        obtain ⟨o, m2⟩ := x
        rcases o with _ | r
        · exact (wbFail_boot ..).trans hr
        · dsimp only
          split
          · split
            · exact (wbFail_boot ..).trans hr
            · exact (reqTlp_boot ..).trans hr
          · exact hr
          · exact (dramWrite_boot ..).trans hr

@[simp] theorem readAhead_boot (im : Image) (c : Nat) (m : M) : (readAhead im c m).boot = m.boot := by
  unfold readAhead
  dsimp only
  (repeat' split) <;> simp

@[simp] theorem settleChan_boot (im : Image) (c : Nat) (m : M) : (settleChan im c m).boot = m.boot := by
  simp [settleChan]

@[simp] theorem wbIssued_boot (im : Image) (c : Nat) (m : M) : (wbIssued im c m).boot = m.boot := by
  unfold wbIssued
  split <;> simp

@[simp] theorem readUnits_boot (p r b n pubEnd : Nat) (m : M) : (readUnits p r b n pubEnd m).boot = m.boot := by
  simp [readUnits]

@[simp] theorem fetchRing_boot (p r : Nat) (m : M) : (fetchRing p r m).boot = m.boot := by
  simp [fetchRing]

@[simp] theorem dropHead_boot (p r : Nat) (m : M) : (dropHead p r m).boot = m.boot := rfl

@[simp] theorem prepRing_boot (im : Image) (p r : Nat) (m : M) : (prepRing im p r m).boot = m.boot := by
  unfold prepRing
  split <;> simp

@[simp] theorem resumeScript_boot (im : Image) (s : Script) (m : M) : (resumeScript im s m).boot = m.boot := by
  unfold resumeScript
  split <;> simp

@[simp] theorem haltAt_boot (im : Image) (s : Script) (t : Nat × Bool) (m : M) : (haltAt im s t m).boot = m.boot := by
  simp [haltAt]

@[simp] theorem haltScript_boot (im : Image) (s : Script) (m : M) : (haltScript im s m).boot = m.boot := by
  unfold haltScript
  split <;> simp

@[simp] theorem endLast_boot (im : Image) (s : Script) (m : M) : (endLast im s m).boot = m.boot := by
  unfold endLast
  split <;> simp

@[simp] theorem clearRehearsal_boot (s : Script) (m : M) : (clearRehearsal s m).boot = m.boot := by
  unfold clearRehearsal
  dsimp only
  (repeat' split) <;> simp

@[simp] theorem clearScript_boot (im : Image) (s : Script) (m : M) : (clearScript im s m).boot = m.boot := by
  unfold clearScript
  split <;> simp

@[simp] theorem clearSlot_boot (im : Image) (p slot : Nat) (m : M) : (clearSlot im p slot m).boot = m.boot := by
  simp [clearSlot]

@[simp] theorem actRequest_boot (im : Image) (p r : Nat) (b : List Byte) (m : M) : (actRequest im p r b m).boot = m.boot := by
  have hw := accessWords_boot im [.rights (leAt b 8 2)] m
  rw [actRequest]
  split
  · split <;> simp
  · split
    · split <;> simp
    · split
      · split <;> simp
      · split
        · dsimp only
          split
          · exact (postEntry_boot ..).trans hw
          · exact (clearSlot_boot ..).trans hw
        · rfl

@[simp] theorem takeEntry_boot (im : Image) (p r : Nat) (b : List Byte) (pre : Bool) (m : M) :
    (takeEntry im p r b pre m).boot = m.boot := by
  simp [takeEntry]

@[simp] theorem serveRings_boot (im : Image) (p k : Nat) (m : M) : (serveRings im p k m).boot = m.boot := by
  induction k generalizing m with
  | zero => rfl
  | succ k ih =>
    have h1 : ((ringTurn m p).foldl (fun m r => prepRing im p r m) m).boot = m.boot :=
      foldl_boot (fun m r => prepRing_boot im p r m) _ m
    rw [serveRings]
    generalize (ringTurn m p).foldl (fun m r => prepRing im p r m) m = m1 at h1 ⊢
    split
    · exact h1
    · split
      · exact h1
      · exact (ih _).trans ((takeEntry_boot ..).trans h1)

@[simp] theorem serve_boot (im : Image) (p : Nat) (m : M) : (serve im p m).boot = m.boot := by
  rw [serve]
  split
  · rfl
  · exact serveRings_boot ..

@[simp] theorem serveFrom_boot (im : Image) (p : Nat) (m : M) : (serveFrom im p m).boot = m.boot := by
  simp [serveFrom]

end Sys2Proof
end

section
/-! PROOFS. The state of the boot is left by the steps that bring an image into force (R41, R43). -/

namespace Sys2Proof

@[simp] theorem dropRegion_boot (im : Image) (r : Nat) (m : M) : (dropRegion im r m).boot = m.boot := rfl

@[simp] theorem newKeys_boot (im : Image) (r : Nat) (m : M) : (newKeys im r m).boot = m.boot := rfl

@[simp] theorem checkCert_boot (im : Image) (m : M) : (checkCert im m).boot = m.boot := by
  unfold checkCert
  dsimp only
  (repeat' split) <;> simp

@[simp] theorem syncPart_boot (im : Image) (p : Nat) (m : M) : (syncPart im p m).boot = m.boot := by
  simp [syncPart]

@[simp] theorem stepDone_boot (n : Nat) (m : M) : (stepDone n m).boot = m.boot := rfl

@[simp] theorem startLinks_boot (im : Image) (m : M) : (startLinks im m).boot = m.boot := by
  simp [startLinks]

@[simp] theorem startCore_boot (c entry : Nat) (m : M) : (startCore c entry m).boot = m.boot := rfl

@[simp] theorem wingsLoad_boot (im : Image) (m : M) : (wingsLoad im m).boot = m.boot := by
  simp [wingsLoad]

@[simp] theorem syncWings_boot (im : Image) (m : M) : (syncWings im m).boot = m.boot := by
  simp [syncWings]

@[simp] theorem sendHello_boot (im : Image) (l : Nat) (m : M) : (sendHello im l m).boot = m.boot := by
  simp [sendHello]

@[simp] theorem sendRekey_boot (l : Nat) (m : M) : (sendRekey l m).boot = m.boot := by
  simp [sendRekey]

@[simp] theorem linkEntropy_boot (im : Image) (m : M) : (linkEntropy im m).boot = m.boot := by
  simp [linkEntropy]

@[simp] theorem renewChallenge_boot (m : M) : (renewChallenge m).boot = m.boot := by
  simp [renewChallenge]

@[simp] theorem secEntropy_boot (m : M) : (secEntropy m).boot = m.boot := by
  simp [secEntropy]

@[simp] theorem setResult_boot (slot code : Nat) (m : M) : (setResult slot code m).boot = m.boot := rfl

end Sys2Proof
end

section
/-! PROOFS. Where the image in force comes from (02, R38, R40, R41, R43, R44, R287). -/

namespace Sys2Proof

/-! ### What is left of the boot by what acts after a command -/

theorem chipResetNow_phase (kind src : Nat) (m : M) : (chipResetNow kind src m).boot.phase = .rstLow := by
  simp [chipResetNow, chipReset]

/-- No reaction begins the wait of step 5. -/
theorem react1_phase (im : Image) {m : M} (h : m.boot.phase ≠ .wait5) (r : React) : (react1 im m r).boot.phase ≠ .wait5 := by
  cases r with
  | blockReset b c => rwa [react1, blockReset_boot]
  | chipReset f =>
    rw [react1, chipResetNow_phase]
    decide
  | wbIssued c => rwa [react1, wbIssued_boot]
  | serve p => rwa [react1, serveFrom_boot]

theorem settle_phase (im : Image) (n : Nat) {m : M} (h : m.boot.phase ≠ .wait5) : (settle im n m).boot.phase ≠ .wait5 := by
  induction n generalizing m with
  | zero => exact h
  | succ n ih =>
    rw [settle]
    split
    · exact h
    · next r t _ => exact ih (react1_phase im (m := { m with react := t }) h r)

/-! ### The ends of the checks of a slot -/

theorem failBoot_phase (m : M) : (failBoot m).boot.phase = .failed := by
  simp [failBoot]

theorem failSlot_phase (code : Nat) (m : M) : (failSlot code m).boot.phase ≠ .wait5 := by
  unfold failSlot
  dsimp only
  split
  · rw [failBoot_phase]
    decide
  · simp

theorem pathFail_phase (im : Image) (m : M) : (pathFail im m).boot.phase ≠ .wait5 := failSlot_phase _ _

theorem applyImage_phase (im : Image) (m : M) : (applyImage im m).boot.phase = .run := by
  simp [applyImage]

/-- An image that passes against some steps blown passes against none (R39). -/
theorem imgStep4_zero {b : List Byte} {steps serial : Nat} {x : Image} (h : imgStep4 b steps serial = (resAccepted, x)) :
    imgStep4 b 0 serial = (resAccepted, x) := by
  have hroll : ¬ imgSvn b < steps := by
    intro hlt
    unfold imgStep4 at h
    rw [if_pos hlt] at h
    split at h
    · simp [resWrongPart, resAccepted] at h
    · split at h
      · simp [resWrongDie, resAccepted] at h
      · simp [resRollback, resAccepted] at h
  unfold imgStep4 at h ⊢
  rw [if_neg hroll] at h
  rwa [if_neg (Nat.not_lt_zero _)]

/-- How step 4 and what follows it can end: the slot fails, the image is applied, or step 5 waits. -/
theorem bootStep4_cases (im : Image) (agree : Bool) (m : M) :
    let r := bootStep4 im agree m
    (r.1 = none ∧ r.2.boot.phase ≠ .wait5) ∨
    ∃ new, agree = true ∧ imgStep4 m.boot.copy (svnSteps m.sec.sensed) serialNat = (resAccepted, new) ∧
      ((r.1 = some new ∧ r.2.boot.phase = .run) ∨ (r.1 = none ∧ r.2.boot.copy = m.boot.copy ∧ r.2.react = m.react)) := by
  obtain ⟨c, new, hs⟩ : ∃ c new, imgStep4 m.boot.copy (svnSteps m.sec.sensed) serialNat = (c, new) := ⟨_, _, rfl⟩
  unfold bootStep4
  rw [hs]
  dsimp only
  by_cases hpart : c = resWrongPart ∨ c = resWrongDie
  · rw [if_pos hpart]
    exact .inl ⟨rfl, failSlot_phase _ _⟩
  rw [if_neg hpart]
  cases agree with
  | false => exact .inl ⟨rfl, pathFail_phase _ _⟩
  | true =>
    rw [if_neg (by decide)]
    by_cases hc : c = resAccepted
    · refine .inr ⟨new, rfl, by rw [hc], ?_⟩
      rw [if_neg (not_not_intro hc)]
      split
      · exact .inl ⟨rfl, applyImage_phase ..⟩
      · exact .inr ⟨rfl, rfl, rfl⟩
    · rw [if_pos hc]
      exact .inl ⟨rfl, failSlot_phase _ _⟩

/-- What the last check of the boot asks of the slot it read before it accepts an image (R38). -/
structure SlotAccepted (key sig : Verdict) (agree : Bool) (m : M) (new : Image) : Prop where
  agree : agree = true
  key : pathsOf key (imgKeyOk m.boot.copy m.sec.sensed.hash) = ⟨true, true⟩
  sig : pathsOf sig (imgSigOk m.boot.copy) = ⟨true, true⟩
  image : imgStep4 m.boot.copy (svnSteps m.sec.sensed) serialNat = (resAccepted, new)

/-- The last check of the boot with its two pairs of verdicts, on the machine that it finds (R38, R40). -/
def sigVerdict (im : Image) (k g : Verdict) (agree : Bool) (m : M) : Option Image × M :=
  if k.a ≠ k.b then (none, pathFail im m)
  else if k.a = false then (none, failSlot resKeyMismatch m)
  else if g.a ≠ g.b then (none, pathFail im m)
  else if g.a = false then (none, failSlot resBadSignature m)
  else bootStep4 im agree (stepDone 3 { m with sec := { m.sec with ownerKey := imgPubkey m.boot.copy } })

/-- The machine on which the last check of the boot runs: entropy that failed is noted first (R287). -/
def entropyNoted (entropy : Bool) (m : M) : M :=
  if entropy then m else { m.setFlag .SEC_STS_ENTROPY_OK 0 false with boot := { m.boot with entropy := false } }

theorem opSigVerify_eq (im : Image) (key sig : Verdict) (agree entropy : Bool) {m : M} (hp : m.boot.phase = .verify) :
    opSigVerify im key sig agree entropy m =
      sigVerdict im (pathsOf key (imgKeyOk (entropyNoted entropy m).boot.copy (entropyNoted entropy m).sec.sensed.hash))
        (pathsOf sig (imgSigOk (entropyNoted entropy m).boot.copy)) agree (entropyNoted entropy m) := by
  rw [opSigVerify, if_neg (not_not_intro hp)]
  rfl

theorem entropyNoted_copy (entropy : Bool) (m : M) : (entropyNoted entropy m).boot.copy = m.boot.copy := by
  cases entropy <;> rfl

theorem entropyNoted_sec (entropy : Bool) (m : M) : (entropyNoted entropy m).sec = m.sec := by
  cases entropy <;> rfl

theorem entropyNoted_react (entropy : Bool) (m : M) : (entropyNoted entropy m).react = m.react := by
  cases entropy <;> rfl

/-- The owner's key, held from the end of step 3 on (R288), changes nothing of what step 4 reads. -/
theorem bootStep4_held (im : Image) (agree : Bool) (k : List Byte) (m : M) :
    let r := bootStep4 im agree (stepDone 3 { m with sec := { m.sec with ownerKey := k } })
    (r.1 = none ∧ r.2.boot.phase ≠ .wait5) ∨
    ∃ new, agree = true ∧ imgStep4 m.boot.copy (svnSteps m.sec.sensed) serialNat = (resAccepted, new) ∧
      ((r.1 = some new ∧ r.2.boot.phase = .run) ∨ (r.1 = none ∧ r.2.boot.copy = m.boot.copy ∧ r.2.react = m.react)) := by
  generalize hn : stepDone 3 { m with sec := { m.sec with ownerKey := k } } = n
  have hncopy : n.boot.copy = m.boot.copy := by
    rw [← hn, stepDone_boot]
  have hnsensed : n.sec.sensed = m.sec.sensed := by
    rw [← hn, stepDone, M.setFld_sec]
  have hnreact : n.react = m.react := by
    rw [← hn, stepDone, M.setFld_react]
  rw [← hncopy, ← hnreact, ← hnsensed]
  exact bootStep4_cases im agree n

theorem sigVerdict_cases (im : Image) (k g : Verdict) (agree : Bool) (m : M) :
    let r := sigVerdict im k g agree m
    (r.1 = none ∧ r.2.boot.phase ≠ .wait5) ∨
    ∃ new, (k = ⟨true, true⟩ ∧ g = ⟨true, true⟩ ∧ agree = true ∧
        imgStep4 m.boot.copy (svnSteps m.sec.sensed) serialNat = (resAccepted, new)) ∧
      ((r.1 = some new ∧ r.2.boot.phase = .run) ∨ (r.1 = none ∧ r.2.boot.copy = m.boot.copy ∧ r.2.react = m.react)) := by
  obtain ⟨ka, kb⟩ := k
  obtain ⟨ga, gb⟩ := g
  unfold sigVerdict
  split
  · exact .inl ⟨rfl, pathFail_phase _ _⟩
  split
  · exact .inl ⟨rfl, failSlot_phase _ _⟩
  split
  · exact .inl ⟨rfl, pathFail_phase _ _⟩
  split
  · exact .inl ⟨rfl, failSlot_phase _ _⟩
  next hkab hka hgab hga =>
  obtain rfl : ka = true := by simpa using hka
  obtain rfl : ga = true := by simpa using hga
  obtain rfl : kb = true := by simpa using hkab
  obtain rfl : gb = true := by simpa using hgab
  refine (bootStep4_held im agree (imgPubkey m.boot.copy) m).imp_right ?_
  rintro ⟨new, hagree, himage, hend⟩
  exact ⟨new, ⟨rfl, rfl, hagree, himage⟩, hend⟩

/-- How the last check of the boot can end: nothing is applied and step 5 does not wait, or the slot is accepted, and then its
image is applied or step 5 waits with the copy. -/
theorem opSigVerify_cases (im : Image) (key sig : Verdict) (agree entropy : Bool) {m : M} (hp : m.boot.phase = .verify) :
    let r := opSigVerify im key sig agree entropy m
    (r.1 = none ∧ r.2.boot.phase ≠ .wait5) ∨
    ∃ new, SlotAccepted key sig agree m new ∧
      ((r.1 = some new ∧ r.2.boot.phase = .run) ∨ (r.1 = none ∧ r.2.boot.copy = m.boot.copy ∧ r.2.react = m.react)) := by
  have h := sigVerdict_cases im
    (pathsOf key (imgKeyOk (entropyNoted entropy m).boot.copy (entropyNoted entropy m).sec.sensed.hash)) (pathsOf sig (imgSigOk (entropyNoted entropy m).boot.copy)) agree (entropyNoted entropy m)
  rw [← opSigVerify_eq im key sig agree entropy hp, entropyNoted_copy, entropyNoted_sec, entropyNoted_react] at h
  refine h.imp_right ?_
  rintro ⟨new, ⟨hkey, hsig, hagree, himage⟩, hend⟩
  exact ⟨new, ⟨hagree, hkey, hsig, himage⟩, hend⟩

/-! ### The return of entropy -/

theorem entropyBack_boot (im : Image) (m : M) : (entropyBack im m).boot = { m.boot with entropy := true } := by
  rw [entropyBack, linkEntropy_boot, secEntropy_boot, foldl_boot fun m r => newKeys_boot im r m]

/-- The image that the return of entropy applies: that of a waiting step 5. -/
theorem opEntropyHealthy_fst (im : Image) (m : M) :
    (opEntropyHealthy im m).1 = if m.boot.entropy = false ∧ m.boot.phase = .wait5 then some (bootImage m) else none := by
  have hboot := entropyBack_boot im m
  have himage : bootImage (entropyBack im m) = bootImage m := by rw [bootImage, hboot, bootImage]
  unfold opEntropyHealthy opEntropyRestored
  dsimp only
  rw [himage, hboot]
  cases he : m.boot.entropy with
  | true => rfl
  | false =>
    by_cases hp : m.boot.phase = .wait5 <;> simp [hp]

namespace Machine

theorem State.updImg_img (s : State) (f : Image → M → Option Image × M) :
    (s.updImg f).img = (f s.inForce s.m).1.getD s.img := by
  unfold State.updImg
  split <;> next h => rw [h]; rfl

/-- The image after the last check of the boot. -/
theorem img_signatureVerify (key sig : Verdict) (agree entropy : Bool) (s : State) :
    (s.updImg fun im m => opSigVerify im key sig agree entropy m).img = s.img ∨
    s.m.boot.phase = .verify ∧
      SlotAccepted key sig agree s.m (s.updImg fun im m => opSigVerify im key sig agree entropy m).img := by
  rw [State.updImg_img]
  by_cases hp : s.m.boot.phase = .verify
  · rcases opSigVerify_cases s.inForce key sig agree entropy hp with ⟨h, -⟩ | ⟨new, hnew, ⟨h, -⟩ | ⟨h, -⟩⟩
    · exact .inl (by rw [h]; rfl)
    · exact .inr ⟨hp, by rw [h]; exact hnew⟩
    · exact .inl (by rw [h]; rfl)
  · left
    rw [opSigVerify, if_pos hp]
    rfl

/-- The image after entropy is healthy again. -/
theorem img_entropyHealthy (s : State) :
    (s.updImg fun im m => opEntropyHealthy im m).img = s.img ∨
    s.m.boot.phase = .wait5 ∧ s.m.boot.entropy = false ∧
      (s.updImg fun im m => opEntropyHealthy im m).img = bootImage s.m := by
  rw [State.updImg_img, opEntropyHealthy_fst]
  split
  · next h => exact .inr ⟨h.2, h.1, rfl⟩
  · exact .inl rfl

/-- Step 5 waits only for an accepted slot, and with its copy. -/
theorem waits_of_signatureVerify {key sig : Verdict} {agree entropy : Bool} {s : State} (hr : s.m.react = [])
    (hp : s.m.boot.phase = .verify)
    (hw : (s.updImg fun im m => opSigVerify im key sig agree entropy m).m.boot.phase = .wait5) :
    ∃ new, SlotAccepted key sig agree s.m new ∧
      (s.updImg fun im m => opSigVerify im key sig agree entropy m).m.boot.copy = s.m.boot.copy := by
  have hcases := opSigVerify_cases s.inForce key sig agree entropy hp
  unfold State.updImg at hw ⊢
  dsimp only at hw ⊢
  generalize opSigVerify s.inForce key sig agree entropy s.m = x at hcases hw ⊢
  obtain ⟨applied, m⟩ := x
  dsimp only at hcases
  rcases hcases with ⟨rfl, hm⟩ | ⟨new, hnew, ⟨rfl, hm⟩ | ⟨rfl, hcopy, hreact⟩⟩
  · exact absurd hw (settle_phase _ _ hm)
  · refine absurd hw (settle_phase _ _ ?_)
    rw [hm]
    decide
  · refine ⟨new, hnew, ?_⟩
    dsimp only
    rw [settle_calm _ _ (hreact.trans hr), hcopy]

/-- Settles O60: only two commands can apply an image; the last check of the boot applies one, or lets step 5 wait, when
everything it asks of the slot holds, and no reaction begins that wait. -/
theorem onlyVerifiedImages : Obligations.OnlyVerifiedImages := by
  refine ⟨fun s t h => ?_, fun s t key sig agree ent h hr hp hw => ?_⟩
  · rw [step] at h
    cases hq : s.pending with
    | nil =>
      rw [hq] at h
      cases h
      exact .inl rfl
    | cons c q =>
      rw [hq] at h
      by_cases hi : AppliesImage c
      · cases c
        case signatureVerifyComplete key sig agree ent =>
          cases h
          refine (img_signatureVerify key sig agree ent { s with pending := q }).imp_right fun ⟨hp, hacc⟩ => .inl ?_
          obtain ⟨rfl, hkey, hsig, himage⟩ := hacc
          exact ⟨key, sig, ent, q, rfl, hp, hkey, hsig, himage⟩
        case entropyHealthRestored =>
          cases h
          exact (img_entropyHealthy { s with pending := q }).imp_right fun h => .inr ⟨q, rfl, h⟩
        all_goals exact hi.elim
      · obtain ⟨t', he, -, -, -, himg⟩ := exec_next c { s with pending := q }
        cases h.symm.trans he
        exact .inl (himg hi)
  · cases h
    obtain ⟨new, ⟨hagree, hkey, hsig, himage⟩, hcopy⟩ := waits_of_signatureVerify hr hp hw
    refine ⟨hagree, hkey, hsig, ?_, hcopy⟩
    rw [bootImage, hcopy, imgStep4_zero himage]
    exact himage

end Machine

end Sys2Proof
end
